-- ==== Sys2Proof/Word.lean ====
section
/-! DEFINITION. The word types of Dorgus and total access to fixed-length vectors. -/

namespace Sys2Proof

/-- A byte of a ring entry, an image or a record (R2). -/
abbrev Byte := BitVec 8
/-- A register word, and a CLE value read as Q16.16 (R158). -/
abbrev Word := BitVec 32
/-- A 64-bit field of a descriptor, record or message. -/
abbrev DWord := BitVec 64
/-- A CLE general register number g0–g15 (R159). -/
abbrev Reg := BitVec 4
/-- A physical domain number D00–D79 (R8). -/
abbrev Dom := Fin 80
/-- A tile site ET00–ET63 (R8). -/
abbrev Site := Fin 64
/-- A physical cell number (R10). -/
abbrev CellNo := Fin 1024
/-- A host port P0–P7 (R13). -/
abbrev PortNo := Fin 8
/-- A signed 32-bit word from an integer already within range. -/
abbrev ofIntWord (x : Int) : Word := BitVec.ofInt 32 x

/-- The element at a position, `default` beyond the end. -/
def vget {α : Type} {n : Nat} [Inhabited α] (v : Vector α n) (i : Nat) : α :=
  if h : i < n then v[i] else default

/-- The vector with one element changed, unchanged when the position lies beyond the end. -/
def vupd {α : Type} {n : Nat} (v : Vector α n) (i : Nat) (f : α → α) : Vector α n :=
  if h : i < n then v.set i (f v[i]) else v

/-- The vector with one element replaced. -/
def vset {α : Type} {n : Nat} (v : Vector α n) (i : Nat) (a : α) : Vector α n :=
  vupd v i (fun _ => a)

/-- The vector with every element changed, each seeing its own position. -/
def vmapIdx {α β : Type} {n : Nat} (v : Vector α n) (f : Nat → α → β) : Vector β n :=
  Vector.ofFn (fun i => f i.val v[i])

end Sys2Proof
end

