-- ==== Sys2Proof/Syntax.lean ====
section
/-! DEFINITION. The commands: one constructor of `Instr` per row of spec/opcode_table.json, and the plain data they carry. -/

namespace Sys2Proof

/-- A command descriptor as Dorgus fetches it from a port's command ring (R315, Table 14-1), with the
port that issued it and the GTC `t` of its fetch. `flags` are bits [15:8] of bytes 0–3 (FENCE 0, GROUP 1,
GROUP_END 2, AT 3, NOTIFY 4, reserved 7:5); `ops` are bytes 16–55. -/
structure Desc where
  port   : PortNo
  t      : Nat
  opcode : Byte
  flags  : Byte
  tag    : BitVec 16
  dom    : Byte
  sub    : Byte
  rsv    : BitVec 16
  atGtc  : DWord
  ops    : Vector Byte 40
  hseq   : Word
  crc    : Word
deriving DecidableEq, Repr, Inhabited

/-- Who makes a register access: the owner through the setup window, or the MC through its own path (R415). -/
inductive Path where
  | owner
  | mc
deriving DecidableEq, Repr, Inhabited

/-- The contents of a characterisation record as the MC delivers them (R9, R368). The record's byte format
is not in the manual; `siteMap` is its logical map, LT00 first. -/
structure CharRecord where
  siteMap  : List Site
  vf       : Vector (Vector (Nat × Nat) 8) 64
  maxCode  : Vector Nat 64
  leak     : Vector (List Word) 80
  inrush   : Vector Nat 80
  alpha    : Vector (BitVec 16) 80
  rll      : Vector Word 80
  nominal  : Vector (BitVec 10) 80
  ctrim    : Vector (BitVec 6) 1024
  rChar    : Vector Nat 1024
  sensOff  : Vector Int 320
  cIss     : Nat
  cMat     : Nat
  mtrOfs   : Vector (BitVec 24) 16
  mtrGain  : Vector (BitVec 24) 16
  iocLimit : Vector (BitVec 16) 5
  serial   : BitVec 128
deriving DecidableEq, Repr, Inhabited

/-- A system meter calibration recorded in stratum S1 (R281, Table 16-9 type 0x0101). -/
structure SysCal where
  ch   : Fin 16
  ofs  : BitVec 24
  gain : BitVec 24
deriving DecidableEq, Repr, Inhabited

/-- A suspend instruction of the NOR device with the instruction that resumes, and the suspend latency in µs (R57, R58). -/
structure NorSuspend where
  suspend : Byte
  resume  : Byte
  us      : Nat
deriving DecidableEq, Repr, Inhabited

/-- What the SFDP table of the NOR device declares (R57, R58): JESD216 revision B or later, capacity in bytes, page size, the erase types as size in
bytes and 3-byte-address instruction, the highest 1-4-4 read clock in MHz, page program time in µs, whether there are 4-byte instructions, the code of
the quad-enable method, and the suspension of erases and of page programs. -/
structure Sfdp where
  revB    : Bool
  bytes   : Nat
  page    : Nat
  erases  : List (Nat × Byte)
  readMHz : Nat
  progUs  : Nat
  instr4  : Bool
  quad    : BitVec 3
  esusp   : Option NorSuspend
  psusp   : Option NorSuspend
deriving DecidableEq, Repr, Inhabited

/-- What a completed NOR bring-up finds (R57–R59, R388): the SFDP table, none where its read failed, and the contents of the device's strata as
byte addresses of record slots with their bytes; a slot that is not listed is erased. -/
structure NorInfo where
  sfdp  : Option Sfdp
  image : List (Nat × List Byte)
deriving DecidableEq, Repr, Inhabited

/-- Stratum S0 as it was read: its two copies of the characterisation record, none where the signature or the CRC of a copy fails (R348, R368). -/
structure S0Read where
  copy1 : Option CharRecord
  copy2 : Option CharRecord
deriving DecidableEq, Repr, Inhabited

/-- What a station measures for a frame latch: the lowest sense-point voltage, LSB 1/32 mV (R16), and the cell energy of
the frame that ends, in pJ, from the domain's accumulator (R239). -/
structure SenseSample where
  dom   : Dom
  vmeas : BitVec 16
  energy : Nat
deriving DecidableEq, Repr, Inhabited

/-- What the samplers of a domain's station measured over an epoch (R81, R108): the sense samples by their number j in the epoch, each the
lowest of the sense points, LSB 1/32 mV; the mean current; and the cell energy of the epoch in nJ. -/
structure EpochMeas where
  dom    : Dom
  samples : List (Fin 800 × BitVec 16)
  imean  : BitVec 16
  energy : Nat
deriving DecidableEq, Repr, Inhabited

/-- What an upset strikes in lane B: a general register, a buffered state-word write, newest first, or an output value (R168). -/
inductive UpsetAt where
  | greg (r : Reg)
  | buffered (i : Nat)
  | out (p : Fin 4)
deriving DecidableEq, Repr, Inhabited

/-- An upset of lane B inside a slot: before the instruction executed in slot cycle `cycle`, or before the final comparison, what `at_`
names is changed by `flip` (R168). -/
structure Upset where
  cycle : Nat
  at_   : UpsetAt
  flip  : Word
deriving DecidableEq, Repr, Inhabited

/-- A store error met by a slot (R173): a corrected single-bit error stalls the slot by 2 cycles. -/
inductive StoreErr where
  | corrProg   (addr : BitVec 14)
  | corrState  (addr : BitVec 14)
  | uncProg    (addr : BitVec 14)
  | uncState   (addr : BitVec 14)
deriving DecidableEq, Repr, Inhabited

/-- What befalls an inference (R191, R200): one of the two copies of a normalised feature or of a requantised output is flipped, an
accumulator or the checksum pass of a layer takes an error, or the array does not end the inference in time. -/
inductive InfUpset where
  | feature (i : Fin 48) (flip : Byte)
  | acc (layer : Fin 3) (ch : Fin 64) (err : Word)
  | sumRow (layer : Fin 3) (err : Word)
  | requant (layer : Fin 3) (ch : Fin 64) (flip : BitVec 16)
  | incomplete
deriving DecidableEq, Repr, Inhabited

/-- An upset of the inference of a physical domain. -/
structure InfFault where
  dom : Dom
  at_ : InfUpset
deriving DecidableEq, Repr, Inhabited

/-- A hint as the tile interface carries it (Table 02-2) or as HINT_PHASE enters it (R336). -/
structure Hint where
  cls  : BitVec 4
  eta  : BitVec 12
  inten : BitVec 8
  dur  : BitVec 16
deriving DecidableEq, Repr, Inhabited

/-- Two samples of the GTC, one after the other (R36). -/
structure GtcPair where
  prev : Nat
  next : Nat
deriving DecidableEq, Repr, Inhabited

/-- The result of a PMBus transaction (R54). -/
inductive BusRes where
  | ok (word : BitVec 16)
  | bad   -- PEC mismatch or address NACK
deriving DecidableEq, Repr, Inhabited

/-- The four polled quantities of Table 02-8. -/
inductive PollKind where
  | vout | vin | iout | temp
deriving DecidableEq, Repr, Inhabited

/-- What a bulk fetch delivered (R65): the bytes, or a fabric error. -/
inductive Bulk where
  | bytes (b : List Byte)
  | fabricError
deriving DecidableEq, Repr, Inhabited

/-- What the load of the MC image met (R367): a fabric error, or the header bytes 0–63 with the verdict of
the ECDSA P-384 check. -/
inductive FwImage where
  | fabricError
  | image (hdr : List Byte) (sigOk : Bool)
deriving DecidableEq, Repr, Inhabited

/-- One sensor's conversion (R243, R244): what the converter reads in 1/16 °C, before the sensor's offset, or an error code. -/
inductive Conv where
  | reading (r : Int)
  | error
deriving DecidableEq, Repr, Inhabited

/-- The clocks that Dorgus monitors (Table 15-3), in the order of their instances 0x00–0x06. -/
inductive MonClock where
  | xa | cclk | sclk | mclk | hclk | fosc | xb
deriving DecidableEq, Repr, Inhabited

/-- The PLLs (Table 15-1). -/
inductive PllId where
  | c | t | m
deriving DecidableEq, Repr, Inhabited

/-- The two clock muxes (R355). -/
inductive MuxId where
  | cclk | sclk
deriving DecidableEq, Repr, Inhabited

/-- The droop levels of R132. -/
inductive Level where
  | dt1 | dt2 | dt3 | floor
deriving DecidableEq, Repr, Inhabited

/-- What the background scrub or an access finds in a protected store (R173, R383, Table 16-5). -/
inductive ScrubHit where
  | clean
  | progCorr   (addr : BitVec 14)
  | progUnc    (prog : Fin 32) (addr : BitVec 14)
  | stateCorr  (addr : BitVec 14)
  | hubCorr    (addr : Word)
  | hubUnc     (dom : Dom) (addr : Word)
  | recordUnc  (epoch : Word)
  | recordCorr (addr : Word)
  | atCorr     (addr : Word)
  | atUnc      (port : PortNo) (tag : BitVec 16)
  | stationPar (dom : Dom)
  | modelCorr  (slot : Fin 8) (addr : Word)
  | modelUnc   (slot : Fin 8) (addr : Word)
  | rcParity   (dom : Dom) (bin : BitVec 12)
deriving DecidableEq, Repr, Inhabited

/-- The outcome of a self-test (R410, Table 17-6): pass or fail with the detail bytes 24–31 of its TEST event. -/
structure TestResult where
  pass   : Bool
  detail : DWord
deriving DecidableEq, Repr, Inhabited

/-- The unit a self-test exercises, with its instance (Table 14-13); lane rotation tests count as unit 0 (R170). -/
inductive TestUnit where
  | lane (l : Fin 17)
  | lantern
  | station (d : Dom)
  | sensor (s : Fin 320)
  | meter
deriving DecidableEq, Repr, Inhabited

/-- Raw results of a calibration's conversions on one channel (R280): the modulator result with the input
shorted or applied (`rawZ`), and with the reference applied (`rawR`, self-calibration only). -/
structure CalRaw where
  ch   : Fin 16
  rawZ : Int
  rawR : Int
deriving DecidableEq, Repr, Inhabited

/-- The rings of a port (Table 13-2). -/
inductive RingId where
  | cq | cpl | evq | trq
deriving DecidableEq, Repr, Inhabited

/-- What a link frame brings: the sender's own bits, or bits that differ from them or may differ (R37, R39). -/
inductive LinkRx (n : Nat) where
  | intact
  | received (bits : BitVec n)
deriving DecidableEq, Repr, Inhabited

/-- The 207 commands of the table of operations and events, in its order. -/
inductive Instr where
  -- host commands: a descriptor fetched from a command ring
  | nop (d : Desc)
  | domState (d : Desc)
  | domTarget (d : Desc)
  | domFreq (d : Desc)
  | domLimits (d : Desc)
  | domPair (d : Desc)
  | domUnpair (d : Desc)
  | domCellmap (d : Desc)
  | budgetSet (d : Desc)
  | budgetCap (d : Desc)
  | jobAlign (d : Desc)
  | lendPolicy (d : Desc)
  | hintPhase (d : Desc)
  | stepMark (d : Desc)
  | watchArm (d : Desc)
  | watchCancel (d : Desc)
  | loadProgram (d : Desc)
  | bindProgram (d : Desc)
  | loadModel (d : Desc)
  | bindModel (d : Desc)
  | rcConfig (d : Desc)
  | rcReset (d : Desc)
  | traceConfig (d : Desc)
  | snapshot (d : Desc)
  | sieveStart (d : Desc)
  | sieveStop (d : Desc)
  | selftest (d : Desc)
  | logRead (d : Desc)
  | logMark (d : Desc)
  | rightsSet (d : Desc)
  | portQuiesce (d : Desc)
  | charLoad (d : Desc)
  -- CLE instructions (Table 07-7), executed by the lane pair of the slot in progress
  | cleNop
  | cleEnd
  | rep (m1 : BitVec 4) (k1 : BitVec 6)
  | skipif (a b : Reg) (cond : BitVec 3) (n : BitVec 3)
  | sel (d a b : Reg) (cond : BitVec 3) (c : Reg)
  | ldi (d : Reg) (imm : BitVec 14)
  | ldiq (d : Reg) (imm : BitVec 14)
  | ldc (d : Reg) (idx : BitVec 8)
  | mov (d a : Reg)
  | lds (d : Reg) (idx : BitVec 6)
  | sts (a : Reg) (idx : BitVec 6)
  | ldsx (d b : Reg) (idx : BitVec 6)
  | stsx (a b : Reg) (idx : BitVec 6)
  | cleIn (d : Reg) (port : BitVec 4)
  | cleOut (a : Reg) (port : BitVec 4)
  | add (d a b : Reg)
  | sub (d a b : Reg)
  | addi (d a : Reg) (imm : BitVec 14)
  | addiq (d a : Reg) (imm : BitVec 14)
  | neg (d a : Reg)
  | abs (d a : Reg)
  | min (d a b : Reg)
  | max (d a b : Reg)
  | clamp (d a b : Reg)
  | mul (d a b : Reg)
  | mac (d a b : Reg)
  | msu (d a b : Reg)
  | shl (d a : Reg) (n : BitVec 5)
  | shr (d a : Reg) (n : BitVec 5)
  | and (d a b : Reg)
  | or (d a b : Reg)
  | xor (d a b : Reg)
  -- target-port accesses with a row of their own
  | dbCqTail (p : PortNo) (val : Word) (t : Nat)
  | dbCplHead (p : PortNo) (val : Word) (t : Nat)
  | dbEvqHead (p : PortNo) (val : Word) (t : Nat)
  | dbTrqHead (p : PortNo) (val : Word) (t : Nat)
  | irqClaim (tgt : Fin 9) (t : Nat)
  | irqDone (tgt : Fin 9) (val : Word) (t : Nat)
  | portReset (p : PortNo) (val : Word) (t : Nat)
  | ringEn (p : PortNo) (val : Word) (t : Nat)
  | portDisable (p : PortNo) (val : Word) (t : Nat)
  | intSwset (k : Fin 8) (val : Word) (t : Nat)
  | badAccess (page : Option PortNo) (offset : BitVec 17) (write : Bool) (t : Nat)
  | cseqLoRead (path : Path) (t : Nat)
  | gtcLoRead (path : Path) (t : Nat)
  | fltLastLoRead (path : Path) (t : Nat)
  | controlReset (val : Word) (t : Nat)
  | controlResetDone (t : Nat)
  | mcReset (val : Word) (t : Nat)
  | mtrGo (val : Word) (t : Nat)
  | calSystemZero (val : Word) (t : Nat)
  | calSystemFullScale (val : Word) (t : Nat)
  | calSelf (val : Word) (t : Nat)
  | calSelfAll (val : Word) (t : Nat)
  | calibrationDone (res : List CalRaw) (t : Nat)
  | fmcGo (val : Word) (t : Nat)
  | fmcDone (count : Nat) (t : Nat)
  | fwGo (val : Word) (t : Nat)
  | fwLoadDone (img : FwImage) (t : Nat)
  | charRecordInstall (copy1 copy2 : Option CharRecord) (cals : List SysCal) (t : Nat)
  | pwrmodeRun (val : Word) (t : Nat)
  | pwrmodeSleep (val : Word) (t : Nat)
  | pwrmodeDeep (val : Word) (t : Nat)
  | pwrmodeTransitionDone (t : Nat)
  | clkSrcSwitch (val : Word) (t : Nat)
  | muxSwitchDone (mux : MuxId) (oldStopped : Bool) (t : Nat)
  | pllCfgWrite (pll : PllId) (val : Word) (t : Nat)
  | pllLock (pll : PllId) (t : Nat)
  | pllUnlock (pll : PllId) (t : Nat)
  | safeModeWrite (val : Word) (t : Nat)
  | fltCfgClr (val : Word) (t : Nat)
  | wdtKick (val : Word) (t : Nat)
  | gmodeWrite (val : Word) (t : Nat)
  | thLimitWrite (off : BitVec 17) (val : Word) (t : Nat)
  | pmbCfgWrite (val : Word) (t : Nat)
  | pmbAddrWrite (i : Fin 5) (val : Word) (t : Nat)
  | registerWrite (off : BitVec 17) (val : Word) (path : Path) (t : Nat)
  -- pins, resets and buses
  | porAssert (t : Nat)
  | porRelease (nor : NorInfo) (t : Nat)
  | pfail (t : Nat)
  | lastBreathDone (t : Nat)
  | stage1Alert (t : Nat)
  | pmbusTransactionDone (res : BusRes) (t : Nat)
  | pmbusPoll (kind : PollKind) (conv : Fin 5) (t : Nat)
  | pmbusStretchTimeout (t : Nat)
  | pmbusRetry (t : Nat)
  | avsResponse (good : Bool) (t : Nat)
  | mainsSyncEdge (mclks : Nat) (t : Nat)
  | syncLost (t : Nat)
  | gtcDiscontinuity (g : GtcPair) (vldFell : Bool)
  | shutterStart (t : Nat)
  -- the control timeline
  | frameLatch (n : Nat) (sense : List SenseSample)
  | frameStart (n : Nat)
  | cleSlot (n : Nat) (pos : Fin 16) (slot : Fin 5) (upsets : List Upset) (errs : List StoreErr)
  | overrunHeld (d : Dom) (t : Nat)
  | lanternInterval (m : Nat) (faults : List InfFault)
  | lanternWindowEnd (w : Nat)
  | rcBinEnd (d : Dom) (t : Nat)
  | shutter (k : Nat) (meas : List EpochMeas)
  | regrant (p : Nat)
  | traceChunkHandoff (p : PortNo) (k : Nat) (t : Nat)
  | completionPost (p : PortNo) (t : Nat)
  | bulkFetchDone (p : PortNo) (tag : BitVec 16) (data : Bulk) (t : Nat)
  | writeAck (t : Nat)
  | fabricError (p : PortNo) (ring : RingId) (idx : BitVec 17) (t : Nat)
  | groupTimeout (p : PortNo) (t : Nat)
  | faultMessage (t : Nat)
  | linkUpFrame (d : Fin 5) (rx : LinkRx 3200) (t : Nat)
  | linkDownFrame (d : Fin 5) (rx : LinkRx 1600) (t : Nat)
  | linkLost (d : Fin 5) (t : Nat)
  | linkTrained (d : Fin 5) (ok : Bool) (lat : Nat) (t : Nat)
  | linkRestored (d : Fin 5) (t : Nat)
  | tileWait (s : Site) (t : Nat)
  | tileWake (s : Site) (t : Nat)
  | actSample (s : Site) (counts : Vector (BitVec 16) 8) (t : Nat)
  | tileHint (s : Site) (h : Hint) (vld : Bool) (t : Nat)
  | tileStepMark (s : Site) (t : Nat)
  | freqRdy (s : Site) (t : Nat)
  | freqAck (s : Site) (t : Nat)
  | freqWithdraw (s : Site) (t : Nat)
  -- cells, stations and droop
  | cellReport (c : CellNo) (word : Word) (t : Nat)
  | cellAutonomousHold (c : CellNo) (t : Nat)
  | cellOverload (c : CellNo) (t : Nat)
  | cellFail (c : CellNo) (t : Nat)
  | isolationCheck (d : Dom) (k : Fin 14) (t : Nat)
  | derateThrottle (d : Dom) (t : Nat)
  | cellPark (d : Dom) (t : Nat)
  | warmHoldExpire (c : CellNo) (t : Nat)
  | crackWindowEnd (d : Dom) (t : Nat)
  | ovCrossing (d : Dom) (t : Nat)
  | dt1Crossing (d : Dom) (vlow : BitVec 16) (t : Nat)
  | dt2Crossing (d : Dom) (vlow : BitVec 16) (t : Nat)
  | dt3Crossing (d : Dom) (vlow : BitVec 16) (t : Nat)
  | floorCrossing (d : Dom) (vlow : BitVec 16) (t : Nat)
  | crossingRecovery (d : Dom) (lv : Level) (t : Nat)
  | glintEnd (d : Dom) (t : Nat)
  | dt3End (d : Dom) (t : Nat)
  | flareConductionEnd (d : Dom) (t : Nat)
  | flareRecharged (d : Dom) (t : Nat)
  | flareCheck (d : Dom) (bankMv : BitVec 12) (low : Bool) (t : Nat)
  | softStartEnd (d : Dom) (t : Nat)
  | short (d : Dom) (t : Nat)
  | shortRetry (d : Dom) (t : Nat)
  | neighbourArmEnd (d : Dom) (t : Nat)
  | dischargeTimeout (d : Dom) (t : Nat)
  | plaus (d : Dom) (t : Nat)
  | follow (d : Dom) (t : Nat)
  | freqDeferTimeout (s : Site) (t : Nat)
  | scrub (hit : ScrubHit) (t : Nat)
  | selftestDone (u : TestUnit) (res : TestResult) (t : Nat)
  -- thermal
  | thermalSampleStart (t : Nat)
  | thermalSampleComplete (convs : Vector Conv 320) (t : Nat)
  | tripConfirm (s : Fin 320) (conv : Conv) (t : Nat)
  | fastSamplingEnd (t : Nat)
  | hotHoldEnd (d : Dom) (t : Nat)
  | dieSilent (d : Fin 5) (t : Nat)
  | thermalRestart (t : Nat)
  -- meter, clocks, safety and strata
  | meterSettleEnd (t : Nat)
  | meterWindowEnd (pos neg : Nat) (t : Nat)
  | clockMonitorFault (c : MonClock) (t : Nat)
  | wdtTimeout (t : Nat)
  | wdtFailsClear (t : Nat)
  | heartbeatToggle (t : Nat)
  | safePulseEnd (t : Nat)
  | holdoffExpire (tgt : Fin 9) (g : Fin 16) (t : Nat)
  | strataWriteDone (ok : Bool) (t : Nat)
  | clockReturn (c : MonClock) (t : Nat)
  | gtcVldRise (t : Nat)
  | pfailNRise (t : Nat)
  | pmbAlertRelease (t : Nat)
  | overloadTimerClear (c : CellNo) (t : Nat)
  | mcStart (t : Nat)
  | norReadDone (p : PortNo) (records : List (Nat × List Byte)) (rec : S0Read) (t : Nat)
  | eventPost (p : PortNo) (t : Nat)
  | lifetimeCountersRecord (payload : List Byte) (t : Nat)
deriving DecidableEq, Repr, Inhabited

end Sys2Proof
end

