-- ==== Sys2Proof/WellFormed.lean ====
section
/-! DEFINITION. Which commands are well formed: fields that Table 07-7 admits, descriptors that belong to their row, and register writes whose offset and value belong to theirs. -/

namespace Sys2Proof

/-- The opcodes of Table 14-6. -/
def opcodeList : List Nat :=
  [0x01, 0x10, 0x11, 0x12, 0x13, 0x14, 0x15, 0x16, 0x20, 0x21, 0x22, 0x23, 0x30, 0x31, 0x40, 0x41] ++
  [0x50, 0x51, 0x52, 0x53, 0x54, 0x55, 0x60, 0x61, 0x70, 0x71, 0x72, 0x80, 0x81, 0x90, 0x91, 0xA0]

/-- A descriptor belongs to a row when it carries the row's opcode, or one that Table 14-6 does not define:
such a descriptor meets step 3 of Table 14-2 whatever row brings it. -/
def Desc.fits (d : Desc) (op : Nat) : Bool := d.opcode.toNat == op || !opcodeList.contains d.opcode.toNat

/-- `IN` ports 0–12 (Table 07-10 reason 0x06). -/
def inPortOk (p : BitVec 4) : Bool := decide (p.toNat ≤ 12)

/-- `OUT` ports 0–3 (Table 07-10 reason 0x06). -/
def outPortOk (p : BitVec 4) : Bool := decide (p.toNat ≤ 3)

/-- Shift counts 1–31 (Table 07-10 reason 0x08). -/
def shiftOk (n : BitVec 5) : Bool := n != 0

/-- Condition codes 0b000–0b101 (Table 07-8). -/
def condOk (c : BitVec 3) : Bool := decide (c.toNat ≤ 5)

/-- `SKIPIF` counts 1–7 (Table 07-10 reason 0x09). -/
def skipOk (n : BitVec 3) : Bool := n != 0

/-- The offsets of the thermal registers that `TH_LIMIT_WRITE` covers (Tables 11-7 to 11-13). -/
def thLimitOffsets : List Nat := [0x1400, 0x1404, 0x1408, 0x140C, 0x1410, 0x1414, 0x1418]

/-- The offsets of the setup window whose writes have a row of their own. -/
def setupRowOffset (o : Nat) : Bool :=
  [0x000C, 0x0014, 0x0C00, 0x0C0C, 0x0C10, 0x0C14, 0x0D00, 0x0E40].contains o || decide (0x0820 ≤ o ∧ o < 0x0840) ||
  decide (0x0E44 ≤ o ∧ o < 0x0E58) || thLimitOffsets.contains o

/-- The offsets of a port page whose writes have a row of their own. -/
def pageRowOffset (o : Nat) : Bool := decide (o < 0x010) || [0x014, 0x018, 0x080].contains o

/-- The offsets of `REGISTER_WRITE`: every aligned offset of the setup window (Table 18-1) and of the port pages (Table 18-2, at
0x0001_0000 + 0x1000·n) whose write has no row of its own, read-only registers and unnamed offsets included (R30). -/
def registerWriteOffset (o : Nat) : Bool :=
  o % 4 == 0 &&
  (if o < 0x10000 then !setupRowOffset o else decide (o < 0x18000) && !pageRowOffset (o % 0x1000))

/-- A characterisation record's map names present sites once each, in one of the grades of Table 00-6 (R9). -/
def CharRecord.mapOk (c : CharRecord) : Bool :=
  decide (c.siteMap.Nodup) && [16, 32, 48, 64].contains c.siteMap.length

/-- The records that a row carries have well-formed maps. -/
def optMapOk : Option CharRecord → Bool
  | none => true
  | some c => c.mapOk

/-- Whether a command is well formed. -/
def Instr.wf : Instr → Bool
  | .nop d => d.fits 0x01
  | .domState d => d.fits 0x10
  | .domTarget d => d.fits 0x11
  | .domFreq d => d.fits 0x12
  | .domLimits d => d.fits 0x13
  | .domPair d => d.fits 0x14
  | .domUnpair d => d.fits 0x15
  | .domCellmap d => d.fits 0x16
  | .budgetSet d => d.fits 0x20
  | .budgetCap d => d.fits 0x21
  | .jobAlign d => d.fits 0x22
  | .lendPolicy d => d.fits 0x23
  | .hintPhase d => d.fits 0x30
  | .stepMark d => d.fits 0x31
  | .watchArm d => d.fits 0x40
  | .watchCancel d => d.fits 0x41
  | .loadProgram d => d.fits 0x50
  | .bindProgram d => d.fits 0x51
  | .loadModel d => d.fits 0x52
  | .bindModel d => d.fits 0x53
  | .rcConfig d => d.fits 0x54
  | .rcReset d => d.fits 0x55
  | .traceConfig d => d.fits 0x60
  | .snapshot d => d.fits 0x61
  | .sieveStart d => d.fits 0x70
  | .sieveStop d => d.fits 0x71
  | .selftest d => d.fits 0x72
  | .logRead d => d.fits 0x80
  | .logMark d => d.fits 0x81
  | .rightsSet d => d.fits 0x90
  | .portQuiesce d => d.fits 0x91
  | .charLoad d => d.fits 0xA0
  | .skipif _ _ cond n => condOk cond && skipOk n
  | .sel _ _ _ cond _ => condOk cond
  | .cleIn _ port => inPortOk port
  | .cleOut _ port => outPortOk port
  | .shl _ _ n => shiftOk n
  | .shr _ _ n => shiftOk n
  | .cleNop | .cleEnd | .rep .. | .ldi .. | .ldiq .. | .ldc .. | .mov .. | .lds .. | .sts .. | .ldsx .. | .stsx ..
  | .add .. | .sub .. | .addi .. | .addiq .. | .neg .. | .abs .. | .min .. | .max .. | .clamp .. | .mul .. | .mac ..
  | .msu .. | .and .. | .or .. | .xor .. => true
  | .calSystemZero val _ => val.extractLsb' 4 4 == 1#4
  | .calSystemFullScale val _ => val.extractLsb' 4 4 == 2#4
  | .calSelf val _ => val.extractLsb' 4 4 == 4#4
  | .calSelfAll val _ => val.extractLsb' 4 4 == 5#4
  | .pwrmodeRun val _ => val.extractLsb' 0 2 == 0#2
  | .pwrmodeSleep val _ => val.extractLsb' 0 2 == 1#2
  | .pwrmodeDeep val _ => val.extractLsb' 0 2 == 2#2
  | .portDisable _ val _ => !val.getLsbD 0
  | .thLimitWrite off _ _ => thLimitOffsets.contains off.toNat
  | .registerWrite off _ _ _ => registerWriteOffset off.toNat
  | .charRecordInstall c1 c2 _ _ => optMapOk c1 && optMapOk c2
  | .norReadDone _ _ r _ => optMapOk r.copy1 && optMapOk r.copy2
  | .dbCqTail .. | .dbCplHead .. | .dbEvqHead .. | .dbTrqHead .. | .irqClaim .. | .irqDone .. | .portReset ..
  | .ringEn .. | .intSwset .. | .badAccess .. | .cseqLoRead .. | .gtcLoRead .. | .fltLastLoRead ..
  | .controlReset .. | .controlResetDone .. | .mcReset .. | .mtrGo .. | .calibrationDone .. | .fmcGo .. | .fmcDone ..
  | .fwGo .. | .fwLoadDone .. | .pwrmodeTransitionDone .. | .clkSrcSwitch .. | .muxSwitchDone .. | .pllCfgWrite ..
  | .pllLock .. | .pllUnlock .. | .safeModeWrite .. | .fltCfgClr .. | .wdtKick .. | .gmodeWrite .. | .pmbCfgWrite ..
  | .pmbAddrWrite .. | .porAssert .. | .porRelease .. | .pfail .. | .lastBreathDone .. | .stage1Alert ..
  | .pmbusTransactionDone .. | .pmbusPoll .. | .pmbusStretchTimeout .. | .pmbusRetry .. | .avsResponse ..
  | .mainsSyncEdge .. | .syncLost .. | .gtcDiscontinuity .. | .shutterStart .. | .frameLatch .. | .frameStart ..
  | .cleSlot .. | .overrunHeld .. | .lanternInterval .. | .lanternWindowEnd .. | .rcBinEnd .. | .shutter ..
  | .regrant .. | .traceChunkHandoff .. | .completionPost .. | .bulkFetchDone .. | .writeAck .. | .fabricError ..
  | .groupTimeout .. | .faultMessage .. | .linkUpFrame .. | .linkDownFrame .. | .linkLost .. | .linkTrained ..
  | .linkRestored .. | .tileWait .. | .tileWake .. | .actSample .. | .tileHint .. | .tileStepMark .. | .freqRdy ..
  | .freqAck .. | .freqWithdraw .. | .cellReport .. | .cellAutonomousHold .. | .cellOverload .. | .cellFail ..
  | .isolationCheck .. | .derateThrottle .. | .cellPark .. | .warmHoldExpire .. | .crackWindowEnd .. | .ovCrossing ..
  | .dt1Crossing .. | .dt2Crossing .. | .dt3Crossing .. | .floorCrossing .. | .crossingRecovery .. | .glintEnd ..
  | .dt3End .. | .flareConductionEnd .. | .flareRecharged .. | .flareCheck .. | .softStartEnd .. | .short ..
  | .shortRetry .. | .neighbourArmEnd .. | .dischargeTimeout .. | .plaus .. | .follow .. | .freqDeferTimeout ..
  | .scrub .. | .selftestDone .. | .thermalSampleStart .. | .thermalSampleComplete .. | .tripConfirm ..
  | .fastSamplingEnd .. | .hotHoldEnd .. | .dieSilent .. | .thermalRestart .. | .meterSettleEnd ..
  | .meterWindowEnd .. | .clockMonitorFault .. | .wdtTimeout .. | .wdtFailsClear .. | .heartbeatToggle ..
  | .safePulseEnd .. | .holdoffExpire .. | .strataWriteDone .. | .clockReturn .. | .gtcVldRise .. | .pfailNRise ..
  | .pmbAlertRelease .. | .overloadTimerClear .. | .mcStart .. | .eventPost .. | .lifetimeCountersRecord .. => true

end Sys2Proof
end

