-- ==== Sys2Proof/Decode.lean ====
section
/-! DEFINITION. The CLE instruction words of Table 07-7: encoder, decoder, and the decoder over the table's rows. -/

namespace Sys2Proof

/-- An instruction word from its fields: opcode [31:26], d [25:22], a [21:18], b [17:14], imm [13:0] (R159). -/
def cleWord (op : BitVec 6) (d a b : BitVec 4) (imm : BitVec 14) : Word :=
  (op ++ d ++ a ++ b ++ imm : BitVec 32)

/-- Opcode field of a word. -/
def wordOp (w : Word) : BitVec 6 := w.extractLsb' 26 6
/-- Field d of a word. -/
def wordD (w : Word) : BitVec 4 := w.extractLsb' 22 4
/-- Field a of a word. -/
def wordA (w : Word) : BitVec 4 := w.extractLsb' 18 4
/-- Field b of a word. -/
def wordB (w : Word) : BitVec 4 := w.extractLsb' 14 4
/-- Field imm of a word. -/
def wordImm (w : Word) : BitVec 14 := w.extractLsb' 0 14

/-- The word of a CLE instruction (Table 07-7), every unused field 0; none for a command that is no CLE instruction. -/
def encodeCle : Instr → Option Word
  | .cleNop => some (cleWord 0x01 0 0 0 0)
  | .cleEnd => some (cleWord 0x02 0 0 0 0)
  | .rep m1 k1 => some (cleWord 0x03 0 0 0 (m1 ++ 0#4 ++ k1 : BitVec 14))
  | .skipif a b cond n => some (cleWord 0x04 0 a b (cond ++ 0#8 ++ n : BitVec 14))
  | .sel d a b cond c => some (cleWord 0x05 d a b (cond ++ 0#7 ++ c : BitVec 14))
  | .ldi d imm => some (cleWord 0x08 d 0 0 imm)
  | .ldiq d imm => some (cleWord 0x09 d 0 0 imm)
  | .ldc d idx => some (cleWord 0x0A d 0 0 (0#6 ++ idx : BitVec 14))
  | .mov d a => some (cleWord 0x0B d a 0 0)
  | .lds d idx => some (cleWord 0x0C d 0 0 (0#8 ++ idx : BitVec 14))
  | .sts a idx => some (cleWord 0x0D 0 a 0 (0#8 ++ idx : BitVec 14))
  | .ldsx d b idx => some (cleWord 0x0E d 0 b (0#8 ++ idx : BitVec 14))
  | .stsx a b idx => some (cleWord 0x0F 0 a b (0#8 ++ idx : BitVec 14))
  | .cleIn d port => some (cleWord 0x10 d 0 0 (0#10 ++ port : BitVec 14))
  | .cleOut a port => some (cleWord 0x11 0 a 0 (0#10 ++ port : BitVec 14))
  | .add d a b => some (cleWord 0x18 d a b 0)
  | .sub d a b => some (cleWord 0x19 d a b 0)
  | .addi d a imm => some (cleWord 0x1A d a 0 imm)
  | .addiq d a imm => some (cleWord 0x1B d a 0 imm)
  | .neg d a => some (cleWord 0x1C d a 0 0)
  | .abs d a => some (cleWord 0x1D d a 0 0)
  | .min d a b => some (cleWord 0x1E d a b 0)
  | .max d a b => some (cleWord 0x1F d a b 0)
  | .clamp d a b => some (cleWord 0x20 d a b 0)
  | .mul d a b => some (cleWord 0x21 d a b 0)
  | .mac d a b => some (cleWord 0x22 d a b 0)
  | .msu d a b => some (cleWord 0x23 d a b 0)
  | .shl d a n => some (cleWord 0x28 d a 0 (0#9 ++ n : BitVec 14))
  | .shr d a n => some (cleWord 0x29 d a 0 (0#9 ++ n : BitVec 14))
  | .and d a b => some (cleWord 0x2A d a b 0)
  | .or d a b => some (cleWord 0x2B d a b 0)
  | .xor d a b => some (cleWord 0x2C d a b 0)
  | _ => none

/-- The instruction that the opcode and the used fields of a word spell, whatever its unused fields hold; none for
an opcode that Table 07-7 does not list (R159). -/
def rawCle (w : Word) : Option Instr :=
  let d := wordD w
  let a := wordA w
  let b := wordB w
  let imm := wordImm w
  match (wordOp w).toNat with
  | 0x01 => some .cleNop
  | 0x02 => some .cleEnd
  | 0x03 => some (.rep (imm.extractLsb' 10 4) (imm.extractLsb' 0 6))
  | 0x04 => some (.skipif a b (imm.extractLsb' 11 3) (imm.extractLsb' 0 3))
  | 0x05 => some (.sel d a b (imm.extractLsb' 11 3) (imm.extractLsb' 0 4))
  | 0x08 => some (.ldi d imm)
  | 0x09 => some (.ldiq d imm)
  | 0x0A => some (.ldc d (imm.extractLsb' 0 8))
  | 0x0B => some (.mov d a)
  | 0x0C => some (.lds d (imm.extractLsb' 0 6))
  | 0x0D => some (.sts a (imm.extractLsb' 0 6))
  | 0x0E => some (.ldsx d b (imm.extractLsb' 0 6))
  | 0x0F => some (.stsx a b (imm.extractLsb' 0 6))
  | 0x10 => some (.cleIn d (imm.extractLsb' 0 4))
  | 0x11 => some (.cleOut a (imm.extractLsb' 0 4))
  | 0x18 => some (.add d a b)
  | 0x19 => some (.sub d a b)
  | 0x1A => some (.addi d a imm)
  | 0x1B => some (.addiq d a imm)
  | 0x1C => some (.neg d a)
  | 0x1D => some (.abs d a)
  | 0x1E => some (.min d a b)
  | 0x1F => some (.max d a b)
  | 0x20 => some (.clamp d a b)
  | 0x21 => some (.mul d a b)
  | 0x22 => some (.mac d a b)
  | 0x23 => some (.msu d a b)
  | 0x28 => some (.shl d a (imm.extractLsb' 0 5))
  | 0x29 => some (.shr d a (imm.extractLsb' 0 5))
  | 0x2A => some (.and d a b)
  | 0x2B => some (.or d a b)
  | 0x2C => some (.xor d a b)
  | _ => none

/-- Whether every field that Table 07-7 does not list for the word's opcode is 0: the word is the one that its own
used fields encode (R159). -/
def unusedZero (w : Word) (i : Instr) : Bool := encodeCle i == some w

/-- The CLE instruction of a word, refused when the opcode is not listed, an unused field is not 0, or a port, shift
count or condition lies outside Table 07-10's checks 0x06, 0x08 and 0x09. -/
def decodeCle (w : Word) : Option Instr :=
  match rawCle w with
  | some i => if unusedZero w i && i.wf then some i else none
  | none => none

/-- The command that a word spells. No row of the table gives bits; the 32-bit words of Table 07-7 are the only
encodings of commands as words in the manual, and they are decoded here (log 12). -/
def decodeTableWord (nbits w : Nat) : Option Instr :=
  if nbits = 32 ∧ w < 2 ^ 32 then decodeCle (BitVec.ofNat 32 w) else none

end Sys2Proof
end

