-- ==== Sys2Proof/Machine/Arith.lean ====
section
/-! DEFINITION. The exact arithmetic of the manual: rounding, saturation, Q16.16 products and set-point codes. -/

namespace Sys2Proof.Machine

/-- `ceil_div` of R177: the least q with q · y ≥ x, for y > 0. -/
def ceilDiv (x y : Nat) : Nat := (x + y - 1) / y

/-- `rdiv` of R181: x / y rounded to nearest, ties to even, for y > 0. -/
def rdiv (x y : Int) : Int :=
  let q := x / y
  let r := x - q * y
  if 2 * r > y ∨ (2 * r = y ∧ q % 2 = 1) then q + 1 else q

/-- `rne` and `rne64` of R96 and R158: an arithmetic right shift rounded to nearest, ties to even. -/
def rne (x : Int) (s : Nat) : Int := rdiv x (2 ^ s)

/-- `rnes` of R194: the value unchanged for a shift of 0. -/
def rnes (x : Int) (s : Nat) : Int := if s = 0 then x else rne x s

/-- A value clamped between two bounds. -/
def clampInt (lo hi x : Int) : Int := Min.min (Max.max x lo) hi

/-- `sat32` of R158. -/
def sat32 (x : Int) : Int := clampInt (-2147483648) 2147483647 x

/-- `sat24` of R279. -/
def sat24 (x : Int) : Int := clampInt (-8388608) 8388607 x

/-- `sat16` of R194. -/
def sat16 (x : Int) : Int := clampInt (-32768) 32767 x

/-- `sat8` of R194. -/
def sat8 (x : Int) : Int := clampInt (-128) 127 x

/-- A natural number saturated to a field of `w` bits. -/
def satNat (w : Nat) (x : Nat) : Nat := Min.min x (2 ^ w - 1)

/-- `qprod` of R158: the Q16.16 product, not saturated. -/
def qprod (a b : Int) : Int := rne (a * b) 16

/-- `qmul` of R158. -/
def qmul (a b : Int) : Int := sat32 (qprod a b)

/-- Truncating division, as the manual's int32 divisions are (R96, R223). -/
def truncDiv (x y : Int) : Int := Int.tdiv x y

/-- A cell code as Q16.16 mV: 26,214,400 + 40,960 × code (Table 07-4). -/
def codeMv (code : Nat) : Int := 26214400 + 40960 * code

/-- `vset_code` of R157. -/
def vsetCode (vset : Int) : Nat :=
  let x := (vset - 26214400) * 8
  let q := x / 327680
  let r := x - q * 327680
  let q := if 2 * r > 327680 ∨ (2 * r = 327680 ∧ q % 2 = 1) then q + 1 else q
  (clampInt 0 1023 q).toNat

/-- A link voltage (LSB 1/32 mV) as Q16.16 mV (Table 07-4 port 0). -/
def linkMv (v : BitVec 16) : Int := v.toNat * 2048

/-- A Q16.16 mV value as LSB 1/32 mV by R423, saturated to 16 unsigned bits. -/
def toLink (x : Int) : BitVec 16 := BitVec.ofNat 16 (clampInt 0 65535 (rne x 11)).toNat

/-- A Q16.16 mV value as int16 LSB 1/32 mV by R423. -/
def toLinkS (x : Int) : BitVec 16 := BitVec.ofInt 16 (sat16 (rne x 11))

/-- `epoch_before` of R62 and R63. -/
def epochBefore (a b : Word) : Bool := let d := b - a; d ≠ 0 && d < 0x80000000#32

/-- The epoch number of a GTC value (R6). -/
def epochOf (t : Nat) : Word := BitVec.ofNat 32 (t / 2000)

/-- The shutter that ends the epoch of a GTC value (R6). -/
def shutterAfter (t : Nat) : Nat := 2000 * (t / 2000 + 1)

/-- The frame number within the epoch (R7). -/
def frameOf (t : Nat) : Nat := (t % 2000) / 250

/-- The least n ≥ 0 below a bound that passes a test, the bound if none does. -/
def leastUpTo (p : Nat → Bool) : Nat → Nat → Nat
  | 0, n => n
  | fuel + 1, n => if p n then n else leastUpTo p fuel (n + 1)

/-- The natural square root rounded up: the least n with n · n ≥ x. -/
def sqrtCeil (x : Nat) : Nat := leastUpTo (fun n => decide (x ≤ n * n)) (x + 1) 0

end Sys2Proof.Machine
end

