-- ==== Sys2Proof/Config.lean ====
section
/-! DEFINITION. What an implementation fixes, and the free values: constants without a body, so that no proof can see what they are. -/

namespace Sys2Proof.Config

/-- Leakage in grains read from a domain's leakage table at a set-point code and a temperature in
1/16 °C (R218). The manual gives neither the table's axes nor its interpolation. DESIGN CHOICE: free (log 6). -/
opaque leakage (table : List Word) (code : Nat) (temp : Int) : Nat

/-- vf(f) for a frequency code below fc[0], which the ceiling rules exclude and R177 does not define.
DESIGN CHOICE: free (log 7). -/
opaque vfBelow (fc0 vc0 f : Nat) : Nat

/-- The ratio k = E_in / E_cells as Q8.24 when E_cells is 0 (R283). DESIGN CHOICE: free (log 8). -/
opaque ratioNoCells (eIn : Nat) : Nat

/-- The median of an even count of readings, from the two middle ones (R248). DESIGN CHOICE: free (log 9). -/
opaque medianOfTwo (lo hi : Int) : Int

/-- The fraction of an energy share that R239 leaves unstated when it is not a whole number of pJ:
numerator and denominator give the whole pJ counted. DESIGN CHOICE: free (log 10). -/
opaque shareRound (num den : Int) : Int

/-- What a station link's channels carry in a frame, as a number: channel and GTC. Table 02-1 names their contents and gives no coding
(R37). DESIGN CHOICE: free (log 70). -/
opaque linkChannel (chan gtc : Nat) : Nat

/-- A fresh value for an index that the machine state advances: a quantity that the manual says exists and
does not fix (log 5). -/
opaque fresh (i : Nat) : Nat

end Sys2Proof.Config
end

