-- ==== Sys2Proof/Machine/State.lean ====
section
/-! DEFINITION. The state of Dorgus as plain data, its reset value, and the reasons a step can stop. -/

namespace Sys2Proof.Machine

/-- Why a step ends in a fault of the model. Dorgus itself reports faults in messages, which are state. -/
inductive Fault where
  /-- Raised by a CLE instruction row whose fields Table 07-7 does not admit (an IN or OUT port, a shift count,
  a condition code or a skip count that the loader rejects, R159, R164). Safe: no image holds such a word. -/
  | invalidClEncoding (why : String)
  /-- Raised by a CLE instruction row that stands where R161 forbids it: a REP inside a REP body, or an END
  inside a body. Safe: the loader rejects the image (R164 reasons 0x0A and 0x0B). -/
  | misplacedCl (why : String)
deriving DecidableEq, Repr, Inhabited

/-- Why a command has no meaning. -/
inductive Refusal where
  /-- The command is not modelled yet; raised by an arm of `exec` only. Safe. -/
  | notModelled (mnemonic : String)
deriving DecidableEq, Repr, Inhabited

/-! ### Addressed stores -/

/-- A store of words addressed from 0 (state words R154, RC bins R208): the entries that differ from 0, addresses rising. -/
structure Mem (w : Nat) where
  cells : List (Nat × BitVec w)
deriving DecidableEq, Repr, Inhabited

/-! ### Domains -/

/-- The five domain states, in the order of the record's state field (R110, Table 03-7). -/
inductive DState where
  | dark | shade | lit | held | absent
deriving DecidableEq, Repr, Inhabited

/-- Why a domain was put into HELD (R118). -/
inductive HeldWhy where
  | linkLost | control | overrun
deriving DecidableEq, Repr, Inhabited

/-- Cell states (Table 04-4). -/
inductive CellSt where
  | active | ramp | warm | cold | isolated | offline
deriving DecidableEq, Repr, Inhabited

/-- One regulator cell with what its station keeps about it (R87–R107). `cw`, `ccrack` and `cout` are the weight, CRACK flag and absence from
service that the committed cell map holds (R95). The cell's own side: the windowed code, trim and state it has taken (`tkCode`, `tkTrim`, `tkSt`)
with its CLAMP flag, its switching frequency in MHz and dead time in ps (R93), its overload timer with the sum of the microsecond and the
microseconds counted down, and its reduced peak limit (R89). `fromCold`: it resumes from COLD and has not yet reported ACTIVE (R100). `hubRep`: its
report at the hub (R92). `latI`: its current at the last latch (R389). `isoRep`: it has reported since its isolation. -/
structure Cell where
  st       : CellSt
  weight   : BitVec 4
  ctrim    : BitVec 6
  acc      : Int
  strim    : Int
  rep      : Word
  parFails : Nat
  silent   : Nat
  autoHold : Bool
  underRun : Nat
  overRun  : Nat
  drvfRun  : Nat
  otRun    : Nat
  ovld     : Bool
  ovldSeen : Bool
  crack    : Bool
  crackRun : Nat
  sumDrop  : Nat
  sumI     : Nat
  nWin     : Nat
  rampFr   : Nat
  warmAt   : Nat
  failed   : Option (BitVec 4)
  isoAt    : Nat
  holdRep  : Bool
  isoRep   : Bool
  fromCold : Bool
  tkCode   : Nat
  tkTrim   : Int
  tkSt     : CellSt
  clamp    : Bool
  fsw      : Nat
  dead     : Nat
  ovTimer  : Nat
  ovSum    : Nat
  ovDown   : Nat
  limLow   : Bool
  hubRep   : Word
  latI     : Nat
  cw       : BitVec 4
  ccrack   : Bool
  cout     : Bool
deriving DecidableEq, Repr, Inhabited

/-- A transition that runs under the committed state (R112–R117). -/
inductive Trans where
  | idle | startWait | leg1 | leg2 | settle | descent | discharge | lift
deriving DecidableEq, Repr, Inhabited

/-- The soft start, descent or discharge of a domain (R113–R123). `ref` and `v0` are Q16.16 mV. -/
structure TransSt where
  ph       : Trans
  goal     : DState
  since    : Nat
  slow     : Bool
  v0       : Int
  ref      : Int
  k        : Nat
  within   : Nat
  shortRun : Nat
  attempt  : Nat
  retryAt  : Option Nat
  fed      : Bool
deriving DecidableEq, Repr, Inhabited

/-- A tile site's part in a mirror pair (R125–R128). -/
inductive PairRole where
  | none | even | odd
deriving DecidableEq, Repr, Inhabited

/-- The condition of a profile generator (R179). -/
inductive ProfCond where
  | settled | moving | ramping
deriving DecidableEq, Repr, Inhabited

/-- The profile generator (R179–R182): Q16.16 mV and the plan of the move in progress. `cur` is the target of the last move, `oldTgt`
the one in force before it (R134). -/
structure Prof where
  cond    : ProfCond
  vref    : Int
  v0      : Int
  dist    : Int
  dir     : Int
  nj      : Nat
  na      : Nat
  nc      : Nat
  den     : Int
  k       : Nat
  p6      : Int
  v2      : Int
  acl     : Int
  oldTgt  : Int
  cur     : Int
  pend    : Option Int
  settleAt : Nat
deriving DecidableEq, Repr, Inhabited

/-- The supervision checker (R185–R189). -/
structure Sup where
  plant   : Bool
  fbPend  : Bool
  vp      : Int
  cnt     : Nat
  onset   : Nat
  resid   : Int
  fcnt    : Nat
  fonset  : Nat
deriving DecidableEq, Repr, Inhabited

/-- Flare bank conditions (R140–R143). -/
inductive Flare where
  | disarmed | armed | conducting | recharging | failed
deriving DecidableEq, Repr, Inhabited

/-- Droop comparators, flare bank and UV-stop of a station (R132–R149). The clock stands while `clkHold` (the domain's state),
`ownStop` (a stop by its own floor, with its time), an entry of `fabStops` (one by FAB or SRM) or `uvLatched` holds it; `relPend` says
that an ended soft start waits for `FREQ_ACK` to release it. `uvSeen` says that `UVSTOP` was 1 at some
time since the last latch. `flRep` is the flare state of the last latch, `chkAt` when the bank's check after
conduction is due, on `Time.run`. -/
structure Droop where
  vth      : Int
  armed    : Bool
  in1      : Bool
  in2      : Bool
  in3      : Bool
  inF      : Bool
  startAt  : Nat
  startF   : Nat
  vlow     : BitVec 16
  last1    : Option Nat
  glint    : Bool
  dt3      : Bool
  dt3Good  : Nat
  flare    : Flare
  fired    : Bool
  forced   : Bool
  forcedTo : Nat
  chkAt    : Option Nat
  parkedFire : Bool
  uvstop   : Bool
  uvSeen   : Bool
  clkHold  : Bool
  relPend  : Bool
  ownStop  : Option Nat
  fabStops : List (Dom × Nat)
  flRep    : BitVec 2
  stops    : List Nat
  uvLatched : Bool
  uvGood   : Nat
  crossed  : BitVec 4
  stdyRep  : BitVec 3
deriving DecidableEq, Repr, Inhabited

/-- Parking state of a station (R99). -/
structure Park where
  qual     : Option Nat
  holdoff  : Nat
  last     : Nat
  ptr      : Nat
  abort    : Bool
deriving DecidableEq, Repr, Inhabited

/-- The 32-bit event counters of a domain (R148, R156, R209), in selector order 0x01–0x0D. -/
structure Counters where
  c : Vector Word 13
deriving DecidableEq, Repr, Inhabited

/-- One live hint (R193). -/
structure LiveHint where
  cls  : BitVec 4
  eta  : Nat
  inten : Nat
  dur  : Nat
  seq  : Nat
  new  : Bool
deriving DecidableEq, Repr, Inhabited

/-- Sums of a prediction-error window (R205). -/
structure ErrSums where
  sae : Vector Int 4
  se  : Vector Int 4
  n   : Vector Nat 4
deriving DecidableEq, Repr, Inhabited

/-- A checked prediction whose errors are still being formed (R205). -/
structure Outstanding where
  at_   : Nat
  y     : Vector Int 4
  iref  : Nat
  ok    : Bool
  acts  : Vector (Option Int) 4
deriving DecidableEq, Repr, Inhabited

/-- Lantern's state of a domain (R193, R203–R207). `latOk`, `latUv` and `refUv` are what the last latch says for the error statistics: LIT and out of
fall-back, a stopped clock since the latch before, a stopped clock at the latch; `cut` says that a pairing or unpairing followed that latch (R205). -/
structure Lant where
  ipred    : Vector Int 4
  nextPred : Vector Int 4
  rawPred  : Vector Int 4
  hints    : List LiveHint
  hintSeq  : Nat
  sums     : ErrSums
  winStart : Nat
  last     : ErrSums
  lastAt   : Nat
  lastBits : BitVec 2
  failRun  : Nat
  open_    : List Outstanding
  latOk    : Bool
  latUv    : Bool
  refUv    : Bool
  cut      : Bool
deriving DecidableEq, Repr, Inhabited

/-- The repetitive compensator of a domain (R208–R215). -/
structure RcSt where
  bins    : Mem 16
  idx     : Nat
  cnt     : Nat
  locked  : Bool
  esum    : Int
  excl    : Bool
  mark    : Bool
  satStep : Nat
  satBin  : Nat
  satRun  : Nat
  frozen  : Bool
deriving DecidableEq, Repr, Inhabited

/-- A frequency change outstanding at a tile (R42, R43, R424). -/
structure FreqChange where
  code    : Nat
  swGtc   : Nat
  job     : Bool
  req     : Bool
  reqAt   : Nat
  rdy     : Bool
  go      : Bool
  attempt : Nat
  held    : Bool
  missed  : Bool
  deferred : Bool
  uvAt    : Bool
deriving DecidableEq, Repr, Inhabited

/-- The signals and counts of a tile site (R40–R44, R239). -/
structure Tile where
  wait     : Bool
  stepTog  : Bool
  thrDiv   : BitVec 2
  thrSkip  : BitVec 16
  freqCode : Nat
  freqReq  : Bool
  freqGo   : Bool
  freqIn   : Nat
  pendIn   : Option Nat
  change   : Option FreqChange
  nextChg  : Option FreqChange
  withdrawn : Option Nat
  act      : Vector (BitVec 16) 8
  act1     : Vector (BitVec 16) 8
  frameMk  : Bool
  hintQ    : List Nat
  missed   : Word
  hintDrop : Word
  ctxLast  : Vector (Option Nat) 4
  ctxPj    : Vector Int 4
  ctxUj    : Vector DWord 4
  ctxInUj  : Vector DWord 4
  ctxWin   : Vector Int 4
  ctxInPj  : Vector Int 4
  actQ     : Nat
  lastCtx  : Option (Fin 4)
  hintAcc  : Bool
  markTaken : Bool
deriving DecidableEq, Repr, Inhabited

/-- The arbiter's values of a domain (R218–R236). -/
structure Arb where
  g        : Nat
  gLast    : Nat
  gForce   : Nat
  u        : Nat
  uMax     : Nat
  want     : Nat
  wantPre  : Nat
  uPre     : Nat
  lvl      : Nat
  lvlSum   : Nat
  tl       : Option Nat
  waitRun  : Nat
  lender   : Bool
  offer    : Nat
  hiRun    : Nat
  loRun    : Nat
  inrush   : Nat
  inrushTook : Nat
  derRun   : Nat
  derOk    : Nat
  derate   : Bool
  lagNow   : BitVec 8
  lagEp    : Bool
  lagPrev  : Bool
  lagOnset : Nat
  lagHist  : List Bool
  lvlHist  : List Nat
  resid    : Nat
  fastTHR  : Nat
  breach   : Bool
  wakeAt   : Option Nat
  woke     : Bool
  uLvl     : Nat
  fceil    : Nat
deriving DecidableEq, Repr, Inhabited

/-- What a domain's condition at a frame start makes of its slot (Table 07-3): whether the program runs, its outputs are applied and its
state-word writes kept. -/
structure SlotUse where
  runs    : Bool
  applied : Bool
  kept    : Bool
deriving DecidableEq, Repr, Inhabited

/-- What an internal change of the shutter in progress has done to a domain, so that no host commit of that shutter undoes it (R84): put into DARK or
HELD, latched off, Lantern or RC off, and which of its cells were taken out or marked. All clear outside a shutter. -/
structure IntMarks where
  moved  : Bool
  latch  : Bool
  lant   : Bool
  rc     : Bool
  outs   : List Nat
  cracks : List Nat
deriving DecidableEq, Repr, Inhabited

/-- No internal change. -/
def IntMarks.reset : IntMarks := ⟨false, false, false, false, [], []⟩

/-- Everything Dorgus holds for a physical domain. `vFr`, `iFr` and `use` are what the slots of the frame read: the values of its latch (R16) and
the condition at its start (R153). `code` and `hubArm` are the set-point code and `FLARE_ARM` of the last slot; at the station `flareArm` is in
force from `armAt` on, `armOld` before (R17). `stCode`, `stDiv`, `stSkip`, `stOrder` and `stSeq` are what the station has from the down records,
`stHeld` says that it holds the domain, and `downBad` that this frame's record was lost or came with values other than the hub's (R37–R39); `held`
says that the hub has put the domain into HELD. `codeFrame` the code of the last whole frame. `latPj` is the cell energy latched since power-on,
`latT` and `latCode` are the hottest sensor and the set-point code at the last latch (R283, R389), and `tblBad` says that the station's tables wait
to be reloaded (R383). -/
structure Domain where
  state    : DState
  heldFrom : DState
  heldWhy  : Option HeldWhy
  marks    : IntMarks
  latched  : Bool
  lanternOff : Bool
  rcOff    : Bool
  fallback : Bool
  tr       : TransSt
  en       : Bool
  lowHold  : Bool
  held     : Bool
  unc      : Nat
  winT     : Int
  pair     : PairRole
  pairAt   : Nat
  segs     : Nat
  opening  : Bool
  cells    : Vector Cell 14
  gwFloor  : Nat
  gwCeil   : Nat
  cmSeq    : Byte
  park     : Park
  vmeas    : BitVec 16
  vPrev    : BitVec 16
  vHub     : BitVec 16
  imeas    : Nat
  iPrev    : Nat
  iHub     : Nat
  vFr      : BitVec 16
  iFr      : Nat
  use      : SlotUse
  iHist    : List Nat
  code     : Nat
  stCode   : Nat
  codeFrame : Nat
  stDiv    : BitVec 2
  stSkip   : BitVec 16
  stOrder  : BitVec 3
  stSeq    : Byte
  stHeld   : Bool
  downBad  : Bool
  tgt      : Nat
  hubArm   : Bool
  flareArm : Bool
  armOld   : Bool
  armAt    : Nat
  thrReq   : Nat
  flags    : Byte
  overruns : Nat
  noLane   : Bool
  droop    : Droop
  epGlints : Nat
  epFires  : Nat
  epThr    : Nat
  thrFrame : Bool
  thrHist  : List Bool
  dtHist   : List Nat
  dtFrame  : Nat
  ctr      : Counters
  minV     : Option (BitVec 16 × Nat)
  minM     : Option (Int × Nat × Nat)
  minWrV   : Option (BitVec 16)
  minWrM   : Option Int
  sw       : Mem 32
  prof     : Prof
  sup      : Sup
  lant     : Lant
  rc       : RcSt
  tile     : Tile
  arb      : Arb
  energy   : Nat
  eFrame   : Nat
  latPj    : Nat
  latT     : Int
  latCode  : Nat
  tblBad   : Bool
  band     : Nat
  bandNew  : Nat
  maxT     : Int
  tempNew  : Int
  throt    : Bool
  riseHold : Nat
  riseMsg  : Option Nat
  hot      : Bool
deriving DecidableEq, Repr, Inhabited

/-! ### Domain configuration, by logical number -/

/-- The limits set by `DOM_LIMITS` (Table 14-7), in its encodings. `parkMin2` is the pair value (R331). -/
structure Limits where
  vmin : Nat
  vmax : Nat
  vret : Nat
  ssRate : Nat
  shortRetry : Nat
  shortGap : Nat
  parkEn : Nat
  parkI : Nat
  unparkI : Nat
  parkQual : Nat
  parkMin : Nat
  parkMin2 : Nat
  warmHold : Nat
  parkHoldoff : Nat
  dt1 : Nat
  dt2 : Nat
  dt3 : Nat
  vfloor : Nat
  glintPat : Nat
  glintMin : Nat
  flareEn : Nat
  prfVel : Nat
  prfAcc : Nat
  prfJerk : Nat
  plausBand : Nat
  followE : Nat
  followT : Nat
  supMode : Nat
  ffAuth : Nat
  mae : Vector Nat 4
  lntBias : Nat
deriving DecidableEq, Repr, Inhabited

/-- Budget and lending parameters (Tables 10-1, 10-2). -/
structure Budget where
  floor : Nat
  idle  : Nat
  ceil  : Nat
  cls   : Nat
  lend  : Nat
  borrow : Nat
  lendQual : Nat
  loanMax : Nat
  set   : BitVec 4
deriving DecidableEq, Repr, Inhabited

/-- RC parameters (Table 09-9). -/
structure RcCfg where
  on   : Nat
  k    : Nat
  f    : Nat
  g    : Nat
  l    : Nat
  auth : Nat
  src  : Nat
deriving DecidableEq, Repr, Inhabited

/-- The committed configuration of a logical domain. -/
structure DomCfg where
  target  : Nat
  tgtSet  : Bool
  freq    : Nat
  dfreq   : Nat
  fjob    : Nat
  lim     : Limits
  bud     : Budget
  rc      : RcCfg
  prog    : Nat
  model   : Option (Fin 8)
deriving DecidableEq, Repr, Inhabited

/-! ### Programs, models and the slot in progress -/

/-- A checked program image (R162–R164). -/
structure Program where
  ident   : Word
  crc     : Word
  init    : List Word
  consts  : List Word
  sections : List (List Word)
  unusable : Bool
deriving DecidableEq, Repr, Inhabited

/-- A checked Lantern model image (Table 09-3) with the checksum rows of R200. -/
structure Model where
  ident  : Word
  crc    : Word
  ffGain : Nat
  norm   : List (Int × Nat × Int)
  w1 : List (List Int)
  w2 : List (List Int)
  w3 : List (List Int)
  b1 : List Int
  b2 : List Int
  b3 : List Int
  req  : List (Nat × Nat)
  ck1 : List Int
  ck2 : List Int
  ck3 : List Int
  cb1 : Int
  cb2 : Int
  cb3 : Int
  unusable : Bool
deriving DecidableEq, Repr, Inhabited

/-- A REP in progress (R161): first word of the body, its length, iterations left after this one. -/
structure RepSt where
  start : Nat
  len   : Nat
  left  : Nat
deriving DecidableEq, Repr, Inhabited

/-- One lane of the pair during a slot (R152, R158–R161). `buf` holds the buffered state-word writes, newest first. -/
structure LaneCtx where
  g     : Vector Word 16
  ip    : Nat
  skip  : Nat
  rep   : Option RepSt
  buf   : List (Nat × Word)
  outs  : Vector (Option Word) 4
  ended : Bool
deriving DecidableEq, Repr, Inhabited

/-- The slot in progress: two lanes, latched input ports, cycle (R152, R168). -/
structure SlotCtx where
  a       : LaneCtx
  b       : LaneCtx
  inputs  : Vector Word 13
  dom     : Dom
  frame   : Nat
  slot    : Nat
  pos     : Nat
  section_ : Nat
  cycle   : Nat
  mismatch : Option Nat
deriving DecidableEq, Repr, Inhabited

/-- A mismatch of this frame (R168, R169): frame, slot, cycle of the slot, position and the message raised. -/
structure Mismatch where
  frame : Nat
  slot  : Nat
  cycle : Nat
  pos   : Nat
  msg   : DWord
deriving DecidableEq, Repr, Inhabited

/-- A physical lane pair (R150, R168–R170). -/
structure LaneSt where
  retired : Bool
  passed  : Bool
  testing : Bool
deriving DecidableEq, Repr, Inhabited

/-! ### Commands in flight -/

/-- How far a fetched command has come (R65): waiting for its bulk data; checked up to step 8; waiting for the check of its
cells (R333); checked up to step 12; accepted; running (an immediate command). -/
inductive Stage where
  | bulkWait | waiting | bistWait | prepared | accepted | running
deriving DecidableEq, Repr, Inhabited

/-- What a bulk fetch delivered, after its checks. -/
inductive BulkImg where
  | program (p : Program)
  | model (m : Model)
  | record (r : CharRecord)
deriving DecidableEq, Repr, Inhabited

/-- A command that has been fetched and not yet completed. `op` is the opcode of its row, `order` its place of assignment,
`ring` its place of fetch, `idx` its index in the command ring, `moved` and `refuse` what R73 or the safe state made of it. -/
structure Cmd where
  d       : Desc
  op      : Nat
  stage   : Stage
  shutter : Nat
  order   : Nat
  ring    : Nat
  idx     : Nat
  accAt   : Nat
  acked   : Vector Bool 5
  moved   : Bool
  refuse  : Bool
  grp     : Option Nat
  pos     : Nat
  last    : Bool
  bulk    : Option BulkImg
deriving DecidableEq, Repr, Inhabited

/-- An open atomic group of a port (R77, R78); `abort` is the position that aborted it, 0xFF for no member. -/
structure OpenGroup where
  id    : Nat
  since : Nat
  size  : Nat
  at_   : Bool
  atGtc : DWord
  abort : Option Nat
deriving DecidableEq, Repr, Inhabited

/-- What an internal change does at its shutter (R83). -/
inductive IntWhat where
  | cellMap (isolated : Nat)
  | dark (latch : Bool)
  | held (why : HeldWhy)
  | resume
  | toShade
  | retry (st : DState)
  | featOff (lantern rc : Bool)
  | derated
deriving DecidableEq, Repr, Inhabited

/-- An autonomous change reported by a station at a GTC. -/
structure IntChange where
  dom  : Dom
  what : IntWhat
  at_  : Nat
deriving DecidableEq, Repr, Inhabited

/-! ### The shutter record -/

/-- A domain record (Table 03-7), by field. -/
structure DomRec where
  st      : BitVec 3
  paired  : Bool
  latched : Bool
  lantOff : Bool
  rcOff   : Bool
  working : Nat
  code    : Nat
  target  : Nat
  vmin    : BitVec 16
  tmin    : BitVec 16
  imean   : BitVec 16
  temp    : Int
  thr     : Nat
  glints  : Nat
  fires   : Nat
  energy  : DWord
  grant   : Nat
  freq    : Nat
  divc    : BitVec 2
  cmSeq   : Byte
  band    : Nat
deriving DecidableEq, Repr, Inhabited

/-- A commit-list entry (Table 03-8). -/
structure CommitEntry where
  seq   : DWord
  port  : Nat
  grp   : Bool
  at_   : Bool
  op    : Nat
  tag   : BitVec 16
  dom   : Byte
  sub   : Byte
deriving DecidableEq, Repr, Inhabited

/-- What the trace carries of a domain besides its record (Tables 12-3, 12-5): parked cells, program flags, lag in the epoch,
the energy accumulator A_d in nJ, which the odd member of a pair keeps, and the hottest reading, also of an ABSENT site (R26). -/
structure DomExt where
  parked : Nat
  flags  : Byte
  lag    : Bool
  lvl    : Nat
  acc    : Nat
  temp   : Int
deriving DecidableEq, Repr, Inhabited

/-- The shutter record (R81), by field, with what the trace of its epoch needs besides (R268, R276). -/
structure Record where
  epoch   : Word
  gtc     : DWord
  firstSeq : DWord
  flags   : Byte
  power   : Nat
  cfgDig  : BitVec 128
  inDig   : BitVec 128
  energy  : DWord
  pool    : Nat
  cap     : Nat
  doms    : Vector DomRec 80
  commits : List CommitEntry
  bad     : Bool
  inEnergy : DWord
  ext     : Vector DomExt 80
  wave    : List (Nat × Dom × DWord)
  stale   : Bool
deriving DecidableEq, Repr, Inhabited

/-! ### Ports -/

/-- One ring of a port (R291, R292). `db` is the host's doorbell index; `prod` and `cons` are P and C. -/
structure Ring where
  base : DWord
  log2 : BitVec 5
  en   : Bool
  prod : Nat
  cons : Nat
  db   : Nat
  acked : Nat
deriving DecidableEq, Repr, Inhabited

/-- A completion entry (Table 14-3) before its PHASE is known. With `atWrite` its epoch is the one in progress when it is
written (R322). -/
structure Completion where
  tag    : BitVec 16
  status : Byte
  seq    : Word
  epoch  : Word
  result : Word
  isFinal : Bool
  atWrite : Bool
deriving DecidableEq, Repr, Inhabited

/-- An event record (Table 14-4): type, logical domain, class, epoch, and payload bytes 8–31. -/
structure Event where
  typ   : Byte
  dom   : Byte
  cls   : Byte
  epoch : Word
  pay   : List Byte
deriving DecidableEq, Repr, Inhabited

/-- A watch (R302–R307). -/
structure Watch where
  sel    : Byte
  dom    : Byte
  kind   : Byte
  count  : Bool
  repeat_ : Bool
  cond   : BitVec 3
  thr    : Nat
  const  : DWord
  base   : Word
  prev   : Bool
  since  : Nat
deriving DecidableEq, Repr, Inhabited

/-- The fast-entry fields of one domain as coded (Table 12-3), signed where quantised. -/
structure FastEntry where
  f : Vector Int 11
deriving DecidableEq, Repr, Inhabited

/-- Trace parameters that a `TRACE_CONFIG` has replaced, for chunks whose spans began before its commit (R265). -/
structure TraceOld where
  en     : Bool
  mode   : BitVec 2
  qs     : BitVec 2
  k      : Nat
  waves  : Vector Byte 4
  from_  : Nat
  resync : Bool
deriving DecidableEq, Repr, Inhabited

/-- A port's trace stream (R265–R276): parameters in force for spans from `from_` on, and those before, newest first; `lastA` the accumulators at
the end of the last delivered chunk, `lastAt` the shutter of the last chunk handled. -/
structure TraceSt where
  en     : Bool
  mode   : BitVec 2
  qs     : BitVec 2
  k      : Nat
  waves  : Vector Byte 4
  from_  : Nat
  old    : List TraceOld
  resync : Bool
  dropped : Bool
  dropRing : Nat
  dropQueue : Nat
  ctrRing : Word
  ctrQueue : Word
  pred   : Vector FastEntry 80
  carryI : Vector Int 80
  carryE : Vector Int 80
  lastA  : Option (Vector Nat 80)
  lastAt : Nat
deriving DecidableEq, Repr, Inhabited

/-- A host port (R286–R300). -/
structure Port where
  en       : Bool
  evFatal  : Bool
  evCont   : Bool
  evCorr   : Bool
  rightsD  : BitVec 80
  rightsO  : BitVec 11
  rings    : Vector Ring 4
  seqExp   : Option Word
  resv     : Nat
  rstAt    : Option Nat
  quiesced : Bool
  fabErr   : Bool
  failRing : BitVec 2
  dbErr    : Bool
  cfgErr   : Bool
  irqErr   : Bool
  evOvf    : Bool
  claim    : Option (Fin 256)
  watches  : Vector (Option Watch) 32
  fired    : Word
  irqEn    : BitVec 256
  trace    : TraceSt
  cplWait  : List Completion
  evWait   : List Event
  backlog  : List Event
  ovfCnt   : Word
  ovfDrops : Nat
  ovfFirst : Nat
  ovfLast  : Nat
  ovfOpen  : Bool
deriving DecidableEq, Repr, Inhabited

/-- A write held in the CCLK-to-HCLK write queue (R24, R32). `cpl` are the completions that wait for its acknowledgement, each with
whether an interim one was posted. -/
structure WriteReq where
  port : PortNo
  ring : Option RingId
  addr : DWord
  data : List Byte
  prod : Nat
  cpl  : List (Completion × Bool)
deriving DecidableEq, Repr, Inhabited

/-- The response of the target port to the last request (R30, R31). -/
structure Resp where
  err  : Bool
  data : Word
deriving DecidableEq, Repr, Inhabited

/-! ### Interrupt controller -/

/-- The interrupt controller (R308–R314). `timers` hold expiry GTCs per target and group. -/
structure Irq where
  latched : BitVec 256
  swset   : BitVec 256
  route   : Vector (BitVec 4) 256
  hold    : Vector (BitVec 12) 16
  timers  : Vector (Vector (Option Nat) 16) 9
  t8En    : BitVec 256
  t8Claim : Option (Fin 256)
deriving DecidableEq, Repr, Inhabited

/-! ### Clocks, resets, firmware -/

/-- A PLL configuration (Table 15-12). -/
structure PllCfg where
  en   : Bool
  rdiv : BitVec 7
  ndiv : BitVec 14
  pdiv : BitVec 8
deriving DecidableEq, Repr, Inhabited

/-- Clock registers and what the monitors report (Tables 15-9 to 15-12). `run` is indexed by Table 15-3 instance. -/
structure Clocks where
  men : Bool
  ssrc : BitVec 2
  csrc : BitVec 2
  swLock : Bool
  swMode : Bool
  lost : Bool
  refused : Bool
  cfgRej : Bool
  swDone : Bool
  swAsync : Bool
  stretch : Bool
  run : Vector Bool 7
  lockC : Bool
  lockT : Bool
  lockM : Bool
  scur : BitVec 2
  ccur : BitVec 2
  cBusy : Bool
  sBusy : Bool
  cWait : Bool
  sWait : Bool
  pllC : PllCfg
  pllT : PllCfg
  pllM : PllCfg
  trimmed : Bool
  ftrim : BitVec 7
  strim : BitVec 7
  tol : BitVec 2
  mon : BitVec 3
  gateRun : BitVec 4
  gateSleep : BitVec 4
  pwrCur : BitVec 2
  pwrDone : Bool
  pwrRej : Bool
  wakeT8 : Bool
  t8Seen : List Nat
  pwrMode : BitVec 2
  leaveDeep : Bool
  fmcGo : Bool
  fmcGate : BitVec 5
  fmcPre : Bool
  fmcSel : BitVec 4
  fmcDone : Bool
  fmcOvf : Bool
  fmcCount : BitVec 30
  crstBusy : Bool
  causes : BitVec 6
  forcedSince : Bool
deriving DecidableEq, Repr, Inhabited

/-- Firmware load and watchdog (Tables 15-16, 16-18). -/
structure Mc where
  addr : DWord
  len  : BitVec 20
  go   : Bool
  state : BitVec 4
  err  : BitVec 4
  version : BitVec 16
  image : Bool
  run  : Bool
  gated : Bool
  coldStart : Bool
  timeout : Byte
  openW : BitVec 4
  fails : BitVec 2
  firstFail : Nat
  lastFail : Nat
  kickAt : Nat
deriving DecidableEq, Repr, Inhabited

/-! ### Faults, safety, strata -/

/-- A fault message in the collector's queue (R371, R372): the suspect window's start, if its kind has one. -/
structure FaultMsg where
  bits : DWord
  from_ : Option Nat
  ext  : Word
deriving DecidableEq, Repr, Inhabited

/-- SAFE_STAT, the safe state and the fault collector (R371–R379). -/
structure Safety where
  queue   : List FaultMsg
  kinds   : Vector Word 256
  escEn   : Bool
  escKind : Byte
  jcorr   : Bool
  nFatal  : Byte
  nCont   : BitVec 12
  nDrop   : BitVec 12
  last    : DWord
  recent  : List DWord
  safe    : Bool
  fKind   : Byte
  fSrc    : BitVec 12
  causes  : List DWord
  cont    : Bool
  level   : Bool
  hbMode  : Bool
  hb      : Bool
  pin     : Bool
  pulseTo : Option Nat
  porHigh : Bool
  pfailLow : Bool
  pfailUp : Option Nat
  corrSeen : List (Nat × Nat)
deriving DecidableEq, Repr, Inhabited

/-- A strata record waiting to be programmed (R388–R391). -/
structure StrataRec where
  stratum : Fin 4
  typ  : BitVec 16
  gtc  : Nat
  pay  : List Byte
  seq  : DWord
deriving DecidableEq, Repr, Inhabited

/-- NOR and strata (R58, R387–R394, Table 16-19). `heads` and `oldest` number record slots, on and on over the wraps of a stratum: its next free
slot, and the first one that is not retired. `dev` is what SFDP declared, `erasing` the stratum and first slot of the block being erased, `spoiled`
those of blocks whose erase failed; `retried`, `eraseRetried` and `lbRetried` mark the second try of a program, an erase and the S3 record, and
`lbWait` says that the S3 record waits for work that cannot be suspended. `wrote` is the byte address and the bytes of the record programmed last,
`issued` the instructions that the last event of the writer sent. -/
structure Strata where
  ahead   : BitVec 4
  psuspEn : Bool
  avail   : Bool
  lbBusy  : Bool
  lbNew   : Bool
  lbFound : Bool
  cals    : List SysCal
  dev     : Option Sfdp
  issued  : List Byte
  erasing : Option (Fin 4 × Nat)
  spoiled : List (Fin 4 × Nat)
  eraseRetried : Bool
  lbRetried : Bool
  lbWait  : Bool
  gap     : BitVec 16
  gapFirst : Nat
  gapLast : Nat
  gapNew  : Bool
  gapCnt  : Nat
  nextSeq : DWord
  boots   : Word
  queue   : List StrataRec
  retried : Bool
  errAt   : List Nat
  heads   : Vector Nat 4
  oldest  : Vector Nat 4
  wrote   : Option (Nat × List Byte)
  s1At    : Vector (Option Nat) 80
deriving DecidableEq, Repr, Inhabited

/-! ### Thermal -/

/-- A sensor (R243–R254). `refs` are its reference readings with the start of their ticks, newest first; `gone` says that its die has been lost
for more than 100 µs, so that its last reading no longer stands (R249); `critFails` is how many conversions had failed in a row before a
reading at or above TH_CRIT that awaits its confirmation (R257). -/
structure Sensor where
  rd     : Int
  excl   : Bool
  valid  : Bool
  fails  : Nat
  lows   : Nat
  live   : Bool
  gone   : Bool
  critFails : Nat
  refs   : List (Nat × Int)
deriving DecidableEq, Repr, Inhabited

/-- The thermal limits in force: a write takes effect at the next sample completion (R264). Temperatures in 1/16 °C. -/
structure ThAct where
  warn    : Nat
  throt   : Nat
  crit    : Nat
  restart : Nat
  hold    : Nat
  rise    : Nat
  bands   : Word
  hyst    : Nat
deriving DecidableEq, Repr, Inhabited

/-- The thermal subsystem (R243–R264). The limit fields hold what was written, `act` what is in force. -/
structure Thermal where
  sens    : Vector Sensor 320
  act     : ThAct
  warn    : BitVec 12
  throt   : BitVec 12
  crit    : BitVec 12
  critLock : Bool
  restart : BitVec 12
  hold    : BitVec 10
  rise    : BitVec 12
  bands   : Word
  hyst    : Byte
  excl    : BitVec 320
  cfgRej  : Bool
  valid   : Bool
  warnOver : Bool
  fast    : Bool
  fastAt  : Nat
  startAt : Nat
  tick0   : Option Nat
  tripped : Bool
  tripAt  : Option Nat
  noRestart : Bool
  pinLow  : Bool
  coolAt  : Option Nat
  cands   : List (Fin 320)
  hubHot  : Bool
  hubRise : Option Nat
  maxB    : Nat
  maxS    : Nat
  maxT    : Int
  mband   : Vector (BitVec 2) 4
  dieAt   : Vector Nat 5
  dieOut  : Vector Bool 5
deriving DecidableEq, Repr, Inhabited

/-! ### Meter and buses -/

/-- What the meter is doing (R277, R280). -/
inductive MtrPhase where
  | idle | settle | window | cal
deriving DecidableEq, Repr, Inhabited

/-- A meter result register (Table 12-18). -/
structure MtrData where
  valid : Bool
  stale : Bool
  range : Bool
  scan  : BitVec 4
  res   : BitVec 24
deriving DecidableEq, Repr, Inhabited

/-- The meter (R277–R285). `chMains` and `chLost` are the window selection and the mains lock that the channel in progress began with; `calOn`
and `calTo` are the channel and the target of the calibration commanded last; `cellE` is the sum of the A_d at the last frame latch, in nJ, `eFrom`
its value at the latch nearest the window's start, `eOpen` that this latch is still to come, and `eWait` a window whose end waits for its
nearest latch, with E_in, N and whether the meter was stale at its end (R283). -/
structure Meter where
  calFs  : BitVec 16
  calCh  : BitVec 4
  mains  : BitVec 2
  cont   : Bool
  go     : Bool
  mask   : BitVec 16
  stale  : Bool
  syncLost : Bool
  rej    : Bool
  calErr : Bool
  done   : Bool
  calDone : Bool
  ch     : BitVec 4
  edgeRej : BitVec 16
  win    : BitVec 20
  ofs    : Vector (BitVec 24) 16
  gain   : Vector (BitVec 24) 16
  data   : Vector MtrData 16
  phase  : MtrPhase
  calCmd : BitVec 4
  calPend : BitVec 4
  scanCnt : BitVec 4
  winN   : Nat
  chMains : BitVec 2
  chLost : Bool
  calOn  : BitVec 4
  calTo  : BitVec 16
  cellE  : Nat
  eFrom  : Nat
  eOpen  : Bool
  eWait  : Option (Nat × Nat × Bool)
  lastEdge : Option Nat
  period : Nat
  edges  : Nat
  c0     : Option Int
  c1     : Int
  pIn    : Nat
  k      : Nat
  kGood  : Bool
  plaus  : BitVec 4
  kRun   : Nat
  recal  : BitVec 16
  gated  : Bool
  inEnergy : DWord
  inFrac : Nat
  sharedUj : DWord
  sharedPj : Int
  sharedIn : DWord
  sharedWin : Int
  sharedInPj : Int
deriving DecidableEq, Repr, Inhabited

/-- What a PMBus transaction is for (R53–R55, R130, R376). -/
inductive BusOp where
  | poll (kind : PollKind)
  | ara
  | statusWord
  | trim (mv : Nat)
  | offNow
  | init (stepNo : Nat)
  | clearFaults
  | statusVout
  | statusIout
deriving DecidableEq, Repr, Inhabited

/-- A PMBus transaction, queued or in progress; `data` is what a write carries once it is on the bus (Table 02-8). -/
structure BusTxn where
  op   : BusOp
  conv : Fin 5
  retried : Bool
  data : BitVec 16
deriving DecidableEq, Repr, Inhabited

/-- A stage-1 converter as Dorgus knows it (R53, R129–R131). -/
structure Conv5 where
  absent   : Bool
  verified : Bool
  expo     : Int
  cmdMv    : Nat
  want     : Option Nat
  avsOut   : Bool
  avsRetry : Bool
  badPolls : Nat
  voutMv   : Nat
  mismPend : Bool
  vin      : BitVec 16
  temp     : BitVec 16
  iout     : BitVec 16
  addr     : BitVec 7
deriving DecidableEq, Repr, Inhabited

/-- PMBus and AVSBus (R52–R56, R421, R422). -/
structure Bus where
  convEn : BitVec 5
  speed  : BitVec 2
  alert  : Bool
  cfgRej : Bool
  lastConv : BitVec 3
  lastSw : BitVec 16
  conv   : Vector Conv5 5
  cur    : Option BusTxn
  waitRetry : Bool
  queue  : List BusTxn
  avsEn  : Bool
  virBase : BitVec 6
  irComp : Byte
  trimHyst : BitVec 4
  trimEn : Bool
  avsNew : Option Word
  lastVin : Option (BitVec 16)
deriving DecidableEq, Repr, Inhabited

/-! ### Arbiter, links, tests -/

/-- A loan of lent budget (R230). -/
structure Loan where
  lender : Dom
  borrower : Dom
  grains : Nat
deriving DecidableEq, Repr, Inhabited

/-- A grant computed by a regrant and waiting for its commit (R22). -/
structure Grant where
  dom  : Dom
  g    : Nat
  fceil : Nat
  freq : Option Nat
  breach : Bool
deriving DecidableEq, Repr, Inhabited

/-- Chip-wide arbiter state (R217–R238). -/
structure ArbChip where
  alignOff : Option Nat
  capChip : Nat
  capIn   : Nat
  incorr  : Nat
  cap     : Nat
  pool    : Nat
  withheld : Nat
  loans   : List Loan
  pend    : Option (List Grant)
  stdyOver : Bool
deriving DecidableEq, Repr, Inhabited

/-- A station link (R37–R39). `badUp` and `badDn` are the GTCs of the last bad frames, newest first, `taken` the GTC of a down frame that came
with contents of its own, `lostAt` and `upAt` when the link was last lost and when it last returned. -/
structure Link where
  upBad   : Nat
  dnBad   : Nat
  badUp   : List Nat
  badDn   : List Nat
  taken   : Option Nat
  lostAt  : Nat
  upAt    : Nat
  lost    : Bool
  good    : Nat
  lat     : Nat
  bad     : Word
  trained : Bool
deriving DecidableEq, Repr, Inhabited

/-- The sieve test in progress (R407–R409). -/
structure Sieve where
  dom   : Dom
  port  : PortNo
  tag   : BitVec 16
  e0    : Nat
  step  : Nat
  maxS  : Nat
  dwell : Nat
  vlow  : BitVec 16
  glBase : Word
  uvBase : Word
  fail  : Bool
  abandon : Bool
  since : Nat
deriving DecidableEq, Repr, Inhabited

/-- A self-test in progress (R343, R410). -/
structure TestRun where
  unit : TestUnit
  by_  : Option (PortNo × BitVec 16)
deriving DecidableEq, Repr, Inhabited

/-- The inputs of the epoch in progress that enter its input block (R402, Table 17-3). -/
structure InputBlk where
  ports : List (Nat × Nat × Vector Word 13)
  feats : List (Nat × Nat × List Int)
  sites : List (Nat × Nat × Byte)
  prev  : BitVec 128
  wave  : List (Nat × Dom × DWord)
deriving DecidableEq, Repr, Inhabited

/-- No input yet. -/
def InputBlk.empty : InputBlk := ⟨[], [], [], 0, []⟩

/-! ### The whole machine -/

/-- GTC, epoch and the shutter unit (R5, R6, R35, R80, R415). `run` counts the ns since the power-on reset as the block's own clocks do: a
jump of GTC does not move it (R245, R261). -/
structure Time where
  gtc       : Nat
  run       : Nat
  vld       : Bool
  everVld   : Bool
  vldSince  : Nat
  started   : Bool
  fired     : Bool
  epoch     : Word
  gtcHi     : Vector Word 2
  cseqHi    : Vector Word 2
  fltHi     : Vector Word 2
  creset    : Bool
  resume    : Bool
deriving DecidableEq, Repr, Inhabited

/-- Written and effective mode fields (R418). `hist` holds the writes not yet in force, oldest first. -/
structure Mode where
  written : BitVec 7
  force   : BitVec 7
  hist    : List (Nat × BitVec 7)
deriving DecidableEq, Repr, Inhabited

/-- The state of Dorgus. `freeIdx` is the model's own; `pending` is the queue of commands. -/
structure State where
  time    : Time
  mode    : Mode
  scratch : Word
  resp    : Resp
  cseq    : DWord
  cmds    : List Cmd
  groups  : Vector (Option OpenGroup) 8
  rrPort  : PortNo
  fetchPort : PortNo
  nextOrd : Nat
  nextGrp : Nat
  records : List Record
  ints    : List IntChange
  input   : InputBlk
  cfg     : Vector DomCfg 80
  dom     : Vector Domain 80
  char    : Option CharRecord
  laneOf  : Vector (Option (Fin 17)) 16
  lanes   : Vector LaneSt 17
  slot    : SlotCtx
  mism    : List Mismatch
  progs   : Vector (Option Program) 32
  models  : Vector (Option Model) 8
  lanternFail : Bool
  lantErrs : List Nat
  arb     : ArbChip
  links   : Vector Link 5
  ports   : Vector Port 8
  wq      : List WriteReq
  outQ    : List WriteReq
  irq     : Irq
  clk     : Clocks
  mc      : Mc
  safety  : Safety
  strata  : Strata
  therm   : Thermal
  meter   : Meter
  bus     : Bus
  sieve   : Option Sieve
  tests   : List TestRun
  freeIdx : Nat
  pending : List Instr
deriving DecidableEq, Repr, Inhabited

/-! ### Reset values

A value without a rule here is the model's choice of log 1 (zero, empty or none) unless its comment names another entry. -/

/-- A cell after a power-on reset: weight 8 (R95), the waveform of band B4 (R251, R252), overload timer 0; its `ST` code and measurements 0
(log 3). -/
def Cell.reset : Cell :=
  { st := .active, weight := 8, ctrim := 0, acc := 0, strim := 0, rep := 0, parFails := 0, silent := 0,
    autoHold := false, underRun := 0, overRun := 0, drvfRun := 0, otRun := 0, ovld := false, ovldSeen := false,
    crack := false, crackRun := 0, sumDrop := 0, sumI := 0, nWin := 0, rampFr := 0, warmAt := 0, failed := none,
    isoAt := 0, holdRep := false, isoRep := false, fromCold := false, tkCode := 0, tkTrim := 0, tkSt := .active, clamp := false,
    fsw := 100, dead := 140, ovTimer := 0, ovSum := 0, ovDown := 0, limLow := false, hubRep := 0, latI := 0, cw := 8, ccrack := false, cout := false }

/-- No transition in progress. -/
def TransSt.reset : TransSt :=
  { ph := .idle, goal := .dark, since := 0, slow := false, v0 := 0, ref := 0, k := 0, within := 0, shortRun := 0,
    attempt := 0, retryAt := none, fed := false }

/-- A generator at rest: `VREF` is 0 in DARK (R182). -/
def Prof.reset : Prof :=
  { cond := .settled, vref := 0, v0 := 0, dist := 0, dir := 0, nj := 0, na := 0, nc := 0, den := 1, k := 0, p6 := 0,
    v2 := 0, acl := 0, oldTgt := 0, cur := 0, pend := none, settleAt := 0 }

/-- A checker that is not running (R185). -/
def Sup.reset : Sup :=
  { plant := false, fbPend := false, vp := 0, cnt := 0, onset := 0, resid := 0, fcnt := 0, fonset := 0 }

/-- Nothing armed (R135) and `UVSTOP` = 1 (Table 02-2). -/
def Droop.reset : Droop :=
  { vth := 0, armed := false, in1 := false, in2 := false, in3 := false, inF := false, startAt := 0, startF := 0,
    vlow := 0, last1 := none, glint := false, dt3 := false, dt3Good := 0, flare := .disarmed, fired := false,
    forced := false, forcedTo := 0, chkAt := none, parkedFire := false, uvstop := true, uvSeen := true, clkHold := true, relPend := false,
    ownStop := none, fabStops := [], flRep := 0, stops := [], uvLatched := false, uvGood := 0, crossed := 0, stdyRep := 0 }

/-- The sums at the start of an error window (R206). -/
def ErrSums.zero : ErrSums := { sae := Vector.replicate 4 0, se := Vector.replicate 4 0, n := Vector.replicate 4 0 }

/-- Lantern's state of a domain after reset: ports zero, no hints (R193). -/
def Lant.reset : Lant :=
  { ipred := Vector.replicate 4 0, nextPred := Vector.replicate 4 0, rawPred := Vector.replicate 4 0, hints := [],
    hintSeq := 0, sums := .zero, winStart := 0, last := .zero, lastAt := 0, lastBits := 0, failRun := 0, open_ := [], latOk := false, latUv := true, refUv := true, cut := false }

/-- The RC after reset: bins zero (R208), unlocked (log 1). -/
def RcSt.reset : RcSt :=
  { bins := ⟨[]⟩, idx := 0, cnt := 0, locked := false, esum := 0, excl := false, mark := false, satStep := 0,
    satBin := 0, satRun := 0, frozen := false }

/-- A tile site after reset (Table 02-2 reset column). -/
def Tile.reset : Tile :=
  { wait := false, stepTog := false, thrDiv := 0, thrSkip := 0, freqCode := 0, freqReq := false, freqGo := false,
    freqIn := 0, pendIn := none, change := none, nextChg := none, withdrawn := none, act := Vector.replicate 8 0,
    act1 := Vector.replicate 8 0, frameMk := false, hintQ := [], missed := 0, hintDrop := 0, ctxLast := Vector.replicate 4 none,
    ctxPj := Vector.replicate 4 0, ctxUj := Vector.replicate 4 0, ctxInUj := Vector.replicate 4 0,
    ctxWin := Vector.replicate 4 0, ctxInPj := Vector.replicate 4 0, actQ := 0, lastCtx := none,
    hintAcc := false, markTaken := false }

/-- The arbiter's values of a domain before any regrant. -/
def Arb.reset : Arb :=
  { g := 0, gLast := 0, gForce := 0, u := 0, uMax := 0, want := 0, wantPre := 0, uPre := 0, lvl := 0, lvlSum := 0, tl := none,
    waitRun := 0, lender := false, offer := 0, hiRun := 0, loRun := 0, inrush := 0, inrushTook := 0, derRun := 0,
    derOk := 0, derate := false, lagNow := 0, lagEp := false, lagPrev := false, lagOnset := 0, lagHist := [],
    lvlHist := [], resid := 0, fastTHR := 0, breach := false, wakeAt := none, woke := false, uLvl := 0, fceil := 72 }

/-- A domain after a power-on reset: DARK (R35), band B4 (R251), state words 0 (R166, R190), the guard window at
the LIT defaults of Table 04-1 (log 3). -/
def Domain.reset : Domain :=
  { state := .dark, heldFrom := .dark, heldWhy := none, marks := .reset, latched := false, lanternOff := false, rcOff := false,
    fallback := false, tr := .reset, en := false, lowHold := false, held := false, unc := 0, winT := 0, pair := .none, pairAt := 0, segs := 0,
    opening := false, cells := Vector.replicate 14 .reset, gwFloor := 160, gwCeil := 880, cmSeq := 0,
    park := { qual := none, holdoff := 0, last := 0, ptr := 0, abort := false },
    vmeas := 0, vPrev := 0, vHub := 0, imeas := 0, iPrev := 0, iHub := 0, vFr := 0, iFr := 0, use := ⟨true, false, false⟩, iHist := [],
    code := 0, stCode := 0, codeFrame := 0, stDiv := 0, stSkip := 0, stOrder := 0, stSeq := 0, stHeld := false, downBad := false, tgt := 0,
    hubArm := false, flareArm := false, armOld := false, armAt := 0, thrReq := 0, flags := 0,
    overruns := 0, noLane := false, droop := .reset, epGlints := 0, epFires := 0, epThr := 0, thrFrame := false, thrHist := [],
    dtHist := [], dtFrame := 0, ctr := ⟨Vector.replicate 13 0⟩, minV := none, minM := none, minWrV := none, minWrM := none,
    sw := ⟨[]⟩, prof := .reset, sup := .reset, lant := .reset, rc := .reset, tile := .reset, arb := .reset,
    energy := 0, eFrame := 0, latPj := 0, latT := 0, latCode := 0, tblBad := false, band := 4, bandNew := 4, maxT := 0, tempNew := 0, throt := false, riseHold := 0, riseMsg := none, hot := false }

/-- The domain limits' defaults (Table 14-7), which depend on the domain's form in `PARK_MIN` only. -/
def Limits.default (tile : Bool) : Limits :=
  { vmin := 160, vmax := 880, vret := 240, ssRate := 4, shortRetry := 3, shortGap := 10, parkEn := 1, parkI := 64,
    unparkI := 102, parkQual := 8, parkMin := if tile then 7 else 5, parkMin2 := 14, warmHold := 10,
    parkHoldoff := 5, dt1 := 5, dt2 := 8, dt3 := 12, vfloor := 128, glintPat := 0x1111, glintMin := 4, flareEn := 1,
    prfVel := 40, prfAcc := 16, prfJerk := 16, plausBand := 20, followE := 10, followT := 80, supMode := 0,
    ffAuth := 30, mae := #v[8, 12, 16, 24], lntBias := 6 }

/-- Budget and lending defaults (Tables 10-1, 10-2). -/
def Budget.default (tile : Bool) : Budget :=
  { floor := if tile then 120 else 80, idle := if tile then 32 else 0, ceil := if tile then 448 else 960, cls := 1,
    lend := 1, borrow := 1, lendQual := 4, loanMax := 256, set := 0 }

/-- A logical domain's committed configuration after a power-on reset (R166, R198, R208). -/
def DomCfg.reset (tile : Bool) : DomCfg :=
  { target := 0, tgtSet := false, freq := 0, dfreq := 0, fjob := 0, lim := .default tile, bud := .default tile,
    rc := { on := 0, k := 8, f := 10, g := 3, l := 1, auth := 20, src := 0x80 }, prog := 32, model := none }

/-- A lane with cleared registers (R152). -/
def LaneCtx.reset : LaneCtx :=
  { g := Vector.replicate 16 0, ip := 0, skip := 0, rep := none, buf := [], outs := Vector.replicate 4 none,
    ended := false }

/-- No slot in progress: cleared lanes, cycle 0. -/
def SlotCtx.reset : SlotCtx :=
  { a := .reset, b := .reset, inputs := Vector.replicate 13 0, dom := 0, frame := 0, slot := 0, pos := 0,
    section_ := 0, cycle := 0, mismatch := none }

/-- A disabled ring: `LOG2` = 6 (Table 13-12). -/
def Ring.reset : Ring := { base := 0, log2 := 6, en := false, prod := 0, cons := 0, db := 0, acked := 0 }

/-- The trace parameters' defaults (Table 12-1). -/
def TraceSt.reset : TraceSt :=
  { en := false, mode := 1, qs := 0, k := 0, waves := Vector.replicate 4 0xFE, from_ := 0, old := [], resync := true,
    dropped := false, dropRing := 0, dropQueue := 0, ctrRing := 0, ctrQueue := 0,
    pred := Vector.replicate 80 ⟨Vector.replicate 11 0⟩, carryI := Vector.replicate 80 0,
    carryE := Vector.replicate 80 0, lastA := none, lastAt := 0 }

/-- A port after reset: P0 enabled with every right (Table 13-16). -/
def Port.reset (p0 : Bool) : Port :=
  { en := p0, evFatal := true, evCont := true, evCorr := true,
    rightsD := if p0 then BitVec.allOnes 80 else 0, rightsO := if p0 then 0x7FF else 0,
    rings := Vector.replicate 4 .reset, seqExp := none, resv := 0, rstAt := none,
    quiesced := false, fabErr := false, failRing := 0, dbErr := false, cfgErr := false, irqErr := false,
    evOvf := false, claim := none, watches := Vector.replicate 32 none, fired := 0, irqEn := 0, trace := .reset,
    cplWait := [], evWait := [], backlog := [], ovfCnt := 0, ovfDrops := 0, ovfFirst := 0, ovfLast := 0,
    ovfOpen := false }

/-- The routes after a power-on reset (R309, Table 18-13). -/
def routeReset (src : Nat) : BitVec 4 :=
  if src < 64 then 8 else if src < 96 then BitVec.ofNat 4 ((src - 64) / 4) else if src < 128 then 8 else 0xF

/-- The interrupt controller after a power-on reset (Table 13-17). -/
def Irq.reset : Irq :=
  { latched := 0, swset := 0, route := Vector.ofFn (fun i => routeReset i.val), hold := Vector.replicate 16 0,
    timers := Vector.replicate 9 (Vector.replicate 16 none), t8En := 0, t8Claim := none }

/-- Clock registers after a power-on reset (Tables 15-9 to 15-15). -/
def Clocks.reset : Clocks :=
  { men := true, ssrc := 1, csrc := 1, swLock := false, swMode := false, lost := false, refused := false,
    cfgRej := false, swDone := false, swAsync := false, stretch := false, run := Vector.replicate 7 false,
    lockC := false, lockT := false, lockM := false, scur := 0, ccur := 0, cBusy := false, sBusy := false, cWait := false, sWait := false,
    pllC := ⟨true, 1, 32, 1⟩, pllT := ⟨true, 1, 32, 2⟩, pllM := ⟨true, 125, 4096, 200⟩, trimmed := false,
    ftrim := 0, strim := 0, tol := 2, mon := 7, gateRun := 0xF, gateSleep := 0xF, pwrCur := 0, pwrDone := false,
    pwrRej := false, wakeT8 := true, t8Seen := [], pwrMode := 0, leaveDeep := false, fmcGo := false, fmcGate := 0x10, fmcPre := false, fmcSel := 0,
    fmcDone := false, fmcOvf := false, fmcCount := 0, crstBusy := false, causes := 1, forcedSince := false }

/-- Firmware and watchdog after a power-on reset (Tables 15-16, 16-18). -/
def Mc.reset : Mc :=
  { addr := 0, len := 0, go := false, state := 0, err := 0, version := 0, image := false, run := false,
    gated := false, coldStart := true, timeout := 0x0A, openW := 1, fails := 0, firstFail := 0, lastFail := 0,
    kickAt := 0 }

/-- The fault collector and SAFE_STAT after a power-on reset (Tables 16-13 to 16-17); the pin is low while
DG_POR_N is low (R46). -/
def Safety.reset : Safety :=
  { queue := [], kinds := Vector.replicate 256 0, escEn := false, escKind := 0, jcorr := true, nFatal := 0,
    nCont := 0, nDrop := 0, last := 0, recent := [], safe := false, fKind := 0, fSrc := 0, causes := [],
    cont := false, level := true, hbMode := false, hb := false, pin := false, pulseTo := none, porHigh := false, pfailLow := false,
    pfailUp := none, corrSeen := [] }

/-- NOR and strata after a power-on reset (Table 16-19). -/
def Strata.reset : Strata :=
  { ahead := 1, psuspEn := true, avail := false, lbBusy := false, lbNew := false, lbFound := false, cals := [], dev := none, issued := [],
    erasing := none, spoiled := [], eraseRetried := false, lbRetried := false, lbWait := false,
    gap := 0, gapFirst := 0, gapLast := 0, gapNew := false, gapCnt := 0, nextSeq := 0, boots := 0, queue := [], retried := false,
    errAt := [], heads := Vector.replicate 4 0, oldest := Vector.replicate 4 0, wrote := none,
    s1At := Vector.replicate 80 none }

/-- A sensor before its first conversion. -/
def Sensor.reset : Sensor :=
  { rd := 0, excl := false, valid := false, fails := 0, lows := 0, live := false, gone := false, critFails := 0, refs := [] }

/-- The thermal subsystem after a power-on reset (Tables 11-7 to 11-14); THERM_TRIP_N low (R46), MBAND 0b11 (R45). -/
def Thermal.reset : Thermal :=
  { sens := Vector.replicate 320 .reset,
    act := { warn := 0x640, throt := 0x6C0, crit := 0x7D0, restart := 0x5A0, hold := 10, rise := 0x30, bands := 0x73645032,
             hyst := 0x30 },
    warn := 0x640, throt := 0x6C0, crit := 0x7D0, critLock := false,
    restart := 0x5A0, hold := 0x00A, rise := 0x030, bands := 0x73645032, hyst := 0x30, excl := 0, cfgRej := false,
    valid := false, warnOver := false, fast := false, fastAt := 0, startAt := 0, tick0 := none, tripped := false, tripAt := none,
    noRestart := false, pinLow := true, coolAt := none, cands := [], hubHot := false, hubRise := none, maxB := 4, maxS := 0, maxT := 0,
    mband := Vector.replicate 4 3, dieAt := Vector.replicate 5 0, dieOut := Vector.replicate 5 false }

/-- The meter after a power-on reset (Tables 12-12 to 12-18, R281, R282). -/
def Meter.reset : Meter :=
  { calFs := 0x6666, calCh := 0, mains := 0, cont := false, go := false, mask := 0xFFFF, stale := true,
    syncLost := true, rej := false, calErr := false, done := false, calDone := false, ch := 0, edgeRej := 0,
    win := 0x14000, ofs := Vector.replicate 16 0, gain := Vector.replicate 16 0x400000,
    data := Vector.replicate 16 ⟨false, false, false, 0, 0⟩, phase := .idle, calCmd := 0, calPend := 0,
    scanCnt := 0, winN := 81920, chMains := 0, chLost := true, calOn := 0, calTo := 0x6666,
    cellE := 0, eFrom := 0, eOpen := false, eWait := none, lastEdge := none, period := 81920, edges := 0, c0 := none, c1 := 0,
    pIn := 0, k := 0, kGood := false, plaus := 0, kRun := 0, recal := 0, gated := false, inEnergy := 0, inFrac := 0,
    sharedUj := 0, sharedPj := 0, sharedIn := 0,
    sharedWin := 0, sharedInPj := 0 }

/-- The buses after a power-on reset (Tables 05-6, 18-10 to 18-12). -/
def Bus.reset : Bus :=
  { convEn := 0b11111, speed := 0, alert := false, cfgRej := false, lastConv := 0, lastSw := 0,
    conv := Vector.ofFn (fun i =>
      { absent := false, verified := false, expo := 0, cmdMv := 0, want := none, avsOut := false, avsRetry := false,
        badPolls := 0, voutMv := 0, mismPend := false, vin := 0, temp := 0, iout := 0, addr := BitVec.ofNat 7 (0x40 + i.val) }),
    cur := none, waitRetry := false, queue := [], avsEn := true, virBase := 0x14, irComp := 0x32, trimHyst := 2,
    trimEn := true, avsNew := none, lastVin := none }

/-- The arbiter after a power-on reset: `CAP_CHIP` 20,800 and `CAP_IN` 28,000 grains, INCORR 0 (R220, R221). -/
def ArbChip.reset : ArbChip :=
  { alignOff := none, capChip := 20800, capIn := 28000, incorr := 0, cap := 20800, pool := 0, withheld := 0, loans := [], pend := none,
    stdyOver := false }

/-- A station link before training. -/
def Link.reset : Link :=
  { upBad := 0, dnBad := 0, badUp := [], badDn := [], taken := none, lostAt := 0, upAt := 0, lost := false, good := 0,
    lat := 0, bad := 0, trained := false }

/-- GTC, epoch and read latches after a power-on reset (R35, Table 03-3, R415). -/
def Time.reset : Time :=
  { gtc := 0, run := 0, vld := false, everVld := false, vldSince := 0, started := false, fired := false, epoch := 0,
    gtcHi := Vector.replicate 2 0, cseqHi := Vector.replicate 2 0, fltHi := Vector.replicate 2 0, creset := false,
    resume := false }

/-- Dorgus right after a power-on reset (R364). -/
def State.reset : State :=
  { time := .reset, mode := ⟨0x30, 0x30, []⟩, scratch := 0, resp := ⟨false, 0⟩, cseq := 0, cmds := [],
    groups := Vector.replicate 8 none, rrPort := 7, fetchPort := 7, nextOrd := 0, nextGrp := 0, records := [], ints := [],
    input := .empty, cfg := Vector.ofFn (fun i => DomCfg.reset (decide (i.val < 64))),
    dom := Vector.replicate 80 .reset, char := none,
    laneOf := Vector.ofFn (fun i => some ⟨i.val, by omega⟩),
    lanes := Vector.replicate 17 ⟨false, true, false⟩, slot := .reset, mism := [],
    progs := Vector.replicate 32 none, models := Vector.replicate 8 none, lanternFail := false, lantErrs := [],
    arb := .reset, links := Vector.replicate 5 .reset, ports := Vector.ofFn (fun i => Port.reset (i.val == 0)),
    wq := [], outQ := [], irq := .reset, clk := .reset, mc := .reset, safety := .reset, strata := .reset, therm := .reset,
    meter := .reset, bus := .reset, sieve := none, tests := [], freeIdx := 0, pending := [] }

end Sys2Proof.Machine
end

