-- ==== Sys2Proof/Machine/Ops.lean ====
section
/-! DEFINITION. The named operations over the machine: stores, domains and their numbers, rings, completions, events, faults and the strata queue. -/

namespace Sys2Proof.Machine

/-! ### Addressed stores -/

/-- The word at an address of a canonical list, 0 where nothing is listed. -/
def cellsGet {w : Nat} : List (Nat × BitVec w) → Nat → BitVec w
  | [], _ => 0
  | (k, x) :: rest, a => if k = a then x else cellsGet rest a

/-- The list with one word written, kept canonical: addresses rising, no entry equal to 0. -/
def cellsSet {w : Nat} : List (Nat × BitVec w) → Nat → BitVec w → List (Nat × BitVec w)
  | [], a, v => if v = 0 then [] else [(a, v)]
  | (k, x) :: rest, a, v =>
    if a < k then (if v = 0 then (k, x) :: rest else (a, v) :: (k, x) :: rest)
    else if a = k then (if v = 0 then rest else (a, v) :: rest)
    else (k, x) :: cellsSet rest a v

/-- Whether a list is canonical above a bound: every address at or above it, rising, no zero entry. -/
def cellsWf {w : Nat} : Nat → List (Nat × BitVec w) → Bool
  | _, [] => true
  | lo, (k, x) :: rest => decide (lo ≤ k) && x != 0 && cellsWf (k + 1) rest

/-- A read of a store (R154, R208). -/
def Mem.read {w : Nat} (m : Mem w) (a : Nat) : BitVec w := cellsGet m.cells a

/-- A write to a store. -/
def Mem.write {w : Nat} (m : Mem w) (a : Nat) (v : BitVec w) : Mem w := ⟨cellsSet m.cells a v⟩

/-- The canonical form of a store. -/
def Mem.wf {w : Nat} (m : Mem w) : Bool := cellsWf 0 m.cells

/-- A store holding the words of an image from address 0 up (R163). -/
def memOfList {w : Nat} (l : List (BitVec w)) : Mem w :=
  (l.zipIdx).foldl (fun m x => m.write x.2 x.1) ⟨[]⟩

/-! ### Time -/

/-- The state with GTC advanced to an event's time; GTC never runs back but at a discontinuity (R5, R36). -/
def now (t : Nat) (s : State) : State :=
  { s with time := { s.time with gtc := Nat.max s.time.gtc t, run := s.time.run + (t - s.time.gtc) } }

/-- The epoch in progress as `DG.EPOCH` and completions show it: 0 before the first shutter (Table 03-3, R322). -/
def epochNow (s : State) : Word := if s.time.fired then epochOf s.time.gtc else 0

/-- The epoch in which a message or an event is created (R6, R325, R371). -/
def epochIn (s : State) : Word := epochOf s.time.gtc

/-! ### Access to the vectors of the state -/

/-- A physical domain. -/
def domOf (s : State) (d : Nat) : Domain := vget s.dom d

/-- The state with a physical domain changed. -/
def setDom (s : State) (d : Nat) (f : Domain → Domain) : State := { s with dom := vupd s.dom d f }

/-- The state with every physical domain changed. -/
def setDoms (s : State) (f : Nat → Domain → Domain) : State := { s with dom := vmapIdx s.dom f }

/-- A logical domain's committed configuration. -/
def cfgOf (s : State) (l : Nat) : DomCfg := vget s.cfg l

/-- The state with a logical domain's configuration changed. -/
def setCfg (s : State) (l : Nat) (f : DomCfg → DomCfg) : State := { s with cfg := vupd s.cfg l f }

/-- A port. -/
def portOf (s : State) (p : Nat) : Port := vget s.ports p

/-- The state with a port changed. -/
def setPort (s : State) (p : Nat) (f : Port → Port) : State := { s with ports := vupd s.ports p f }

/-- A cell of a domain. -/
def cellOf (D : Domain) (k : Nat) : Cell := vget D.cells k

/-- The domain with one cell changed. -/
def setCell (D : Domain) (k : Nat) (f : Cell → Cell) : Domain := { D with cells := vupd D.cells k f }

/-- Fold a change over every physical domain number, ascending. -/
def foldDoms (s : State) (f : State → Nat → State) : State := (List.range 80).foldl f s

/-! ### Numbers of domains, cells and dies -/

/-- The present sites, in the order of the record's map; every site before a record is installed (R9, R26). -/
def presentSites (s : State) : List Nat :=
  match s.char with
  | none => List.range 64
  | some c => c.siteMap.map (fun x => x.val)

/-- The physical sites in logical order: the present ones by the record's map, then the absent ones ascending, so
that every logical tile LTn–LT63 beyond the map has a site of its own that is ABSENT (R9, log 14). -/
def siteOrder (s : State) : List Nat :=
  let p := presentSites s
  p ++ (List.range 64).filter (fun i => !p.contains i)

/-- The physical number of a logical domain (R9). -/
def physOf (s : State) (l : Nat) : Nat := if l < 64 then (siteOrder s).getD l l else l

/-- The logical number of a physical domain (R9). -/
def logOf (s : State) (d : Nat) : Nat := if d < 64 then (siteOrder s).idxOf d else d

/-- The committed configuration of a physical domain. -/
def cfgAt (s : State) (d : Nat) : DomCfg := cfgOf s (logOf s d)

/-- Whether a domain number is a tile site (R8). -/
def isTile (d : Nat) : Bool := decide (d < 64)

/-- Cells of a domain (Table 00-5). -/
def nCells (d : Nat) : Nat := if d < 64 then 14 else 8

/-- Physical number of cell k of domain d (R10). -/
def cellNoOf (d k : Nat) : Nat := if d < 64 then 14 * d + k else 896 + 8 * (d - 64) + k

/-- The domain of a physical cell (R10). -/
def cellDom (c : Nat) : Nat := if c < 896 then c / 14 else 64 + (c - 896) / 8

/-- The index of a physical cell in its domain (R10). -/
def cellIdx (c : Nat) : Nat := if c < 896 then c % 14 else (c - 896) % 8

/-- The die of a domain (R8, Table 01-8): 0–3 for E0–E3, 4 for H. -/
def dieOf (d : Nat) : Nat := if d < 64 then d / 16 else if d < 72 then (d - 64) % 4 else 4

/-- The domains of a die, ascending. -/
def domsOfDie (e : Nat) : List Nat := (List.range 80).filter (fun d => dieOf d == e)

/-- Whether a domain is ABSENT. -/
def isAbsent (s : State) (d : Nat) : Bool := (domOf s d).state == .absent

/-- Whether a domain is the odd member of a mirror pair. -/
def isOdd (s : State) (d : Nat) : Bool := (domOf s d).pair == .odd

/-- Whether a domain is the even member of a mirror pair. -/
def isEven (s : State) (d : Nat) : Bool := (domOf s d).pair == .even

/-- The domain that governs a site: the even member for the odd member of a pair, itself otherwise (R126). -/
def leader (s : State) (d : Nat) : Nat := if isOdd s d then d - 1 else d

/-- The physical domains that a leader governs: both members of a pair, one domain otherwise (R126). -/
def membersOf (s : State) (d : Nat) : List Nat := if isEven s d then [d, d + 1] else [d]

/-- The logical name of a physical domain in events: the pair ID for a member of a pair (R290). -/
def logName (s : State) (d : Nat) : Nat := logOf s (leader s d)

/-- A mode field in force: 0 STEADY, 1 FIXSHUT, 2 ALIGN, 3 LENDEN, 4 LANTERN_EN, 5 RC_EN, 6 TRACE_EN (Table 18-6). -/
def modeOn (s : State) (i : Nat) : Bool := s.mode.force.getLsbD i

/-- The mode fields in force as `DG.GSTAT` and the digest show them: FIXSHUT is 1 while STEADY is set (R398). -/
def modeShown (s : State) : Nat := (s.mode.force ||| (if modeOn s 0 then 2 else 0)).toNat

/-- FIXSHUT as it governs acceptance: STEADY forces it (R70, R398). -/
def fixShut (s : State) : Bool := modeOn s 1 || modeOn s 0

/-! ### The write queue (R24) -/

/-- Entries of 64 bytes that a write takes. -/
def writeUnits (w : WriteReq) : Nat := Nat.max 1 ((w.data.length + 63) / 64)

/-- Entries in use of the write queue's 64. -/
def wqUsed (s : State) : Nat := (s.wq.map writeUnits).sum

/-- The output of a command in 64-byte entries; the completions wait for the last one (R342, R345). -/
def splitWrite (w : WriteReq) : List WriteReq :=
  let n := writeUnits w
  (List.range n).map (fun i =>
    { w with addr := w.addr + BitVec.ofNat 64 (64 * i), data := (w.data.drop (64 * i)).take 64, cpl := if i + 1 = n then w.cpl else [] })

/-- Output waiting for room enters the write queue, oldest first, up to its 64 entries (R24). -/
def feedWrites (s : State) : State :=
  let n := 64 - wqUsed s
  { s with wq := s.wq ++ s.outQ.take n, outQ := s.outQ.drop n }

/-- The output of commands goes to the write queue as room arises: none of it is dropped (R24). -/
def sendOutput (s : State) (ws : List WriteReq) : State := feedWrites { s with outQ := s.outQ ++ ws.flatMap splitWrite }

/-- The parameter sets of a trace stream, newest first (R265). -/
def traceSets (x : TraceSt) : List TraceOld :=
  { en := x.en, mode := x.mode, qs := x.qs, k := x.k, waves := x.waves, from_ := x.from_, resync := x.resync } :: x.old

/-! ### Station links -/

/-- A link. -/
def linkOf (s : State) (e : Nat) : Link := vget s.links e

/-- Whether a link carries frames: trained, and not lost or trained again (R39). -/
def linkCarries (l : Link) : Bool := l.trained

/-! ### Cells at work -/

/-- Whether a cell is present at its domain and counted among its working cells: neither ISOLATED nor OFFLINE (R95). -/
def cellWorks (c : Cell) : Bool := c.st != .isolated && c.st != .offline

/-- A set-point code after the guard window of a domain's cells (R88). -/
def winCode (D : Domain) (code : Nat) : Nat := Nat.min (Nat.max code D.gwFloor) D.gwCeil

/-- The set-point code in force at a domain's cells, after their guard window (R88): 0 while they are disabled and in leg 1 (R113). -/
def codeInForce (D : Domain) : Nat := if !D.en || D.tr.ph == .startWait || D.tr.ph == .leg1 then 0 else winCode D D.stCode

/-- The output voltage that a cell regulates to, Q16.16 mV: 400 mV + (code + (ctrim + strim)/8) × 0.625 mV, on the windowed code and trim it
has taken (R87). -/
def cellVolt (c : Cell) : Int := 26214400 + 40960 * c.tkCode + 5120 * (c.ctrim.toInt + c.tkTrim)

/-- Cell switching frequency in MHz and dead time in ps of a temperature band (Table 11-1). -/
def waveOf (band : Nat) : Nat × Nat :=
  match band with
  | 0 => (140, 180)
  | 1 => (140, 160)
  | 2 => (125, 150)
  | 3 => (110, 140)
  | _ => (100, 140)

/-- A cell takes a band's waveform, unless it is in autonomous hold (R90, R93). -/
def takeWave (band : Nat) (c : Cell) : Cell :=
  if c.autoHold then c else { c with fsw := (waveOf band).1, dead := (waveOf band).2 }

/-- A cell takes its station's state for it, its trim and, where one is sent, the windowed set-point, with the CLAMP flag. A cell in autonomous
hold, or while its station's tables are reloaded (R383), changes nothing; the enable of one out of service is a wire of its own (R87, R88, R90,
R102). -/
def takeCode (D : Domain) (sends : Bool) (c : Cell) : Cell :=
  if c.autoHold || D.tblBad then { c with tkSt := if cellWorks c then c.tkSt else c.st }
  else { c with tkSt := c.st, tkTrim := c.strim, tkCode := if sends then winCode D D.stCode else c.tkCode,
                clamp := sends && winCode D D.stCode != D.stCode }

/-- Whether the station of a domain sends its cells a set-point code: enabled, past leg 1, not held (R38, R113). -/
def sendsCode (D : Domain) : Bool := D.en && !D.stHeld && D.tr.ph != .startWait && D.tr.ph != .leg1

/-- Working cells of one physical domain (Table 03-7). -/
def workingCells (d : Nat) (D : Domain) : Nat :=
  ((List.range (nCells d)).filter (fun k => cellWorks (cellOf D k))).length

/-- Working cells of a leader: both members' cells for a pair (Table 03-7). -/
def workingOf (s : State) (d : Nat) : Nat :=
  ((membersOf s d).map (fun x => workingCells x (domOf s x))).sum

/-! ### Counters -/

/-- The counter of a selector 0x01–0x0D of a domain (R148, Table 13-3). -/
def ctrOf (D : Domain) (sel : Nat) : Word := vget D.ctr.c (sel - 1)

/-- The domain with a counter advanced modulo 2^32. -/
def bump (sel n : Nat) (D : Domain) : Domain :=
  { D with ctr := ⟨vupd D.ctr.c (sel - 1) (fun x => x + BitVec.ofNat 32 n)⟩ }

/-! ### Fault messages -/

/-- Even parity of the bits above bit 0 (Table 16-1). -/
def parityOf (x : DWord) : DWord :=
  if ((List.range 63).filter (fun i => x.getLsbD (i + 1))).length % 2 = 1 then 1 else 0

/-- A fault message (Table 16-1): class 0 corrected, 1 contained, 2 fatal. -/
def faultWord (cls kind unit inst detail : Nat) (epoch : Word) : DWord :=
  let b : DWord := (BitVec.ofNat 2 cls ++ BitVec.ofNat 8 kind ++ BitVec.ofNat 4 unit ++ BitVec.ofNat 8 inst ++
    BitVec.ofNat 32 detail ++ epoch.extractLsb' 0 8 ++ 0#2 : BitVec 64)
  b ||| parityOf b

/-- Class field of a message. -/
def fClass (m : DWord) : Nat := (m.extractLsb' 62 2).toNat
/-- Kind field of a message. -/
def fKindOf (m : DWord) : Nat := (m.extractLsb' 54 8).toNat
/-- Unit-type field of a message. -/
def fUnit (m : DWord) : Nat := (m.extractLsb' 50 4).toNat
/-- Instance field of a message. -/
def fInst (m : DWord) : Nat := (m.extractLsb' 42 8).toNat
/-- Detail field of a message. -/
def fDetail (m : DWord) : Nat := (m.extractLsb' 10 32).toNat

/-- A message enters the collector's queue (R372): a corrected one is dropped and counted while more than 768 entries
are occupied. -/
def enqueueFault (s : State) (m : FaultMsg) : State :=
  if fClass m.bits = 0 ∧ 768 < s.safety.queue.length then
    { s with safety := { s.safety with nDrop := if s.safety.nDrop = 0xFFF then 0xFFF else s.safety.nDrop + 1 } }
  else { s with safety := { s.safety with queue := s.safety.queue ++ [m] } }

/-- A unit raises a fault (R371); its message carries the epoch in progress. -/
def raise (s : State) (cls kind unit inst detail : Nat) : State :=
  enqueueFault s { bits := faultWord cls kind unit inst detail (epochIn s), from_ := none, ext := 0 }

/-- A unit raises a fault whose kind has a suspect window beginning at a GTC (Table 16-6). -/
def raiseFrom (s : State) (cls kind unit inst detail start : Nat) : State :=
  enqueueFault s { bits := faultWord cls kind unit inst detail (epochIn s), from_ := some start, ext := 0 }

/-- A unit raises a fault whose FAULT event carries an extension of its own in bytes 28–31 (R385). -/
def raiseExt (s : State) (cls kind unit inst detail : Nat) (ext : Word) : State :=
  enqueueFault s { bits := faultWord cls kind unit inst detail (epochIn s), from_ := none, ext := ext }

/-! ### Internal changes -/

/-- A station reports an autonomous change, to be committed at the first shutter at least 250 ns later (R83). -/
def report (s : State) (d : Nat) (w : IntWhat) : State :=
  if h : d < 80 then { s with ints := s.ints ++ [{ dom := ⟨d, h⟩, what := w, at_ := s.time.gtc }] } else s

/-! ### Rings -/

/-- S of a ring (R292). -/
def ringSize (r : Ring) : Nat := 2 ^ r.log2.toNat

/-- The ring after its producer index has moved on by `n` entries, modulo 2S. -/
def ringAdvance (r : Ring) (n : Nat) : Ring := { r with prod := (r.prod + n) % (2 * ringSize r) }

/-- Entries between two indices of a ring: (a − b) mod 2S (R292). -/
def ringDiff (r : Ring) (a b : Nat) : Nat := (a + 2 * ringSize r - b % (2 * ringSize r)) % (2 * ringSize r)

/-- Entries that a ring holds: (P − C) mod 2S. -/
def ringUsed (r : Ring) : Nat := ringDiff r r.prod r.cons

/-- A ring by number: 0 CQ, 1 CPL, 2 EVQ, 3 TRQ. -/
def ringOf (p : Port) (i : Nat) : Ring := vget p.rings i

/-- The port with a ring changed. -/
def setRing (p : Port) (i : Nat) (f : Ring → Ring) : Port := { p with rings := vupd p.rings i f }

/-- The number of a ring (Table 13-5). -/
def ringNo : RingId → Nat
  | .cq => 0
  | .cpl => 1
  | .evq => 2
  | .trq => 3

/-! ### Completions -/

/-- A completion entry waits to be written (R297). A single final completion frees the second reservation (R295). -/
def postCompletion (s : State) (p : Nat) (c : Completion) (hadInterim : Bool) : State :=
  setPort s p (fun P => { P with cplWait := P.cplWait ++ [c], resv := if c.isFinal && !hadInterim then P.resv - 1 else P.resv })

/-- A command completes without a commit: sequence 0, the epoch in progress (R322). -/
def completeNow (s : State) (p : Nat) (tag : BitVec 16) (status : Nat) (result : Nat) (hadInterim : Bool) : State :=
  let c : Completion :=
    { tag := tag, status := BitVec.ofNat 8 status, seq := 0, epoch := epochNow s, result := BitVec.ofNat 32 result,
      isFinal := true, atWrite := true }
  postCompletion s p c hadInterim

/-- The result of a failed check: bit 31, the offset of the first failing field and the domain at fault (R324). -/
def failResult (off dom : Nat) : Nat := 0x80000000 + off % 128 * 0x1000000 + dom % 256

/-! ### Events -/

/-- Room in a port's event ring for records not yet waiting to be written. -/
def evRoom (P : Port) : Bool := decide (ringUsed (ringOf P 2) + P.evWait.length < ringSize (ringOf P 2))

/-- A port's event is created (R298): discarded while the port or its EVQ is disabled; otherwise it goes to the
ring, to the backlog of 64, or is dropped and counted. -/
def postEvent (s : State) (p : Nat) (e : Event) : State :=
  let P := portOf s p
  if !P.en || !(ringOf P 2).en || P.fabErr then s
  else if P.backlog.isEmpty && P.ovfDrops == 0 && evRoom P then setPort s p (fun P => { P with evWait := P.evWait ++ [e] })
  else if P.backlog.length < 64 then setPort s p (fun P => { P with backlog := P.backlog ++ [e] })
  else
    let first := !P.ovfOpen
    let s1 := setPort s p (fun P => { P with
      ovfCnt := P.ovfCnt + 1, evOvf := true, ovfOpen := true, ovfDrops := Nat.min (P.ovfDrops + 1) 0xFFFFFFFF,
      ovfFirst := if P.ovfDrops = 0 then s.time.gtc else P.ovfFirst, ovfLast := s.time.gtc })
    if first then raise s1 0 0x51 0x0 p 0 else s1

/-- The OVERFLOW record of a port (R326). -/
def overflowEvent (s : State) (P : Port) : Event :=
  { typ := 0x04, dom := 0xFE, cls := 0, epoch := epochIn s,
    pay := leBytes 4 P.ovfDrops ++ zeros 4 ++ leBytes 8 P.ovfFirst ++ leBytes 8 P.ovfLast }

/-- Records that move from overflow record and backlog to the ring while it has room (R298). -/
def drainBacklog (s : State) : Nat → Port → Port
  | 0, P => P
  | n + 1, P =>
    if !evRoom P then P
    else if P.ovfDrops ≠ 0 then
      drainBacklog s n { P with evWait := P.evWait ++ [overflowEvent s P], ovfDrops := 0, ovfFirst := 0, ovfLast := 0,
                                ovfOpen := !P.backlog.isEmpty }
    else
      match P.backlog with
      | [] => { P with ovfOpen := false }
      | e :: rest => drainBacklog s n { P with evWait := P.evWait ++ [e], backlog := rest, ovfOpen := P.ovfOpen && !rest.isEmpty }

/-! ### The strata queue -/

/-- A record enters the strata write queue (R24, R388): nothing is written while the log is unavailable, and a full
queue of 16 takes no S1 or S2 record. The answer is the record's sequence, if it was queued. -/
def queueRecord (s : State) (stratum : Fin 4) (typ : Nat) (gtc : Nat) (pay : List Byte) : State × Option DWord :=
  if !s.strata.avail then (s, none)
  else if stratum ≠ 3 ∧ 16 ≤ s.strata.queue.length then (s, none)
  else
    let r : StrataRec :=
      { stratum := stratum, typ := BitVec.ofNat 16 typ, gtc := if s.time.everVld then gtc else 0, pay := pay,
        seq := s.strata.nextSeq }
    ({ s with strata := { s.strata with queue := s.strata.queue ++ [r], nextSeq := s.strata.nextSeq + 1 } },
     some s.strata.nextSeq)

/-! ### Free values -/

/-- A fresh free value below a bound; the step advances the index (log 5). -/
def freshBelow (s : State) (n : Nat) : Nat × State := (Config.fresh s.freeIdx % n, { s with freeIdx := s.freeIdx + 1 })

end Sys2Proof.Machine
end

