-- ==== Sys2Proof/Machine/Nor.lean ====
section
/-! DEFINITION. The NOR device and the strata writer: instructions, the search at bring-up, record programs, block erases, the last-breath record and
reads (R57–R59, R345, R387–R394). -/

namespace Sys2Proof.Machine

/-! ### Instructions (R58) -/

/-- What the writer uses an instruction for (Table 02-10). -/
inductive NorUse where
  | readSfdp | reset | enter4 | read | program | sectorErase | blockErase
deriving DecidableEq, Repr, Inhabited

/-- The instructions of a use, with the write enable and the status read that go with it (Table 02-10); `instr4` selects the column. A device without
4-byte instructions has been put into 4-byte address mode. -/
def norCodes (instr4 : Bool) : NorUse → List Byte
  | .readSfdp => [0x5A]
  | .reset => [0x66, 0x99]
  | .enter4 => [0xB7]
  | .read => [if instr4 then 0xEC else 0xEB]
  | .program => [0x06, if instr4 then 0x12 else 0x02, 0x05]
  | .sectorErase => [0x06, if instr4 then 0x21 else 0x20, 0x05]
  | .blockErase => [0x06, if instr4 then 0xDC else 0xD8, 0x05]

/-- The instructions of a use on the device that SFDP described. -/
def norUse (s : State) (u : NorUse) : List Byte := norCodes (match s.strata.dev with | some x => x.instr4 | none => false) u

/-- The erase of a 64 KiB block: one block erase where SFDP declares that type, else sixteen sector erases (R58, R390; log 86). -/
def eraseUse (s : State) : List Byte :=
  let whole := match s.strata.dev with | some x => x.erases.any (fun e => e.1 == 0x10000) | none => true
  if whole then norUse s .blockErase else (List.range 16).flatMap (fun _ => norUse s .sectorErase)

/-- A program of n pages with the read-back of what was written (R390). -/
def programUse (s : State) (pages : Nat) : List Byte := (List.range pages).flatMap (fun _ => norUse s .program) ++ norUse s .read

/-- The instructions sent by an event of the writer. -/
def issue (l : List Byte) (s : State) : State := { s with strata := { s.strata with issued := l } }

/-- 4-byte addressing is in use from the bring-up of a device that fits: by its 4-byte instructions, or by the mode that 0xB7 enters (R58; log 86). -/
def addr4 (s : State) : Bool := s.strata.dev.isSome

/-- Whether the device declares program suspend (`DG.NOR_STAT.PSUSP`). -/
def declaresPsusp (s : State) : Bool := match s.strata.dev with | some x => x.psusp.isSome | none => false

/-- Whether a page program in progress can be suspended (R394). -/
def suspendsPrograms (s : State) : Bool := declaresPsusp s && s.strata.psuspEn

/-! ### Strata and slots (R387, R388, R390) -/

/-- Base address, size in bytes, and record size of a stratum (Table 16-7). -/
def stratumOf (k : Nat) : Nat × Nat × Nat :=
  match k with
  | 0 => (0, 0x100000, 256)
  | 1 => (0x100000, 0x400000, 256)
  | 2 => (0x500000, 0x3800000, 256)
  | _ => (0x3D00000, 0x200000, 1024)

/-- Record slots of a stratum. -/
def slotsOf (k : Nat) : Nat := (stratumOf k).2.1 / (stratumOf k).2.2

/-- Records of a 64 KiB block. -/
def blockOf (k : Nat) : Nat := 0x10000 / (stratumOf k).2.2

/-- The byte address of a slot in the running number of its stratum. -/
def slotAddr (k n : Nat) : Nat := (stratumOf k).1 + n * (stratumOf k).2.2 % (stratumOf k).2.1

/-- The byte address of a stratum's head: its next free slot (R390). -/
def headAddr (s : State) (k : Nat) : Nat := slotAddr k (vget s.strata.heads k)

/-- Magic of a stratum's records (Table 16-8). -/
def magicOf (k : Nat) : List Byte := ascii (if k = 3 then "DGLB" else "DGSR")

/-- The bytes of a record as it is programmed: the header of Table 16-8, the payload, and the CRC-32C of every other byte. -/
def recordPage (boots : Word) (r : StrataRec) : List Byte :=
  let size := (stratumOf r.stratum).2.2
  let body := magicOf r.stratum ++ leBytes 2 r.typ.toNat ++ leBytes 2 r.pay.length ++ leBytes 8 r.seq.toNat ++
    leBytes 8 r.gtc ++ leBytes 4 (epochOf r.gtc).toNat ++ leBytes 4 boots.toNat ++ slice r.pay 0 (size - 36)
  body ++ leBytes 4 (crc32c body).toNat

/-- Whether the bytes of a slot are a record: its size, magic and CRC-32C. Every reader skips the others (R388). -/
def recordGood (k : Nat) (b : List Byte) : Bool :=
  let size := (stratumOf k).2.2
  b.length == size && b.take 4 == magicOf k && leAt b (size - 4) 4 == (crc32c (b.take (size - 4))).toNat

/-- The sequence of a record. -/
def recordSeq (b : List Byte) : Nat := leAt b 8 8

/-! ### The search at bring-up (R388) -/

/-- The good records of a stratum in the device: slot and bytes. -/
def goodSlots (image : List (Nat × List Byte)) (k : Nat) : List (Nat × List Byte) :=
  let x := stratumOf k
  ((image.filter (fun e => decide (x.1 ≤ e.1) && decide (e.1 < x.1 + x.2.1) && e.1 % x.2.2 == 0 && recordGood k e.2))).map
    (fun e => ((e.1 - x.1) / x.2.2, e.2))

/-- The record of highest sequence in a list. -/
def newest (l : List (Nat × List Byte)) : Option (Nat × List Byte) :=
  l.foldl (fun b e => match b with | some x => if recordSeq x.2 < recordSeq e.2 then some e else b | none => some e) none

/-- The record of lowest sequence in a list. -/
def eldest (l : List (Nat × List Byte)) : Option (Nat × List Byte) :=
  l.foldl (fun b e => match b with | some x => if recordSeq e.2 < recordSeq x.2 then some e else b | none => some e) none

/-- The newest record of a stratum: the search over the first record of each 4 KiB sector finds its sector (R388). -/
def newestOf (image : List (Nat × List Byte)) (k : Nat) : Option (Nat × List Byte) :=
  let g := goodSlots image k
  let per := 0x1000 / (stratumOf k).2.2
  match newest (g.filter (fun e => e.1 % per == 0)) with
  | some f => newest (g.filter (fun e => e.1 / per == f.1 / per))
  | none => none

/-- Head and oldest slot of a stratum as found: the next erased slot after the newest record, in the second round of the running number, and the first
record of the oldest sector. -/
def logEnds (image : List (Nat × List Byte)) (k : Nat) : Nat × Nat :=
  match newestOf image k with
  | none => (0, 0)
  | some n =>
    let used (i : Nat) : Bool := image.any (fun e => e.1 == slotAddr k i)
    let head := slotsOf k + match (List.range 64).find? (fun i => !used (n.1 + 1 + i)) with | some i => n.1 + 1 + i | none => n.1 + 65
    let per := 0x1000 / (stratumOf k).2.2
    match eldest ((goodSlots image k).filter (fun e => e.1 % per == 0)) with
    | some o => (head, if o.1 + slotsOf k < head then o.1 + slotsOf k else o.1)
    | none => (head, head)

/-- The highest sequence in the log, 0 in an empty one. -/
def highestSeq (image : List (Nat × List Byte)) : Nat :=
  ([1, 2, 3].map (fun k => match newestOf image k with | some e => recordSeq e.2 | none => 0)).foldl Nat.max 0

/-- The last boot record (Table 16-9 type 0x0004). -/
def lastBoot (image : List (Nat × List Byte)) : Option (Nat × List Byte) := newest ((goodSlots image 2).filter (fun e => leAt e.2 4 2 == 4))

/-- Whether S3 holds a record newer than the last boot record (R394). -/
def breathFound (image : List (Nat × List Byte)) : Bool :=
  match newestOf image 3 with
  | some e => (match lastBoot image with | some b => decide (recordSeq b.2 < recordSeq e.2) | none => true)
  | none => false

/-- Whether a NOR device meets what R57 asks of its SFDP table. -/
def sfdpMeets (x : Sfdp) : Bool :=
  x.revB && decide (64 * 2 ^ 20 ≤ x.bytes) && x.page == 256 && x.erases.any (fun e => e.1 == 0x1000) && decide (100 ≤ x.readMHz) &&
  decide (x.progUs ≤ 250) && (match x.esusp with | some u => decide (u.us ≤ 30) | none => false)

/-- Whether the log can be kept: the SFDP read succeeds and the device meets R57 (R59). -/
def norFit (nor : NorInfo) : Bool := match nor.sfdp with | some x => sfdpMeets x | none => false

/-! ### Erases (R390) -/

/-- The first slot of the oldest block of a stratum. -/
def oldestBlock (s : State) (k : Nat) : Nat := vget s.strata.oldest k / blockOf k * blockOf k

/-- Whether the blocks to be kept erased from the head's on, those whose erase failed not counted, reach the oldest block (R390, log 60). -/
def eraseDue (s : State) (k : Nat) : Bool :=
  let bad := (s.strata.spoiled.filter (fun e => e.1.val == k)).length
  decide (oldestBlock s k + slotsOf k < (vget s.strata.heads k / blockOf k + Nat.max 1 s.strata.ahead.toNat + bad) * blockOf k)

/-- The oldest block of a stratum is to be erased, after what the event has sent: its records are retired (R390). -/
def eraseBlock (s : State) (k : Nat) : State :=
  let b := oldestBlock s k
  issue (s.strata.issued ++ eraseUse s) { s with strata := { s.strata with
    erasing := some (Fin.ofNat 4 k, b + slotsOf k), oldest := vset s.strata.oldest k (b + blockOf k) } }

/-- An erase that is due starts, one at a time. -/
def startErase (s : State) : State :=
  if s.strata.erasing.isSome || !s.strata.avail || s.strata.lbBusy then s
  else match [1, 2, 3].find? (eraseDue s) with | some k => eraseBlock s k | none => s

/-- The head passes a slot, and any block whose erase failed. -/
def passSlot (s : State) (k : Nat) : State :=
  let step (h : Nat) : Nat := if s.strata.spoiled.any (fun e => e.1.val == k && e.2 == h) then h + blockOf k else h
  let h := step (step (vget s.strata.heads k + 1))
  { s with strata := { s.strata with heads := vset s.strata.heads k h,
                                     spoiled := s.strata.spoiled.filter (fun e => e.1.val != k || decide (h < e.2 + blockOf k)) } }

/-! ### Programs and their failures (R390–R392) -/

/-- A record enters the strata queue whatever its length: the journal-gap record goes ahead of a message that has room. -/
def pushRecord (s : State) (stratum : Fin 4) (typ : Nat) (gtc : Nat) (pay : List Byte) : State :=
  let r : StrataRec :=
    { stratum := stratum, typ := BitVec.ofNat 16 typ, gtc := if s.time.everVld then gtc else 0, pay := pay,
      seq := s.strata.nextSeq }
  { s with strata := { s.strata with queue := s.strata.queue ++ [r], nextSeq := s.strata.nextSeq + 1 } }

/-- A record has been programmed and read back at its stratum's head, which moves on (R390). -/
def programRecord (s : State) (r : StrataRec) : State :=
  let s1 : State := { s with strata := { s.strata with wrote := some (headAddr s r.stratum, recordPage s.strata.boots r) } }
  passSlot (issue (programUse s (if r.stratum = 3 then 4 else 1)) s1) r.stratum

/-- A second failure: NOR_ERR with the address, and the third one within 1 s closes the log (R392). -/
def norError (s : State) (k addr : Nat) : State :=
  let recentErr := (s.time.run :: s.strata.errAt).filter (fun x => decide (s.time.run < x + 1000000000))
  let open_ := s.strata.avail && decide (recentErr.length < 3)
  let s1 : State := { s with strata := { s.strata with errAt := recentErr, avail := open_ } }
  let s2 : State := if open_ then s1
    else { s1 with strata := { s1.strata with queue := [], erasing := none, lbBusy := false, lbWait := false } }
  raise s2 1 0x60 0xB k (addr / 64 * 64)

/-- The program of an S1 or S2 record ends: a failed one is tried again in the next slot, once (R390, R392). -/
def programEnds (ok : Bool) (r : StrataRec) (s : State) : State :=
  let k := r.stratum.val
  let gone : State := { s with strata := { s.strata with queue := s.strata.queue.erase r, retried := false } }
  if ok then programRecord gone r
  else if !s.strata.retried then passSlot (issue (programUse s 1) { s with strata := { s.strata with retried := true } }) k
  else norError (passSlot gone k) k (headAddr s k)

/-- The erase of a block ends: a failed one is tried once more on the next block (R392). -/
def eraseEnds (ok : Bool) (k : Fin 4) (b : Nat) (s : State) : State :=
  let gone : State := { s with strata := { s.strata with erasing := none, eraseRetried := false } }
  let bad : List (Fin 4 × Nat) := s.strata.spoiled ++ [(k, b)]
  if ok then gone
  else if !s.strata.eraseRetried then eraseBlock { s with strata := { s.strata with spoiled := bad, eraseRetried := true } } k
  else norError { gone with strata := { gone.strata with spoiled := bad } } k (slotAddr k b)

/-- What the writer works on: a record's program suspends an erase, but a record for the block being erased waits for it (R57, R390). -/
inductive NorWork where
  | program (r : StrataRec)
  | erase (k : Fin 4) (b : Nat)
deriving DecidableEq, Repr, Inhabited

/-- The work in progress but for the last breath. -/
def norWork (s : State) : Option NorWork :=
  match s.strata.erasing, s.strata.queue.find? (fun r => r.stratum != 3) with
  | some e, some r =>
    if (e.1 == r.stratum || (e.1 == 3 && s.strata.lbBusy)) && decide (e.2 ≤ vget s.strata.heads e.1) then some (.erase e.1 e.2) else some (.program r)
  | some e, none => some (.erase e.1 e.2)
  | none, some r => some (.program r)
  | none, none => none

/-- The work in progress ends, verified or not. -/
def workEnds (ok : Bool) (s : State) : State :=
  match norWork s with
  | some (.program r) => programEnds ok r s
  | some (.erase k b) => eraseEnds ok k b s
  | none => s

/-! ### The last breath (R393, R394) -/

/-- Whether the S3 record waits for the work in progress: a page program that cannot be suspended, or the erase of its own block. -/
def breathWaits (s : State) : Bool :=
  match norWork s with
  | some (.program _) => !suspendsPrograms s
  | some (.erase k b) => k == 3 && decide (b ≤ vget s.strata.heads 3)
  | none => false

/-- The suspend or resume instruction for the work in progress. -/
def breathCodes (s : State) (f : NorSuspend → Byte) : List Byte :=
  let of (x : Option NorSuspend) : List Byte := match x with | some y => [f y] | none => []
  match s.strata.dev, norWork s with
  | some x, some (.program _) => if suspendsPrograms s then of x.psusp else []
  | some x, some (.erase _ _) => of x.esusp
  | _, _ => []

/-- The last-breath write starts: work in progress is suspended, or finishes first where it cannot be (R394). -/
def startBreath (s : State) : State :=
  if s.strata.lbBusy then s
  else
    let w := breathWaits s
    issue (if w then [] else breathCodes s NorSuspend.suspend) { s with strata := { s.strata with lbBusy := true, lbWait := w, lbRetried := false } }

/-- The oldest S3 record leaves the queue; suspended work is resumed when no other waits. -/
def breathGone (s : State) (r : StrataRec) : State :=
  let q := s.strata.queue.erase r
  { s with strata := { s.strata with queue := q, lbBusy := q.any (fun x => x.stratum == 3), lbRetried := false } }

/-- The last-breath record being written. -/
def breathRec (s : State) : Option StrataRec := s.strata.queue.find? (fun r => r.stratum == 3)

/-- `LAST_BREATH_DONE`: the S3 record is complete and suspended work resumes (R394). -/
def execLastBreathDone (t : Nat) (s : State) : Host.Outcome State Fault Refusal :=
  let s := now t s
  if !s.strata.lbBusy || s.strata.lbWait then .next s
  else
    match breathRec s with
    | none => .next { s with strata := { s.strata with lbBusy := false } }
    | some r =>
      let u := programRecord (breathGone s r) r
      .next (startErase (issue (programUse s 4 ++ (if u.strata.lbBusy then [] else breathCodes s NorSuspend.resume)) u))

/-- The program of the last-breath record fails: once more in the next slot, then NOR_ERR (R392). -/
def breathFails (s : State) : State :=
  match breathRec s with
  | none => s
  | some r =>
    if !s.strata.lbRetried then passSlot (issue (programUse s 4) { s with strata := { s.strata with lbRetried := true } }) 3
    else norError (passSlot (breathGone s r) 3) 3 (headAddr s 3)

/-- `STRATA_WRITE_DONE`: a record program or a block erase completes and is verified, tried again, or given up (R390, R392). While a last-breath
record is written it is the end of the work that the record waits for, or a failed program of the record itself (R394). -/
def execStrataWriteDone (ok : Bool) (t : Nat) (s : State) : Host.Outcome State Fault Refusal :=
  let s := now t s
  if !s.strata.avail then .next s
  else if s.strata.lbBusy && !s.strata.lbWait then .next (if ok then s else breathFails s)
  else
    let u := workEnds ok (issue [] s)
    .next (startErase { u with strata := { u.strata with lbWait := false } })

/-! ### Reads (R345, R388) -/

/-- Copy 1 of S0, or else copy 2 (R348, R368). -/
def s0Choice (r : S0Read) : Option CharRecord := match r.copy1 with | some x => some x | none => r.copy2

/-- A record put into a list in sequence order. -/
def insertSeq (b : List Byte) : List (List Byte) → List (List Byte)
  | [] => [b]
  | x :: xs => if recordSeq b < recordSeq x then b :: x :: xs else x :: insertSeq b xs

/-- Whether a slot holds a record that is not retired (R390). -/
def slotLive (s : State) (k slot : Nat) : Bool :=
  let first := vget s.strata.oldest k
  decide (first + (slot + slotsOf k - first % slotsOf k) % slotsOf k < vget s.strata.heads k)

/-- The records that a `LOG_READ` copies, of the slots as read: good ones that are not retired, in sequence order, from the start on. S0 has no record
header: its pages are copied as they lie (R345, R387; log 86). -/
def pickRecords (s : State) (k start count : Nat) (slots : List (Nat × List Byte)) : List (List Byte) :=
  if k = 0 then (slots.map (fun e => slice e.2 0 256)).take count
  else
    let good := slots.filter (fun e => recordGood k e.2 && slotLive s k e.1)
    ((good.foldl (fun l e => insertSeq e.2 l) []).filter (fun b => decide (start ≤ recordSeq b))).take count

end Sys2Proof.Machine
end

