-- ==== Sys2Proof/Machine/Operands.lean ====
section
/-! DEFINITION. Operand forms: register fields of words, descriptor bytes and their fields, and CLE operands. -/

namespace Sys2Proof.Machine

/-! ### Fields of register words -/

/-- Bits [hi:lo] of a word as a number. -/
def fld (w : Word) (hi lo : Nat) : Nat := w.toNat / 2 ^ lo % 2 ^ (hi - lo + 1)

/-- Bit i of a word. -/
def bitOf (w : Word) (i : Nat) : Bool := w.getLsbD i

/-- A Bool as a bit at a place. -/
def bitAt (b : Bool) (i : Nat) : Nat := if b then 2 ^ i else 0

/-! ### Descriptors (Table 14-1) -/

/-- Bytes 0–59 of a descriptor as they stand in the command ring. -/
def descBytes (d : Desc) : List Byte :=
  [d.opcode, d.flags] ++ leBytes 2 d.tag.toNat ++ [d.dom, d.sub] ++ leBytes 2 d.rsv.toNat ++ leBytes 8 d.atGtc.toNat ++
  d.ops.toList ++ leBytes 4 d.hseq.toNat

/-- FENCE. -/
def dFence (d : Desc) : Bool := d.flags.getLsbD 0
/-- GROUP. -/
def dGroup (d : Desc) : Bool := d.flags.getLsbD 1
/-- GROUP_END. -/
def dGroupEnd (d : Desc) : Bool := d.flags.getLsbD 2
/-- AT. -/
def dAt (d : Desc) : Bool := d.flags.getLsbD 3
/-- NOTIFY. -/
def dNotify (d : Desc) : Bool := d.flags.getLsbD 4

/-- The operand byte at descriptor byte `i` (16–55). -/
def opB (d : Desc) (i : Nat) : Nat := (vget d.ops (i - 16)).toNat

/-- The little-endian number in `n` operand bytes from descriptor byte `i`. -/
def opN (d : Desc) (i n : Nat) : Nat := leNat ((d.ops.toList.drop (i - 16)).take n)

/-! ### CLE operands (R158–R161) -/

/-- A saturated Q16.16 result. -/
def q32 (x : Int) : Word := BitVec.ofInt 32 (sat32 x)

/-- sext(imm): the immediate as a signed 14-bit number (R159). -/
def sext14 (imm : BitVec 14) : Int := imm.toInt

/-- The state-word index of LDSX and STSX: imm plus the floor of gb's value, modulo 64 (R159). -/
def idxSum (idx : BitVec 6) (gb : Word) : Nat := ((idx.toNat : Int) + gb.toInt / 65536).emod 64 |>.toNat

/-- A condition code over signed values (Table 07-8); the invalid codes hold never. -/
def condHolds (c : BitVec 3) (x y : Int) : Bool :=
  match c.toNat with
  | 0 => decide (x = y)
  | 1 => decide (x ≠ y)
  | 2 => decide (x < y)
  | 3 => decide (y ≤ x)
  | 4 => decide (x ≤ y)
  | 5 => decide (y < x)
  | _ => false

end Sys2Proof.Machine
end

