-- ==== Sys2Proof/Machine/Programs.lean ====
section
/-! DEFINITION. CLE programs: the built-in program 32, units of the store, and the loader's checks (R162–R166, R190). -/

namespace Sys2Proof.Machine

/-- The words of program 32 (Table 08-5). -/
def refWords : List Word :=
  [0x40400002, 0x40800000, 0x64C48000, 0x31000000, 0x29400000, 0x890D4000, 0x2ED00000, 0x29800001] ++
  [0x29C00002, 0x8119C000, 0x34100000, 0x2A000003, 0x864E0000, 0x62650000, 0x62644000, 0x42800008] ++
  [0x62668000, 0x43000005, 0x29800004, 0x29C00005, 0x8319C000, 0x62670000, 0x44240000, 0x43800004] ++
  [0x7FBB0000, 0x29400006, 0x67B94000, 0x17D4280E, 0x443C0001, 0x66ED0000, 0x27000001, 0x1770080B] ++
  [0x44340003, 0x08000000]

/-- The constants of program 32 (Table 08-4). -/
def refConsts : List Word :=
  [0x0000051F, 0xFFEC0000, 0x00140000, 0x00008000, 0xFFE20000, 0x001E0000, 0x00080000]

/-- Program 32, in mask ROM (R190). Its image has no CRC of its own. -/
def refProgram : Program :=
  { ident := 0xD6210020, crc := 0, init := List.replicate 64 0, consts := refConsts, sections := [refWords],
    unusable := false }

/-- A program by number: 0–31 from the store, 32 the built-in one (R162). -/
def progOf (s : State) (p : Nat) : Option Program := if p = 32 then some refProgram else vget s.progs p

/-- Whether a program number is bindable: not empty and not marked unusable (R166). -/
def bindable (s : State) (p : Nat) : Bool :=
  match progOf s p with
  | some g => !g.unusable
  | none => false

/-- Store units of a program: ceil((64 + nconst + section lengths) / 16) (R162). -/
def unitsOf (g : Program) : Nat := ceilDiv (64 + g.consts.length + (g.sections.map List.length).sum) 16

/-- Store units in use by program numbers 0–31. -/
def unitsUsed (s : State) : Nat :=
  ((List.range 32).map (fun p => match vget s.progs p with | some g => unitsOf g | none => 0)).sum

/-- The program bound to a physical domain; a pair uses the even member's binding from t + 4,000 (Table 07-3). -/
def boundProg (s : State) (d : Nat) : Option Program := progOf s (cfgAt s d).prog

/-- The constants a domain's slot reads. -/
def constsOf (s : State) (d : Nat) : List Word :=
  match boundProg s d with
  | some g => g.consts
  | none => []

/-! ### The loader -/

/-- What the loader finds wrong: reason, section and word index, 0xFFFF for a header fault (R164). -/
structure LoadFault where
  reason : Nat
  sect   : Nat
  word   : Nat
deriving DecidableEq, Repr, Inhabited

/-- A header fault. -/
def hdrFault (r : Nat) : LoadFault := ⟨r, 0, 0xFFFF⟩

/-- The completion result of a failed image check (R164). -/
def loadResult (f : LoadFault) : Nat := f.reason * 0x1000000 + f.sect * 0x200000 + f.word

/-- The words of an image region. -/
def imgWords (bs : List Byte) (off n : Nat) : List Word :=
  (List.range n).map (fun i => BitVec.ofNat 32 (leAt bs (off + 4 * i) 4))

/-- Cut a list of words into sections of the given lengths. -/
def cutSections : List Nat → List Word → List (List Word)
  | [], _ => []
  | n :: rest, ws => ws.take n :: cutSections rest (ws.drop n)

/-- The first word, section by section, that a test refuses. -/
def firstBad (r : Nat) (bad : List Word → Nat → Word → Bool) (secs : List (List Word)) : Option LoadFault :=
  (secs.zipIdx).findSome? (fun sec =>
    (sec.1.zipIdx).findSome? (fun x => if bad sec.1 x.2 x.1 then some ⟨r, sec.2, x.2⟩ else none))

/-- Reason 0x04: the opcode is listed in Table 07-7. -/
def badOpcode (_ : List Word) (_ : Nat) (w : Word) : Bool := (rawCle w).isNone

/-- Reason 0x05: an unused field of the word is not 0. -/
def badUnused (_ : List Word) (_ : Nat) (w : Word) : Bool :=
  match rawCle w with
  | some i => !unusedZero w i
  | none => false

/-- Reason 0x06: IN and OUT ports. -/
def badPort (_ : List Word) (_ : Nat) (w : Word) : Bool :=
  match rawCle w with
  | some (.cleIn _ p) => !inPortOk p
  | some (.cleOut _ p) => !outPortOk p
  | _ => false

/-- Reason 0x07: the LDC index is below nconst. -/
def badConst (n : Nat) (_ : List Word) (_ : Nat) (w : Word) : Bool :=
  match rawCle w with
  | some (.ldc _ i) => decide (n ≤ i.toNat)
  | _ => false

/-- Reason 0x08: shift counts. -/
def badShift (_ : List Word) (_ : Nat) (w : Word) : Bool :=
  match rawCle w with
  | some (.shl _ _ n) => !shiftOk n
  | some (.shr _ _ n) => !shiftOk n
  | _ => false

/-- The bodies of a section's REPs: first word and length. -/
def bodiesOf (sec : List Word) : List (Nat × Nat) :=
  (sec.zipIdx).filterMap (fun x =>
    match rawCle x.1 with
    | some (.rep m1 _) => some (x.2 + 1, m1.toNat + 1)
    | _ => none)

/-- The body that holds a word, if any. -/
def bodyAt (sec : List Word) (i : Nat) : Option (Nat × Nat) :=
  (bodiesOf sec).find? (fun b => decide (b.1 ≤ i ∧ i < b.1 + b.2))

/-- Whether a word is END. -/
def isEndWord (w : Word) : Bool := rawCle w == some .cleEnd

/-- Whether a SKIPIF's range is placed as R161 states: inside its own body when it stands in one; otherwise inside
the section, over whole REPs only; and with no END in it. -/
def skipPlaced (sec : List Word) (i n : Nat) : Bool :=
  let range := (List.range n).map (fun j => i + 1 + j)
  decide (i + n < sec.length) && range.all (fun j => !isEndWord (sec.getD j 0)) &&
  match bodyAt sec i with
  | some b => decide (i + n < b.1 + b.2)
  | none => (bodiesOf sec).all (fun b =>
      -- the REP and its body lie wholly in the skipped range or wholly outside it
      let inRange := fun j => decide (i + 1 ≤ j ∧ j ≤ i + n)
      ((List.range (b.2 + 1)).all (fun j => inRange (b.1 - 1 + j))) ||
      ((List.range (b.2 + 1)).all (fun j => !inRange (b.1 - 1 + j))))

/-- Reason 0x09: conditions, SKIPIF counts and ranges. -/
def badSkip (sec : List Word) (i : Nat) (w : Word) : Bool :=
  match rawCle w with
  | some (.skipif _ _ c n) => !condOk c || !skipOk n || !skipPlaced sec i n.toNat
  | some (.sel _ _ _ c _) => !condOk c
  | _ => false

/-- Reason 0x0A: a REP body inside the section, with no REP and no END in it. -/
def badRep (sec : List Word) (i : Nat) (w : Word) : Bool :=
  match rawCle w with
  | some (.rep m1 _) =>
    let m := m1.toNat + 1
    decide (sec.length ≤ i + m) || (List.range m).any (fun j =>
      match rawCle (sec.getD (i + 1 + j) 0) with
      | some (.rep _ _) => true
      | some .cleEnd => true
      | _ => false)
  | _ => false

/-- Reason 0x0B: the section ends with END and holds no other END. -/
def badEnd (sec : List Word) (i : Nat) (w : Word) : Bool :=
  if i + 1 = sec.length then !isEndWord w else isEndWord w

/-- The running worst-case length of a section at each of its words outside bodies: 1 for an instruction, 1 + k·m for
a REP with its body (R161). The answer is the total and the first word at whose end it exceeds 36. -/
def worstCase (sec : List Word) : Nat × Option Nat :=
  (sec.zipIdx).foldl (fun acc x =>
    if (bodyAt sec x.2).isSome then acc
    else
      let c := match rawCle x.1 with
        | some (.rep m1 k1) => 1 + (k1.toNat + 1) * (m1.toNat + 1)
        | _ => 1
      let t := acc.1 + c
      (t, if acc.2.isSome then acc.2 else if 36 < t then some x.2 else none)) (0, none)

/-- Reason 0x0C: the first section whose worst case exceeds 36 cycles. -/
def badLength (secs : List (List Word)) : Option LoadFault :=
  (secs.zipIdx).findSome? (fun sec => (worstCase sec.1).2.map (fun i => ⟨0x0C, sec.2, i⟩))

/-- The first of several checks that fails. -/
def firstSome (l : List (Option LoadFault)) : Option LoadFault := l.findSome? id

/-- The loader's checks on a program image of the fetched length, in the order of Table 07-10. Of reason 0x05 met both in the header and in an
instruction word, the header's is reported. DESIGN CHOICE (log 83). -/
def loadProgramImage (bs : List Byte) : Except LoadFault Program :=
  let n := leAt bs 5 1
  let nconst := leAt bs 6 2
  let lens := (List.range 8).map (fun i => leAt bs (8 + 2 * i) 2)
  let used := lens.take n
  let total := 320 + 4 * nconst + 4 * used.sum
  let crc : Word := BitVec.ofNat 32 (leAt bs 60 4)
  if crc32c (bs.take 60 ++ bs.drop 64) ≠ crc then .error (hdrFault 0x01)
  else if slice bs 0 4 ≠ ascii "DGCP" ∨ leAt bs 4 1 ≠ 1 then .error (hdrFault 0x02)
  else if ¬ [1, 2, 4, 8].contains n ∨ 256 < nconst ∨ ¬ used.all (fun l => decide (2 ≤ l ∧ l ≤ 36)) ∨
      ¬ (lens.drop n).all (fun l => l == 0) ∨ bs.length ≠ total then .error (hdrFault 0x03)
  else
    let secs := cutSections used (imgWords bs (320 + 4 * nconst) used.sum)
    let hdrBad := leNat (slice bs 26 2) ≠ 0 ∨ leNat (slice bs 32 28) ≠ 0
    let chk := [firstBad 0x04 badOpcode secs, if hdrBad then some (hdrFault 0x05) else none,
      firstBad 0x05 badUnused secs, firstBad 0x06 badPort secs, firstBad 0x07 (badConst nconst) secs,
      firstBad 0x08 badShift secs, firstBad 0x09 badSkip secs, firstBad 0x0A badRep secs, firstBad 0x0B badEnd secs,
      badLength secs]
    match firstSome chk with
    | some f => .error f
    | none =>
      let longest := (secs.map (fun x => (worstCase x).1)).foldl Nat.max 0
      if leAt bs 24 2 ≠ longest then .error (hdrFault 0x0D)
      else .ok { ident := BitVec.ofNat 32 (leAt bs 28 4), crc := crc, init := imgWords bs 64 64,
                 consts := imgWords bs 320 nconst, sections := secs, unusable := false }

end Sys2Proof.Machine
end

