-- ==== Sys2Proof/Machine/Flags.lean ====
section
/-! DEFINITION. Status codes, interrupt source levels and eligibility, and every register as a read returns it. -/

namespace Sys2Proof.Machine

/-! ### Status codes (Table 14-3a) -/

/-- OK. -/
def stOk : Nat := 0x00
/-- QUEUED_AT. -/
def stQueuedAt : Nat := 0x01
/-- BAD_OPCODE. -/
def stBadOpcode : Nat := 0x10
/-- BAD_OPERAND. -/
def stBadOperand : Nat := 0x11
/-- NO_RIGHTS. -/
def stNoRights : Nat := 0x12
/-- BAD_CHECK. -/
def stBadCheck : Nat := 0x13
/-- LATE. -/
def stLate : Nat := 0x14
/-- BUSY. -/
def stBusy : Nat := 0x15
/-- REFUSED_STATE. -/
def stRefused : Nat := 0x16
/-- GROUP_ABORT. -/
def stGroupAbort : Nat := 0x17
/-- NOT_READY. -/
def stNotReady : Nat := 0x18
/-- RESOURCE. -/
def stResource : Nat := 0x19

/-! ### Interrupts (R308–R314) -/

/-- Whether the MC runs and is not gated (R15, Table 18-8). -/
def mcRunning (s : State) : Bool := s.mc.run && !s.mc.gated

/-- Whether converter i is present: enabled and not treated as absent (R53, R421). -/
def convPresent (s : State) (i : Nat) : Bool := s.bus.convEn.getLsbD i && !(vget s.bus.conv i).absent

/-- Level of a source without its software-set latch (Table 13-5a, Table 11-6, R285, R370, R395). -/
def srcLevel (s : State) (src : Nat) : Bool :=
  if src < 15 ∨ (32 ≤ src ∧ src < 47) ∨ (48 ≤ src ∧ src < 63) ∨ (128 ≤ src ∧ src < 208) then s.irq.latched.getLsbD src
  else if src = 15 then s.safety.safe
  else if src = 16 then s.therm.tripped
  else if src = 17 then s.therm.warnOver
  else if src = 18 then (List.range 64).any (fun d => (domOf s d).arb.tl.isSome)
  else if src = 19 then s.therm.fast
  else if src = 20 then (List.range 80).any (fun d => (domOf s d).hot)
  else if 64 ≤ src ∧ src < 96 then
    let P := portOf s ((src - 64) / 4)
    if src % 4 = 3 then P.fired != 0
    else
      -- acknowledged entries that the host has not taken (R294); its index may already lie beyond them
      let r := ringOf P (src % 4 + 1)
      r.acked != r.db && decide (ringDiff r r.acked r.db ≤ ringDiff r r.prod r.db)
  else if src = 96 then s.clk.lost
  else if src = 97 then (s.clk.ccur == 1 && !s.clk.lockC) || (s.clk.scur == 1 && !s.clk.lockT) || (s.clk.men && !s.clk.lockM)
  else if src = 98 then s.clk.swDone
  else if src = 99 then s.clk.refused || s.clk.cfgRej
  else if src = 100 then s.clk.fmcDone
  else if src = 101 then s.clk.causes.extractLsb' 1 4 != 0
  else if src = 102 then s.mc.state == 4 || s.mc.state == 5
  else if src = 103 then s.clk.pwrDone
  else if src = 104 then s.clk.stretch
  else if src = 112 then s.meter.done
  else if src = 113 then s.meter.calDone
  else if src = 114 then s.meter.stale
  else if src = 116 then !s.strata.avail
  else if src = 117 then s.strata.gap != 0
  else if src = 118 then s.strata.lbNew
  else if src = 120 then s.bus.alert
  else if src = 121 then (List.range 5).any (fun i => convPresent s i && !(vget s.bus.conv i).verified)
  else if src = 124 then s.mc.fails != 0
  else false

/-- Target of a source: 0–8, none for every other value (R309). -/
def srcTarget (s : State) (src : Nat) : Option Nat :=
  let r := (vget s.irq.route src).toNat
  if r ≤ 8 then some r else none

/-- A source is pending while its level or its software-set latch is 1 (R309, R314). -/
def srcPending (s : State) (src : Nat) : Bool := srcLevel s src || s.irq.swset.getLsbD src

/-- A target's enable for a source (R309). -/
def srcEnabled (s : State) (tgt src : Nat) : Bool :=
  if tgt = 8 then s.irq.t8En.getLsbD src else (portOf s tgt).irqEn.getLsbD src

/-- The hold-off timer of a source's group for a target (R313). -/
def holdTimer (s : State) (tgt g : Nat) : Option Nat := vget (vget s.irq.timers tgt) g

/-- Eligibility (R309): routed to the target, pending, enabled, and its group's timer not running. -/
def srcEligible (s : State) (tgt src : Nat) : Bool :=
  srcTarget s src == some tgt && srcPending s src && srcEnabled s tgt src && (holdTimer s tgt (src / 16)).isNone

/-- The lowest eligible source of a target (R311). -/
def lowestEligible (s : State) (tgt : Nat) : Option Nat := (List.range 256).find? (fun src => srcEligible s tgt src)

/-- A target's claim. -/
def claimOf (s : State) (tgt : Nat) : Option (Fin 256) := if tgt = 8 then s.irq.t8Claim else (portOf s tgt).claim

/-- A target's line (R287, R300, R310, R362): asserted while it holds no claim and a source is eligible; held low for
a disabled port, a port with a reset pending, and in DEEP. -/
def irqLine (s : State) (tgt : Nat) : Bool :=
  (claimOf s tgt).isNone && (lowestEligible s tgt).isSome &&
  (tgt == 8 || ((portOf s tgt).en && (portOf s tgt).rstAt.isNone && s.clk.pwrCur != 2))

/-- Whether a unit is clocked in the power mode in force: 0 METER, 1 LANTERN, 2 TRACE, 3 FMC (R361). -/
def gateOn (s : State) (i : Nat) : Bool :=
  match s.clk.pwrCur.toNat with
  | 0 => s.clk.gateRun.getLsbD i
  | 1 => s.clk.gateSleep.getLsbD i
  | _ => false

/-! ### Registers -/

/-- A word from fields given as (value, place) pairs. -/
def wordOf (l : List (Nat × Nat)) : Word := BitVec.ofNat 32 (l.map (fun x => x.1 * 2 ^ x.2)).sum

/-- Bits 32k to 32k + 31 of a source predicate. -/
def srcWord (k : Nat) (f : Nat → Bool) : Word := wordOf ((List.range 32).map (fun i => (bitAt (f (32 * k + i)) 0, i)))

/-- A PLL configuration register (Table 15-12). -/
def pllWord (c : PllCfg) : Word := wordOf [(bitAt c.en 0, 31), (c.rdiv.toNat, 24), (c.ndiv.toNat, 10), (c.pdiv.toNat, 2)]

/-- DG.SAFE_STAT (Table 16-14). -/
def safeStat (s : State) : Word :=
  wordOf [(bitAt s.safety.safe 0, 31), (bitAt s.safety.hb 0, 30), (bitAt s.safety.pin 0, 29), (s.safety.fKind.toNat, 16),
          (s.safety.fSrc.toNat, 0)]

/-- DG.FLT_COUNT (Table 16-16). -/
def fltCount (s : State) : Word := wordOf [(s.safety.nFatal.toNat, 24), (s.safety.nCont.toNat, 12), (s.safety.nDrop.toNat, 0)]

/-- Domains SHADE, LIT or HELD in a shutter record, a mirror pair counted once (Table 18-8). -/
def activeCount (s : State) : Nat :=
  match s.records with
  | [] => 0
  | r :: _ => ((List.range 80).filter (fun l =>
      let D := vget r.doms l
      (D.st == 1 || D.st == 2 || D.st == 3) && !(D.paired && (physOf s l) % 2 == 1))).length

/-- A mode field as `DG.GMODE` reads (R418): the written value; FIXSHUT reads 1 while STEADY is in force (R398). -/
def gmodeRead (s : State) : Nat := s.mode.written.toNat ||| (if modeOn s 0 then 2 else 0)

/-- PORT_STAT (Table 13-10). -/
def portStat (P : Port) : Word :=
  wordOf [(bitAt P.rstAt.isSome 0, 31), (bitAt P.fabErr 0, 30), (P.failRing.toNat, 28), (bitAt P.dbErr 0, 27),
          (bitAt P.cfgErr 0, 26), (bitAt P.irqErr 0, 25), (bitAt P.evOvf 0, 24), (bitAt P.claim.isSome 0, 23),
          ((ringOf P 0).cons, 0)]

/-- A register of a port page (Table 18-2); 0 where none is named (R30, R414). -/
def readPort (s : State) (p o : Nat) : Word :=
  let P := portOf s p
  if o < 0x010 ∧ o % 4 = 0 then BitVec.ofNat 32 (ringOf P (o / 4)).db
  else if o = 0x010 then (match P.claim with | some c => BitVec.ofNat 32 c.val | none => 0x3FF)
  else if o = 0x01C then portStat P
  else if o = 0x020 then P.fired
  else if 0x040 ≤ o ∧ o < 0x080 then
    let r := ringOf P ((o - 0x040) / 0x10)
    if o % 0x10 = 0 then BitVec.ofNat 32 (r.base.toNat % 2 ^ 32)
    else if o % 0x10 = 4 then BitVec.ofNat 32 (r.base.toNat / 2 ^ 32)
    else if o % 0x10 = 8 then r.log2.setWidth 32 else 0
  else if o = 0x080 then wordOf ((List.range 4).map (fun i => (bitAt (ringOf P i).en 0, i)))
  else if o = 0x084 then wordOf [(p, 16), (0x20, 8), (0x10, 0)]
  else if 0x100 ≤ o ∧ o < 0x120 then srcWord ((o - 0x100) / 4) (fun x => srcTarget s x == some p && srcPending s x)
  else if 0x120 ≤ o ∧ o < 0x140 then srcWord ((o - 0x120) / 4) (fun x => P.irqEn.getLsbD x)
  else 0

/-- Which high-word latch a path uses (R415). -/
def pathNo : Path → Nat
  | .owner => 0
  | .mc => 1

/-- GTC as its registers show it: 0 until GTC_VLD has first risen (R420). -/
def gtcShown (s : State) : Nat := if s.time.everVld then s.time.gtc else 0

/-- Global registers 0x0000–0x0030. -/
def readGlobal (s : State) (o : Nat) (path : Path) : Word :=
  match o with
  | 0x0000 => 0xF1A0D621
  | 0x0004 => 0x5088C400
  | 0x0008 =>
    wordOf [((match s.char with | some c => c.siteMap.length | none => 0), 24), (bitAt s.char.isSome 0, 23),
            (((List.range 5).map (fun i => bitAt (convPresent s i && (vget s.bus.conv i).expo != 0) i)).sum, 18),
            (1024 - unitsUsed s, 0)]
  | 0x000C => BitVec.ofNat 32 (gmodeRead s)
  | 0x0010 =>
    wordOf [(bitAt s.safety.safe 0, 31), (bitAt s.therm.tripped 0, 30), (bitAt s.clk.crstBusy 0, 29),
            (bitAt (mcRunning s) 0, 28), (bitAt s.time.fired 0, 27), (bitAt s.time.vld 0, 26),
            (bitAt (s.mode.written != s.mode.force) 0, 25), (activeCount s, 8), (modeShown s, 0)]
  | 0x0014 => wordOf [(bitAt s.clk.crstBusy 0, 31)]
  | 0x0018 => s.clk.causes.setWidth 32
  | 0x001C => BitVec.ofNat 32 (gtcShown s)
  | 0x0020 => vget s.time.gtcHi (pathNo path)
  | 0x0024 => s.time.epoch
  | 0x0028 => s.cseq.setWidth 32
  | 0x002C => vget s.time.cseqHi (pathNo path)
  | 0x0030 => s.scratch
  | _ => 0

/-- Clock, reset and power registers 0x0C00–0x0C34. -/
def readClock (s : State) (o : Nat) : Word :=
  let c := s.clk
  match o with
  | 0x0C00 => wordOf [(bitAt c.men 0, 8), (c.ssrc.toNat, 4), (c.csrc.toNat, 0)]
  | 0x0C04 => wordOf [(bitAt c.swLock 0, 31), (bitAt c.swMode 0, 0)]
  | 0x0C08 =>
    wordOf [(bitAt c.lost 0, 31), (bitAt c.refused 0, 30), (bitAt c.cfgRej 0, 29), (bitAt c.swDone 0, 28),
            (bitAt c.swAsync 0, 27), (bitAt c.stretch 0, 26), (bitAt (vget c.run 6) 0, 10), (bitAt (vget c.run 4) 0, 9),
            (bitAt (vget c.run 0) 0, 8), (bitAt c.lockM 0, 6), (bitAt c.lockT 0, 5), (bitAt c.lockC 0, 4),
            (c.scur.toNat, 2), (c.ccur.toNat, 0)]
  | 0x0C0C => pllWord c.pllC
  | 0x0C10 => pllWord c.pllT
  | 0x0C14 => pllWord c.pllM
  | 0x0C18 => wordOf [(bitAt c.trimmed 0, 31), (c.ftrim.toNat, 8), (c.strim.toNat, 0)]
  | 0x0C1C => wordOf [(c.tol.toNat, 8), (c.mon.toNat, 3), (7, 0)]
  | 0x0C20 => wordOf [(c.gateRun.toNat, 1), (1, 0)]
  | 0x0C24 => wordOf [(c.gateSleep.toNat, 1)]
  | 0x0C2C =>
    wordOf [(c.pwrCur.toNat, 16), (bitAt c.pwrDone 0, 9), (bitAt c.pwrRej 0, 8), (bitAt c.wakeT8 0, 4), (c.pwrMode.toNat, 0)]
  | 0x0C30 => wordOf [(bitAt c.fmcGo 0, 31), (c.fmcGate.toNat, 8), (bitAt c.fmcPre 0, 4), (c.fmcSel.toNat, 0)]
  | 0x0C34 => wordOf [(bitAt c.fmcDone 0, 31), (bitAt c.fmcOvf 0, 30), (c.fmcCount.toNat, 0)]
  | _ => 0

/-- Safety, NOR and bus registers 0x0D00–0x0E5C. -/
def readSafety (s : State) (o : Nat) (path : Path) : Word :=
  match o with
  | 0x0D00 => wordOf [(bitAt s.safety.cont 0, 2), (bitAt s.safety.level 0, 1), (bitAt s.safety.hbMode 0, 0)]
  | 0x0D04 => safeStat s
  | 0x0D08 => wordOf [(bitAt s.safety.jcorr 0, 9), (bitAt s.safety.escEn 0, 8), (s.safety.escKind.toNat, 0)]
  | 0x0D0C => fltCount s
  | 0x0D10 => s.safety.last.setWidth 32
  | 0x0D14 => vget s.time.fltHi (pathNo path)
  | 0x0D18 => wordOf [(s.mc.timeout.toNat, 8), (s.mc.openW.toNat, 4), (s.mc.fails.toNat, 0)]
  | 0x0E00 => wordOf [(s.strata.ahead.toNat, 8), (bitAt s.strata.psuspEn 0, 0)]
  | 0x0E04 =>
    wordOf [(bitAt s.strata.avail 0, 31), (bitAt s.strata.lbBusy 0, 30), (bitAt s.strata.lbNew 0, 29),
            (bitAt (declaresPsusp s) 0, 28), (bitAt (addr4 s) 0, 27), (s.strata.gap.toNat, 0)]
  | 0x0E40 => wordOf [(s.bus.convEn.toNat, 12), (s.bus.speed.toNat, 0)]
  | 0x0E58 =>
    -- a write stands here at once and takes effect at the next regrant (Table 05-6)
    match s.bus.avsNew with
    | some w => w
    | none =>
      wordOf [(bitAt s.bus.avsEn 0, 31), (s.bus.virBase.toNat, 20), (s.bus.irComp.toNat, 10), (s.bus.trimHyst.toNat, 4),
              (bitAt s.bus.trimEn 0, 0)]
  | 0x0E5C =>
    wordOf [(bitAt (s.bus.cur.isSome || (List.range 5).any (fun i => (vget s.bus.conv i).avsOut)) 0, 31), (bitAt s.bus.alert 0, 30),
            (bitAt s.bus.cfgRej 0, 29),
            (((List.range 5).map (fun i => bitAt (!convPresent s i) i)).sum, 24),
            (((List.range 5).map (fun i => bitAt (!(vget s.bus.conv i).verified) i)).sum, 19), (s.bus.lastConv.toNat, 16),
            (s.bus.lastSw.toNat, 0)]
  | _ => if 0x0E44 ≤ o ∧ o < 0x0E58 then (vget s.bus.conv ((o - 0x0E44) / 4)).addr.setWidth 32 else 0

/-- Meter registers 0x1000–0x10FC. -/
def readMeter (s : State) (o : Nat) : Word :=
  let m := s.meter
  match o with
  | 0x1000 => wordOf [(m.calFs.toNat, 16), (m.calCh.toNat, 8), (m.mains.toNat, 2), (bitAt m.cont 0, 1), (bitAt m.go 0, 0)]
  | 0x1004 => m.mask.setWidth 32
  | 0x1008 =>
    wordOf [(bitAt (m.phase != .idle) 0, 31), (bitAt (m.phase == .cal) 0, 30), (bitAt m.stale 0, 29),
            (bitAt m.syncLost 0, 28), (bitAt m.rej 0, 26), (bitAt m.calErr 0, 25), (bitAt m.done 0, 24),
            (bitAt m.calDone 0, 23), (m.ch.toNat, 16), (m.edgeRej.toNat, 0)]
  | 0x100C => m.win.setWidth 32
  | _ =>
    if 0x1040 ≤ o ∧ o < 0x1080 then (vget m.ofs ((o - 0x1040) / 4)).setWidth 32
    else if 0x1080 ≤ o ∧ o < 0x10C0 then (vget m.gain ((o - 0x1080) / 4)).setWidth 32
    else if 0x10C0 ≤ o ∧ o < 0x1100 then
      let d := vget m.data ((o - 0x10C0) / 4)
      wordOf [(bitAt d.valid 0, 31), (bitAt d.stale 0, 30), (bitAt d.range 0, 29), (d.scan.toNat, 24), (d.res.toNat, 0)]
    else 0

/-- Thermal and firmware registers 0x1400–0x1810. -/
def readTherm (s : State) (o : Nat) : Word :=
  let h := s.therm
  match o with
  | 0x1400 => h.warn.setWidth 32
  | 0x1404 => h.throt.setWidth 32
  | 0x1408 => wordOf [(bitAt h.critLock 0, 31), (h.crit.toNat, 0)]
  | 0x140C => wordOf [(h.hold.toNat, 16), (h.restart.toNat, 0)]
  | 0x1410 => h.rise.setWidth 32
  | 0x1414 => h.bands
  | 0x1418 => h.hyst.setWidth 32
  | 0x1450 =>
    wordOf [(bitAt h.tripped 0, 31), (bitAt h.cfgRej 0, 30), (bitAt h.fast 0, 29), (bitAt h.valid 0, 28), (h.maxB, 25),
            (h.maxS, 16), ((BitVec.ofInt 13 h.maxT).toNat, 0)]
  | 0x1800 => s.mc.addr.setWidth 32
  | 0x1804 => (s.mc.addr.extractLsb' 32 32)
  | 0x1808 => s.mc.len.setWidth 32
  | 0x180C => wordOf [(bitAt s.mc.go 0, 0)]
  | 0x1810 => wordOf [(s.mc.state.toNat, 28), (s.mc.err.toNat, 24), (s.mc.version.toNat, 0)]
  | _ => if 0x1420 ≤ o ∧ o < 0x1448 then h.excl.extractLsb' (8 * (o - 0x1420)) 32 else 0

/-- Port control, rights and interrupt-controller registers 0x0100–0x0944. -/
def readCtl (s : State) (o : Nat) : Word :=
  if 0x0100 ≤ o ∧ o < 0x0200 then
    let n := (o - 0x0100) / 0x20
    let P := portOf s n
    match o % 0x20 with
    | 0x00 => wordOf [(bitAt (n == 0) 0, 4), (bitAt P.evFatal 0, 3), (bitAt P.evCont 0, 2), (bitAt P.evCorr 0, 1), (bitAt P.en 0, 0)]
    | 0x04 => P.rightsD.extractLsb' 0 32
    | 0x08 => P.rightsD.extractLsb' 32 32
    | 0x0C => (P.rightsD.extractLsb' 64 16).setWidth 32
    | 0x10 => P.rightsO.setWidth 32
    | _ => 0
  else if 0x0800 ≤ o ∧ o < 0x0820 then srcWord ((o - 0x0800) / 4) (srcLevel s)
  else if 0x0820 ≤ o ∧ o < 0x0840 then srcWord ((o - 0x0820) / 4) (fun x => s.irq.swset.getLsbD x)
  else if 0x0840 ≤ o ∧ o < 0x08C0 then
    wordOf ((List.range 8).map (fun i => ((vget s.irq.route (8 * ((o - 0x0840) / 4) + i)).toNat, 4 * i)))
  else if 0x08C0 ≤ o ∧ o < 0x0900 then (vget s.irq.hold ((o - 0x08C0) / 4)).setWidth 32
  else if 0x0900 ≤ o ∧ o < 0x0920 then srcWord ((o - 0x0900) / 4) (fun x => srcTarget s x == some 8 && srcPending s x)
  else if 0x0920 ≤ o ∧ o < 0x0940 then srcWord ((o - 0x0920) / 4) (fun x => s.irq.t8En.getLsbD x)
  else if o = 0x0940 then 0x3FF
  else 0

/-- Offsets that the setup window answers in DEEP (R362). -/
def deepOffset (o : Nat) : Bool := [0x0000, 0x0014, 0x0018, 0x0C2C, 0x0D00, 0x0D04, 0x1450].contains o

/-- What a register holds as a read by a path returns it (Tables 18-1, 18-2). Reading here changes nothing: the reads
with an effect are rows of their own. Offsets at and above 0x1_0000 are port pages. -/
def readReg (s : State) (o : Nat) (path : Path) : Word :=
  if s.clk.pwrCur = 2 ∧ ¬ deepOffset o then 0
  else if 0x10000 ≤ o then (if o < 0x18000 then readPort s ((o - 0x10000) / 0x1000) (o % 0x1000) else 0)
  else if o < 0x0100 then readGlobal s o path
  else if o < 0x0C00 then readCtl s o
  else if o < 0x0D00 then readClock s o
  else if o < 0x1000 then readSafety s o path
  else if o < 0x1400 then readMeter s o
  else readTherm s o

end Sys2Proof.Machine
end

