-- ==== Sys2Proof/Machine/Ports.lean ====
section
/-! DEFINITION. Port pages, rings, claims and ring writes: the target-port and ring rows of chapter 13. -/

namespace Sys2Proof.Machine

/-- The response to a target write. -/
def ackWrite (s : State) : State := { s with resp := { err := false, data := 0 } }

/-- The response to a target read. -/
def ackRead (s : State) (w : Word) : State := { s with resp := { err := false, data := w } }

/-- Whether a setup-window write takes effect: no control reset is in progress and the mode is not DEEP (R362, R365). -/
def setupOpen (s : State) : Bool := !s.clk.crstBusy && s.clk.pwrCur != 2

/-- Whether a port-page write takes effect: the port complex is not held in reset (R365) and the mode is not DEEP (R362). -/
def pageOpen (s : State) : Bool := !s.clk.crstBusy && s.clk.pwrCur != 2

/-- Whether a doorbell of a ring is acted on (R287, R300, R347, Table 13-8). -/
def bellHeard (s : State) (p ring : Nat) : Bool :=
  let P := portOf s p
  pageOpen s && P.en && P.rstAt.isNone && (ringOf P ring).en && !(ring == 0 && P.quiesced)

/-- PORT_ERR and DESC_CRC detail (Table 13-5). -/
def portDetail (reason ring idx : Nat) : Nat := reason * 0x10000000 + ring * 0x4000000 + idx % 0x20000

/-- An invalid doorbell value: ignored, DBERR, PORT_ERR reason 3 (R292). -/
def badBell (s : State) (p ring : Nat) (v : Nat) : State :=
  raise (setPort s p (fun P => { P with dbErr := true })) 0 0x52 0x0 p (portDetail 3 ring v)

/-- Whether a consumer doorbell is valid: H' < 2S and (H' − H) mod 2S ≤ (P − H) mod 2S (R292). -/
def headOk (r : Ring) (h : Nat) : Bool :=
  decide (h < 2 * ringSize r) && decide (ringDiff r h r.db ≤ ringDiff r r.prod r.db)

/-- Whether a new tail of CQ is valid: T' < 2S and (T' − T) mod 2S ≤ S − (T − C) mod 2S (R292). -/
def tailOk (r : Ring) (x : Nat) : Bool :=
  decide (x < 2 * ringSize r) && decide (ringDiff r x r.db + ringDiff r r.db r.cons ≤ ringSize r)

/-- A write of a consumer doorbell (R292). -/
def consumerBell (s : State) (p ring : Nat) (val : Word) : State :=
  let h := fld val 16 0
  if !bellHeard s p ring then s
  else if headOk (ringOf (portOf s p) ring) h then
    setPort s p (fun P => setRing P ring (fun r => { r with db := h, cons := h }))
  else badBell s p ring h

/-- `DB_CQ_TAIL`: the new tail makes descriptors fetchable (R292, R295). -/
def execDbCqTail (p : PortNo) (val : Word) (t : Nat) (s : State) : Host.Outcome State Fault Refusal :=
  let s := ackWrite (now t s)
  let x := fld val 16 0
  if !bellHeard s p 0 then .next s
  else if tailOk (ringOf (portOf s p) 0) x then
    .next (setPort s p (fun P => setRing P 0 (fun r => { r with db := x, prod := x })))
  else .next (badBell s p 0 x)

/-- `DB_CPL_HEAD` (R292). -/
def execDbCplHead (p : PortNo) (val : Word) (t : Nat) (s : State) : Host.Outcome State Fault Refusal :=
  .next (consumerBell (ackWrite (now t s)) p 1 val)

/-- The overflow record and the backlog go to the ring as it drains (R298). -/
def drainPort (s : State) (p : Nat) : State :=
  setPort s p (fun P => if P.en && (ringOf P 2).en && !P.fabErr then drainBacklog s (P.backlog.length + 2) P else P)

/-- `DB_EVQ_HEAD`: room in the ring lets the overflow record and the backlog drain (R298). -/
def execDbEvqHead (p : PortNo) (val : Word) (t : Nat) (s : State) : Host.Outcome State Fault Refusal :=
  .next (drainPort (consumerBell (ackWrite (now t s)) p 2 val) p)

/-- `DB_TRQ_HEAD` (R292, R299). -/
def execDbTrqHead (p : PortNo) (val : Word) (t : Nat) (s : State) : Host.Outcome State Fault Refusal :=
  .next (consumerBell (ackWrite (now t s)) p 3 val)

/-! ### Claims (R311–R314) -/

/-- The state with a target's claim set or ended. -/
def setClaim (s : State) (tgt : Nat) (c : Option (Fin 256)) : State :=
  if tgt = 8 then { s with irq := { s.irq with t8Claim := c } } else setPort s tgt (fun P => { P with claim := c })

/-- A claim starts the hold-off timer of the source's group for the target, unless its period is 0 (R313). -/
def startHold (s : State) (tgt src : Nat) : State :=
  let h := (vget s.irq.hold (src / 16)).toNat
  if h = 0 then s
  else { s with irq := { s.irq with timers :=
                                      vupd s.irq.timers tgt (fun v => vset v (src / 16) (some (s.time.run + 128 * h))) } }

/-- `IRQ_CLAIM`: the claimed source again, the lowest eligible source, or 0x3FF (R311). In DEEP the page reads 0 (R362), and a control reset
in progress lets nothing be claimed (R365). -/
def execIrqClaim (tgt : Fin 9) (t : Nat) (s : State) : Host.Outcome State Fault Refusal :=
  let s := now t s
  if s.clk.pwrCur = 2 then .next (ackRead s 0)
  else
    match claimOf s tgt with
    | some c => .next (ackRead s (BitVec.ofNat 32 c.val))
    | none =>
      match if s.clk.crstBusy then none else lowestEligible s tgt with
      | none => .next (ackRead s 0x3FF)
      | some src =>
        let s1 := setClaim s tgt (some (Fin.ofNat 256 src))
        let s2 : State := { s1 with irq := { s1.irq with swset := s1.irq.swset &&& ~~~ (BitVec.twoPow 256 src) } }
        .next (ackRead (startHold s2 tgt src) (BitVec.ofNat 32 src))

/-- `IRQ_DONE`: the claimed source's number ends the claim; any other value sets IRQERR (R312). -/
def execIrqDone (tgt : Fin 9) (val : Word) (t : Nat) (s : State) : Host.Outcome State Fault Refusal :=
  let s := ackWrite (now t s)
  if !pageOpen s then .next s
  else
    match claimOf s tgt with
    | some c =>
      if fld val 9 0 = c.val then .next (setClaim s tgt none)
      else .next (if tgt.val = 8 then s else setPort s tgt (fun P => { P with irqErr := true }))
    | none => .next (if tgt.val = 8 then s else setPort s tgt (fun P => { P with irqErr := true }))

/-- The sources eligible for T8. -/
def t8Eligible (s : State) : List Nat := (List.range 256).filter (srcEligible s 8)

/-- In SLEEP the MC's clock is to return when a source becomes eligible for T8 (R361); those eligible at the last look are held. -/
def wakeT8 (s : State) : State :=
  if s.mc.gated && s.clk.pwrCur == 1 then
    let new := s.clk.wakeT8 && (t8Eligible s).any (fun x => !s.clk.t8Seen.contains x)
    { s with clk := { s.clk with pwrMode := if new then 0 else s.clk.pwrMode, t8Seen := t8Eligible s } }
  else s

/-- `HOLDOFF_EXPIRE`: the group's timer stops (R313). -/
def execHoldoffExpire (tgt : Fin 9) (g : Fin 16) (t : Nat) (s : State) : Host.Outcome State Fault Refusal :=
  let s := now t s
  .next (wakeT8 { s with irq := { s.irq with timers := vupd s.irq.timers tgt (fun v => vset v g none) } })

/-- `INT_SWSET`: a written 1 sets the software-set latch of its source (R314). -/
def execIntSwset (k : Fin 8) (val : Word) (t : Nat) (s : State) : Host.Outcome State Fault Refusal :=
  let s := ackWrite (now t s)
  if !setupOpen s then .next s
  else .next (wakeT8 { s with irq := { s.irq with swset := s.irq.swset ||| (val.setWidth 256 <<< (32 * k.val)) } })

/-! ### Port reset (R85, R300) -/

/-- The shutter at which a port reset requested now takes effect: the first at least 1,000 ns after it (R300). -/
def resetShutter (t : Nat) : Nat := 2000 * ceilDiv (t + 1000) 2000

/-- A port reset is requested: fetching and doorbells stop, the target's claim ends (R300). -/
def requestReset (s : State) (p : Nat) : State :=
  setPort s p (fun P => { P with rstAt := (match P.rstAt with | some x => some x | none => some (resetShutter s.time.gtc)),
                                 claim := none })

/-- Every command of a port that has not committed is withdrawn: no completion, no swap (R85). -/
def withdrawPort (s : State) (p : Nat) : State :=
  { s with cmds := s.cmds.filter (fun c => c.d.port.val != p), groups := vset s.groups p none }

/-- A port after a port reset: rings disabled with their indices 0, everything unwritten discarded, watches and
enables cleared; base and size registers, rights, control and the overflow counter kept (R300). -/
def clearedPort (P : Port) : Port :=
  { P with
    rings := P.rings.map (fun r => { r with en := false, prod := 0, cons := 0, db := 0, acked := 0 }),
    seqExp := none, resv := 0, rstAt := none, quiesced := false, fabErr := false, failRing := 0, dbErr := false,
    cfgErr := false, irqErr := false, evOvf := false, claim := none, watches := Vector.replicate 32 none, fired := 0,
    irqEn := 0, trace := TraceSt.reset, cplWait := [], evWait := [], backlog := [], ovfDrops := 0, ovfFirst := 0,
    ovfLast := 0, ovfOpen := false }

/-- The sources routed to a target, as a mask. -/
def routedMask (s : State) (tgt : Nat) : BitVec 256 :=
  (List.range 256).foldl (fun m src => if srcTarget s src = some tgt then m ||| BitVec.twoPow 256 src else m) 0

/-- A port reset takes effect (R300). -/
def portResetEffect (s : State) (p : Nat) : State :=
  let s1 := setPort (withdrawPort s p) p clearedPort
  feedWrites { s1 with
    wq := s1.wq.filter (fun w => w.port.val != p), outQ := s1.outQ.filter (fun w => w.port.val != p),
    irq := { s1.irq with timers := vset s1.irq.timers p (Vector.replicate 16 none),
                         swset := s1.irq.swset &&& ~~~ (routedMask s p) } }

/-- `PORT_RESET`: 0xA5 in the key requests a port reset (R300). -/
def execPortReset (p : PortNo) (val : Word) (t : Nat) (s : State) : Host.Outcome State Fault Refusal :=
  let s := ackWrite (now t s)
  if pageOpen s && fld val 7 0 == 0xA5 then .next (requestReset s p) else .next s

/-- A write of DG.PORTn_CTL (Table 13-16): event enables, and EN, which is fixed at 1 for P0. Clearing EN requests a
port reset (R287). -/
def writePortCtl (s : State) (p : Nat) (val : Word) : State :=
  let was := (portOf s p).en
  let s1 := setPort s p (fun P => { P with evFatal := bitOf val 3, evCont := bitOf val 2, evCorr := bitOf val 1,
                                           en := p == 0 || bitOf val 0 })
  if was && !(portOf s1 p).en then requestReset s1 p else s1

/-- `PORT_DISABLE`: a write of DG.PORTn_CTL with EN = 0 (R287). -/
def execPortDisable (p : PortNo) (val : Word) (t : Nat) (s : State) : Host.Outcome State Fault Refusal :=
  let s := ackWrite (now t s)
  if setupOpen s then .next (writePortCtl s p val) else .next s

/-! ### Ring enables (R291) -/

/-- Whether a command of the port awaits its completion (R291): fetched and not completed, completed and not written, or held until a write
of the queue, its output or its own entry, is acknowledged. -/
def awaiting (s : State) (p : Nat) : Bool :=
  s.cmds.any (fun c => c.d.port.val == p) || !(portOf s p).cplWait.isEmpty ||
  (s.wq ++ s.outQ).any (fun w => w.port.val == p && (w.ring == some .cpl || !w.cpl.isEmpty))

/-- A ring after its enable bit is written: enabling sets P, C and the doorbell to 0 (R292). -/
def enableRing (r : Ring) (on : Bool) : Ring :=
  if on && !r.en then { r with en := true, prod := 0, cons := 0, db := 0, acked := 0 }
  else { r with en := on }

/-- Whether LOG2 lies within 6–16 (R291). -/
def log2Ok (r : Ring) : Bool := decide (6 ≤ r.log2.toNat ∧ r.log2.toNat ≤ 16)

/-- Writes of the queue that were made for a ring of a port before it was enabled again: their acknowledgement no longer concerns its
indices (R292, R294). -/
def oldWrites (s : State) (p ring : Nat) (fresh : Bool) : State :=
  if fresh then
    { s with wq := s.wq.map (fun w => if w.port.val == p && (w.ring.map ringNo == some ring) then { w with ring := none } else w) }
  else s

/-- A write of RING_EN (R291). An event ring enabled with fewer slots than records waiting for it sends the rest to the backlog (R298). -/
def writeRingEn (s : State) (p : Nat) (val : Word) : State :=
  let P := portOf s p
  let clearsCpl := (ringOf P 1).en && !bitOf val 1
  if clearsCpl && awaiting s p then setPort s p (fun P => { P with cfgErr := true })
  else
    let want (i : Nat) : Bool := bitOf val i
    let ok1 : Bool := want 1 && ((ringOf P 1).en || log2Ok (ringOf P 1))
    let ok2 : Bool := want 2 && ((ringOf P 2).en || log2Ok (ringOf P 2))
    let ok3 : Bool := want 3 && ((ringOf P 3).en || log2Ok (ringOf P 3))
    let ok0 : Bool := want 0 && ((ringOf P 0).en || (log2Ok (ringOf P 0) && ok1))
    let err := (want 0 && !ok0) || (want 1 && !ok1) || (want 2 && !ok2) || (want 3 && !ok3)
    let fresh (i : Nat) (ok : Bool) : Bool := ok && !(ringOf P i).en
    let s1 := oldWrites (oldWrites (oldWrites s p 1 (fresh 1 ok1)) p 2 (fresh 2 ok2)) p 3 (fresh 3 ok3)
    setPort s1 p (fun P =>
      let P1 := setRing (setRing (setRing (setRing P 0 (enableRing · ok0)) 1 (enableRing · ok1)) 2 (enableRing · ok2)) 3
        (enableRing · ok3)
      let keep := if ok2 && !(ringOf P 2).en then ringSize (ringOf P1 2) else P1.evWait.length
      { P1 with evWait := P1.evWait.take keep, backlog := P1.evWait.drop keep ++ P1.backlog,
                cfgErr := P.cfgErr || err, seqExp := if ok0 && !(ringOf P 0).en then none else P.seqExp })

/-- `RING_EN` (R291, R292): an event ring that is enabled again has room, and its backlog drains (R298). -/
def execRingEn (p : PortNo) (val : Word) (t : Nat) (s : State) : Host.Outcome State Fault Refusal :=
  let s := ackWrite (now t s)
  if pageOpen s then .next (drainPort (writeRingEn s p val) p) else .next s

/-! ### Errors and latched reads -/

/-- `BAD_ACCESS`: an error response, 0 on a read, nothing changed, PORT_ERR with the page or 0x08 as instance (R30). -/
def execBadAccess (page : Option PortNo) (offset : BitVec 17) (_write : Bool) (t : Nat) (s : State) :
    Host.Outcome State Fault Refusal :=
  let s : State := { now t s with resp := { err := true, data := 0 } }
  let inst := match page with | some p => p.val | none => 0x08
  .next (raise s 0 0x52 0x0 inst (portDetail 1 0 offset.toNat))

/-- `CSEQ_LO_READ`: the low word, with the high word latched for the path (R80, R415). -/
def execCseqLoRead (path : Path) (t : Nat) (s : State) : Host.Outcome State Fault Refusal :=
  let s := now t s
  if s.clk.pwrCur = 2 then .next (ackRead s 0)
  else .next (ackRead { s with time := { s.time with cseqHi := vset s.time.cseqHi (pathNo path) (s.cseq.extractLsb' 32 32) } }
    (s.cseq.extractLsb' 0 32))

/-- `GTC_LO_READ` (R415, R420). -/
def execGtcLoRead (path : Path) (t : Nat) (s : State) : Host.Outcome State Fault Refusal :=
  let s := now t s
  if s.clk.pwrCur = 2 then .next (ackRead s 0)
  else .next (ackRead { s with time := { s.time with gtcHi := vset s.time.gtcHi (pathNo path) (BitVec.ofNat 32 (gtcShown s / 2 ^ 32)) } }
    (BitVec.ofNat 32 (gtcShown s)))

/-- `FLT_LAST_LO_READ` (R415, Table 16-17). -/
def execFltLastLoRead (path : Path) (t : Nat) (s : State) : Host.Outcome State Fault Refusal :=
  let s := now t s
  if s.clk.pwrCur = 2 then .next (ackRead s 0)
  else .next (ackRead { s with time := { s.time with fltHi := vset s.time.fltHi (pathNo path) (s.safety.last.extractLsb' 32 32) } }
    (s.safety.last.extractLsb' 0 32))

/-! ### Ring writes -/

/-- PHASE of an entry at a producer index (R293). -/
def phaseOf (r : Ring) : Nat := if r.prod < ringSize r then 1 else 0

/-- A completion entry's bytes (Table 14-3). -/
def cplBytes (r : Ring) (c : Completion) : List Byte :=
  leBytes 4 (c.tag.toNat + c.status.toNat * 0x10000 + phaseOf r * 0x80000000) ++ leBytes 4 c.seq.toNat ++
  leBytes 4 c.epoch.toNat ++ leBytes 4 c.result.toNat

/-- An event record's bytes (Table 14-4). -/
def evBytes (r : Ring) (e : Event) : List Byte :=
  leBytes 4 (e.typ.toNat + e.dom.toNat * 0x100 + e.cls.toNat * 0x10000 + phaseOf r * 0x80000000) ++
  leBytes 4 e.epoch.toNat ++ slice e.pay 0 24

/-- An entry of `size` bytes goes to the write queue at a ring's producer index, which moves on (R24, R32). -/
def writeEntry (s : State) (p : PortNo) (id : RingId) (size : Nat) (data : List Byte) : State :=
  let i := ringNo id
  let r := ringOf (portOf s p) i
  let r1 := ringAdvance r 1
  let w : WriteReq :=
    { port := p, ring := some id, addr := r.base + BitVec.ofNat 64 (r.prod % ringSize r * size), data := data,
      prod := r1.prod, cpl := [] }
  let s1 := setPort s p (fun P => setRing P i (fun _ => r1))
  { s1 with wq := s1.wq ++ [w] }

/-- Whether a port's ring can be written: enabled, no fabric error, room in the write queue, HCLK running (Table 15-3). -/
def canWrite (s : State) (p ring : Nat) : Bool :=
  (ringOf (portOf s p) ring).en && !(portOf s p).fabErr && decide (wqUsed s < 64) && vget s.clk.run 4 && s.clk.pwrCur != 2

/-- A completion with its epoch as it stands when the entry is written (R322). -/
def stamped (s : State) (c : Completion) : Completion := if c.atWrite then { c with epoch := epochNow s } else c

/-- `COMPLETION_POST`: the oldest waiting completion is written when the write queue has room (R24, R297). -/
def execCompletionPost (p : PortNo) (t : Nat) (s : State) : Host.Outcome State Fault Refusal :=
  let s := now t s
  match (portOf s p).cplWait with
  | [] => .next s
  | c :: rest =>
    if canWrite s p 1 then
      let s1 := setPort s p (fun P => { P with cplWait := rest, resv := P.resv - 1 })
      .next (writeEntry s1 p .cpl 16 (cplBytes (ringOf (portOf s p) 1) (stamped s c)))
    else .next s

/-- `EVENT_POST`: the oldest waiting event record is written when the write queue has room (R24, R298); a disabled port is posted none
(R287). -/
def execEventPost (p : PortNo) (t : Nat) (s : State) : Host.Outcome State Fault Refusal :=
  let s := now t s
  match (portOf s p).evWait with
  | [] => .next s
  | e :: rest =>
    if (portOf s p).en && canWrite s p 2 then
      let s1 := setPort s p (fun P => { P with evWait := rest })
      .next (writeEntry s1 p .evq 32 (evBytes (ringOf (portOf s p) 2) e))
    else .next s

/-- `WRITE_ACK`: the fabric acknowledges the oldest write; a ring's source rises for what is acknowledged (R294), and
a command whose output it completes posts its completion (R342). -/
def execWriteAck (t : Nat) (s : State) : Host.Outcome State Fault Refusal :=
  let s := now t s
  match s.wq with
  | [] => .next s
  | w :: rest =>
    let s1 := feedWrites { s with wq := rest }
    let s2 := match w.ring with
      | some id => setPort s1 w.port (fun P => setRing P (ringNo id) (fun r => { r with acked := w.prod }))
      | none => s1
    .next (w.cpl.foldl (fun s c => postCompletion s w.port c.1 c.2) s2)

/-- A port's rings stop on a fabric error (R33): RING_EN reads 0, the failing ring is recorded, PORT_ERR is raised, and
nothing further is issued. -/
def fabricStop (s : State) (p : Nat) (ring idx : Nat) : State :=
  let s1 := setPort s p (fun P => { P with rings := P.rings.map (fun r => { r with en := false }), fabErr := true,
                                           failRing := BitVec.ofNat 2 ring })
  let s2 := feedWrites { s1 with wq := s1.wq.filter (fun w => w.port.val != p), outQ := s1.outQ.filter (fun w => w.port.val != p) }
  raise s2 1 0x52 0x0 p (portDetail 2 ring idx)

/-- `FABRIC_ERROR` (R33). -/
def execFabricError (p : PortNo) (ring : RingId) (idx : BitVec 17) (t : Nat) (s : State) :
    Host.Outcome State Fault Refusal :=
  .next (fabricStop (now t s) p (ringNo ring) idx.toNat)

end Sys2Proof.Machine
end

