-- ==== Sys2Proof/Machine/Bus.lean ====
section
/-! DEFINITION. PMBus and AVSBus: transactions, polls, alerts, retries, the converters' bring-up and the VIR trims (R52–R56, R129–R131, R421, R422). -/

namespace Sys2Proof.Machine

/-- A converter changed. -/
def setConv (s : State) (i : Nat) (f : Conv5 → Conv5) : State :=
  { s with bus := { s.bus with conv := vupd s.bus.conv i f } }

/-- A converter. -/
def convOf (s : State) (i : Nat) : Conv5 := vget s.bus.conv i

/-- Whether a step of the bring-up follows the reading of `VOUT_MODE`. -/
def needsExpo : BusOp → Bool
  | .init n => n != 0
  | .trim _ => true
  | _ => false

/-- Whether a transaction may still be sent: no command and no poll goes to an absent converter (R53, R421), and while the exponent of
`VOUT_MODE` is not known no VIR is commanded or turned on, which could lie outside 1.65–1.95 V (R53; log 86). -/
def txnLive (s : State) (x : BusTxn) : Bool :=
  x.op == .ara || (convPresent s x.conv && !(needsExpo x.op && (vget s.bus.conv x.conv).expo == 0))

/-- `VIR_BASE` in mV (Table 05-6). -/
def virBaseMv (s : State) : Nat := 1650 + 5 * Nat.min s.bus.virBase.toNat 60

/-- The ULINEAR16 mantissa round(V × 2^−exp) of a voltage in mV on the exponent of a converter (R130, R423). -/
def mantissa (c : Conv5) (mv : Nat) : BitVec 16 := BitVec.ofInt 16 (rdiv (mv * 2 ^ c.expo.natAbs : Nat) 1000)

/-- What a transaction writes: the steps of the bring-up (Tables 02-8, 15-7), a trim, or `OPERATION` off; 0 for a read. -/
def txnData (s : State) (x : BusTxn) : BitVec 16 :=
  let c := convOf s x.conv
  match x.op with
  | .trim mv => mantissa c mv
  | .init 1 => 0x1E
  | .init 2 => mantissa c 1950
  | .init 3 => (match s.char with | some r => vget r.iocLimit x.conv | none => 0)
  | .init 4 => mantissa c (virBaseMv s)
  | .init 5 => 0x80
  | _ => 0

/-- The next transaction starts when the bus is free and XA runs. -/
def busStart (s : State) : State :=
  if s.bus.cur.isSome || s.bus.waitRetry || !(vget s.clk.run 0) || s.clk.pwrCur == 2 then s
  else
    match s.bus.queue.filter (txnLive s) with
    | [] => { s with bus := { s.bus with queue := [] } }
    | x :: rest => { s with bus := { s.bus with cur := some { x with data := txnData s x }, queue := rest } }

/-- A transaction. -/
def txn (op : BusOp) (i : Nat) : BusTxn := { op := op, conv := Fin.ofNat 5 i, retried := false, data := 0 }

/-- Whether a transaction is a poll. -/
def isPoll (x : BusTxn) : Bool :=
  match x.op with
  | .poll _ => true
  | _ => false

/-- Work put at the end of the queue. -/
def busBack (s : State) (l : List BusTxn) : State := busStart { s with bus := { s.bus with queue := s.bus.queue ++ l } }

/-- Whether a transaction is an `OPERATION` 0x00 of the safe state. -/
def isOff (x : BusTxn) : Bool := x.op == .offNow

/-- A queue with work put ahead of all other work but the `OPERATION` 0x00 of the safe state, which goes ahead of everything (R55, R376). -/
def aheadOf (l q : List BusTxn) : List BusTxn := q.filter isOff ++ l ++ q.filter (fun y => !isOff y)

/-- Work put ahead of all other queued work (R55, R376). -/
def busFront (s : State) (l : List BusTxn) : State := busStart { s with bus := { s.bus with queue := aheadOf l s.bus.queue } }

/-- A trim waits behind the transaction in progress and ahead of every poll (R54). -/
def busTrim (s : State) (x : BusTxn) : State :=
  let q := s.bus.queue
  busStart { s with bus := { s.bus with queue := q.takeWhile (fun y => !isPoll y) ++ x :: q.dropWhile (fun y => !isPoll y) } }

/-- The converters' bring-up (Table 15-7, R53), a verifying poll behind it. -/
def busInit (s : State) : State :=
  busBack s ((List.range 5).flatMap (fun i => (List.range 6).map (fun k => txn (.init k) i) ++ [txn (.poll .vout) i]))

/-- `OPERATION` 0x00 to each present converter, ahead of all other bus work: only a transaction on the bus goes first, not one that waits to be
repeated (R376). -/
def busOff (s : State) : State :=
  let offs := ((List.range 5).filter (convPresent s)).map (txn .offNow)
  match if s.bus.waitRetry then s.bus.cur else none with
  | some x => busFront { s with bus := { s.bus with cur := none, waitRetry := false, queue := offs ++ x :: s.bus.queue } } []
  | none => busFront s offs

/-- A trim command for rail i (R130): over AVSBus when enabled, otherwise over PMBus. -/
def sendTrim (s : State) (i mv : Nat) : State :=
  let s1 := setConv s i (fun c => { c with want := some mv, avsRetry := false })
  if s.bus.avsEn then setConv s1 i (fun c => { c with avsOut := true }) else busTrim s1 (txn (.trim mv) i)

/-- An exponent read from `VOUT_MODE`: ULINEAR16 with an exponent of −13 to −9 (R53). -/
def voutExpo (w : BitVec 16) : Option Int :=
  let e := (w.extractLsb' 0 5).toInt
  if w.extractLsb' 5 3 = 0 ∧ -13 ≤ e ∧ e ≤ -9 then some e else none

/-- A `READ_VOUT` result against the last command, both as mV · 2^−exponent (R129, R131). -/
def voutNear (c : Conv5) (w : Nat) : Bool :=
  let k := 2 ^ c.expo.natAbs
  decide (((w * 1000 : Nat) - (c.cmdMv * k : Nat) : Int).natAbs ≤ 30 * k)

/-- A measured VIR in mV, rounded to nearest (R423). -/
def voutMvOf (c : Conv5) (w : Nat) : Nat := (rdiv (w * 1000) (2 ^ c.expo.natAbs)).toNat

/-- A `READ_VOUT` poll: within 30 mV verifies the rail; the third consecutive miss marks it unverified and reads
`STATUS_WORD` for STAGE1_FAULT (R129, R131). A rail without a command, or of a converter no longer fitted, is not judged (R421). -/
def voutRead (s : State) (i w : Nat) : State :=
  let c := convOf s i
  let mv := voutMvOf c w
  if !convPresent s i || c.expo == 0 || c.cmdMv == 0 then s
  else if voutNear c w then setConv s i (fun c => { c with verified := true, badPolls := 0, voutMv := mv })
  else if c.badPolls + 1 = 3 then
    let s1 := setConv s i (fun c => { c with verified := false, badPolls := 3, voutMv := mv, mismPend := true })
    { s1 with bus := { s1.bus with queue := aheadOf [txn .statusWord i] s1.bus.queue } }
  else setConv s i (fun c => { c with badPolls := c.badPolls + 1, voutMv := mv })

/-- `STATUS_WORD` read for an alert or a mismatch: STAGE1_FAULT is raised and recorded, the rail is unverified (R382), then the detail bytes are
read and the converter's faults cleared (R55, R131, Table 02-8). The VOUT and IOUT summary bits are 15 and 14: PRESUMED,
from PMBus (log 17). -/
def statusRead (s : State) (i : Nat) (w : BitVec 16) : State :=
  let c := convOf s i
  let det := if c.mismPend then 0x80000000 + satNat 12 c.voutMv * 0x10000 + w.toNat else w.toNat
  let s1 := setConv s i (fun c => { c with mismPend := false, verified := false })
  let more := (if w.getLsbD 15 then [txn .statusVout i] else []) ++ (if w.getLsbD 14 then [txn .statusIout i] else []) ++
    [txn .clearFaults i]
  let s2 : State := { s1 with bus := { s1.bus with lastConv := BitVec.ofNat 3 i, lastSw := w, queue := aheadOf more s1.bus.queue } }
  raise s2 1 0x62 0xC i det

/-- What a good transaction brings. -/
def txnGood (s : State) (x : BusTxn) (w : BitVec 16) : State :=
  let i := x.conv.val
  match x.op with
  | .poll .vout => voutRead s i w.toNat
  | .poll .vin =>
    let s1 := setConv s i (fun c => { c with vin := w })
    { s1 with bus := { s1.bus with lastVin := some w } }
  | .poll .iout => setConv s i (fun c => { c with iout := w })
  | .poll .temp => setConv s i (fun c => { c with temp := w })
  | .ara =>
    match (List.range 5).find? (fun k => convPresent s k && (convOf s k).addr.toNat == w.toNat % 128) with
    | some k => { s with bus := { s.bus with queue := aheadOf [txn .statusWord k] s.bus.queue } }
    | none => s
  | .statusWord => statusRead s i w
  | .trim mv => setConv s i (fun c => { c with cmdMv := mv, want := none })
  | .init 0 =>
    match voutExpo w with
    | some e => setConv s i (fun c => { c with expo := e })
    | none => raise (setConv s i (fun c => { c with absent := true })) 0 0x61 0xC i 0
  | .init 4 => setConv s i (fun c => { c with cmdMv := virBaseMv s })
  | .init _ | .offNow | .clearFaults | .statusVout | .statusIout => s

/-- The instance of a PMB_ERR: the converter's number; for an Alert Response read, which addresses no converter, the
manual names none and the value is free (log 18). -/
def pmbErr (s : State) (x : BusTxn) : State :=
  if x.op = .ara then
    let f := freshBelow s 256
    raise f.2 0 0x61 0xC f.1 0
  else raise s 0 0x61 0xC x.conv 0

/-- `PMBUS_TRANSACTION_DONE`: the result is used; a PEC mismatch or NACK is repeated once 100 µs later, and a second
failure raises PMB_ERR. A trim is never dropped: it waits again ahead of every poll (R54). -/
def execPmbusTransactionDone (res : BusRes) (t : Nat) (s : State) : Host.Outcome State Fault Refusal :=
  let s := now t s
  match s.bus.cur with
  | none => .next s
  | some x =>
    if s.bus.waitRetry then .next s
    else
      match res with
      | .ok w => .next (busStart (txnGood { s with bus := { s.bus with cur := none } } x w))
      | .bad =>
        if !x.retried then .next { s with bus := { s.bus with cur := some { x with retried := true }, waitRetry := true } }
        else
          let s1 := pmbErr { s with bus := { s.bus with cur := none } } x
          .next (match x.op with
            | .trim _ => busTrim s1 { x with retried := false }
            | _ => busStart s1)

/-- `PMBUS_RETRY`: the repeated transaction starts, unless its converter has become absent meanwhile (R54, R421). -/
def execPmbusRetry (t : Nat) (s : State) : Host.Outcome State Fault Refusal :=
  let s := now t s
  .next (busStart { s with bus := { s.bus with waitRetry := false, cur := s.bus.cur.filter (fun x => !s.bus.waitRetry || txnLive s x) } })

/-- `PMBUS_STRETCH_TIMEOUT`: the bus is released, PMB_ERR is raised, and the transaction is retried at the next poll;
a poll itself is not kept (R54). An `OPERATION` 0x00 that waits does not wait for that poll (R376). -/
def execPmbusStretchTimeout (t : Nat) (s : State) : Host.Outcome State Fault Refusal :=
  let s := now t s
  match s.bus.cur with
  | none => .next s
  | some x =>
    let q := if isPoll x then s.bus.queue else aheadOf [{ x with retried := false }] s.bus.queue
    let s1 := pmbErr { s with bus := { s.bus with cur := none, waitRetry := false, queue := q } } x
    .next (if s.bus.queue.any isOff then busStart s1 else s1)

/-- `PMBUS_POLL`: a read is queued for a present converter (R53). -/
def execPmbusPoll (kind : PollKind) (conv : Fin 5) (t : Nat) (s : State) : Host.Outcome State Fault Refusal :=
  .next (busBack (now t s) [txn (.poll kind) conv])

/-- `STAGE1_ALERT`: the alert response read goes ahead of all other queued work (R55). -/
def execStage1Alert (t : Nat) (s : State) : Host.Outcome State Fault Refusal :=
  let s := now t s
  if s.bus.alert || !s.safety.porHigh then .next s else .next (busFront { s with bus := { s.bus with alert := true } } [txn .ara 0])

/-- `PMB_ALERT_RELEASE` (R395). -/
def execPmbAlertRelease (t : Nat) (s : State) : Host.Outcome State Fault Refusal :=
  .next { now t s with bus := { s.bus with alert := false } }

/-- `AVS_RESPONSE`: a good response completes the rail's trim; a bad one is retried once, and a second raises PMB_ERR
with instance 0x10 + rail and sends the trim over PMBus (R56). The rails are served in ascending order, one frame at a
time, so the response is that of the lowest rail outstanding. -/
def execAvsResponse (good : Bool) (t : Nat) (s : State) : Host.Outcome State Fault Refusal :=
  let s := now t s
  match (List.range 5).find? (fun i => (convOf s i).avsOut) with
  | none => .next s
  | some i =>
    let c := convOf s i
    if good then
      .next (setConv s i (fun c => { c with cmdMv := c.want.getD c.cmdMv, want := none, avsOut := false, avsRetry := false }))
    else if !c.avsRetry then .next (setConv s i (fun c => { c with avsRetry := true }))
    else
      let s1 := raise (setConv s i (fun c => { c with avsOut := false, avsRetry := false })) 0 0x61 0xC (0x10 + i) 0
      .next (busTrim s1 (txn (.trim (c.want.getD c.cmdMv)) i))

/-- `PMB_CFG_WRITE` (Table 18-10, R421). -/
def execPmbCfgWrite (val : Word) (t : Nat) (s : State) : Host.Outcome State Fault Refusal :=
  let s := ackWrite (now t s)
  if !setupOpen s then .next s
  else
    let s1 : State := { s with bus := { s.bus with convEn := val.extractLsb' 12 5,
                                                   speed := if fld val 1 0 = 3 then s.bus.speed else val.extractLsb' 0 2 } }
    .next { s1 with bus := { s1.bus with conv := vmapIdx s1.bus.conv (fun i c =>
      if s1.bus.convEn.getLsbD i then c else { c with verified := false }) } }

/-- `PMB_ADDR_WRITE`: a reserved address, or that of another fitted converter, is ignored with CFGREJ (R422). -/
def execPmbAddrWrite (i : Fin 5) (val : Word) (t : Nat) (s : State) : Host.Outcome State Fault Refusal :=
  let s := ackWrite (now t s)
  let a := fld val 6 0
  let taken := (List.range 5).any (fun k => k != i.val && s.bus.convEn.getLsbD k && (convOf s k).addr.toNat == a)
  if !setupOpen s then .next s
  else if a < 8 ∨ a = 0x0C ∨ 0x78 ≤ a ∨ taken then .next { s with bus := { s.bus with cfgRej := true } }
  else .next (setConv s i (fun c => { c with addr := BitVec.ofNat 7 a }))

/-! ### Load-following trims (R130) -/

/-- Summed mean current of a die's domains in a record, LSB 1/512 A. -/
def dieCurrent (s : State) (r : Record) (e : Nat) : Nat :=
  ((domsOfDie e).map (fun d => (vget r.doms (logOf s d)).imean.toNat)).sum

/-- Whether a domain is in soft start or moves `VREF` upward. -/
def risingVref (D : Domain) : Bool :=
  D.tr.ph == .startWait || D.tr.ph == .leg1 || D.tr.ph == .leg2 || D.tr.ph == .settle || (D.prof.cond == .moving && decide (0 < D.prof.dir)) ||
  D.prof.cond == .ramping

/-- The trim of rail i at a regrant: a step of at most 25 mV towards the request, lowering only while the rail is
verified (R131) and no domain of the die starts or rises. With `TRIM_EN` = 0 the rail is held at base. Before its first `VOUT_COMMAND` a
rail has no trim: no VIR is commanded outside 1.65–1.95 V (R53). -/
def virTrim (r : Record) (s : State) (i : Nat) : State :=
  let c := convOf s i
  if !convPresent s i || c.want.isSome || c.expo == 0 || c.cmdMv == 0 then s
  else
    let req := if s.bus.trimEn then
        Nat.min 1950 (Nat.max 1650 (virBaseMv s + 5 * ceilDiv (dieCurrent s r i * s.bus.irComp.toNat) 512000))
      else virBaseMv s
    let diff := if c.cmdMv ≤ req then req - c.cmdMv else c.cmdMv - req
    let least := if s.bus.trimEn then 5 * s.bus.trimHyst.toNat else 1
    let step := Nat.min diff 25
    if diff < least then s
    else if c.cmdMv < req then sendTrim s i (c.cmdMv + step)
    else if c.verified && (domsOfDie i).all (fun d => !risingVref (domOf s d)) then sendTrim s i (c.cmdMv - step)
    else s

/-- A written `DG.AVS_CFG` takes effect (Table 05-6). -/
def avsInForce (s : State) : State :=
  match s.bus.avsNew with
  | none => s
  | some w =>
    { s with bus := { s.bus with avsNew := none, avsEn := bitOf w 31, virBase := w.extractLsb' 20 6,
                                 irComp := w.extractLsb' 10 8, trimHyst := w.extractLsb' 4 4, trimEn := bitOf w 0 } }

/-- The trims of a regrant, rail by rail. -/
def virTrims (s : State) (r : Record) : State := (List.range 5).foldl (virTrim r) (avsInForce s)

end Sys2Proof.Machine
end

