-- ==== Sys2Proof/Machine/Outputs.lean ====
section
/-! DEFINITION. The throttle outputs of the stations, and the discharge of a domain forced DARK (R117, R144, R224). -/

namespace Sys2Proof.Machine

/-- The state with every member of a leader's domain changed. -/
def setMembers (s : State) (d : Nat) (f : Domain → Domain) : State := (membersOf s d).foldl (fun s x => setDom s x f) s

/-! ### Throttle outputs (R144, Table 10-4) -/

/-- `THR_DIV` of a throttle level. -/
def levelDiv (l : Nat) : Nat := if l ≤ 8 then 0 else if l ≤ 11 then 1 else if l ≤ 13 then 2 else 3

/-- k of a throttle level. -/
def levelK (l : Nat) : Nat := [0, 1, 2, 3, 4, 5, 6, 7, 8, 2, 4, 6, 0, 4, 0, 8].getD l 0

/-- S_k: bit i is set when floor((i + 1)k/16) > floor(ik/16) (R224). -/
def skipPat (k : Nat) : BitVec 16 :=
  BitVec.ofNat 16 (((List.range 16).map (fun i => if i * k / 16 < (i + 1) * k / 16 then 2 ^ i else 0)).sum)

/-- `THR_SKIP` of a throttle level (Table 10-4). -/
def levelSkip (l : Nat) : BitVec 16 := skipPat (levelK l)

/-- The station drives the tile clock outputs of a domain, from the arbiter's setting in its record and its own actions; the frame counts as
throttled if they thin a LIT tile's clock (R38, R144, R148). -/
def driveThr (s : State) (d : Nat) : State :=
  if !isTile d then s
  else
    let D := domOf s d
    let der := if D.arb.derate then 1 else 0
    let div := Nat.min 3 (Nat.max D.stDiv.toNat der + (if D.droop.dt3 then 1 else 0))
    let raw := D.stSkip ||| (if D.droop.glint then BitVec.ofNat 16 (cfgAt s d).lim.glintPat else 0)
    let skip : BitVec 16 := if raw = 0xFFFF then 0xFFFE else raw
    let thin := D.state == .lit && (div != 0 || skip != 0 || D.droop.uvstop)
    setMembers s d (fun M => { M with tile := { M.tile with thrDiv := BitVec.ofNat 2 div, thrSkip := skip },
                                      thrFrame := M.thrFrame || thin })

/-- `UVSTOP` follows the conditions that stop the tile clock: the domain's state, its own floor, FAB or SRM, and the latched third
stop (R110, R138, R139). -/
def stopLevel (r : Droop) : Droop :=
  let up := r.clkHold || r.ownStop.isSome || !r.fabStops.isEmpty || r.uvLatched
  { r with uvstop := up, uvSeen := r.uvSeen || up }

/-- The conditions that stop the tile clock changed, and the outputs driven. -/
def setStops (s : State) (d : Nat) (f : Droop → Droop) : State :=
  driveThr (setMembers s d (fun M => { M with droop := stopLevel (f M.droop) })) d

/-- The state of a domain stops its tile clock, or no longer does (R110, R114, R116, R117). -/
def holdClock (s : State) (d : Nat) (b : Bool) : State := setStops s d (fun r => { r with clkHold := b, relPend := false })

/-! ### Forced DARK -/

/-- A flare bank is disarmed; a failed one stays failed (R142). -/
def disarm (f : Flare) : Flare := if f = .failed then .failed else .disarmed

/-- The station removes every enable, stops the tile clock, disarms and discharges (R117); a domain that enters DARK leaves fall-back (R188). -/
def discharge (s : State) (d : Nat) : State :=
  holdClock (setMembers s d (fun M =>
    { M with en := false, held := false, stHeld := false, fallback := false, sup := { M.sup with fbPend := false },
             tr := { M.tr with ph := .discharge, since := s.time.gtc, k := 0, within := 0, shortRun := 0, fed := false },
             droop := { M.droop with armed := false, in1 := false, in2 := false, in3 := false, inF := false, glint := false,
                                     dt3 := false, dt3Good := 0, flare := disarm M.droop.flare, ownStop := none, fabStops := [],
                                     uvLatched := false, uvGood := 0 },
             park := { M.park with qual := none, abort := true } })) d true

/-- A domain is forced DARK by its station or by supervision: it acts at once and reports the internal change (R83). -/
def forceDark (s : State) (d : Nat) (latch : Bool) : State := report (discharge s d) d (.dark latch)

end Sys2Proof.Machine
end

