-- ==== Sys2Proof/Machine/Faults.lean ====
section
/-! DEFINITION. The fault collector, the safe state, SAFE_STAT, the watchdog, the last breath and the journal (R371–R395). -/

namespace Sys2Proof.Machine

/-! ### Which domain and which ports a message concerns (R290) -/

/-- The physical domain that a message names. -/
def namedDom (m : DWord) : Option Nat :=
  let u := fUnit m
  let k := fKindOf m
  let i := fInst m
  let pick := fun d : Nat => if d < 80 then some d else none
  if u = 2 ∧ (k = 0x10 ∨ k = 0x11) then pick (fDetail m / 2 ^ 20 % 256)
  else if u = 2 ∧ (k = 0x13 ∨ k = 0x14) then pick i
  else if u = 3 ∧ (k = 0x41 ∨ k = 0x42) then none
  else if (u = 3 ∨ u = 4 ∨ u = 6 ∨ u = 7 ∨ u = 8) ∧ i < 0x50 then pick i
  else if u = 0xA ∧ 0x40 ≤ i ∧ i < 0x80 then some (i - 0x40)
  else none

/-- The port that a message concerns alone. -/
def namedPort (m : DWord) : Option Nat :=
  let u := fUnit m
  if fInst m < 8 ∧ (u = 0 ∨ (u = 1 ∧ fKindOf m = 0x50)) then some (fInst m) else none

/-- Whether a port enables a class of fault events. -/
def wantsClass (P : Port) (cls : Nat) : Bool :=
  match cls with
  | 0 => P.evCorr
  | 1 => P.evCont
  | _ => P.evFatal

/-- Whether a port takes the event of a message. -/
def takesFault (s : State) (m : DWord) (p : Nat) : Bool :=
  let P := portOf s p
  P.en && wantsClass P (fClass m) &&
  (p == 0 ||
   (match namedPort m with
    | some q => q == p
    | none =>
      if fKindOf m = 0x52 ∧ fUnit m = 0 then false
      else
        match namedDom m with
        | some d => P.rightsD.getLsbD (logName s d)
        | none => true))

/-- The FAULT event is posted to the ports that take it (R325, R326). -/
def postFault (s : State) (m : DWord) (count ext : Word) : State :=
  let name := match namedDom m with | some d => logName s d | none => 0xFE
  let e : Event :=
    { typ := 0x01, dom := BitVec.ofNat 8 name, cls := BitVec.ofNat 8 (fClass m), epoch := epochIn s,
      pay := leBytes 8 m.toNat ++ leBytes 8 s.time.gtc ++ leBytes 4 count.toNat ++ leBytes 4 ext.toNat }
  (List.range 8).foldl (fun s p => if takesFault s m p then postEvent s p e else s) s

/-! ### The journal (R390, R391) -/

/-- Whether a corrected message is the first of its kind and source in its second; the second is that of the stamp. -/
def firstInSecond (s : State) (m : DWord) : Bool :=
  !s.safety.corrSeen.contains (fKindOf m * 4096 + fUnit m * 256 + fInst m, s.time.gtc / 1000000000)

/-- The corrected messages seen in the stamp's second, this one among them. -/
def markSeen (s : State) (m : DWord) : State :=
  let sec := s.time.gtc / 1000000000
  let key := fKindOf m * 4096 + fUnit m * 256 + fInst m
  { s with safety := { s.safety with corrSeen := (key, sec) :: s.safety.corrSeen.filter (fun x => x.2 == sec && x.1 != key) } }

/-- Whether a message is journalled: every contained and fatal one, and the first corrected one while JCORR is set. -/
def journals (s : State) (m : DWord) : Bool := fClass m != 0 || (s.safety.jcorr && firstInSecond s m)

/-- Current field of a cell's last report, 0 while it sank (Table 04-2). -/
def repI (w : Word) : Nat := if w.getLsbD 30 then 0 else w.toNat % 4096

/-- Payload of a fault record from byte 32, its measurements those of the last latch (Table 16-9). -/
def faultPayload (s : State) (m : DWord) (ext count : Word) : List Byte :=
  let head := leBytes 8 m.toNat ++ leBytes 8 s.time.gtc ++ leBytes 4 ext.toNat ++ leBytes 4 count.toNat
  let u := fUnit m
  match namedDom m with
  | some d =>
    if u = 2 ∨ u = 6 ∨ u = 7 ∨ u = 8 then
      let D := domOf s d
      let c := fDetail m % 1024
      head ++ [BitVec.ofNat 8 d, BitVec.ofNat 8 (logOf s d)] ++ leBytes 2 (if u = 7 then c else 0xFFFF) ++
      leBytes 2 D.vmeas.toNat ++ leBytes 2 (satNat 16 D.imeas) ++
      leBytes 2 (if u = 7 then (cellOf (domOf s (cellDom c)) (cellIdx c)).latI else 0) ++ leBytesS 2 D.latT ++ leBytes 2 D.latCode
    else head ++ zeros 14
  | none => head ++ zeros 14

/-- The journal-gap record, when messages were not journalled since the last one (Table 16-9 type 0x0005). -/
def gapRecord (s : State) : State :=
  if !s.strata.gapNew then s
  else
    let s1 := pushRecord s 2 0x0005 s.time.gtc
      (leBytes 4 s.strata.gapCnt ++ leBytes 8 s.strata.gapFirst ++ leBytes 8 s.strata.gapLast)
    { s1 with strata := { s1.strata with gapNew := false, gapCnt := 0 } }

/-- A message that finds the write queue full is not journalled and is counted. -/
def countGap (s : State) : State :=
  let st := s.strata
  { s with strata :=
             { st with gap := if st.gap = 0xFFFF then 0xFFFF else st.gap + 1, gapCnt := st.gapCnt + 1,
                       gapFirst := if st.gapNew then st.gapFirst else s.time.gtc, gapLast := s.time.gtc, gapNew := true } }

/-- What the journal does with a message: the record's sequence, if it is journalled. -/
def journalSlot (s : State) (m : DWord) : State × Option DWord :=
  if !journals s m || !s.strata.avail then (s, none)
  else if 16 ≤ s.strata.queue.length then (countGap s, none)
  else let s1 := gapRecord s; (s1, some s1.strata.nextSeq)

/-! ### The safe state (R376) -/

/-- Whether the clocks are forced so that no station link can run: CCLK is FOSC, so that TCLK is near 100 MHz (R360). -/
def linksDark (s : State) : Bool := s.clk.lost && s.clk.ccur != 1

/-- Every domain that is neither DARK nor ABSENT is put into DARK and discharged, reported as an internal change; a pair changes as
one, and a discharge that runs goes on (R127, R376). Where forced clocks keep the links from carrying the order, the stations keep
their domains HELD. -/
def darkAll (s : State) : State :=
  if linksDark s then s
  else foldDoms s (fun s d =>
    let D := domOf s d
    if D.state == .dark || D.state == .absent || isOdd s d then s
    else if D.tr.ph == .discharge then report s d (.dark false)
    else forceDark s d false)

/-- Two XB cycles in ns, rounded up (R50). -/
def pulseNs : Nat := 61036

/-- SAFE_STAT is driven low by a fault pulse, which runs or is extended to two XB cycles from now (R379). -/
def pulse (s : State) : State :=
  { s with safety := { s.safety with level := false, pin := false, pulseTo := some (s.time.run + pulseNs) } }

/-- Every accepted command is to complete REFUSED_STATE at the next shutter (step 3 of R376). -/
def refuseAccepted (s : State) : State :=
  { s with cmds := s.cmds.map (fun c =>
      if c.stage = .accepted then { c with refuse := true, shutter := 2000 * (s.time.gtc / 2000 + 1) } else c) }

/-- A fatal message enters the safe state, or joins the causes collected since entry (R376, R377). -/
def enterSafe (s : State) (m : DWord) : State :=
  let kind := BitVec.ofNat 8 (fKindOf m)
  let src := BitVec.ofNat 12 (fUnit m * 256 + fInst m)
  let s1 : State := { s with safety := { s.safety with causes := s.safety.causes ++ [m] } }
  if s1.safety.safe then s1
  else
    let s2 : State := { s1 with safety := { s1.safety with safe := true, fKind := kind, fSrc := src, hbMode := false, hb := false } }
    busOff (darkAll (refuseAccepted s2))

/-- A fatal message found while a control reset holds the collector acts at once; it is posted when BUSY clears (R365). -/
def atOnce (s : State) (m : DWord) : State :=
  if s.clk.crstBusy && fClass m == 2 then pulse (enterSafe s m) else s

/-- A unit raises a fault whose hardware reaction waits for no collector (R365, R371). -/
def raiseAtOnce (s : State) (cls kind unit inst detail : Nat) : State :=
  atOnce (raise s cls kind unit inst detail) (faultWord cls kind unit inst detail (epochIn s))

/-! ### Taking a message (R372, R373) -/

/-- A contained message of the escalated kind, collected as fatal (R375). -/
def escalate (s : State) (m : DWord) : DWord :=
  if s.safety.escEn ∧ fClass m = 1 ∧ fKindOf m = s.safety.escKind.toNat then
    let b : DWord := (2#2 ++ (m.extractLsb' 2 60) ++ 0#2 : BitVec 64)
    b ||| parityOf b
  else m

/-- The interrupt sources that a message sets: its class and unit, and the domain it names (R308). -/
def latchSources (s : State) (m : DWord) : State :=
  let base := match fClass m with | 2 => 0 | 1 => 32 | _ => 48
  let bits := BitVec.twoPow 256 (base + fUnit m) |||
    (match namedDom m with | some d => if fClass m ≠ 0 then BitVec.twoPow 256 (128 + d) else 0 | none => 0)
  { s with irq := { s.irq with latched := s.irq.latched ||| bits } }

/-- The counts and the last message (steps 1 and 2 of R373). -/
def countFault (s : State) (m : DWord) : State :=
  let f := s.safety
  { s with safety :=
             { f with kinds := vupd f.kinds (fKindOf m) (fun c => c + 1),
                      nFatal := if fClass m = 2 ∧ f.nFatal ≠ 0xFF then f.nFatal + 1 else f.nFatal,
                      nCont := if fClass m = 1 ∧ f.nCont ≠ 0xFFF then f.nCont + 1 else f.nCont,
                      last := m, recent := (m :: f.recent).take 8 } }

/-- What the class does to the safe state and SAFE_STAT (R376, R379). -/
def classReaction (s : State) (m : DWord) : State :=
  if fClass m = 2 then pulse (enterSafe s m)
  else if fClass m = 1 ∧ s.safety.cont ∧ !s.safety.hbMode then pulse s
  else s

/-- Bytes 28–31 of a FAULT event (R385, Table 16-6). -/
def faultExt (s : State) (q : FaultMsg) (seq : Option DWord) : Word :=
  match q.from_ with
  | some start => BitVec.ofNat 32 (satNat 32 (s.time.gtc - start))
  | none =>
    if fKindOf q.bits = 0x30 ∧ fInst q.bits = 0x10 then q.ext
    else match seq with
      | some x => x.setWidth 32
      | none => 0

/-- A message is taken from the queue: counted, latched, acted on, posted and journalled in the order of R373. -/
def takeMessage (s : State) (q : FaultMsg) : State :=
  let ones := ((List.range 64).filter (fun i => q.bits.getLsbD i)).length
  let m := escalate s q.bits
  let s1 := classReaction (latchSources (countFault s m) m) m
  let cnt := vget s1.safety.kinds (fKindOf m)
  let j := journalSlot s1 m
  let s2 := if fClass m = 0 then markSeen j.1 m else j.1
  let ext := faultExt s2 q j.2
  let s3 := postFault s2 m cnt ext
  let s4 := if j.2.isSome then pushRecord s3 2 0x0001 s3.time.gtc (faultPayload s3 m ext cnt) else s3
  if ones % 2 = 1 then raise s4 0 0x40 0xE 0x01 (fDetail q.bits) else s4

/-- `FAULT_MESSAGE`: the collector takes the oldest message; it is held in reset during a control reset (R365). -/
def execFaultMessage (t : Nat) (s : State) : Host.Outcome State Fault Refusal :=
  let s := now t s
  if s.clk.crstBusy then .next s
  else
    match s.safety.queue with
    | [] => .next s
    | q :: rest => .next (wakeT8 (takeMessage { s with safety := { s.safety with queue := rest } } q))

/-- A write of `DG.FLT_CFG` (Table 16-15). -/
def writeFltCfg (s : State) (val : Word) : State :=
  let f := { s.safety with jcorr := bitOf val 9, escEn := bitOf val 8, escKind := val.extractLsb' 0 8 }
  { s with safety := if bitOf val 31 then { f with nFatal := 0, nCont := 0, nDrop := 0, last := 0 } else f }

/-- `FLT_CFG_CLR`: CLR clears FLT_COUNT and FLT_LAST (Table 16-15). -/
def execFltCfgClr (val : Word) (t : Nat) (s : State) : Host.Outcome State Fault Refusal :=
  let s := ackWrite (now t s)
  if setupOpen s then .next (writeFltCfg s val) else .next s

/-! ### SAFE_STAT (R378, R379) -/

/-- A write of `DG.SAFE_MODE`: one that sets heartbeat while `SAFE` = 1, or leaves heartbeat without `KEY`, is ignored whole (R378). -/
def writeSafeMode (s : State) (val : Word) : State :=
  let f := s.safety
  let level := if bitOf val 1 && f.safe then f.level else bitOf val 1
  let f1 := { f with cont := bitOf val 2, level := level }
  let f2 :=
    if bitOf val 0 then (if f.safe then f else { f1 with hbMode := true, hb := true })
    else if f.hbMode then (if fld val 15 8 = 0x3C then { f1 with hbMode := false, hb := false, pin := level } else f)
    else if f.pulseTo.isSome then f1
    else { f1 with pin := level }
  { s with safety := f2 }

/-- `SAFE_MODE_WRITE`. -/
def execSafeModeWrite (val : Word) (t : Nat) (s : State) : Host.Outcome State Fault Refusal :=
  let s := ackWrite (now t s)
  if s.clk.crstBusy then .next s else .next (writeSafeMode s val)

/-- `HEARTBEAT_TOGGLE`: the pin toggles in heartbeat mode while SAFE = 0 and XB runs (R50, R378, Table 15-3). -/
def execHeartbeatToggle (t : Nat) (s : State) : Host.Outcome State Fault Refusal :=
  let s := now t s
  if s.safety.hbMode && !s.safety.safe && vget s.clk.run 6 then .next { s with safety := { s.safety with pin := !s.safety.pin } } else .next s

/-- `SAFE_PULSE_END`: after the pulse the pin drives LEVEL (R379). -/
def execSafePulseEnd (t : Nat) (s : State) : Host.Outcome State Fault Refusal :=
  let s := now t s
  match s.safety.pulseTo with
  | some x =>
    if s.time.run < x then .next s
    else .next { s with safety := { s.safety with pulseTo := none, pin := if s.safety.hbMode then s.safety.pin else s.safety.level } }
  | none => .next s

/-! ### Last breath (R393, R394) -/

/-- State byte of a domain record (Table 03-7). -/
def recStateByte (r : DomRec) : Byte :=
  BitVec.ofNat 8 (r.st.toNat + bitAt r.paired 3 + bitAt r.latched 4 + bitAt r.lantOff 5 + bitAt r.rcOff 6)

/-- The last-breath payload (Table 16-10), from the last shutter record and the registers it names. -/
def breathPayload (s : State) : List Byte :=
  let dom (l : Nat) : List Byte :=
    match s.records with
    | [] => zeros 10
    | r :: _ =>
      let x := vget r.doms l
      [recStateByte x, BitVec.ofNat 8 x.working] ++ leBytes 2 x.code ++ leBytes 2 x.vmin.toNat ++ leBytes 2 x.imean.toNat ++
      leBytesS 2 x.temp
  let chip := match s.records with | [] => 0 | r :: _ => r.energy.toNat
  leBytes 8 s.cseq.toNat ++ leBytes 8 chip ++ leBytes 8 s.meter.inEnergy.toNat ++
  leBytes 4 (vget s.meter.data 0).res.toNat ++ leBytes 4 (vget s.meter.data 1).res.toNat ++ leBytes 4 (fltCount s).toNat ++
  leBytes 4 (safeStat s).toNat ++ (List.range 8).flatMap (fun i => leBytes 8 (s.safety.recent.getD i 0).toNat) ++
  (List.range 80).flatMap dom

/-- `PFAIL`: a fatal fault with the mode fields in force, and the last-breath write in the next S3 slot (R393). PFAIL_N is ignored while
DG_POR_N is low (R46). -/
def execPfail (t : Nat) (s : State) : Host.Outcome State Fault Refusal :=
  let s := now t s
  if s.safety.pfailLow || !s.safety.porHigh then .next s
  else
    let s1 := if s.strata.avail then startBreath (pushRecord s 3 0x0201 s.time.gtc (breathPayload s)) else s
    .next (raiseAtOnce { s1 with safety := { s1.safety with pfailLow := true, pfailUp := none } } 2 0x63 0xE 0 (modeShown s))

/-- `PFAIL_N_RISE`: the 10 ms of R377 begin. -/
def execPfailNRise (t : Nat) (s : State) : Host.Outcome State Fault Refusal :=
  let s := now t s
  if s.safety.pfailLow then .next { s with safety := { s.safety with pfailLow := false, pfailUp := some s.time.run } } else .next s

/-! ### The watchdog (R381) -/

/-- `TIMEOUT` as it acts: 2–10, other values as the nearer limit (Table 16-18). -/
def wdtTimeout (s : State) : Nat := Nat.max 2 (Nat.min 10 s.mc.timeout.toNat)

/-- `OPEN` as it acts: at most `TIMEOUT` − 1. -/
def wdtOpen (s : State) : Nat := Nat.min s.mc.openW.toNat (wdtTimeout s - 1)

/-- Twice the length in ns of a watchdog unit of 32 XB cycles, which is 976,562.5 ns. -/
def wdtUnit2 : Nat := 1953125

/-- The MC is reset: it stops, its claim ends and its mailbox commands wait for its restart (R364, Table 15-5). -/
def resetMc (s : State) : State :=
  setClaim { s with mc := { s.mc with run := false, gated := false } } 8 none

/-- A watchdog failure: WDT is raised, the MC is reset, and a third failure within 1 s of the first halts it (R381). -/
def wdtFail (s : State) (cause : Nat) : State :=
  let s1 := resetMc (raise s 1 0x70 0xE 0 cause)
  let s2 : State := { s1 with clk := { s1.clk with causes := s1.clk.causes ||| 8 } }
  let m := s2.mc
  let g := s2.time.run
  if m.fails = 0 then { s2 with mc := { m with fails := 1, firstFail := g, lastFail := g } }
  else if m.fails = 1 then { s2 with mc := { m with fails := 2, lastFail := g } }
  else if g ≤ m.firstFail + 1000000000 then
    raise { s2 with mc := { m with fails := 3, lastFail := g, state := 5 } } 1 0x70 0xE 0 2
  else { s2 with mc := { m with firstFail := m.lastFail, lastFail := g } }

/-- `WDT_KICK`: an MC write of `DG.WDT_CFG`. Its `TIMEOUT` and `OPEN` are stored; a `KICK` of 0xC3 is judged by the values
in force before the write (log 19). -/
def execWdtKick (val : Word) (t : Nat) (s : State) : Host.Outcome State Fault Refusal :=
  let s := now t s
  let store (s : State) : State := { s with mc := { s.mc with timeout := val.extractLsb' 8 8, openW := val.extractLsb' 4 4 } }
  if !mcRunning s then .next s
  else if fld val 31 24 ≠ 0xC3 then .next (store s)
  else
    let e := 2 * (s.time.run - s.mc.kickAt)
    if e < wdtOpen s * wdtUnit2 then .next (wdtFail (store s) 1)
    else if wdtTimeout s * wdtUnit2 < e then .next (wdtFail (store s) 0)
    else .next (store { s with mc := { s.mc with kickAt := s.time.run } })

/-- `WDT_TIMEOUT`: no kick within `TIMEOUT` units (R381). -/
def execWdtTimeout (t : Nat) (s : State) : Host.Outcome State Fault Refusal :=
  let s := now t s
  if mcRunning s && decide (wdtTimeout s * wdtUnit2 ≤ 2 * (s.time.run - s.mc.kickAt)) then .next (wdtFail s 0) else .next s

/-- `WDT_FAILS_CLEAR`: FAILS clears 1 s after the last failure (R381). -/
def execWdtFailsClear (t : Nat) (s : State) : Host.Outcome State Fault Refusal :=
  let s := now t s
  if s.mc.lastFail + 1000000000 ≤ s.time.run then .next { s with mc := { s.mc with fails := 0 } } else .next s

/-! ### Records of the MC (R389) -/

/-- `LIFETIME_COUNTERS_RECORD`: the MC writes the record to S1 (R389). -/
def execLifetimeCountersRecord (payload : List Byte) (t : Nat) (s : State) : Host.Outcome State Fault Refusal :=
  let s := now t s
  if mcRunning s then .next (queueRecord s 1 0x0103 s.time.gtc (slice payload 0 64)).1 else .next s

end Sys2Proof.Machine
end

