-- ==== Sys2Proof/Machine/Station.lean ====
section
/-! DEFINITION. Stations: cells, parking, failures, cracks, throttle outputs, and the domain transitions they run by themselves (R87–R107, R113–R128). -/

namespace Sys2Proof.Machine

/-! ### Pairs and groups of cells -/

/-- Whether the even station runs all 28 cells: from the frame at t + 4,000 of the pairing commit (R126). -/
def joined (s : State) (d : Nat) : Bool := isEven s d && decide ((domOf s d).pairAt + 4000 ≤ s.time.gtc)

/-- The sites whose cells the station of `d` runs: both for a joined pair. -/
def stationSites (s : State) (d : Nat) : List Nat := if joined s d then [d, d + 1] else [d]

/-- Whether the station of `d` runs its own cells: not ABSENT, and not relaying for the even site of a joined pair. -/
def stationActs (s : State) (d : Nat) : Bool := !isAbsent s d && !(isOdd s d && joined s (d - 1))

/-- The cells that the station of `d` runs, as (physical domain, index), in the numbering of R11. -/
def stationCells (s : State) (d : Nat) : List (Nat × Nat) :=
  (stationSites s d).flatMap (fun x => (List.range (nCells x)).map (fun k => (x, k)))

/-- A cell by (domain, index). -/
def cellAt (s : State) (x : Nat × Nat) : Cell := cellOf (domOf s x.1) x.2

/-- The state with a cell changed. -/
def setCellAt (s : State) (x : Nat × Nat) (f : Cell → Cell) : State := setDom s x.1 (fun D => setCell D x.2 f)

/-- Index of a cell within its domain or pair, 0–27 (Table 04-8). -/
def cellPos (s : State) (x : Nat × Nat) : Nat := if isOdd s x.1 then x.2 + 14 else x.2

/-- Cells of the station of `d` in a state. -/
def cellsIn (s : State) (d : Nat) (st : CellSt) : List (Nat × Nat) := (stationCells s d).filter (fun x => (cellAt s x).st == st)

/-- Whether any cell of the station of `d` is parked: RAMP, WARM or COLD. -/
def anyParked (s : State) (d : Nat) : Bool :=
  (stationCells s d).any (fun x => let c := (cellAt s x).st; c == .ramp || c == .warm || c == .cold)

/-- Whether a cell resumes from COLD and its last report does not yet say ACTIVE (R100). -/
def resuming (c : Cell) : Bool := c.fromCold && fld c.rep 24 22 != 0

/-- The ACTIVE cells of a station, those that resume from COLD only once they report it (R96, R100). -/
def activeCells (s : State) (d : Nat) : List (Nat × Nat) := (cellsIn s d .active).filter (fun x => !resuming (cellAt s x))

/-- `itot` of a station: the summed current of its ACTIVE cells at the latch, LSB 1/512 A (R96). -/
def itotOf (s : State) (d : Nat) : Nat := ((activeCells s d).map (fun x => repI (cellAt s x).rep)).sum

/-- Every parked cell is ordered back to ACTIVE, with accumulator and trim 0 (R96, R99). -/
def unparkAll (s : State) (d : Nat) : State :=
  (stationCells s d).foldl (fun s x =>
    let c := (cellAt s x).st
    if c == .ramp || c == .warm || c == .cold then
      setCellAt s x (fun c => { c with st := .active, acc := 0, strim := 0, fromCold := c.st == .cold }) else s) s

/-- An abort of parking: parked cells return and the park pointer moves on (R99). -/
def abortPark (s : State) (d : Nat) : State :=
  if anyParked s d then
    let n := (stationCells s d).length
    setDom (unparkAll s d) d (fun D => { D with park := { D.park with ptr := (D.park.ptr + 1) % n } })
  else s

/-! ### Ratings (R103) -/

/-- The rows of Table 04-8a. -/
inductive Rating where
  | full | derated | dark
deriving DecidableEq, Repr, Inhabited

/-- The rating of a leader with n working cells (Table 04-8a). -/
def ratingOf (s : State) (d n : Nat) : Rating :=
  let lim := if isEven s d then (24, 16) else if isTile d then (12, 8) else (7, 5)
  if lim.1 ≤ n then .full else if lim.2 < n then .derated else .dark

/-- Detail of a cell fault (Table 04-8). -/
def cellDetail (n cause k cell : Nat) : Nat := n * 0x80000 + cause * 0x8000 + k * 0x400 + cell

/-! ### Soft start and HELD -/

/-- Whether a domain runs a soft start, its start wait and its settling included. -/
def inSoftStart (D : Domain) : Bool := D.tr.ph == .startWait || D.tr.ph == .leg1 || D.tr.ph == .leg2 || D.tr.ph == .settle

/-- Whether a soft start, descent or discharge runs (R125, R128). -/
def inTransition (D : Domain) : Bool := inSoftStart D || D.tr.ph == .descent || D.tr.ph == .discharge

/-- The sieve test of a domain finds a failing event, or an internal change takes its domain out of LIT; the first event decides the outcome
(R408). -/
def sieveEvent (s : State) (d : Nat) : State :=
  match s.sieve with
  | some v => if v.dom.val = d then { s with sieve := some { v with fail := v.fail || !v.abandon } } else s
  | none => s

/-- The sieve step in force at a domain, 0 without a test (R407). -/
def sieveStep (s : State) (d : Nat) : Nat :=
  match s.sieve with
  | some v => if v.dom.val = d then v.step else 0
  | none => 0

/-- A generator held still at a value: HELD (R182), or the start of a move that replaces another. The target in force stands (R134). -/
def profHold (v : Int) (p : Prof) : Prof := { p with cond := .settled, vref := v, pend := none }

/-- The hub puts a SHADE or LIT domain into HELD, with `VREF` at the held set-point and fall-back ended; a soft start is put into DARK instead,
and a discharge runs on. The station follows the state order of its next good down frame (R38, R118, R182, R188). -/
def holdDomain (s : State) (d : Nat) (why : HeldWhy) : State :=
  let D := domOf s d
  if isOdd s d || D.held || !(D.state == .lit || D.state == .shade) then s
  else if inSoftStart D then forceDark s d false
  else if D.tr.ph == .discharge then s
  else report (setMembers s d (fun M => { M with held := true, fallback := false, sup := { M.sup with fbPend := false },
                                                 prof := profHold (codeMv D.code) M.prof })) d (.held why)

/-- A station begins to hold its domain: every parked cell is unparked (R38). -/
def stationHold (s : State) (d : Nat) : State :=
  if (domOf s d).stHeld then s else setMembers (unparkAll s d) d (fun M => { M with stHeld := true })

/-- A station without a link holds its domain without any order (R38, R39). -/
def holdUnlinked (s : State) (d : Nat) : State :=
  let s1 := holdDomain s d .linkLost
  if (domOf s1 d).held then stationHold s1 d else s1

/-! ### Cell failures (R101–R105) -/

/-- Whether the domain has spare capacity for an overloaded cell (R101). -/
def spareCapacity (s : State) (d : Nat) (x : Nat × Nat) : Bool :=
  (stationCells s d).any (fun y =>
    let c := cellAt s y
    y != x && (c.st == .ramp || c.st == .warm || c.st == .cold || (c.st == .active && !c.ovld && decide (repI c.rep ≤ 1280))))

/-- The causes of Table 04-7 that a cell meets at its station, by their run counters. -/
def cellCauses (s : State) (d : Nat) (x : Nat × Nat) : List Nat :=
  let c := cellAt s x
  (if 12 ≤ c.silent then [0] else []) ++ (if 8 ≤ c.underRun then [1] else []) ++
  (if c.ovld && spareCapacity s d x then [2] else []) ++ (if 2 ≤ c.drvfRun then [3] else []) ++
  (if 8 ≤ c.otRun then [4] else []) ++
  (if (domOf s d).lowHold && c.holdRep && !c.rep.getLsbD 30 && decide (256 < repI c.rep) then [7] else []) ++
  (if 8 ≤ c.overRun then [9] else [])

/-- The station of a cell: the even site of a joined pair, its own site otherwise. -/
def cellStation (s : State) (d : Nat) : Nat := if isOdd s d && joined s (d - 1) then d - 1 else d

/-- Whether an internal change is the isolation of cells of a domain that its station reported at a GTC. -/
def isIsolation (d t : Nat) (i : IntChange) : Bool :=
  i.dom.val == d && i.at_ == t && (match i.what with | .cellMap (_ + 1) => true | _ => false)

/-- A station reports an isolation: those of one frame are one change of the cell map (R83, R95, R103). -/
def reportIsolation (s : State) (d : Nat) : State :=
  if s.ints.any (isIsolation d s.time.gtc) then
    { s with ints := s.ints.map (fun i =>
        if isIsolation d s.time.gtc i then { i with what := match i.what with | .cellMap n => .cellMap (n + 1) | w => w } else i) }
  else report s d (.cellMap 1)

/-- A cell is declared failed and isolated (R102): its enable is removed, the domain unparks when at or below `PARK_MIN`,
CELL_FAIL takes the class of the remaining rating (R103), and the cell-map change and any derating or DARK are reported; DARK ends a soft
start that still waits, too. -/
def failCell (s : State) (x : Nat × Nat) (cause : Nat) : State :=
  let d := leader s x.1
  let st := cellStation s x.1
  let s1 := setCellAt s x (fun c =>
    { c with st := .isolated, tkSt := .isolated, acc := 0, strim := 0, failed := some (BitVec.ofNat 4 cause), isoAt := s.time.gtc,
             isoRep := false, underRun := 0,
             overRun := 0, drvfRun := 0, otRun := 0 })
  let lim := (cfgAt s d).lim
  let pmin := if isEven s d then lim.parkMin2 else lim.parkMin
  let s2 := if (activeCells s1 st).length ≤ pmin then unparkAll s1 st else s1
  let n := workingOf s2 d
  let r := ratingOf s2 d n
  let s3 := raise s2 (if r = .full then 0 else 1) 0x04 0x7 d (cellDetail n cause (cellPos s x) (cellNoOf x.1 x.2))
  let s4 := setDom (setDom s3 st (fun D => { D with park := { D.park with abort := true } })) x.1 (fun D => { D with unc := D.unc + 1 })
  let s5 := sieveEvent (reportIsolation s4 x.1) d
  match r with
  | .full => s5
  | .derated => report s5 d .derated
  | .dark => if (domOf s5 d).en || inSoftStart (domOf s5 d) then forceDark s5 d false else s5

/-- `CELL_FAIL`: a cell in service that meets a cause is declared failed once, with the lowest cause (R101, R102). -/
def execCellFail (c : CellNo) (t : Nat) (s : State) : Host.Outcome State Fault Refusal :=
  let s := now t s
  let x := (cellDom c, cellIdx c)
  let C := cellAt s x
  if isAbsent s x.1 || !cellWorks C then .next s
  else
    match cellCauses s (cellStation s x.1) x with
    | [] => .next s
    | cause :: _ => .next (failCell s x cause)

/-- The condition of cause 0x5 on the report of a cell since its isolation: above 0.5 A, or `SINK` clear with `DROP` above 0x010 (Table 04-7). -/
def isolationBad (c : Cell) : Bool :=
  c.isoRep && (decide (256 < repI c.rep) || (!c.rep.getLsbD 30 && decide (0x010 < fld c.rep 21 12)))

/-- `ISOLATION_CHECK`: 4 µs after the isolation of cell k of a physical domain, a cell that still carries current raises CELL_FAIL cause
0x5 as fatal (R101, R102). -/
def execIsolationCheck (d_ : Dom) (k : Fin 14) (t : Nat) (s : State) : Host.Outcome State Fault Refusal :=
  let s := now t s
  let x := (d_.val, k.val)
  let C := cellAt s x
  let d := leader s x.1
  if k.val < nCells d_ && C.st == .isolated && C.failed.isSome && C.failed != some 5 && decide (C.isoAt + 4000 ≤ s.time.gtc) && isolationBad C then
    .next (raiseAtOnce (setCellAt s x (fun c => { c with failed := some 5 })) 2 0x04 0x7 d
      (cellDetail (workingOf s d) 5 (cellPos s x) (cellNoOf x.1 x.2)))
  else .next s

/-! ### Reports (R89, R90, R92) -/

/-- Whether a report's parity holds: an even number of ones (Table 04-2). -/
def reportParityOk (w : Word) : Bool := ((List.range 32).filter (fun i => w.getLsbD i)).length % 2 == 0

/-- `CELL_REPORT`: a good report replaces the last one and ends an autonomous hold, after which the cell takes what its station has for it;
a bad one is discarded and counted (R90, R92). -/
def execCellReport (c : CellNo) (word : Word) (t : Nat) (s : State) : Host.Outcome State Fault Refusal :=
  let s := now t s
  let x := (cellDom c, cellIdx c)
  if isAbsent s x.1 then .next s
  else if reportParityOk word then
    .next (setCellAt s x (fun C =>
      takeWave (domOf s x.1).band
      { C with rep := word, parFails := 0, autoHold := false, holdRep := true, isoRep := true, ovld := word.getLsbD 28,
               fromCold := C.fromCold && fld word 24 22 != 0,
               drvfRun := if word.getLsbD 25 then C.drvfRun + 1 else 0, otRun := if word.getLsbD 26 then C.otRun + 1 else 0 }))
  else .next (setCellAt s x (fun C => { C with parFails := C.parFails + 1 }))

/-- `CELL_AUTONOMOUS_HOLD`: no handshake for 1 µs, which is four frames of a silent cell (R90, R101). -/
def execCellAutonomousHold (c : CellNo) (t : Nat) (s : State) : Host.Outcome State Fault Refusal :=
  let s := now t s
  let x := (cellDom c, cellIdx c)
  if isAbsent s x.1 then .next s
  else .next (setCellAt s x (fun C => { C with autoHold := true, silent := Nat.max C.silent 4 }))

/-- OC from a cell, once per cell and epoch (R89). -/
def reportOvld (s : State) (x : Nat × Nat) : State :=
  if (cellAt s x).ovldSeen then s
  else
    let d := leader s x.1
    raise (setCellAt s x (fun C => { C with ovldSeen := true })) 0 0x03 0x7 d
      (cellDetail (workingOf s d) 2 (cellPos s x) (cellNoOf x.1 x.2))

/-- One latch of a cell's overload timer: every microsecond, that is four latches, it counts up by 1 where the mean current was above 2.5 A,
and down by 1 every fourth microsecond otherwise; at 2,000 the peak limit falls to 2.5 A and OVLD is set, until the timer is back at 0 (R89).
Where the microseconds lie is the model's choice (log 67). -/
def overloadStep (us : Bool) (i : Nat) (c : Cell) : Cell :=
  let sum := c.ovSum + i
  if !us then { c with ovSum := sum }
  else
    let high := decide (5120 < sum)
    let down := if high then 0 else c.ovDown + 1
    let timer := if high then Nat.min 2000 (c.ovTimer + 1) else if down = 4 then c.ovTimer - 1 else c.ovTimer
    { c with ovSum := 0, ovDown := down % 4, ovTimer := timer, limLow := timer == 2000 || (c.limLow && timer != 0),
             ovld := timer == 2000 || (c.ovld && !(c.limLow && timer == 0)) }

/-- `CELL_OVERLOAD`: the overload timer has reached 2,000; the peak limit is 2.5 A, and OVLD is reported once in an epoch (R89). -/
def execCellOverload (c : CellNo) (t : Nat) (s : State) : Host.Outcome State Fault Refusal :=
  let s := now t s
  let x := (cellDom c, cellIdx c)
  if isAbsent s x.1 || !cellWorks (cellAt s x) || (cellAt s x).ovTimer != 2000 then .next s
  else .next (reportOvld (setCellAt s x (fun C => { C with ovld := true, limLow := true })) x)

/-- `OVERLOAD_TIMER_CLEAR`: the timer is back at 0, and with it the 4.0 A peak limit (R89). -/
def execOverloadTimerClear (c : CellNo) (t : Nat) (s : State) : Host.Outcome State Fault Refusal :=
  .next (setCellAt (now t s) (cellDom c, cellIdx c) (fun C => if C.ovTimer = 0 then { C with ovld := false, limLow := false } else C))

/-! ### Parking (R99) -/

/-- Whether a station parks: LIT or SHADE, not held by it, no soft start, `PARK_EN` = 1. -/
def parks (s : State) (d : Nat) : Bool :=
  let D := domOf s d
  (D.state == .lit || D.state == .shade) && D.en && !D.stHeld && !inSoftStart D && (cfgAt s (leader s d)).lim.parkEn == 1

/-- `PARK_MIN` in force: the pair value from the pairing swap on (R331). -/
def parkMinOf (s : State) (d : Nat) : Nat := if isEven s d then (cfgAt s d).lim.parkMin2 else (cfgAt s d).lim.parkMin

/-- The park condition: itot < (n − 1) × `PARK_I`, in 1/512 A. -/
def parkCond (s : State) (d : Nat) : Bool :=
  decide (itotOf s d < ((activeCells s d).length - 1) * (8 * (cfgAt s (leader s d)).lim.parkI))

/-- What a latch does to parking, all but the entry into RAMP, which is `CELL_PARK` (R99). -/
def parkLatch (s : State) (d : Nat) : State :=
  let lim := (cfgAt s (leader s d)).lim
  let g := s.time.gtc
  let n := (activeCells s d).length
  let s0 := (cellsIn s d .ramp).foldl (fun s x => setCellAt s x (fun c => { c with rampFr := c.rampFr + 1 })) s
  if (domOf s d).park.abort || decide (n * (8 * lim.unparkI) < itotOf s d) then
    setDom (abortPark s0 d) d (fun D => { D with park := { D.park with qual := none, holdoff := g + 10000 * lim.parkHoldoff,
                                                                       abort := false } })
  else
    let s1 := (cellsIn s0 d .ramp).foldl (fun s x => setCellAt s x (fun c =>
      if c.rampFr = 4 then { c with st := .warm, warmAt := g } else c)) s0
    setDom s1 d (fun D => { D with park := { D.park with qual :=
                                                           if g < D.park.holdoff ∨ n ≤ parkMinOf s d then none
                                                           else if parkCond s d then (match D.park.qual with | some q => some q | none => some g)
                                                           else none } })

/-- The cell that parks next: the first ACTIVE cell at or after the pointer, descending and wrapping, not CRACK-flagged
unless all are (R99). -/
def parkPick (s : State) (d : Nat) : Option (Nat × Nat) :=
  let cs := stationCells s d
  let n := cs.length
  let p := (domOf s d).park.ptr
  let order := (List.range n).map (fun j => cs.getD ((p + n - j) % n) (d, 0))
  let act := order.filter (fun x => (cellAt s x).st == .active && !resuming (cellAt s x))
  match act.find? (fun x => !(cellAt s x).crack) with
  | some x => some x
  | none => act.head?

/-- `CELL_PARK`: the condition has held `PARK_QUAL`, 1 µs has passed since the last entry and no cell ramps (R99). -/
def execCellPark (d : Dom) (t : Nat) (s : State) : Host.Outcome State Fault Refusal :=
  let s := now t s
  let P := (domOf s d).park
  let lim := (cfgAt s (leader s d)).lim
  match P.qual with
  | none => .next s
  | some q =>
    if stationActs s d && parks s d && decide (q + 1000 * lim.parkQual ≤ t ∧ (P.last = 0 ∨ P.last + 1000 ≤ t)) &&
        (cellsIn s d .ramp).isEmpty && parkCond s d && decide (parkMinOf s d < (activeCells s d).length) then
      match parkPick s d with
      | none => .next s
      | some x =>
        let s1 := setCellAt s x (fun c => { c with st := .ramp, rampFr := 0, acc := 0, strim := 0 })
        .next (setDom s1 d (fun D => { D with park := { D.park with last := t }, droop := { D.droop with parkedFire := true } }))
    else .next s

/-- `WARM_HOLD_EXPIRE`: a WARM cell becomes COLD (R99). -/
def execWarmHoldExpire (c : CellNo) (t : Nat) (s : State) : Host.Outcome State Fault Refusal :=
  let s := now t s
  let x := (cellDom c, cellIdx c)
  let C := cellAt s x
  if C.st == .warm && decide (C.warmAt + 10000 * (cfgAt s (leader s x.1)).lim.warmHold ≤ t) then
    .next (setCellAt s x (fun c => { c with st := .cold }))
  else .next s

/-! ### Derating (R104) -/

/-- `DERATE_THROTTLE`: a derated tile above its limit for eight frames gets divider 2; in STEADY it is reported (R104). -/
def execDerateThrottle (d : Dom) (t : Nat) (s : State) : Host.Outcome State Fault Refusal :=
  let s := now t s
  let D := domOf s d
  let n := workingOf s d
  if isOdd s d || !isTile d || ratingOf s d n != .derated || D.arb.derate || D.arb.derRun < 8 then .next s
  else
    let s1 := driveThr (setDom s d (fun D => { D with arb := { D.arb with derate := true, derOk := 0 } })) d
    .next (if modeOn s 0 then raise s1 1 0x03 0x6 d (cellDetail n 2 0x1F 0x3FF) else s1)

/-! ### Cracked connections (R106, R107) -/

/-- 160,000 times 1 + 0.0039 (T − 25 °C), with T in 1/16 °C. -/
def crackFactor (temp : Int) : Int := 160000 + 39 * (temp - 400)

/-- Whether R_25 of a window exceeds `num`/100 times R_char: ΣDROP · 5,120 µΩ / ΣI, corrected to 25 °C. -/
def crackOver (c : Cell) (temp : Int) (rChar num : Nat) : Bool :=
  decide ((num * rChar * c.sumI : Nat) * crackFactor temp < (c.sumDrop * 5120 * 100 : Nat) * (160000 : Int))

/-- R_25 in µΩ, rounded to nearest (R423). -/
def crackR25 (c : Cell) (temp : Int) : Int :=
  let den := (c.sumI : Int) * crackFactor temp
  if 0 < den then rdiv ((c.sumDrop * 5120 : Nat) * 160000) den else 0

/-- One cell judged at the end of its window. -/
def judgeCrack (temp : Int) (s : State) (x : Nat × Nat) : State :=
  let c := cellAt s x
  match s.char with
  | none => s
  | some r =>
    let rc := vget r.rChar (cellNoOf x.1 x.2)
    let d := leader s x.1
    if !cellWorks c || c.nWin < 256 then s
    else if c.crack then (if crackOver c temp rc 160 then failCell s x 8 else s)
    else if !crackOver c temp rc 130 then setCellAt s x (fun c => { c with crackRun := 0 })
    else if c.crackRun + 1 < 3 then setCellAt s x (fun c => { c with crackRun := c.crackRun + 1 })
    else
      let s1 := setCellAt s x (fun c => { c with crack := true, crackRun := 3, weight := BitVec.ofNat 4 (Nat.max 1 (c.weight.toNat / 2)) })
      let s2 := raise s1 0 0x06 0x7 d (cellDetail (workingOf s d) 8 (cellPos s x) (cellNoOf x.1 x.2))
      let pay := leBytes 2 (cellNoOf x.1 x.2) ++ zeros 2 ++ leBytesS 4 (crackR25 c temp) ++ leBytes 4 rc
      report (queueRecord s2 2 0x0003 s.time.gtc pay).1 x.1 (.cellMap 0)

/-- `CRACK_WINDOW_END`: each cell's path resistance is estimated and judged, and the window starts anew (R106, R107). -/
def execCrackWindowEnd (d : Dom) (t : Nat) (s : State) : Host.Outcome State Fault Refusal :=
  let s := now t s
  if !stationActs s d then .next s
  else
    let cs := stationCells s d
    let temp := ((stationSites s d).map (fun x => (domOf s x).winT)).foldl Max.max (domOf s d).winT
    let s1 := cs.foldl (judgeCrack temp) s
    let s2 := cs.foldl (fun s x => setCellAt s x (fun c => { c with sumDrop := 0, sumI := 0, nWin := 0 })) s1
    .next ((stationSites s d).foldl (fun s x => setDom s x (fun D => { D with winT := D.maxT })) s2)

/-! ### Overvoltage (R91) -/

/-- `OV_CROSSING`: low-side hold, OV with its window from the start of the crossing, flare disarmed, DARK (R91). The cells
that still source current are isolated by the reports they make during the hold. -/
def execOvCrossing (d : Dom) (t : Nat) (s : State) : Host.Outcome State Fault Refusal :=
  let s := now t s
  let l := leader s d
  if isAbsent s d || !(domOf s d).en then .next s
  else
    let s1 := raiseFrom s 1 0x01 0x6 l (cellDetail (workingOf s l) 7 0x1F 0x3FF) (s.time.gtc - 20)
    let s2 := setMembers s1 l (fun M => { M with lowHold := true, cells := M.cells.map (fun c => { c with holdRep := false }) })
    .next (sieveEvent (forceDark s2 l false) l)

/-! ### Soft start, short and discharge (R113–R123) -/

/-- Neighbours of a physical domain (R120). -/
def neighbours1 (d : Nat) : List Nat :=
  if d < 64 then
    let e := d / 16
    let r := d % 16 / 4
    let c := d % 4
    (if 0 < r then [d - 4] else []) ++ (if 0 < c then [d - 1] else []) ++ (if c < 3 then [d + 1] else []) ++
    (if r < 3 then [d + 4] else []) ++ [64 + e]
  else if d < 68 then (List.range 16).map (fun i => 16 * (d - 64) + i) ++ [d + 4]
  else if d < 72 then [d - 4]
  else if d < 76 then [d + 4]
  else [d - 4]

/-- Neighbours of a leader: those of a pair are its members' union less the members; ABSENT and DARK ones are ignored. -/
def neighboursOf (s : State) (d : Nat) : List Nat :=
  let ms := membersOf s d
  ((ms.flatMap neighbours1).filter (fun x => !ms.contains x && (domOf s x).state != .dark && !isAbsent s x)).eraseDups

/-- Whether a neighbour has crossed DT1 in the microsecond before an instant. -/
def neighbourGlints (s : State) (d g : Nat) : Bool :=
  (neighboursOf s d).any (fun x =>
    match (domOf s (leader s x)).droop.last1 with
    | some u => decide (g < u + 1000)
    | none => false)

/-- 500 mV as Q16.16. -/
def halfVolt : Int := 32768000

/-- Cells are enabled and leg 1 begins at the rail voltage of this frame's latch, or leg 2 where the rail already stands at or above 0.500 V
(R112; log 38); accumulators and trims are reset unless the cells were enabled already (R96); the neighbours' banks are armed for 20 µs, those of
a pair by its even station (R113, R121). -/
def beginLeg1 (s : State) (d : Nat) (slow : Bool) : State :=
  let g := s.time.gtc
  let v0 := linkMv (domOf s d).vmeas
  let s1 := setMembers s d (fun M =>
    { M with en := true, lowHold := false,
             cells := M.cells.map (fun c =>
               if M.en && (!cellWorks c || c.st == .active) then c
               else if cellWorks c then { c with st := .active, acc := 0, strim := 0, rampFr := 0 } else { c with acc := 0, strim := 0 }),
             tr := { M.tr with ph := if halfVolt ≤ v0 then .leg2 else .leg1, since := g, slow := slow, v0 := v0, ref := v0, k := 0,
                               within := 0, shortRun := 0 } })
  if (domOf s d).en then s1
  else
    (neighboursOf s d).foldl (fun s x => setMembers s (leader s x) (fun D =>
      { D with droop := { D.droop with forced := true, forcedTo := g + 20000 } })) s1

/-- A soft start to SHADE or LIT replaces whatever transition runs; with its cells disabled it waits for quiet neighbours,
and cells that a replaced soft start has enabled stay enabled (R112, R113, R121). -/
def startSoft (s : State) (d : Nat) (goal : DState) (attempt : Nat) : State :=
  setMembers s d (fun M =>
    { M with tr := { TransSt.reset with ph := .startWait, goal := goal, since := s.time.gtc, attempt := attempt },
             held := false, stHeld := false, prof := Prof.reset })

/-- The step of a leg at a frame start: `SS_RATE` × 250 ns as Q16.16 mV, 0.25 mV/µs when slowed (R113, R121). -/
def ssStep (s : State) (d : Nat) : Int := (if (domOf s d).tr.slow then 1 else (cfgAt s d).lim.ssRate : Nat) * 4096

/-- Leg 2 begins at code 160 (R113, R182). -/
def beginLeg2 (s : State) (d : Nat) : State :=
  let g := s.time.gtc
  setMembers s d (fun M => { M with tr := { M.tr with ph := .leg2, since := g, ref := halfVolt, k := 0 } })

/-- One frame start of a soft start's wait or first leg (R113, R121). -/
def softStartFrame (s : State) (d : Nat) : State :=
  let D := domOf s d
  let g := s.time.gtc
  match D.tr.ph with
  | .startWait =>
    if D.en || !neighbourGlints s d g then beginLeg1 s d false
    else if D.tr.since + 50000 ≤ g then beginLeg1 s d true
    else s
  | .leg1 =>
    if halfVolt ≤ D.tr.ref then beginLeg2 s d
    else setMembers s d (fun M => { M with tr := { M.tr with ref := Min.min halfVolt (M.tr.ref + ssStep s d), k := M.tr.k + 1 } })
  | _ => s

/-- `SHORT`: 80 latches with the reference 50 mV above the rail and every cell at its peak limit (R122, R123). -/
def execShort (d : Dom) (t : Nat) (s : State) : Host.Outcome State Fault Refusal :=
  let s := now t s
  let D := domOf s d
  if isOdd s d || !(D.tr.ph == .leg1 || D.tr.ph == .leg2 || D.tr.ph == .settle) || D.tr.shortRun < 80 then .next s
  else
    let lim := (cfgAt s d).lim
    let a := D.tr.attempt
    let isum := satNat 12 (rdiv D.imeas 32).toNat
    let latch := decide (lim.shortRetry < a)
    let s1 := raise s 1 0x05 0x6 d (D.vmeas.toNat * 0x10000 + a % 16 * 0x1000 + isum)
    let s2 := forceDark s1 d latch
    .next (sieveEvent (setMembers s2 d (fun M =>
      { M with tr := { M.tr with retryAt := if latch then none else some (s.time.gtc + 1000000 * lim.shortGap) } })) d)

/-- `SHORT_RETRY`: `SHORT_GAP` after the short, the requested state is to be committed again (R123). -/
def execShortRetry (d : Dom) (t : Nat) (s : State) : Host.Outcome State Fault Refusal :=
  let s := now t s
  let D := domOf s d
  match D.tr.retryAt with
  | some x =>
    if isOdd s d || t < x then .next s
    else .next (report (setMembers s d (fun M => { M with tr := { M.tr with retryAt := none } })) d (.retry D.tr.goal))
  | none => .next s

/-- `NEIGHBOUR_ARM_END`: the 20 µs of forced arming of the domain's neighbours are over (R121). -/
def execNeighbourArmEnd (d : Dom) (t : Nat) (s : State) : Host.Outcome State Fault Refusal :=
  let s := now t s
  let ns := (membersOf s d).flatMap neighbours1
  .next (ns.foldl (fun s x => setMembers s (leader s x) (fun D =>
    if D.droop.forcedTo ≤ s.time.gtc then { D with droop := { D.droop with forced := false } } else D)) s)

/-- `DISCHARGE_TIMEOUT`: a rail that has not fallen below 50 mV in 1 ms is fed from outside; OV with cause 0xA (R117). -/
def execDischargeTimeout (d : Dom) (t : Nat) (s : State) : Host.Outcome State Fault Refusal :=
  let s := now t s
  let D := domOf s d
  if isOdd s d || D.tr.ph != .discharge || D.tr.fed || t < D.tr.since + 1000000 then .next s
  else
    let s1 := setMembers s d (fun M => { M with tr := { M.tr with fed := true } })
    .next (raise s1 1 0x01 0x6 d (cellDetail (workingOf s d) 0xA 0x1F 0x3FF))

end Sys2Proof.Machine
end

