-- ==== Sys2Proof/Machine/Droop.lean ====
section
/-! DEFINITION. Droop comparators, glints, flare banks and UV-stop (R132–R149). -/

namespace Sys2Proof.Machine

/-- Whether the four levels of a station act: armed, in SHADE, LIT or HELD, and not the odd site of a pair (R126, R135). -/
def levelsAct (s : State) (d : Nat) : Bool :=
  let D := domOf s d
  D.droop.armed && D.en && (D.state == .shade || D.state == .lit || D.state == .held) && !isOdd s d

/-- Whether the tile clock actions of Table 06-2 apply: a LIT tile or pair, or one HELD from LIT, whose droop protections act (R118). -/
def clockActs (s : State) (d : Nat) : Bool :=
  let D := domOf s d
  isTile d && (D.state == .lit || (D.state == .held && D.heldFrom == .lit))

/-- The droop part of a domain changed. -/
def setDroop (s : State) (d : Nat) (f : Droop → Droop) : State := setDom s d (fun D => { D with droop := f D.droop })

/-- UV detail (Table 06-4). -/
def uvDetail (level vlow age : Nat) : Nat := level * 0x10000000 + satNat 16 vlow * 0x1000 + satNat 12 age

/-- In STEADY the first glint, firing and DT3 action of each epoch are reported as corrected UV (R149), in every domain: a glint is a
DT1 crossing (R148). How long after the start of the crossing is free (log 20). -/
def steadyReport (s : State) (d level vlow : Nat) : State :=
  if modeOn s 0 && !(domOf s d).droop.stdyRep.getLsbD (level - 1) then
    let f := freshBelow s 4096
    raise (setDroop f.2 d (fun r => { r with stdyRep := r.stdyRep ||| BitVec.twoPow 3 (level - 1) })) 0 0x02 0x6 d (uvDetail level vlow f.1)
  else s

/-- `FLARE_ARM` as the cells have it at an instant: a slot's output acts from the end of the slot (R17, log 65). -/
def armNow (g : Nat) (D : Domain) : Bool := if g < D.armAt then D.armOld else D.flareArm

/-- Whether the bank's fire level is DT1 at an instant (R121, R140, R146). -/
def fireAtDt1 (g : Nat) (D : Domain) : Bool := armNow g D || D.droop.forced || D.droop.parkedFire

/-- A bank that fires conducts (R140). -/
def fireBank (r : Droop) : Droop := if r.flare = .armed then { r with flare := .conducting, fired := true } else r

/-- Whether a bank of a leader's domain is in a condition. -/
def anyBank (s : State) (d : Nat) (f : Flare → Bool) : Bool := (membersOf s d).any (fun x => f (domOf s x).droop.flare)

/-- A crossing of the fire level begins: the armed banks of the domain fire together, and one that finds no bank armed while one conducts
or recharges misses (R126, R140, R141). With `FLARE_EN` = 0 a DT2 crossing is in no counter of its own: R148 gives none (log 63). -/
def fireLevel (s : State) (d vlow : Nat) : State :=
  if (cfgAt s d).lim.flareEn = 0 then s
  else if anyBank s d (fun f => f == .armed) then
    let s1 := setMembers s d (fun D => { D with droop := fireBank D.droop })
    steadyReport (setDom s1 d (fun D => bump 2 1 { D with epFires := D.epFires + 1 })) d 2 vlow
  else if anyBank s d (fun f => f == .conducting || f == .recharging) then setDom s d (bump 3 1)
  else s

/-- The DT3 divider action of a tile domain, reported in STEADY (R149, Table 06-2). -/
def dt3Action (s : State) (d vlow : Nat) : State :=
  if clockActs s d then driveThr (setDroop (steadyReport s d 3 vlow) d (fun r => { r with dt3 := true, dt3Good := 0 })) d else s

/-- `DT1_CROSSING`: counted; parking aborted; glint; the bank fires if its level is DT1 (R136, R139, R146). -/
def execDt1Crossing (d : Dom) (vlow : BitVec 16) (t : Nat) (s : State) : Host.Outcome State Fault Refusal :=
  let s := now t s
  if !levelsAct s d || (domOf s d).droop.in1 then .next s
  else
    let early := fireAtDt1 s.time.gtc (domOf s d)
    let s1 := setDom s d (fun D => bump 1 1
      { D with epGlints := D.epGlints + 1, dtFrame := D.dtFrame + 1, park := { D.park with abort := true },
               droop := { D.droop with in1 := true, startAt := s.time.gtc, last1 := some s.time.gtc, vlow := vlow,
                                       crossed := D.droop.crossed ||| 1 } })
    let s2 := steadyReport (abortPark s1 d) d 1 vlow.toNat
    let s3 := if clockActs s2 d then driveThr (setDroop s2 d (fun r => { r with glint := true })) d else s2
    .next (if early then fireLevel s3 d vlow.toNat else s3)

/-- `DT2_CROSSING`: the bank fires at its DT2 level; with a failed bank the DT3 divider action applies and counts (R140, R142, R148). -/
def execDt2Crossing (d : Dom) (vlow : BitVec 16) (t : Nat) (s : State) : Host.Outcome State Fault Refusal :=
  let s := now t s
  if !levelsAct s d || (domOf s d).droop.in2 then .next s
  else
    let s1 := setDroop s d (fun r => { r with in2 := true, vlow := vlow, crossed := r.crossed ||| 2 })
    let s2 := if anyBank s1 d (fun f => f == .failed) then dt3Action (if clockActs s1 d then setDom s1 d (bump 4 1) else s1) d vlow.toNat
              else s1
    .next (if fireAtDt1 s.time.gtc (domOf s2 d) then s2 else fireLevel s2 d vlow.toNat)

/-- `DT3_CROSSING`: counted; the tile divider is raised by one step (Table 06-2, R139). -/
def execDt3Crossing (d : Dom) (vlow : BitVec 16) (t : Nat) (s : State) : Host.Outcome State Fault Refusal :=
  let s := now t s
  if !levelsAct s d || (domOf s d).droop.in3 then .next s
  else
    let s1 := setDom s d (fun D => bump 4 1 { D with droop := { D.droop with in3 := true, vlow := vlow, crossed := D.droop.crossed ||| 4 } })
    .next (dt3Action s1 d vlow.toNat)

/-- A tile clock is stopped by a crossing of its own floor, or of that of a FAB or SRM: the stop is counted, and the third within 1 ms is
not released (R138, R139). A crossing of a clock that is stopped already counts too (log 90). -/
def uvStop (s : State) (d : Nat) (by_ : Option Dom) : State :=
  let g := s.time.gtc
  let ks := (g :: (domOf s d).droop.stops).filter (fun u => decide (g < u + 1000000))
  setStops (setDom s d (bump 5 1)) d (fun r =>
    { r with stops := ks, uvLatched := r.uvLatched || decide (3 ≤ ks.length),
             ownStop := if by_.isNone then some g else r.ownStop,
             fabStops := match by_ with
               | some f => (f, g) :: r.fabStops.filter (fun x => x.1 != f)
               | none => r.fabStops })

/-- The tiles that a floor crossing on FAB(e) or SRM(e) stops: every LIT tile of the die, a pair once (R139). -/
def floorStops (s : State) (d : Nat) : List Nat :=
  if 64 ≤ d ∧ d < 72 then (domsOfDie (dieOf d)).filter (fun x => isTile x && (domOf s x).state == .lit && !isOdd s x) else []

/-- `FLOOR_CROSSING`: UV-stop and a contained UV, level 5 for a third stop within 1 ms (R138, R139). The comparator detects
5–20 ns after the start of the excursion; how long after is free (log 20). -/
def execFloorCrossing (d : Dom) (vlow : BitVec 16) (t : Nat) (s : State) : Host.Outcome State Fault Refusal :=
  let s := now t s
  if !levelsAct s d || (domOf s d).droop.inF then .next s
  else
    let f := freshBelow s 16
    let age := 5 + f.1
    let start := s.time.gtc - age
    let s1 := setDroop f.2 d (fun r => { r with inF := true, startF := start, uvGood := 0, vlow := vlow, crossed := r.crossed ||| 8 })
    let s2 := if clockActs s1 d then uvStop s1 d none else (floorStops s1 d).foldl (fun s x => uvStop s x (some d)) s1
    let level := if clockActs s1 d && (domOf s2 d).droop.uvLatched then 5 else 4
    .next (sieveEvent (raiseFrom s2 1 0x02 0x6 d (uvDetail level vlow.toNat age) start) d)

/-- `CROSSING_RECOVERY`: every sense point is back above the level + 5 mV (R132). -/
def execCrossingRecovery (d : Dom) (lv : Level) (t : Nat) (s : State) : Host.Outcome State Fault Refusal :=
  .next (setDroop (now t s) d (fun r =>
    match lv with
    | .dt1 => { r with in1 := false }
    | .dt2 => { r with in2 := false }
    | .dt3 => { r with in3 := false, dt3Good := 0 }
    | .floor => { r with inF := false }))

/-- `GLINT_END`: `GLINT_MIN` cycles after recovery the glint pattern is removed (Table 06-2). -/
def execGlintEnd (d : Dom) (t : Nat) (s : State) : Host.Outcome State Fault Refusal :=
  let s := now t s
  let r := (domOf s d).droop
  if r.glint && !r.in1 then .next (driveThr (setDroop s d (fun r => { r with glint := false })) d) else .next s

/-- `DT3_END`: 40 consecutive latches above DT3 + 5 mV after the recovery (Table 06-2). -/
def execDt3End (d : Dom) (t : Nat) (s : State) : Host.Outcome State Fault Refusal :=
  let s := now t s
  let r := (domOf s d).droop
  if r.dt3 && !r.in3 && decide (40 ≤ r.dt3Good) then .next (driveThr (setDroop s d (fun r => { r with dt3 := false })) d) else .next s

/-- `FLARE_CONDUCTION_END`: the bank recharges, and its check is due 1 µs later (R140, R142). -/
def execFlareConductionEnd (d : Dom) (t : Nat) (s : State) : Host.Outcome State Fault Refusal :=
  let s := now t s
  if (domOf s d).droop.flare = .conducting then
    .next (setDroop s d (fun r => { r with flare := .recharging, chkAt := some (s.time.run + 1000) }))
  else .next s

/-- A bank free to be armed is armed, unless `FLARE_EN` = 0 disarms it (R135, R142, R143); one that conducts or recharges is not. -/
def armBank (en : Nat) (f : Flare) : Flare :=
  match f with
  | .failed => .failed
  | .conducting => .conducting
  | .recharging => .recharging
  | _ => if en = 0 then .disarmed else .armed

/-- `FLARE_RECHARGED`: the bank is armed again (R141), or disarmed where `FLARE_EN` = 0 (R143). -/
def execFlareRecharged (d : Dom) (t : Nat) (s : State) : Host.Outcome State Fault Refusal :=
  let s := now t s
  if (domOf s d).droop.flare = .recharging then
    .next (setDroop s d (fun r => { r with flare := armBank (cfgAt s (leader s d)).lim.flareEn .armed }))
  else .next s

/-- `FLARE_CHECK`: a low bank raises FLARE_FAIL and is disarmed: with condition 1 at the check due 1 µs after conduction, and otherwise, before it
too, with condition 2 for an armed, idle bank (R142). -/
def execFlareCheck (d : Dom) (bankMv : BitVec 12) (low : Bool) (t : Nat) (s : State) : Host.Outcome State Fault Refusal :=
  let s := now t s
  let r := (domOf s d).droop
  let after := match r.chkAt with | some u => decide (u ≤ s.time.run) | none => false
  let s1 := if after then setDroop s d (fun r => { r with chkAt := none }) else s
  let watched := after && (r.flare == .recharging || r.flare == .armed) || (!after && r.flare == .armed)
  if low && watched then
    .next (raise (setDroop s1 d (fun r => { r with flare := .failed })) 1 0x07 0x6 d ((if after then 1 else 2) * 0x10000000 + bankMv.toNat))
  else .next s1

/-! ### At a frame latch (R138, Table 06-2) -/

/-- A droop level below V_TH in mV, as Q16.16 mV; the limits count in 5 mV. -/
def levelMv (k : Nat) : Int := 5 * k * 65536

/-- The flare state that the up record of a latch reports; a firing at any time since the last latch, or a recharge, shows as 2 (R143). -/
def flareCode (r : Droop) : BitVec 2 :=
  if r.fired then 2
  else
    match r.flare with
    | .failed => 3
    | .conducting | .recharging => 2
    | .armed => 1
    | .disarmed => 0

/-- A bank's state is taken at the latch, and the firings before it forgotten (R143). -/
def flareLatch (r : Droop) : Droop := { r with flRep := flareCode r, fired := false }

/-- The latch counts of a station: good latches above DT3 + 5 mV and above DT1 + 5 mV; and the state of its banks. -/
def droopLatch (s : State) (d : Nat) : State :=
  let D := domOf s d
  let lim := (cfgAt s d).lim
  let v := linkMv D.vmeas
  let above (k : Nat) : Bool := decide (D.droop.vth - levelMv k + 5 * 65536 ≤ v)
  setDroop (setMembers s d (fun M => { M with droop := flareLatch M.droop })) d (fun r => { r with
    dt3Good := if r.dt3 && !r.in3 && above lim.dt3 then r.dt3Good + 1 else 0,
    uvGood := if above lim.dt1 then r.uvGood + 1 else 0 })

/-- Whether the conditions of a UV-stop release hold for a stop: 1 µs, and 4 good latches at the domain that crossed (R138). -/
def stopOver (s : State) (f at_ : Nat) : Bool := decide (at_ + 1000 ≤ s.time.gtc ∧ 4 ≤ (domOf s f).droop.uvGood)

/-- At a frame start each UV-stop whose own conditions hold ends, those of FAB or SRM at all their tiles together; the clock runs once
nothing else stops it (R138, R139). -/
def uvRelease (s : State) (d : Nat) : State :=
  let r := (domOf s d).droop
  if !isTile d || isOdd s d || r.uvLatched || (r.ownStop.isNone && r.fabStops.isEmpty) then s
  else setStops s d (fun r =>
    { r with ownStop := r.ownStop.filter (fun g => !stopOver s d g), fabStops := r.fabStops.filter (fun x => !stopOver s x.1 x.2) })

end Sys2Proof.Machine
end

