-- ==== Sys2Proof/Machine/Profile.lean ====
section
/-! DEFINITION. Effective targets, the profile generator, V_TH and the supervision checker (R134, R176–R189). -/

namespace Sys2Proof.Machine

/-! ### The voltage floor of a frequency (R177) -/

/-- vf of an 8-point table at a code: interpolated upward; below fc[0] the manual defines none and the value is free (log 7). -/
def vfTable (tab : Vector (Nat × Nat) 8) (f : Nat) : Nat :=
  let p0 := vget tab 0
  if f < p0.1 then Config.vfBelow p0.1 p0.2 f
  else
    let i := ((List.range 8).filter (fun k => decide ((vget tab k).1 ≤ f))).foldl Nat.max 0
    let p := vget tab i
    let q := vget tab (i + 1)
    if f = p.1 ∨ i = 7 then p.2 else p.2 + ceilDiv ((q.2 - p.2) * (f - p.1)) (q.1 - p.1)

/-- vf of a present tile; 0 before a record is installed. -/
def vfTile (s : State) (d f : Nat) : Nat :=
  match s.char with
  | some c => vfTable (vget c.vf d) f
  | none => 0

/-- vf of a tile or pair: a pair's floor is the higher of its members' (log 21). -/
def vfOf (s : State) (d f : Nat) : Nat := ((membersOf s d).map (fun x => vfTile s x f)).foldl Nat.max 0

/-- Lowest code of a tile's V/F table. -/
def fc0Of (s : State) (d : Nat) : Nat :=
  match s.char with
  | some c => ((membersOf s d).map (fun x => (vget (vget c.vf x) 0).1)).foldl Nat.max 0
  | none => 0

/-- Whether Lantern feed-forward is active for a domain (R177). -/
def lanternActive (s : State) (d : Nat) : Bool := modeOn s 4 && (cfgAt s d).model.isSome && !(domOf s d).lanternOff

/-- The guard band G in codes (R177). -/
def guardBand (s : State) (d : Nat) : Nat := (if lanternActive s d then 40 else 88) + (if modeOn s 0 then 32 else 0)

/-- The LIT effective target of a domain with a host target and a committed code, before `VMAX` bounds it (Table 08-2). -/
def litTarget (s : State) (d host code : Nat) : Nat :=
  if isTile d then Nat.max host (vfOf s d (Nat.max code (domOf s d).tile.freqIn) + guardBand s d) else host

/-- The effective target code of a domain (Table 08-2). A domain on its descent to SHADE has `VRET` (R116),
and a domain under a sieve test the sieve target (R407). -/
def effTarget (s : State) (d : Nat) : Nat :=
  let D := domOf s d
  let c := cfgAt s d
  match D.state with
  | .dark | .absent => 0
  | .held => D.tgt
  | .shade => c.lim.vret
  | .lit =>
    if D.tr.ph = .descent then c.lim.vret
    else
      match s.sieve with
      | some v => if v.dom.val = d then v.e0 - 8 * v.step else Nat.min c.lim.vmax (litTarget s d c.target c.freq)
      | none => Nat.min c.lim.vmax (litTarget s d c.target c.freq)

/-! ### The generator (R179–R182) -/

/-- The plan of a move over a distance (R180): the counts nj, na, nc and den, for a distance above 0. -/
def planMove (lim : Limits) (dist : Int) : Nat × Nat × Nat × Int :=
  let dD := dist.toNat
  let vl := lim.prfVel * 8192
  let al := lim.prfAcc * 1024
  let jl := lim.prfJerk * 64
  let n1 := ceilDiv al jl
  let n2 := leastUpTo (fun n => decide (vl ≤ jl * n * n)) 128 1
  let n3 := leastUpTo (fun n => decide (dD ≤ 2 * jl * n * n * n)) n1 1
  let nj := Nat.min n1 (Nat.min n2 n3)
  let amax := Nat.min al (jl * nj)
  let na := leastUpTo (fun n => decide (vl ≤ amax * (nj + n) ∨ dD ≤ amax * (nj + n) * (2 * nj + n))) 8192 0
  let vmax := Nat.min vl (amax * (nj + na))
  let nc := ceilDiv dD vmax - (2 * nj + na)
  (nj, na, nc, (nj : Int) * (nj + na) * (2 * nj + na + nc))

/-- The jerk sign of step k (R180). -/
def jerkSign (p : Prof) (k : Nat) : Int :=
  let a := p.nj
  let b := a + p.na
  let c := b + p.nj
  let d := c + p.nc
  let e := d + p.nj
  let f := e + p.na
  if k ≤ a then 1 else if k ≤ b then 0 else if k ≤ c then -1 else if k ≤ d then 0 else if k ≤ e then -1
  else if k ≤ f then 0 else 1

/-- Frames in a move. -/
def moveLen (p : Prof) : Nat := 4 * p.nj + 2 * p.na + p.nc

/-- One step of a move at a frame start (R181). -/
def profStep (g : Nat) (p : Prof) : Prof :=
  let k := p.k + 1
  let j := jerkSign p k
  let p6 := p.p6 + 3 * p.v2 + 3 * p.acl + j
  let v2 := p.v2 + 2 * p.acl + j
  let acl := p.acl + j
  let done := decide (k = moveLen p)
  { p with k := k, p6 := p6, v2 := v2, acl := acl, vref := p.v0 + p.dir * rdiv (p.dist * p6) (6 * p.den),
           cond := if done then .settled else .moving, settleAt := if done then g else p.settleAt }

/-- A move is planned from `VREF` and its first step applied at the same frame start (R179). -/
def profStart (lim : Limits) (g : Nat) (target : Int) (p : Prof) : Prof :=
  if target = p.vref then { p with pend := none, cur := target }
  else
    let dist : Int := (target - p.vref).natAbs
    let pl := planMove lim dist
    profStep g { p with cond := .moving, v0 := p.vref, dist := dist, dir := if p.vref < target then 1 else -1, nj := pl.1,
                        na := pl.2.1, nc := pl.2.2.1, den := pl.2.2.2, k := 0, p6 := 0, v2 := 0, acl := 0, oldTgt := p.cur,
                        cur := target, pend := none }

/-- Frame 0 of an epoch shows the generator the effective target: it becomes pending during a move or ramp (R179, R182). -/
def profPend (target : Int) (p : Prof) : Prof := if p.cond = .settled then p else { p with pend := some target }

/-- A frame start of the ramp of leg 2 (R113, R182). -/
def profRamp (g : Nat) (step : Int) (p : Prof) : Prof :=
  let left := p.dist - (p.vref - p.v0) * p.dir
  let v := p.vref + p.dir * Min.min step left
  { p with vref := v, cond := if left ≤ step then .settled else .ramping, settleAt := if left ≤ step then g else p.settleAt }

/-- The generator at the first frame of leg 2: `VREF` stands at code 160, or at the rail voltage that a new transition starts from (R112,
R182), and will ramp to the target. -/
def profRampStart (g : Nat) (v target : Int) : Prof :=
  let dist : Int := (target - v).natAbs
  { Prof.reset with cond := if dist = 0 then .settled else .ramping, vref := v, v0 := v, oldTgt := target, cur := target, dist := dist,
                    dir := if v < target then 1 else -1, settleAt := g }

/-- Whether the generator of a domain runs in its own right: LIT or SHADE, not held, cells enabled, past leg 1. -/
def profRuns (D : Domain) : Bool :=
  (D.state == .lit || D.state == .shade) && D.en && !D.held && D.tr.ph != .startWait && D.tr.ph != .leg1 && D.tr.ph != .discharge

/-- One frame start of a domain's generator: the step of a move or ramp, or a new move (R179–R182). A settled generator
takes a new target at a shutter's frame start, and a pending one at any frame start. -/
def profFrame (s : State) (d : Nat) : State :=
  let D := domOf s d
  let g := s.time.gtc
  let lim := (cfgAt s d).lim
  let tgt := codeMv D.tgt
  if D.tr.ph = .leg2 ∧ D.tr.k = 0 ∧ D.prof.cond = .settled then
    setDom s d (fun D => { D with prof := profRampStart g D.tr.ref tgt, tr := { D.tr with k := 1 } })
  else if !profRuns D then s
  else
    let p := if g % 2000 = 0 then profPend tgt D.prof else D.prof
    let q := match p.cond with
      | .moving => profStep g p
      | .ramping => profRamp g (ssStep s d) p
      | .settled =>
        if g % 2000 = 0 then profStart lim g tgt p
        else
          match p.pend with
          | some x => profStart lim g x p
          | none => p
    setDom s d (fun D => { D with prof := q })

/-- Leg 2 ends when the ramp reaches its end: the domain settles (R114). -/
def rampDone (s : State) (d : Nat) : State :=
  let D := domOf s d
  if D.tr.ph = .leg2 ∧ D.tr.k ≠ 0 ∧ D.prof.cond ≠ .ramping then
    setMembers s d (fun M => { M with tr := { M.tr with ph := .settle } })
  else s

/-- When `VREF` has reached `VRET` on a descent, SHADE is committed as an internal change (R116). -/
def descentDone (s : State) (d : Nat) : State :=
  let D := domOf s d
  if D.tr.ph = .descent ∧ D.prof.cond = .settled ∧ D.prof.vref = codeMv D.tgt ∧ D.prof.pend.isNone ∧ !D.tr.fed then
    report (setDom s d (fun D => { D with tr := { D.tr with fed := true } })) d .toShade
  else s

/-- V_TH at a frame start (R134), given whether the generator was settled before it. The target in force before a move that replaces
another is that of the replaced one, and before a move out of HELD the target that HELD kept (Table 08-2). -/
def vthOf (s : State) (d : Nat) (wasSettled : Bool) : Int :=
  let D := domOf s d
  if D.held then codeMv D.code else
  match D.state with
  | .shade => codeMv (cfgAt s d).lim.vret
  | .held => codeMv D.code
  | .lit => if D.prof.cond == .ramping then codeMv D.tgt
            else if wasSettled && D.prof.cond == .settled then D.prof.vref else Min.min D.prof.oldTgt D.prof.vref
  | .dark | .absent => D.droop.vth

/-- The generator part of a frame start for one governing domain: soft start, step, settling, descent, V_TH. -/
def profileFrame (s : State) (d : Nat) : State :=
  if isAbsent s d || isOdd s d then s
  else
    let was := (domOf s d).prof.cond == .settled
    let s1 := descentDone (rampDone (profFrame (softStartFrame s d) d) d) d
    setDroop s1 d (fun r => { r with vth := vthOf s1 d was })

/-! ### Supervision (R185–R189) -/

/-- Whether the checker of a domain runs: LIT or SHADE from the end of its soft start, not held (R185). -/
def supRuns (D : Domain) : Bool := (D.state == .lit || D.state == .shade) && D.en && !D.held && !inSoftStart D

/-- The plant model of a domain: α and R_LL, the latter halved for a pair (R186). -/
def plantOf (s : State) (d : Nat) : Int × Int :=
  match s.char with
  | none => (0, 0)
  | some c =>
    let r := (vget c.rll d).toInt
    ((vget c.alpha d).toNat, if isEven s d then rne r 1 else r)

/-- Whether plant-model mode is selected (R185). -/
def plantMode (s : State) (d : Nat) : Bool :=
  (cfgAt s d).lim.supMode == 0 && (plantOf s d).1 != 0 && !(domOf s d).fallback && !(domOf s d).sup.fbPend

/-- A domain enters plant-model mode with the model at `VMEAS`, or starts the following-error count (R185). -/
def supStart (s : State) (d : Nat) : State :=
  let pm := plantMode s d
  setDom s d (fun D => { D with sup := { D.sup with plant := pm, vp := linkMv D.vmeas, cnt := 0, fcnt := 0 } })

/-- At a pairing or unpairing a running checker enters plant-model mode afresh; the count of a following-error checker goes on (R185, R189). -/
def supAgain (s : State) (d : Nat) : State :=
  if (domOf s d).sup.plant || plantMode s d then supStart s d else s

/-- The code of the previous frame's down record after the guard window, as Q16.16 mV: the last whole frame before the
latch (R186). -/
def clampedCode (D : Domain) : Int := codeMv (winCode D D.codeFrame)

/-- `plaus` of R186 on a domain's values at a latch. -/
def plausStep (alpha rll : Int) (band g : Nat) (D : Domain) : Domain :=
  let drop := sat32 (qprod rll (128 * D.imeas))
  let e := sat32 (clampedCode D - drop - D.sup.vp)
  let vp := sat32 (D.sup.vp + rne (alpha * e) 16)
  let r := sat32 (linkMv D.vmeas - vp)
  let out := decide ((band * 65536 : Nat) < r.natAbs)
  { D with sup := { D.sup with vp := vp, resid := r, cnt := if out then D.sup.cnt + 1 else 0,
                               onset := if out ∧ D.sup.cnt = 0 then g else D.sup.onset } }

/-- The following-error count of R189 at a latch; the limit counts in 5 mV. -/
def followStep (e g : Nat) (D : Domain) : Domain :=
  let err := D.prof.vref - linkMv D.vmeas
  let out := decide ((5 * e * 65536 : Nat) < err.natAbs)
  { D with sup := { D.sup with fcnt := if out then D.sup.fcnt + 1 else 0, fonset := if out ∧ D.sup.fcnt = 0 then g else D.sup.fonset } }

/-- The checker at a frame latch: a mode newly selected starts, with the plant model at this latch's `VMEAS`; otherwise the model runs,
and the following error is judged at every latch (R185, R186, R189). -/
def supLatch (s : State) (d : Nat) : State :=
  let D := domOf s d
  let lim := (cfgAt s d).lim
  if isOdd s d || !supRuns D then s
  else
    let changed := plantMode s d != D.sup.plant
    let s1 := if changed then supStart s d else s
    if plantMode s d then
      let p := plantOf s d
      if changed then s1 else setDom s1 d (plausStep p.1 p.2 lim.plausBand s.time.gtc)
    else setDom s1 d (followStep lim.followE s.time.gtc)

/-- `PLAUS`: 80 latches outside the band; the domain enters fall-back from the next frame start and loses its feed-forward
(R187). -/
def execPlaus (d : Dom) (t : Nat) (s : State) : Host.Outcome State Fault Refusal :=
  let s := now t s
  let D := domOf s d
  if isOdd s d || !supRuns D || !D.sup.plant || D.sup.cnt < 80 then .next s
  else
    let s1 := raiseFrom s 1 0x13 0x2 d ((toLink D.sup.vp).toNat * 0x10000 + (toLinkS D.sup.resid).toNat) D.sup.onset
    let s2 := setDom s1 d (fun D => { D with sup := { D.sup with fbPend := true, plant := false, cnt := 0, fcnt := 0 } })
    .next (sieveEvent (report s2 d (.featOff true true)) d)

/-- `FOLLOW`: the following error has lasted `FOLLOW_T` latches; the domain is forced DARK (R189). -/
def execFollow (d : Dom) (t : Nat) (s : State) : Host.Outcome State Fault Refusal :=
  let s := now t s
  let D := domOf s d
  if isOdd s d || !supRuns D || D.sup.plant || D.sup.fcnt < (cfgAt s d).lim.followT then .next s
  else
    let s1 := raiseFrom s 1 0x14 0x2 d (D.vmeas.toNat * 0x10000 + (toLinkS (D.prof.vref - linkMv D.vmeas)).toNat) D.sup.fonset
    .next (sieveEvent (forceDark s1 d false) d)

/-! ### The end of a soft start (R114, R135) -/

/-- Whether the latches of a LIT end condition hold: eight in a row within 10 mV of the committed target. -/
def withinTarget (D : Domain) : Bool := decide (8 ≤ D.tr.within)

/-- Whether every site of a leader runs a frequency code. -/
def runsCode (s : State) (d code : Nat) : Bool := (membersOf s d).all (fun x => (domOf s x).tile.freqIn == code)

/-- Whether the tile runs its committed frequency with nothing outstanding (R114). -/
def freqReady (s : State) (d : Nat) : Bool := !isTile d || ((domOf s d).tile.change.isNone && runsCode s d (cfgAt s d).freq)

/-- Whether a soft start or a move from SHADE to LIT has met its end condition (R114). -/
def startEnds (s : State) (d : Nat) : Bool :=
  let D := domOf s d
  if D.tr.goal = .shade then D.tr.ph == .settle
  else (D.tr.ph == .leg2 || D.tr.ph == .settle || D.tr.ph == .lift) && withinTarget D

/-- The station releases the clock of a LIT tile whose soft start or move has ended, once `FREQ_ACK` has arrived (R114). -/
def releaseClock (s : State) (d : Nat) : State :=
  let D := domOf s d
  if isTile d && D.droop.relPend && D.state == .lit && !D.held && freqReady s d then holdClock s d false else s

/-- `SOFT_START_END`: comparators and flare bank are armed and supervision starts; the tile clock is released at this frame start, or at
the first later one after `FREQ_ACK`, after HELD where the domain is held (R114, R118, R135, R185). -/
def execSoftStartEnd (d : Dom) (t : Nat) (s : State) : Host.Outcome State Fault Refusal :=
  let s := now t s
  if isOdd s d || isAbsent s d || !startEnds s d then .next s
  else
    let D := domOf s d
    let s1 := setMembers s d (fun M =>
      { M with tr := { M.tr with ph := .idle, attempt := 0, retryAt := none },
               droop := { M.droop with armed := true, flare := armBank (cfgAt s d).lim.flareEn M.droop.flare,
                                       relPend := D.state == .lit || (D.state == .held && D.heldFrom == .lit) } })
    let s2 := if t % 250 = 0 then releaseClock s1 d else s1
    .next (if D.tr.ph = .lift then s2 else supStart s2 d)

end Sys2Proof.Machine
end

