-- ==== Sys2Proof/Machine/Lantern.lean ====
section
/-! DEFINITION. Lantern: features, inference, checks, predictions on the ports, hints, and the prediction-error windows (R191–R207). -/

namespace Sys2Proof.Machine

/-! ### Tile inputs of a domain or pair (R44) -/

/-- The activity counts of a site in the newest frame, or the one before it. -/
def siteCounts (s : State) (d : Nat) (older : Bool) : List Nat :=
  let x := (domOf s d).tile
  (if older then x.act1 else x.act).toList.map BitVec.toNat

/-- Sums of lists of counts, counter by counter, saturating at 65,535. -/
def sumCounts (l : List (List Nat)) : List Nat :=
  (List.range 8).map (fun i => satNat 16 ((l.map (fun c => c.getD i 0)).sum))

/-- Whether a domain waits: a pair only while both inputs are 1 (R44). -/
def waiting (s : State) (d : Nat) : Bool := isTile d && (membersOf s d).all (fun x => (domOf s x).tile.wait)

/-- The activity counts of a domain (R192). -/
def domCounts (s : State) (d : Nat) (older : Bool) : List Nat :=
  if isTile d then sumCounts ((membersOf s d).map (fun x => siteCounts s x older))
  else if d < 72 then
    sumCounts (((domsOfDie (dieOf d)).filter (fun x => isTile x && (domOf s x).state == .lit)).map (fun x => siteCounts s x older))
  else List.replicate 8 0

/-! ### Hints (R193) -/

/-- A hint enters the table of a domain: the entry written earliest makes room when four are live. -/
def addHint (h : Hint) (D : Domain) : Domain :=
  let e : LiveHint := { cls := h.cls, eta := h.eta.toNat, inten := h.inten.toNat, dur := h.dur.toNat, seq := D.lant.hintSeq,
                        new := true }
  let full := decide (4 ≤ D.lant.hints.length)
  let kept := if full then D.lant.hints.drop 1 else D.lant.hints
  let D1 : Domain := { D with lant := { D.lant with hints := kept ++ [e], hintSeq := D.lant.hintSeq + 1 } }
  if full then bump 7 1 D1 else D1

/-- A live hint at a frame start. The first one writes it; at a later one its ETA falls to 0, then its duration; none when it ends.
One of duration 0 lives through its ETA and one frame (log 96). -/
def ageHint (h : LiveHint) : Option LiveHint :=
  if h.new then some { h with new := false }
  else if h.eta ≠ 0 then some { h with eta := h.eta - 1 }
  else if h.dur ≤ 1 then none
  else some { h with dur := h.dur - 1 }

/-- The hint of smallest ETA of a table in writing order; ties go to the entry written earlier. -/
def firstHint (l : List LiveHint) : Option LiveHint :=
  l.foldl (fun b h => match b with
    | none => some h
    | some x => if h.eta < x.eta then some h else some x) none

/-- The four features of a hint; 0 for a missing one. -/
def hintFeatures (h : Option LiveHint) : List Int :=
  match h with
  | some x => [x.cls.toNat, x.eta, x.inten, x.dur]
  | none => [0, 0, 0, 0]

/-- Features 16–23. -/
def hintPair (D : Domain) : List Int :=
  match firstHint D.lant.hints with
  | none => hintFeatures none ++ hintFeatures none
  | some x => hintFeatures (some x) ++ hintFeatures (firstHint (D.lant.hints.filter (fun y => y.seq != x.seq)))

/-! ### Features (R192, R194) -/

/-- Whether the RC of a domain is active (R208). -/
def rcActive (s : State) (d : Nat) : Bool := modeOn s 5 && (cfgAt s d).rc.on == 1 && !(domOf s d).rcOff

/-- An RC bin as a signed number. -/
def rcBin (R : RcSt) (i : Nat) : Int := (R.bins.read i).toInt

/-- The working cells of a domain that report ACTIVE (Table 02-4, feature 43). -/
def reportingActive (s : State) (d : Nat) : List (Nat × Nat) :=
  (stationCells s d).filter (fun x => (domOf s d).en && cellWorks (cellAt s x) && fld (cellAt s x).rep 24 22 == 0)

/-- The 48 raw features of a domain at a latch (Table 09-2); VREF is rounded to the nearest 1/32 mV (log 95). -/
def rawFeatures (s : State) (d : Nat) : List Int :=
  let D := domOf s d
  let nat (l : List Nat) : List Int := l.map (fun (x : Nat) => (x : Int))
  let hist := (List.range 8).map (fun i => D.iHist.getD i 0)
  nat (domCounts s d false) ++ nat (domCounts s d true) ++ (if isTile d then hintPair D else List.replicate 8 0) ++
  nat hist ++
  [(D.vHub.toNat : Int), (D.tgt : Int), rne D.prof.vref 11, (D.tile.freqIn : Int), D.maxT, (D.band : Int),
   (if D.rc.locked then (D.rc.idx : Int) else -1),
   (if D.rc.locked && rcActive s d then rcBin D.rc D.rc.idx else 0),
   (if waiting s d then 1 else 0),
   (((D.thrHist.take 4).filter id).length : Int), (satNat 8 (D.dtHist.take 4).sum : Int),
   ((reportingActive s d).length : Int), 0, 0, 0, 0]

/-- `feature` of R194. -/
def normFeature (r : Int) (e : Int × Nat × Int) : Int := sat8 (rnes (r * e.1) e.2.1 + e.2.2)

/-- The int8 features of a domain under a model. -/
def normFeatures (M : Model) (raw : List Int) : List Int := (raw.zip M.norm).map (fun x => normFeature x.1 x.2)

/-! ### Inference (R199) -/

/-- An accumulator: bias plus the products of inputs and a row of weights. -/
def dotRow (b : Int) (xs ws : List Int) : Int := (xs.zip ws).foldl (fun a x => a + x.1 * x.2) b

/-- The accumulators of a layer. -/
def layerAccs (W : List (List Int)) (b xs : List Int) : List Int := (W.zip b).map (fun x => dotRow x.2 xs x.1)

/-- Requantised accumulators, channel by channel. -/
def requant (accs : List Int) (req : List (Nat × Nat)) : List Int := (accs.zip req).map (fun x => rne (x.1 * x.2.1) x.2.2)

/-- A hidden layer: ReLU, then int8 range. -/
def hiddenLayer (xs : List Int) (W : List (List Int)) (b : List Int) (req : List (Nat × Nat)) : List Int :=
  (requant (layerAccs W b xs) req).map (clampInt 0 127)

/-- `infer`: the four predicted current changes, LSB 1/64 A. -/
def infer (M : Model) (x : List Int) : List Int :=
  let h1 := hiddenLayer x M.w1 M.b1 (M.req.take 64)
  let h2 := hiddenLayer h1 M.w2 M.b2 ((M.req.drop 64).take 32)
  (requant (layerAccs M.w3 M.b3 h2) (M.req.drop 96)).map sat16

/-! ### Checks of an inference (R200) -/

/-- The error that upsets add to accumulator `ch` of a layer. -/
def accErr (us : List InfUpset) (layer ch : Nat) : Word :=
  us.foldl (fun x u => match u with | .acc l c e => if l.val = layer ∧ c.val = ch then x + e else x | _ => x) 0

/-- The error that upsets add to the checksum pass of a layer. -/
def rowErr (us : List InfUpset) (layer : Nat) : Word :=
  us.foldl (fun x u => match u with | .sumRow l e => if l.val = layer then x + e else x | _ => x) 0

/-- Whether the two copies of a normalised feature differ. -/
def featuresDiffer (us : List InfUpset) : Bool := us.any (fun u => match u with | .feature _ x => x != 0 | _ => false)

/-- Whether the two copies of an output of a layer differ. -/
def copiesDiffer (us : List InfUpset) (layer n : Nat) : Bool :=
  us.any (fun u => match u with | .requant l c x => l.val == layer && decide (c.val < n) && x != 0 | _ => false)

/-- The int32 accumulators of a layer as upsets leave them. -/
def struckAccs (us : List InfUpset) (layer : Nat) (accs : List Int) : List Int :=
  accs.mapIdx (fun i a => (BitVec.ofInt 32 a + accErr us layer i).toInt)

/-- Whether the sum of a layer's accumulators agrees with its checksum row, modulo 2^32. -/
def rowAgrees (us : List InfUpset) (layer : Nat) (ck : List Int) (cb : Int) (xs accs : List Int) : Bool :=
  BitVec.ofInt 32 accs.sum == BitVec.ofInt 32 (dotRow cb xs ck) + rowErr us layer

/-- A layer with its checks: the requantised outputs, or cause and layer of the check that fails (Table 09-6). -/
def checkedLayer (us : List InfUpset) (layer : Nat) (W : List (List Int)) (b ck : List Int) (cb : Int) (req : List (Nat × Nat))
    (xs : List Int) : Except (Nat × Nat) (List Int) :=
  let accs := struckAccs us layer (layerAccs W b xs)
  if !rowAgrees us layer ck cb xs accs then .error (0, layer)
  else if copiesDiffer us layer b.length then .error (1, layer)
  else .ok (requant accs req)

/-- An inference with every check of R200: the predicted changes, or cause and layer of the first check that fails. -/
def checkedInfer (us : List InfUpset) (M : Model) (x : List Int) : Except (Nat × Nat) (List Int) :=
  if us.contains .incomplete then .error (3, 3)
  else if featuresDiffer us then .error (1, 3)
  else
    match checkedLayer us 0 M.w1 M.b1 M.ck1 M.cb1 (M.req.take 64) x with
    | .error e => .error e
    | .ok r1 =>
      match checkedLayer us 1 M.w2 M.b2 M.ck2 M.cb2 ((M.req.drop 64).take 32) (r1.map (clampInt 0 127)) with
      | .error e => .error e
      | .ok r2 =>
        match checkedLayer us 2 M.w3 M.b3 M.ck3 M.cb3 (M.req.drop 96) (r2.map (clampInt 0 127)) with
        | .error e => .error e
        | .ok r3 => .ok (r3.map sat16)

/-! ### Interval (R191, R195, R201) -/

/-- Whether Lantern runs a domain in an interval: present, not an odd member, feed-forward active, the array in service (`failed` says that
it was not when the interval began) and the bound model usable. -/
def lanternRuns (s : State) (failed : Bool) (d : Nat) : Bool :=
  !isAbsent s d && !isOdd s d && lanternActive s d && !failed && gateOn s 1 &&
  (match (cfgAt s d).model with
   | some k => (match vget s.models k with | some M => !M.unusable | none => false)
   | none => false)

/-- The model bound to a domain. -/
def boundModel (s : State) (d : Nat) : Option Model :=
  match (cfgAt s d).model with
  | some k => vget s.models k
  | none => none

/-- ABFT detail (Table 09-6). -/
def abftDetail (cause layer dom cnt m : Nat) : Nat :=
  cause * 0x10000000 + layer * 0x4000000 + dom * 0x40000 + satNat 8 cnt * 0x400 + m % 2

/-- Failed checks of the last 1,000 intervals, this one among them. -/
def recentErrs (s : State) (m : Nat) : List Nat := s.lantErrs.filter (fun x => decide (m < x + 1000))

/-- Feed-forward is reported off for every present domain, the odd members of pairs too, as one internal change (R201). -/
def lanternOffAll (s : State) : State :=
  foldDoms s (fun s d => if isAbsent s d then s else report s d (.featOff true false))

/-- A failed check of a domain's inference, with its cause and layer (R201). Cause 3, an incomplete inference (R191), presents zero and raises
ABFT; it is no failed check. The array is declared failed once. -/
def failInference (s : State) (d m cause layer : Nat) : State :=
  let s0 := setDom s d (fun D => bump 10 1 { D with lant := { D.lant with nextPred := Vector.replicate 4 0 } })
  let errs := if cause = 3 then recentErrs s m else recentErrs s m ++ [m]
  let s1 : State := raise { s0 with lantErrs := errs } 0 0x12 0x3 d (abftDetail cause layer d errs.length m)
  if 8 ≤ errs.length ∧ !s1.lanternFail ∧ cause ≠ 3 then
    lanternOffAll (raise { s1 with lanternFail := true } 1 0x12 0x3 0xFF (abftDetail 2 3 0xFF errs.length m))
  else s1

/-- What befalls the inference of a domain. -/
def upsetsOf (faults : List InfFault) (d : Nat) : List InfUpset := (faults.filter (fun f => f.dom.val == d)).map (fun f => f.at_)

/-- One domain's inference with its checks. -/
def inferDomain (m : Nat) (faults : List InfFault) (failed : Bool) (s : State) (d : Nat) : State :=
  if !lanternRuns s failed d then setDom s d (fun D => { D with lant := { D.lant with nextPred := Vector.replicate 4 0 } })
  else
    match boundModel s d with
    | none => s
    | some M =>
      let raw := rawFeatures s d
      let s1 : State := { s with input := { s.input with feats := s.input.feats ++ [(m % 2, d, raw)] } }
      match checkedInfer (upsetsOf faults d) M (normFeatures M raw) with
      | .error e => failInference s1 d m e.1 e.2
      | .ok y =>
        let yv : Vector Int 4 := Vector.ofFn (fun i => y.getD i.val 0)
        let o : Outstanding :=
          { at_ := 1000 * m, y := yv, iref := (domOf s1 d).iHist.getD 0 0,
            ok := (domOf s1 d).lant.latOk && !(domOf s1 d).lant.refUv && !(domOf s1 d).lant.cut,
            acts := Vector.replicate 4 none }
        setDom s1 d (fun D => { D with lant :=
                                         { D.lant with nextPred := yv.map (fun v => v * 1024), open_ := D.lant.open_ ++ [o] } })

/-- `LANTERN_INTERVAL`: the inferences of the physical domains in ascending order (R191). An array failure found in the
interval acts from the next one. -/
def execLanternInterval (m : Nat) (faults : List InfFault) (s : State) : Host.Outcome State Fault Refusal :=
  let s := now (1000 * m) s
  .next (if s.clk.crstBusy then s else (List.range 80).foldl (inferDomain m faults s.lanternFail) s)

/-! ### Presentation (R19, R203) -/

/-- `lim` of R203 for a domain. -/
def ffLimit (s : State) (d : Nat) : Int :=
  match boundModel s d with
  | some M => if M.ffGain = 0 then 0 else ((cfgAt s d).lim.ffAuth * 2 ^ 24 / M.ffGain : Nat)
  | none => 0

/-- The prediction ports at a frame start: a new interval's predictions at the first of four frames, clamped to the
authority in every frame; zero while feed-forward is not active. -/
def presentPred (s : State) (d n : Nat) : State :=
  let fresh := n % 4 = 0
  let raw := if fresh then (domOf s d).lant.nextPred else (domOf s d).lant.rawPred
  let shown := if lanternActive s d then raw else Vector.replicate 4 0
  let lim := ffLimit s d
  let out := shown.map (clampInt (-lim) lim)
  setDom s d (fun D =>
    let D1 : Domain :=
      { D with lant := { D.lant with ipred := out, rawPred := raw,
                                     nextPred := if fresh then Vector.replicate 4 0 else D.lant.nextPred } }
    if out ≠ shown then bump 8 1 D1 else D1)

/-! ### Prediction errors (R205) -/

/-- Horizons in ns. -/
def horizonNs (h : Nat) : Nat := [250, 500, 1000, 2000].getD h 2000

/-- The sums with one interval's errors added. -/
def addErrs (S : ErrSums) (o : Outstanding) : ErrSums :=
  (List.range 4).foldl (fun S h =>
    let e := vget o.y h - (vget o.acts h).getD 0
    { sae := vupd S.sae h (fun x => x + (e.natAbs : Int)), se := vupd S.se h (fun x => x + e), n := vupd S.n h (fun x => x + 1) }) S

/-- Start of the error window that holds a latch. -/
def windowOf (t : Nat) : Nat := t / 1024000 * 1024000

/-- A finished interval enters the sums of its window. The last interval of a window finishes 2,000 ns after the window's end, before the window
is judged; sums that a later bind has started afresh take no earlier window's interval (R198). -/
def finishErrs (L : Lant) (o : Outstanding) : Lant :=
  let w := windowOf o.at_
  if !o.ok || decide (w < L.winStart) then L
  else if L.winStart < w then { L with winStart := w, sums := addErrs ErrSums.zero o }
  else { L with sums := addErrs L.sums o }

/-- One outstanding interval at the frame start `g`: its actual change at the horizon that this frame's latch closes. -/
def stepErr (g iNow : Nat) (ok : Bool) (o : Outstanding) : Outstanding :=
  let act := rne ((iNow : Int) - o.iref) 3
  { o with ok := o.ok && (ok || decide (g ≤ o.at_)),
           acts := vmapIdx o.acts (fun h a => if g = o.at_ + 1000 + horizonNs h then some act else a) }

/-- Prediction errors of a domain for the frame that begins at `g`, from its latch. -/
def latchErrs (g : Nat) (D : Domain) : Domain :=
  let os := D.lant.open_.map (stepErr g (D.iHist.getD 0 0) (D.lant.latOk && !D.lant.latUv))
  let done := os.filter (fun o => decide (o.at_ + 3000 ≤ g))
  let L := done.foldl finishErrs D.lant
  { D with lant := { L with open_ := os.filter (fun o => decide (g < o.at_ + 3000)) } }

/-- Prediction errors of a domain at a frame start. -/
def errFrame (s : State) (d : Nat) : State := setDom s d (latchErrs s.time.gtc)

/-- A pairing or unpairing at `t`: intervals whose last latch has been taken are finished; those that span the commit are left out, the one of
the latch just taken among them (R205). -/
def dropErrs (t : Nat) (D : Domain) : Domain :=
  let E := latchErrs t D
  { E with lant := { E.lant with open_ := [], cut := true } }

/-- Whether a window fails at a horizon by its mean absolute error, and by its mean error (R206). -/
def failsAt (lim : Limits) (S : ErrSums) (h : Nat) : Bool × Bool :=
  let n : Nat := vget S.n h
  (decide (((vget lim.mae h * 16 * n : Nat) : Int) < vget S.sae h), decide (lim.lntBias * 16 * n < (vget S.se h).natAbs))

/-- LANTERN_ERR detail (Table 09-8): the first failing horizon, and the reasons of all four (log 98). -/
def lantErrDetail (lim : Limits) (S : ErrSums) : Nat :=
  let hs := (List.range 4).map (fun h => (h, failsAt lim S h))
  let h := match hs.find? (fun x => x.2.1 || x.2.2) with | some x => x.1 | none => 0
  let mae := hs.any (fun x => x.2.1)
  let bias := hs.any (fun x => x.2.2)
  let n : Int := (Nat.max 1 (vget S.n h) : Nat)
  let a := satNat 12 (truncDiv (vget S.sae h) n).toNat
  let b := (BitVec.ofInt 12 (clampInt (-2048) 2047 (truncDiv (vget S.se h) n))).toNat
  bitAt mae 30 + bitAt bias 31 + h * 0x10000000 + a * 0x10000 + b * 16

/-- A domain's window is closed and judged; a second failed judgement in a row switches feed-forward off (R206). -/
def judgeWindow (w : Nat) (s : State) (d : Nat) : State :=
  let D := domOf s d
  let L := D.lant
  let start := 1024000 * w
  let S := if L.winStart = start then L.sums else ErrSums.zero
  let judged := decide (256 ≤ vget S.n 0)
  let lim := (cfgAt s d).lim
  let failed := judged && (List.range 4).any (fun h => (failsAt lim S h).1 || (failsAt lim S h).2)
  let keep := decide (start < L.winStart)
  let run := if !judged then L.failRun else if failed then L.failRun + 1 else 0
  let s1 := setDom s d (fun D => { D with lant :=
                                            { L with last := S, lastAt := start,
                                                     lastBits := BitVec.ofNat 2 (bitAt judged 0 + bitAt failed 1), failRun := if 2 ≤ run then 0 else run,
                                                     sums := if keep then L.sums else ErrSums.zero, winStart := if keep then L.winStart else start + 1024000 } })
  if failed && decide (2 ≤ run) then
    report (raise s1 1 0x15 0x3 d (lantErrDetail lim S)) d (.featOff true false)
  else s1

/-- `LANTERN_WINDOW_END`: every domain's window w is judged, once the errors of its last interval have been formed: after the frame start 2,000 ns
past its end (R205, R206, log 48). -/
def execLanternWindowEnd (w : Nat) (s : State) : Host.Outcome State Fault Refusal :=
  let s := now (1024000 * (w + 1) + 2000) s
  if s.clk.crstBusy then .next s
  else .next ((List.range 80).foldl (fun s d => if isAbsent s d || isOdd s d then s else judgeWindow w s d) s)

end Sys2Proof.Machine
end

