-- ==== Sys2Proof/Machine/Rc.lean ====
section
/-! DEFINITION. The repetitive compensator: step marks, bins, the correction term and the update (R208–R215). -/

namespace Sys2Proof.Machine

/-- The RC part of a domain changed. -/
def setRc (s : State) (d : Nat) (f : RcSt → RcSt) : State := setDom s d (fun D => { D with rc := f D.rc })

/-- `RC_AUTH` bound and scale of a bin value, as Q16.16 mV (R212). -/
def rcScaled (auth : Nat) (bin : Int) : Int := clampInt (-(auth * 256 : Nat)) (auth * 256 : Nat) bin * 256

/-- `RCTERM` of a domain in the frame in progress (R212). -/
def rcTerm (s : State) (d : Nat) : Int :=
  let R := (domOf s d).rc
  if rcActive s d && R.locked then rcScaled (cfgAt s d).rc.auth (rcBin R R.idx) else 0

/-- A step mark reaches the RC of a domain: it waits for the next frame start. A further mark in the same frame would find
the RC locked at index 0, so it counts as ignored at once (R210). -/
def pendMark (s : State) (d : Nat) : State :=
  if isAbsent s d || isOdd s d then s
  else if (domOf s d).rc.mark then setDom s d (bump 12 1)
  else setRc s d (fun R => { R with mark := true })

/-- Whether the RC of a domain takes the step marks of a tile site: its own, or the tile that `RC_SRC` names (R208). -/
def takesMarksOf (s : State) (site d : Nat) : Bool :=
  let src := (cfgAt s d).rc.src
  if src = 0x80 then isTile d && d == site else physOf s src == site

/-- `TILE_STEP_MARK`: the toggle of a present site; the odd site of a pair does not count (R40, R44, R210). -/
def execTileStepMark (s_ : Site) (t : Nat) (s : State) : Host.Outcome State Fault Refusal :=
  let s := now t s
  if isAbsent s s_ then .next s
  else
    let s1 := setDom s s_ (fun D => { D with tile := { D.tile with stepTog := !D.tile.stepTog } })
    if isOdd s s_ then .next s1
    else .next (foldDoms s1 (fun s d => if takesMarksOf s s_ d then pendMark s d else s))

/-- An RC that takes a mark: bin 0 of a new step begins (R210); a step without a saturated update ends the run of R214. -/
def takeMark (R : RcSt) : RcSt :=
  { R with idx := 0, cnt := 0, esum := 0, excl := false, locked := true, mark := false,
           satRun := if R.satStep = 0 then 0 else R.satRun, satStep := 0 }

/-- A frame start of a domain's RC: a pending mark is taken or ignored, and a locked RC counts the frame (R210, R211). -/
def rcFrame (s : State) (d : Nat) : State :=
  let R := (domOf s d).rc
  if isAbsent s d || isOdd s d then s
  else if R.mark && !(R.locked && R.idx == 0) then
    setDom s d (fun D => bump 11 1 { D with rc := takeMark D.rc, tile := { D.tile with markTaken := true } })
  else
    let s1 := if R.mark then setDom s d (bump 12 1) else s
    setRc s1 d (fun R => { R with mark := false, cnt := if R.locked then R.cnt + 1 else R.cnt })

/-- Whether a frame is excluded from learning (R213). -/
def rcExcluded (D : Domain) (tile : Bool) : Bool :=
  D.state != .lit || D.held || D.fallback || D.prof.cond != .settled || (tile && D.droop.uvstop)

/-- A frame's error enters the bin in progress, from the port values of the frame's slot (R213). -/
def rcLearn (s : State) (d : Nat) (vref vmeas : Int) : State :=
  let ex := rcExcluded (domOf s d) (isTile d)
  setRc s d (fun R => if R.locked then { R with esum := R.esum + rne (vref - vmeas) 8, excl := R.excl || ex } else R)

/-- The new value of a bin before saturation: leak and learning (R213). -/
def rcUpdate (c : RcCfg) (bin esum : Int) : Int :=
  let leak := if c.f < 16 then rnes bin c.f else 0
  bin - leak + rnes (rnes esum c.k) c.g

/-- RC_SAT detail (R214). -/
def rcSatDetail (bin steps n : Nat) : Nat := bin * 0x100000 + satNat 4 steps * 0x10000 + satNat 16 n

/-- A saturated update of bin t: the first of a step is reported, and the fourth step in a row switches the RC off (R214). -/
def rcSaturate (s : State) (d t : Nat) : State :=
  let R := (domOf s d).rc
  let first := R.satStep = 0
  let s1 := setDom s d (fun D => bump 13 1 { D with rc :=
                                                      { R with satStep := R.satStep + 1, satBin := if first then t else R.satBin,
                                                               satRun := if first then R.satRun + 1 else R.satRun } })
  if first then
    let s2 := raise s1 0 0x16 0x4 d (rcSatDetail t (R.satRun + 1) 1)
    if 4 ≤ R.satRun + 1 then report (raise s2 1 0x16 0x4 d (rcSatDetail t (R.satRun + 1) 1)) d (.featOff false true) else s2
  else s1

/-- The update at the end of bin j, which teaches bin j − `RC_L` (R213). -/
def rcEndUpdate (s : State) (d : Nat) : State :=
  let R := (domOf s d).rc
  let c := (cfgAt s d).rc
  if !rcActive s d || R.excl || R.idx < c.l then s
  else
    let t := R.idx - c.l
    let v := rcUpdate c (rcBin R t) R.esum
    let s1 := setRc s d (fun R => { R with bins := R.bins.write t (BitVec.ofInt 16 (sat16 v)) })
    if v ≠ sat16 v then rcSaturate s1 d t else s1

/-- `RC_BIN_END`: a bin has had its 2^k frames; it updates, and the index moves on or the RC unlocks (R211, R213). -/
def execRcBinEnd (d : Dom) (t : Nat) (s : State) : Host.Outcome State Fault Refusal :=
  let s := now t s
  let R := (domOf s d).rc
  if s.clk.crstBusy || isAbsent s d || isOdd s d || !R.locked || R.cnt < 2 ^ (cfgAt s d).rc.k then .next s
  else
    let s1 := rcEndUpdate s d
    .next (setRc s1 d (fun R =>
      if 4096 ≤ R.idx + 1 then { R with idx := 0, cnt := 0, esum := 0, excl := false, locked := false }
      else { R with idx := R.idx + 1, cnt := 0, esum := 0, excl := false }))

/-- An RC with its bins zeroed and unlocked: `RC_RESET`, or a change of `RC_K` (R208, R211). -/
def rcCleared (R : RcSt) : RcSt :=
  { R with bins := ⟨[]⟩, idx := 0, cnt := 0, locked := false, esum := 0, excl := false, satStep := 0, satRun := 0 }

end Sys2Proof.Machine
end

