-- ==== Sys2Proof/Machine/Freq.lean ====
section
/-! DEFINITION. Tile frequency: ceilings, switches, their handshake, deferral and withdrawal (R42–R44, R147, R183, R184, R227, R424). -/

namespace Sys2Proof.Machine

/-- A tile site changed. -/
def setTile (s : State) (d : Nat) (f : Tile → Tile) : State := setDom s d (fun D => { D with tile := f D.tile })

/-- Both sites of a leader changed: Dorgus drives identical outputs to them (R44). -/
def setTiles (s : State) (d : Nat) (f : Tile → Tile) : State := setMembers s d (fun D => { D with tile := f D.tile })

/-- The ceiling of one site under a `VMAX` code and G (R227). -/
def siteCeil (s : State) (d vmax g : Nat) : Nat :=
  match s.char with
  | none => 72
  | some c =>
    let lo := (vget (vget c.vf d) 0).1
    let ok := (List.range 73).filter (fun f => decide (lo ≤ f ∧ vfTile s d f + g ≤ vmax))
    match ok.reverse with
    | [] => lo
    | f :: _ => Nat.min (vget c.maxCode d) f

/-- The ceiling of a tile or pair: the lower of its members' (R227). -/
def ceilOf (s : State) (d : Nat) : Nat :=
  (membersOf s d).foldl (fun m x => Nat.min m (siteCeil s x (cfgAt s d).lim.vmax (guardBand s d))) 72

/-- A change not yet requested. -/
def newChange (code sw : Nat) (job : Bool) (kind : Nat) : FreqChange :=
  { code := code, swGtc := sw, job := job, req := false, reqAt := 0, rdy := false, go := false, attempt := kind, held := false,
    missed := false, deferred := false, uvAt := false }

/-- `FREQ_CODE` is set and `FREQ_REQ` toggled at both sites of a leader (R42). -/
def driveReq (s : State) (d code : Nat) : State :=
  setTiles s d (fun x => { x with freqCode := code, freqReq := !x.freqReq })

/-- Whether a request for another code than the one in force stands at the interface. -/
def reqStands (x : Tile) : Bool := x.freqCode != x.freqIn

/-- The outstanding change of a leader is dropped and the code in force requested again, also where the request that stands was made
for an earlier change (R43, R424). -/
def dropChange (s : State) (d : Nat) : State :=
  match (domOf s d).tile.change with
  | none => s
  | some c =>
    let s1 := setTiles s d (fun x => { x with change := none })
    if c.req || reqStands (domOf s d).tile then driveReq s1 d (domOf s d).tile.freqIn else s1

/-- A frequency commit of a tile or pair: it replaces a change not yet pulsed, or waits behind one that is (R424).
Kinds: 0 a commit, 1 a new attempt (R43), 2 the request of a soft start (R114). -/
def planChange (s : State) (d code sw : Nat) (job : Bool) (kind : Nat) : State :=
  let x := (domOf s d).tile
  let c := newChange code sw job kind
  match x.change with
  | some old =>
    if old.go then setTiles s d (fun x => { x with nextChg := some c })
    else
      let s1 := setTiles s d (fun x => { x with withdrawn := if kind = 0 then none else x.withdrawn, nextChg := none })
      if runsCode s d code then dropChange s1 d else setTiles s1 d (fun x => { x with change := some c })
  | none =>
    let s1 := setTiles s d (fun x => { x with withdrawn := if kind = 0 then none else x.withdrawn })
    if runsCode s d code then s1 else setTiles s1 d (fun x => { x with change := some c })

/-- Whether every site of a leader passes a test of its change. -/
def allChange (s : State) (d : Nat) (f : FreqChange → Bool) : Bool :=
  (membersOf s d).all (fun x => match (domOf s x).tile.change with | some c => f c | none => false)

/-- The change of a leader edited at every site. -/
def editChange (s : State) (d : Nat) (f : FreqChange → FreqChange) : State :=
  setTiles s d (fun x => { x with change := x.change.map f })

/-- Whether a domain is in a soft start, or a move from SHADE, during which the committed code is requested, or has ended it and waits for
`FREQ_ACK` (R114). -/
def inStart (D : Domain) : Bool := inSoftStart D || D.tr.ph == .lift || D.droop.relPend

/-- Whether the generator has completed a move that ends at or above a floor and V_TH stands on that target, from the frame start after the
completion (R134, R183): it is settled there, or has left that target upward. -/
def moveReached (g : Nat) (D : Domain) (floor : Nat) : Bool :=
  decide (codeMv floor ≤ D.droop.vth) &&
  (if D.prof.cond = .settled then decide (D.droop.vth = D.prof.vref ∧ D.prof.settleAt < g) else decide (D.prof.dir = 1 ∧ D.prof.oldTgt = D.prof.v0))

/-- Whether the voltage and droop conditions of a raise hold at a frame start, in whatever state the domain is (R147, R183); with the clock
stopped only the voltage is asked. A soft start and a move from SHADE have their own condition (R114). -/
def raiseOk (s : State) (d code : Nat) : Bool :=
  let D := domOf s d
  let volt := moveReached s.time.gtc D (vfOf s d code + guardBand s d)
  let quiet := D.droop.uvstop ||
    (!D.droop.in1 && (match D.droop.last1 with | some u => decide (u + 1000 ≤ s.time.gtc) | none => true))
  volt && quiet

/-- `FREQ_GO` is pulsed at both sites (R42). -/
def pulseGo (s : State) (d : Nat) : State :=
  setTiles s d (fun x => { x with freqGo := true, change := x.change.map (fun c => { c with go := true }) })

/-- A switch in a started change at or after its switch GTC: pulsed, deferred or missed (R43, R147, R183). -/
def tryGo (s : State) (d : Nat) (c : FreqChange) : State :=
  let D := domOf s d
  let g := s.time.gtc
  let rdy := allChange s d (fun x => x.rdy)
  if c.go || c.missed then s
  else if D.state == .held || D.held then (if g < c.swGtc then s else editChange s d (fun x => { x with held := true }))
  else if inStart D then (if rdy then pulseGo s d else s)
  else if g < c.swGtc then s
  else
    let up := decide (D.tile.freqIn < c.code)
    let fixed := c.attempt = 0 && (c.job || !up) && !c.held
    if fixed && !rdy && !c.deferred then editChange s d (fun x => { x with missed := true })
    else if up && !raiseOk s d c.code then (if c.job then editChange s d (fun x => { x with deferred := true }) else s)
    else if !rdy then (if c.attempt = 0 && !c.held then editChange s d (fun x => { x with missed := true }) else s)
    else
      let uv := D.state == .lit && D.droop.uvstop
      pulseGo (editChange s d (fun x => { x with uvAt := uv })) d

/-- A request is made at a frame start at least 1 µs before the switch GTC; at once in a soft start, and where it replaces one that
stands (R42, R114, R424). -/
def tryRequest (s : State) (d : Nat) (c : FreqChange) : State :=
  let D := domOf s d
  if c.req || (s.time.gtc + 1000 < c.swGtc && !inStart D && !reqStands D.tile) then s
  else driveReq (editChange s d (fun x => { x with req := true, reqAt := s.time.gtc })) d c.code

/-- The acknowledged switch of a leader shows at the CLE from this frame start, and a change that waited makes its request at it (R42, R424). -/
def takeAck (s : State) (d : Nat) : State :=
  let g := s.time.gtc
  if !((membersOf s d).all (fun x => (domOf s x).tile.pendIn.isSome)) then s
  else
    let s1 := setTiles s d (fun x =>
      let code := x.pendIn.getD x.freqIn
      { x with freqIn := code, pendIn := none, withdrawn := none, nextChg := none,
               change := match x.nextChg with
                 | some n => if n.code = code then none
                             else some { n with req := true, reqAt := g, swGtc := Nat.max n.swGtc (g + 1000),
                                                deferred := n.job && decide (n.swGtc < g + 1000) }
                 | none => none })
    match (domOf s1 d).tile.change with
    | some n => driveReq s1 d n.code
    | none => s1

/-- Frequency work of a leader at a frame start. -/
def freqFrame (s : State) (d : Nat) : State :=
  if !isTile d || isAbsent s d || isOdd s d then s
  else
    let s0 := releaseClock (takeAck (setTiles s d (fun x => { x with freqGo := false })) d) d
    let D := domOf s0 d
    let want := (cfgAt s0 d).freq
    let s1 := if inStart D && D.tile.change.isNone && !runsCode s0 d want then planChange s0 d want s.time.gtc false 2 else s0
    match (domOf s1 d).tile.change with
    | none => s1
    | some c =>
      let s2 := tryGo s1 d c
      tryRequest s2 d c

/-- A change that no longer waits for HELD: its switch GTC counts from the end of HELD (R118). -/
def freqUnheld (s : State) (d : Nat) : State :=
  editChange s d (fun c => if !c.go ∧ c.swGtc ≤ s.time.gtc then { c with swGtc := s.time.gtc, held := true } else c)

/-- A withdrawal: the old code restored, CLK_SWITCH for the first of a committed code (R43). -/
def withdrawChange (s : State) (d : Nat) (code : Nat) : State :=
  let first := (domOf s d).tile.withdrawn != some code
  let s1 := setTiles (dropChange s d) d (fun x => { x with withdrawn := some code })
  if first then raise s1 1 0x31 0xA (0x40 + d) 0 else s1

/-- `FREQ_RDY`: a requested site's readiness, kept until `FREQ_GO` or a withdrawal (R42, R147). -/
def execFreqRdy (s_ : Site) (t : Nat) (s : State) : Host.Outcome State Fault Refusal :=
  let s := now t s
  if isAbsent s s_ then .next s
  else .next (setTile s s_ (fun x => { x with change := x.change.map (fun c => if c.req then { c with rdy := true } else c) }))

/-- `FREQ_ACK`: the site has switched (R42). -/
def execFreqAck (s_ : Site) (t : Nat) (s : State) : Host.Outcome State Fault Refusal :=
  let s := now t s
  if isAbsent s s_ then .next s
  else .next (setTile s s_ (fun x =>
    match x.change with
    | some c => if c.go then { x with pendIn := some c.code } else x
    | none => x))

/-- Whether a change is due for withdrawal because it was not ready, or its attempt has lasted 20 µs (R43). -/
def withdrawDue (s : State) (c : FreqChange) : Bool :=
  c.req && !c.go && (c.missed || (c.attempt == 1 && decide (c.reqAt + 20000 ≤ s.time.gtc)))

/-- `FREQ_WITHDRAW` (R43). -/
def execFreqWithdraw (s_ : Site) (t : Nat) (s : State) : Host.Outcome State Fault Refusal :=
  let s := now t s
  let d := leader s s_
  match (domOf s d).tile.change with
  | some c => .next (if withdrawDue s c then withdrawChange s d c.code else s)
  | none => .next s

/-- Whether a deferred raise has waited 20 µs from its switch GTC (R147, R183). -/
def deferDue (s : State) (d : Nat) (c : FreqChange) : Bool :=
  !c.go && (c.deferred || c.held) && decide ((domOf s d).tile.freqIn < c.code) && decide (c.swGtc + 20000 ≤ s.time.gtc) &&
  (domOf s d).state != .held && !(domOf s d).held

/-- `FREQ_DEFER_TIMEOUT` (R147). -/
def execFreqDeferTimeout (s_ : Site) (t : Nat) (s : State) : Host.Outcome State Fault Refusal :=
  let s := now t s
  let d := leader s s_
  match (domOf s d).tile.change with
  | some c => .next (if deferDue s d c then withdrawChange s d c.code else s)
  | none => .next s

/-- At a regrant commit a withdrawn committed code is tried again (R43). -/
def freqRetry (s : State) (d : Nat) : State :=
  let D := domOf s d
  let want := (cfgAt s d).freq
  if isTile d && !isOdd s d && !isAbsent s d && D.tile.withdrawn == some want && D.tile.change.isNone && !runsCode s d want then
    planChange s d want (s.time.gtc + 1000) false 1
  else s

/-- A committed code set by the arbiter or a host, and its switch (R183, R184). -/
def commitFreq (s : State) (d code sw : Nat) (job : Bool) : State :=
  planChange (setCfg s (logOf s d) (fun c => { c with freq := code })) d code sw job 0

end Sys2Proof.Machine
end

