-- ==== Sys2Proof/Machine/Selftest.lean ====
section
/-! DEFINITION. Tests in progress and their TEST events (R327, R343, R410–R412). -/

namespace Sys2Proof.Machine

/-- Unit code of a test (Table 14-13). -/
def unitCode : TestUnit → Nat
  | .lane _ => 0
  | .lantern => 1
  | .station _ => 2
  | .sensor _ => 3
  | .meter => 4

/-- Instance of a test: lane, logical domain or sensor number. -/
def unitInst (s : State) : TestUnit → Nat
  | .lane l => l.val
  | .station d => logName s d.val
  | .sensor x => x.val
  | .lantern | .meter => 0

/-- A TEST event's payload (R327). -/
def testPay (g unit outcome inst tag : Nat) (detail : List Byte) : List Byte :=
  leBytes 8 g ++ leBytes 1 unit ++ leBytes 1 outcome ++ leBytes 2 inst ++ leBytes 4 tag ++ slice detail 0 8

/-- A TEST event is posted to the port that issued the starting command. -/
def postTest (s : State) (p : PortNo) (dom unit outcome inst tag : Nat) (detail : List Byte) : State :=
  postEvent s p { typ := 0x05, dom := BitVec.ofNat 8 dom, cls := 0, epoch := epochIn s,
                  pay := testPay s.time.gtc unit outcome inst tag detail }

/-- The logical domain that a test's event names. -/
def unitDom (s : State) : TestUnit → Nat
  | .station d => logName s d.val
  | _ => 0xFE

/-- The test in progress of a unit. -/
def testOf (s : State) (u : TestUnit) : Option TestRun := s.tests.find? (fun r => r.unit == u)

/-- A lane is no longer under test. -/
def laneTested (s : State) (u : TestUnit) : State :=
  match u with
  | .lane l => { s with lanes := vupd s.lanes l (fun x => { x with testing := false }) }
  | .sensor x => { s with therm := { s.therm with sens := vupd s.therm.sens x (fun c => { c with live := false }) } }
  | _ => s

/-- A test leaves the tests in progress and its outcome is posted: 0 pass, 1 fail, 2 abandoned. -/
def endTest (s : State) (r : TestRun) (outcome : Nat) (detail : List Byte) : State :=
  let s1 := laneTested { s with tests := s.tests.filter (fun x => x != r) } r.unit
  match r.by_ with
  | some (p, tag) => postTest s1 p (unitDom s r.unit) (unitCode r.unit) outcome (unitInst s r.unit) tag.toNat detail
  | none => s1

/-- The tests that meet a condition are abandoned, each with outcome 2. -/
def abandonTests (s : State) (f : TestUnit → Bool) : State :=
  (s.tests.filter (fun r => f r.unit)).foldl (fun s r => endTest s r 2 []) s

/-- Whether a station BIST of a domain, or of a member of its pair, runs (R411). -/
def bistRuns (s : State) (d : Nat) : Bool :=
  s.tests.any (fun r => match r.unit with | .station x => (membersOf s d).contains x.val | _ => false)

/-- The station BIST of a domain is abandoned (R411). -/
def abandonBist (s : State) (d : Nat) : State :=
  abandonTests s (fun u => match u with | .station x => (membersOf s d).contains x.val | _ => false)

end Sys2Proof.Machine
end

