-- ==== Sys2Proof/Machine/Thermal.lean ====
section
/-! DEFINITION. Sensors, samples, bands, rate of rise, thermal limits, the trip and the thermal registers (R45, R243–R264). -/

namespace Sys2Proof.Machine

/-! ### Sensors (R12) -/

/-- The domain of a sensor; 80 stands for the hub logic of TS304–TS319. -/
def sensDom (x : Nat) : Nat := if x < 256 then x / 4 else if x < 304 then 64 + (x - 256) / 3 else 80

/-- The sensors of one domain, or of the hub logic. -/
def sensorsOf (d : Nat) : List Nat :=
  if d < 64 then (List.range 4).map (fun i => 4 * d + i)
  else if d < 80 then (List.range 3).map (fun i => 256 + 3 * (d - 64) + i)
  else (List.range 16).map (fun i => 304 + i)

/-- The die of a sensor. -/
def sensDie (x : Nat) : Nat := if sensDom x < 80 then dieOf (sensDom x) else 4

/-- The sensors of a leader, both sites' for a pair, or of the hub logic (R250). -/
def groupSensors (s : State) (d : Nat) : List Nat := if d < 80 then (membersOf s d).flatMap sensorsOf else sensorsOf d

/-- The leader whose sensors count with sensor x. -/
def sensLeader (s : State) (x : Nat) : Nat := if sensDom x < 80 then leader s (sensDom x) else 80

/-- A sensor. -/
def sensorAt (s : State) (x : Nat) : Sensor := vget s.therm.sens x

/-- Whether a sensor lies at an ABSENT site. -/
def sensAbsent (s : State) (x : Nat) : Bool := decide (sensDom x < 80) && isAbsent s (sensDom x)

/-- Whether a sensor is counted (R247). -/
def countedSens (s : State) (x : Nat) : Bool := !(sensorAt s x).excl && !(sensorAt s x).live && !sensAbsent s x

/-- Whether a counted sensor has a reading that stands (R249). -/
def readsNow (s : State) (x : Nat) : Bool := countedSens s x && !(sensorAt s x).gone

/-- The hottest counted sensor of a list with its reading. -/
def hottest (s : State) (l : List Nat) : Option (Nat × Int) :=
  (l.filter (readsNow s)).foldl (fun b x =>
    let r := (sensorAt s x).rd
    match b with
    | some y => if y.2 < r then some (x, r) else b
    | none => some (x, r)) none

/-- Thermal detail (Table 11-5); sensor 0x1FF when none. -/
def thDetail (x : Nat) (r : Int) (low : Nat) : Nat := x * 0x800000 + (BitVec.ofInt 13 r).toNat * 0x400 + low

/-- Instance of a fault of unit 0x8 for a leader or the hub logic (R262). -/
def thInst (d : Nat) : Nat := if d < 80 then d else 0x80

/-- The thermal part of the state changed. -/
def setTherm (s : State) (f : Thermal → Thermal) : State := { s with therm := f s.therm }

/-! ### Failed sensors (R248) -/

/-- A sensor is declared failed: its exclusion bit is set and TH_SENSOR names the cause; contained where its domain keeps no counted sensor. -/
def declareFailed (s : State) (x cause : Nat) : State :=
  if s.therm.excl.getLsbD x then s
  else
    let s1 := setTherm s (fun h => { h with excl := h.excl ||| BitVec.twoPow 320 x })
    let d := sensLeader s x
    let left := (groupSensors s d).any (fun y => countedSens s1 y && !s1.therm.excl.getLsbD y)
    raise s1 (if left then 0 else 1) 0x23 0x8 (thInst d) (thDetail x (sensorAt s x).rd cause)

/-- The median of readings in rising order; of an even count the manual leaves it open (log 9). -/
def medianOf (l : List Int) : Int :=
  let n := l.length
  if n % 2 = 1 then l.getD (n / 2) 0 else Config.medianOfTwo (l.getD (n / 2 - 1) 0) (l.getD (n / 2) 0)

/-- A list with one reading in its place. -/
def insertInt (x : Int) : List Int → List Int
  | [] => [x]
  | y :: ys => if x ≤ y then x :: y :: ys else y :: insertInt x ys

/-- Whether a counted sensor is a low outlier of its group at this sample. -/
def lowOutlier (s : State) (x : Nat) : Bool :=
  let others := (groupSensors s (sensLeader s x)).filter (fun y => y != x && readsNow s y)
  let rs := others.map (fun y => (sensorAt s y).rd)
  readsNow s x && !rs.isEmpty && rs.all (fun r => decide (640 < r)) &&
  decide ((sensorAt s x).rd + 320 < medianOf (rs.foldl (fun l r => insertInt r l) []))

/-! ### A sample (R245–R257) -/

/-- `THERMAL_SAMPLE_START`: the thermal timer starts a sample; its first one starts the 20 µs ticks (R245, R254). -/
def execThermalSampleStart (t : Nat) (s : State) : Host.Outcome State Fault Refusal :=
  .next (setTherm (now t s) (fun h => { h with startAt := (now t s).time.run, tick0 := some (h.tick0.getD (now t s).time.run) }))

/-- Written limits and exclusion bits take effect (R247, R264). -/
def limitsInForce (h : Thermal) : Thermal :=
  { h with act := { warn := h.warn.toNat, throt := h.throt.toNat, crit := h.crit.toNat, restart := h.restart.toNat,
                    hold := h.hold.toNat, rise := h.rise.toNat, bands := h.bands, hyst := h.hyst.toNat },
           sens := vmapIdx h.sens (fun i c => { c with excl := h.excl.getLsbD i }) }

/-- Whether the station link of a die is lost: until it has been retrained (R39, R249). -/
def dieLost (s : State) (e : Nat) : Bool := !linkCarries (linkOf s e)

/-- Whether a sensor's readings are cut off by the loss of its link; the hub's own sensors TS304–TS319 need none (R245). -/
def sensLost (s : State) (x : Nat) : Bool := decide (x < 304) && dieLost s (sensDie x)

/-- The internal reading of a conversion: with the offset that the characterisation record gives the sensor, 0 before one is installed, on 13
bits (R243, R368). -/
def internalReading (s : State) (x : Nat) (raw : Int) : Int :=
  clampInt (-4096) 4095 (raw + (match s.char with | some r => vget r.sensOff x | none => 0))

/-- One sensor takes its conversion (R243, R244, R249, R257); one under the live check keeps its reading (R412). A reading at or above TH_CRIT
ends a run of failed conversions until its confirmation judges it. -/
def takeConv (s : State) (x : Nat) (c : Sensor) (v : Conv) : Sensor :=
  if c.live then c
  else if sensLost s x then
    (if vget s.therm.dieAt (sensDie x) + 100000 < s.time.run then { c with valid := false, gone := true } else c)
  else
    match v with
    | .reading raw =>
      let r := internalReading s x raw
      if r < -640 then { c with valid := false, fails := c.fails + 1, gone := false }
      else { c with rd := r, valid := true, fails := 0, critFails := c.fails, gone := false }
    | .error => { c with valid := false, fails := c.fails + 1, gone := false }

/-- The sensors that a sample finds at or above TH_CRIT (R257). -/
def tripCands (s : State) : List (Fin 320) :=
  (List.range 320).filterMap (fun x =>
    let c := sensorAt s x
    if h : x < 320 then
      if !sensAbsent s x && c.valid && decide ((s.therm.act.crit : Int) ≤ c.rd) then some ⟨x, h⟩ else none
    else none)

/-- Start of the tick that holds the sample in progress. -/
def tickStart (h : Thermal) : Nat :=
  match h.tick0 with
  | some t0 => t0 + (h.startAt - t0) / 20000 * 20000
  | none => h.startAt

/-- The first sample of a tick becomes its reference, six ticks deep (R254). -/
def keepRefs (h : Thermal) : Thermal :=
  let k := tickStart h
  { h with sens := h.sens.map (fun c =>
    match c.refs with
    | (u, _) :: _ => if u = k then c else { c with refs := ((k, c.rd) :: c.refs).take 6 }
    | [] => { c with refs := [(k, c.rd)] }) }

/-- The rise of a sensor at a sample: over the latest tick that began at least 100 µs before it started (R254). -/
def riseOf (h : Thermal) (c : Sensor) : Option Int :=
  (c.refs.find? (fun r => decide (r.1 + 100000 ≤ h.startAt))).map (fun r => c.rd - r.2)

/-- Whether a message of TH_RISE is due: none within the last millisecond. -/
def riseDue (last : Option Nat) (g : Nat) : Bool :=
  match last with
  | some u => decide (u + 1000000 ≤ g)
  | none => true

/-- A counted sensor whose rise exceeds TH_RISE: its domain is hot for 1 ms, and TH_RISE is raised at most once a
millisecond for the domain (R254). -/
def riseSensor (s : State) (x : Nat) : State :=
  let c := sensorAt s x
  match riseOf s.therm c with
  | none => s
  | some r =>
    if !readsNow s x || !decide ((s.therm.act.rise : Int) < r) then s
    else
      let d := sensLeader s x
      let g := s.time.run
      let det := thDetail x c.rd (satNat 10 r.toNat)
      if d < 80 then
        let due := riseDue (domOf s d).riseMsg g
        let s1 := setMembers s d (fun D => { D with hot := true, riseHold := g + 1000000, riseMsg := if due then some g else D.riseMsg })
        if due then raise s1 1 0x21 0x8 d det else s1
      else if riseDue s.therm.hubRise g then raise (setTherm s (fun h => { h with hubRise := some g })) 1 0x21 0x8 0x80 det
      else s

/-- Whether a sensor meets a condition of fast sampling (R246). -/
def fastCond (s : State) (x : Nat) : Bool :=
  let c := sensorAt s x
  readsNow s x && (decide ((s.therm.act.throt : Int) - 128 ≤ c.rd) ||
    (match riseOf s.therm c with | some r => decide ((s.therm.act.rise : Int) < 2 * r) | none => false))

/-- The lower bound of band b in 1/16 °C, for b from 1 to 4 (Table 11-12). -/
def bandLo (w : Word) (b : Nat) : Int := 16 * (fld w (8 * b - 1) (8 * b - 8) : Nat)

/-- The highest band whose lower bound is at or below T. -/
def bandAt (w : Word) (t : Int) : Nat := ((List.range 5).filter (fun b => b != 0 && decide (bandLo w b ≤ t))).foldl Nat.max 0

/-- A band's next value (R251). -/
def nextBand (w : Word) (hyst b : Nat) (t : Int) : Nat :=
  let up := bandAt w t
  if b < up then up
  else if b = 0 ∨ bandLo w b - hyst ≤ t then b
  else up

/-- The sensors of a die. -/
def dieSensors (e : Nat) : List Nat := (List.range 320).filter (fun x => sensDie x == e)

/-- The domain maximum of a leader: over its own sensors, and over its die's where none of them is counted, which is die H for a hub domain;
the previous one where that die has no counted sensor either (R45, R250; log 74). -/
def domMax (s : State) (d : Nat) : Int :=
  match hottest s (groupSensors s d) with
  | some y => y.2
  | none =>
    match hottest s (dieSensors (dieOf d)) with
    | some y => y.2
    | none => (domOf s d).tempNew

/-- The hottest reading of an ABSENT site, whose sensors are still read and appear in the trace (R26). -/
def absentMax (s : State) (d : Nat) : Int :=
  (((sensorsOf d).map (sensorAt s)).filter (fun c => !c.gone)).foldl (fun m c => Max.max m c.rd) (-4096)

/-- A leader's maximum and band at a completion; of an ABSENT site the reading alone, for the trace (R26). -/
def bandDom (s : State) (d : Nat) : State :=
  if isAbsent s d then
    setDom s d (fun D => { D with tempNew := if (sensorsOf d).all (fun x => (sensorAt s x).gone) then D.tempNew else absentMax s d })
  else if isOdd s d then s
  else
    let t := domMax s d
    setMembers s d (fun D => { D with tempNew := t, bandNew := nextBand s.therm.act.bands s.therm.act.hyst D.bandNew t })

/-- MBAND of a band (Table 11-1). -/
def mbandOf (b : Nat) : BitVec 2 := if b ≤ 1 then 0 else if b = 2 then 1 else if b = 3 then 2 else 3

/-- `DG.TH_MAX` and the outputs to MIF0–MIF3 (R45, Table 11-14). -/
def thMax (s : State) : State :=
  let top := hottest s (List.range 320)
  let lead := (List.range 80).filter (fun d => !isAbsent s d)
  let hd := lead.foldl (fun b d => match b with
    | some e => if (domOf s e).tempNew < (domOf s d).tempNew then some d else b
    | none => some d) (none : Option Nat)
  setTherm s (fun h => { h with
    maxS := (match top with | some y => y.1 | none => h.maxS), maxT := (match top with | some y => y.2 | none => h.maxT),
    maxB := (match hd with | some d => (domOf s d).bandNew | none => h.maxB),
    mband := Vector.ofFn (fun i => mbandOf (domOf s (72 + i.val)).bandNew),
    warnOver := (List.range 320).any (fun x => readsNow s x && decide ((h.act.warn : Int) ≤ (sensorAt s x).rd)) })

/-- T of R255: the highest of the domain maxima of a tile, FAB and SRM of its die. -/
def tileTemp (s : State) (d : Nat) : Int :=
  let e := dieOf d
  Max.max (domOf s d).tempNew (Max.max (domOf s (64 + e)).tempNew (domOf s (68 + e)).tempNew)

/-- Whether R255 evaluates a tile or pair: LIT and not held. -/
def limitable (s : State) (d : Nat) : Bool := isTile d && (domOf s d).state == .lit && !(domOf s d).held

/-- Whether a leader, or the hub logic at 80, is hot: a LIT tile as R255 evaluates it, FAB and SRM by their maxima or rise, the others by
their own sensors (R255, R256). -/
def groupHot (s : State) (d : Nat) : Bool :=
  let throt : Int := s.therm.act.throt
  let rises := decide (d < 80) && decide (s.time.run < (domOf s d).riseHold)
  if isTile d then limitable s d && (decide (throt ≤ tileTemp s d) || rises)
  else if d < 72 then decide (throt ≤ (domOf s d).tempNew) || rises
  else (match hottest s (groupSensors s d) with | some y => decide (throt ≤ y.2) | none => false) || rises

/-- A group that becomes hot raises TH_THROT, contained while STEADY is in force (R256). -/
def throtDom (s : State) (d : Nat) : State :=
  if d < 80 && (isAbsent s d || isOdd s d) then s
  else
    let was := if d < 80 then (domOf s d).throt else s.therm.hubHot
    let hot := groupHot s d
    let s1 := if d < 80 then setMembers s d (fun D => { D with throt := hot }) else setTherm s (fun h => { h with hubHot := hot })
    if hot && !was then
      let y := (hottest s (groupSensors s d)).getD (0x1FF, if d < 80 then (domOf s d).tempNew else 0)
      raise s1 (if modeOn s 0 then 1 else 0) 0x22 0x8 (thInst d) (thDetail y.1 y.2 0)
    else s1

/-- Sensors of a sample that are declared failed (R248). -/
def failSensors (s : State) : State :=
  let low (x : Nat) : Bool := lowOutlier s x
  let s1 := setTherm s (fun h => { h with sens := vmapIdx h.sens (fun i c => { c with lows := if low i then c.lows + 1 else 0 }) })
  (List.range 320).foldl (fun s x =>
    let c := sensorAt s x
    if 2 ≤ c.fails then declareFailed s x 0 else if 16 ≤ c.lows then declareFailed s x 1 else s) s1

/-- The hold time of the restart, and the release of the pin by the first complete sample (R46, R260). -/
def coolCheck (s : State) : State :=
  let h := s.therm
  let cool := (List.range 320).all (fun x => sensAbsent s x || !(sensorAt s x).valid || decide ((sensorAt s x).rd < h.act.restart))
  setTherm s (fun h => { h with
    coolAt := if h.tripped && cool then (match h.coolAt with | some u => some u | none => some s.time.run) else none,
    valid := true, pinLow := if h.valid then h.pinLow else h.tripped })

/-- `THERMAL_SAMPLE_COMPLETE`: everything this chapter derives from a sample changes (R245). -/
def execThermalSampleComplete (convs : Vector Conv 320) (t : Nat) (s : State) : Host.Outcome State Fault Refusal :=
  let s0 := setTherm (now t s) limitsInForce
  let s1 := setTherm s0 (fun h => { h with
    sens := vmapIdx h.sens (fun i c => takeConv s0 i c (vget convs i)),
    dieAt := vmapIdx h.dieAt (fun e u => if dieLost s0 e then u else s0.time.run),
    dieOut := vmapIdx h.dieOut (fun e o => o && dieLost s0 e) })
  let s2 := failSensors (setTherm s1 keepRefs)
  let s3 := (List.range 320).foldl riseSensor s2
  let fast := (List.range 320).any (fastCond s3)
  let hotSens (x : Nat) : Bool := (groupSensors s3 (sensLeader s3 x)).any (fastCond s3)
  let s3 := abandonTests s3 (fun u => match u with | .sensor x => hotSens x | _ => false)
  let s4 := setTherm s3 (fun h => { h with fast := h.fast || fast, fastAt := if fast then h.startAt else h.fastAt })
  let s5 := thMax ((List.range 80).foldl bandDom s4)
  let s6 := (List.range 81).foldl throtDom s5
  let c := tripCands s6
  .next (coolCheck (setTherm s6 (fun h => { h with cands := if h.tripped then [] else c ++ h.cands.filter (fun x => !c.contains x) })))

/-- `FAST_SAMPLING_END` (R246). -/
def execFastSamplingEnd (t : Nat) (s : State) : Host.Outcome State Fault Refusal :=
  let s := now t s
  .next (setTherm s (fun h => if h.fastAt + 1000000 ≤ s.time.run then { h with fast := false } else h))

/-- `HOT_HOLD_END`, for both sites of a pair (R254). -/
def execHotHoldEnd (d : Dom) (t : Nat) (s : State) : Host.Outcome State Fault Refusal :=
  let s := now t s
  .next (setMembers s (leader s d) (fun D => if D.riseHold ≤ s.time.run then { D with hot := false } else D))

/-! ### The trip (R257–R261) -/

/-- A confirmed trip: the latch, the pin, TH_CRIT as fatal, and every domain into DARK (R258, R261). The fatal message
brings the safe state when the collector takes it (R376), or at once while a control reset holds the collector (R365). -/
def tripNow (s : State) (inst sensor : Nat) (r : Int) : State :=
  let h := s.therm
  let again := match h.tripAt with | some u => decide (s.time.run < u + 3600000000000) | none => false
  let s1 := setTherm s (fun h => { h with tripped := true, pinLow := true, tripAt := some s.time.run, coolAt := none, cands := [],
                                          noRestart := h.noRestart || again })
  let det := thDetail sensor r (bitAt again 0)
  foldDoms (raiseAtOnce s1 2 0x20 0x8 inst det) (fun s d =>
    let D := domOf s d
    if D.state == .absent || isOdd s d || (D.state == .dark && !D.en) then s else forceDark s d false)

/-- `TRIP_CONFIRM`: the confirming reading trips within 1 °C of TH_CRIT; otherwise the first reading counts as a failed
conversion, in a row with those before it and, unless a good reading has come since, those after it (R248, R257). -/
def execTripConfirm (x : Fin 320) (conv : Conv) (t : Nat) (s : State) : Host.Outcome State Fault Refusal :=
  let s := now t s
  if !s.therm.cands.contains x || s.therm.tripped then .next s
  else
    let s1 := setTherm s (fun h => { h with cands := h.cands.erase x })
    let r : Int := match conv with | .reading raw => internalReading s x raw | .error => -4096
    if (s.therm.act.crit : Int) - 16 ≤ r then .next (tripNow s1 (thInst (sensLeader s x)) x r)
    else
      let n := if r < -640 then 2 else 1
      let c := sensorAt s1 x
      let row := if c.valid && decide (c.rd < s.therm.act.crit) then 0 else c.fails + n
      let s2 := setTherm s1 (fun h => { h with sens := vupd h.sens x.val (fun c => { c with fails := row }) })
      .next (if 2 ≤ row ∨ 2 ≤ c.critFails + n then declareFailed s2 x 0 else s2)

/-- `DIE_SILENT`: TH_SENSOR as contained, and a trip as for TH_CRIT (R249). -/
def execDieSilent (d : Fin 5) (t : Nat) (s : State) : Host.Outcome State Fault Refusal :=
  let s := now t s
  if vget s.therm.dieOut d || s.time.run < vget s.therm.dieAt d + 1000000 then .next s
  else
    let s1 := setTherm s (fun h => { h with dieOut := vset h.dieOut d true })
    let s2 := raise s1 1 0x23 0x8 (0xF0 + d.val) (thDetail 0x1FF 0 2)
    .next (if s2.therm.tripped then s2 else tripNow s2 (0xF0 + d.val) 0x1FF 0)

/-! ### Thermal limits (R255) -/

/-- `thermal_limit` of R255, given `ceil_d` and the grant committed at the previous regrant. -/
def thermalLimit (s : State) (ceil d : Nat) : State :=
  let D := domOf s d
  let t := tileTemp s d
  let h := s.therm.act
  let set (x : Option Nat) : State := setDom s d (fun D => { D with arb := { D.arb with tl := x } })
  if (h.throt : Int) ≤ t ∨ s.time.run < D.riseHold then
    let base := D.arb.tl.getD D.arb.gLast
    set (some (Nat.max 16 (base - ceilDiv base 8)))
  else if (h.throt : Int) - h.hyst ≤ t then s
  else
    match D.arb.tl with
    | none => s
    | some x =>
      let y := x + ceilDiv x 16
      set (if ceil ≤ y then none else some y)

/-! ### Registers (R264) -/

/-- Whether the limits keep their order and ranges (R264). -/
def thOk (h : Thermal) : Bool :=
  let w := h.warn.toNat
  let th := h.throt.toNat
  let c := h.crit.toNat
  let r := h.restart.toNat
  decide (960 ≤ w ∧ w ≤ 2000 ∧ 1280 ≤ th ∧ th ≤ 2048 ∧ 0x6E0 ≤ c ∧ c ≤ 0x820 ∧ 640 ≤ r ∧ r ≤ 1920) &&
  decide (1 ≤ h.hold.toNat ∧ h.hold.toNat ≤ 600 ∧ 16 ≤ h.rise.toNat ∧ h.rise.toNat ≤ 480) &&
  decide (16 ≤ h.hyst.toNat ∧ h.hyst.toNat ≤ 160) &&
  decide (bandLo h.bands 1 < bandLo h.bands 2 ∧ bandLo h.bands 2 < bandLo h.bands 3 ∧ bandLo h.bands 3 < bandLo h.bands 4) &&
  decide (r + 32 ≤ w ∧ w ≤ th ∧ th + 32 ≤ c)

/-- A limit register with a value stored; none for an offset that holds no limit. -/
def storeLimit (h : Thermal) (off : Nat) (val : Word) : Option Thermal :=
  match off with
  | 0x1400 => some { h with warn := val.extractLsb' 0 12 }
  | 0x1404 => some { h with throt := val.extractLsb' 0 12 }
  | 0x1408 => some { h with crit := val.extractLsb' 0 12, critLock := bitOf val 31 }
  | 0x140C => some { h with restart := val.extractLsb' 0 12, hold := val.extractLsb' 16 10 }
  | 0x1410 => some { h with rise := val.extractLsb' 0 12 }
  | 0x1414 => some { h with bands := val }
  | 0x1418 => some { h with hyst := val.extractLsb' 0 8 }
  | _ => none

/-- Exclusion bits of sensors at ABSENT sites (R247). -/
def absentMask (s : State) : BitVec 320 :=
  (List.range 256).foldl (fun m x => if sensAbsent s x then m ||| BitVec.twoPow 320 x else m) 0

/-- A write of an exclusion register: bits of ABSENT sites stay 1. -/
def writeExcl (s : State) (off : Nat) (val : Word) : State :=
  let sh := 8 * (off - 0x1420)
  let hole : BitVec 320 := ~~~ ((BitVec.allOnes 32).setWidth 320 <<< sh)
  setTherm s (fun h => { h with excl := (h.excl &&& hole) ||| (val.setWidth 320 <<< sh) ||| absentMask s })

/-- A write of a thermal register: refused writes set CFG_REJ (R264). -/
def writeTherm (s : State) (off : Nat) (val : Word) : State :=
  if 0x1420 ≤ off ∧ off < 0x1448 then writeExcl s off val
  else if off = 0x1450 then setTherm s (fun h => { h with cfgRej := h.cfgRej && !bitOf val 30 })
  else
    match storeLimit s.therm off val with
    | none => s
    | some h =>
      if (off = 0x1408 ∧ s.therm.critLock) ∨ !thOk h then setTherm s (fun h => { h with cfgRej := true })
      else { s with therm := h }

/-- `TH_LIMIT_WRITE`. -/
def execThLimitWrite (off : BitVec 17) (val : Word) (t : Nat) (s : State) : Host.Outcome State Fault Refusal :=
  let s := ackWrite (now t s)
  if setupOpen s then .next (writeTherm s off.toNat val) else .next s

end Sys2Proof.Machine
end

