-- ==== Sys2Proof/Machine/Arbiter.lean ====
section
/-! DEFINITION. The power budget arbiter: measured power, regrants, levels, lending, inrush, frequency moves and lag (R121, R217–R238). -/

namespace Sys2Proof.Machine

/-- The arbiter part of a domain changed. -/
def setArb (s : State) (d : Nat) (f : Arb → Arb) : State := setDom s d (fun D => { D with arb := f D.arb })

/-- The chip-wide arbiter state changed. -/
def setArbChip (s : State) (f : ArbChip → ArbChip) : State := { s with arb := f s.arb }

/-- The leaders that are not ABSENT, in ascending logical number. -/
def leadersByLog (s : State) : List Nat := ((List.range 80).map (physOf s)).filter (fun d => !isAbsent s d && !isOdd s d)

/-! ### Measured power (R217, R218) -/

/-- p of R217 from a mean current and a code. -/
def powerOf (imean code : Nat) : Nat := imean * (640 + code) / 51200

/-- p_d of a leader in a record. -/
def powerIn (s : State) (r : Record) (d : Nat) : Nat :=
  let x := vget r.doms (logOf s d)
  if x.st = 0 ∨ x.st = 4 then 0 else powerOf x.imean.toNat x.code

/-- LK_d: the leakage of a leader, both members' for a pair, at its set-point code in force and its saturated domain maximum. -/
def leakOf (s : State) (d : Nat) : Nat :=
  match s.char with
  | none => 0
  | some c =>
    let D := domOf s d
    ((membersOf s d).map (fun x => Config.leakage (vget c.leak x) (codeInForce D) (clampInt (-2048) 2047 D.tempNew))).sum

/-- `unthrottled` of R218. -/
def unthrottled (p lk sum : Nat) : Nat := if p ≤ lk ∨ sum = 0 then p else lk + ceilDiv ((p - lk) * 128) (128 - sum)

/-- The demand of every leader from the record just latched; the largest of a period is kept, and the level sum begins anew. -/
def measure (s : State) (r : Record) : State :=
  (leadersByLog s).foldl (fun s d =>
    let u := unthrottled (powerIn s r d) (leakOf s d) (domOf s d).arb.lvlSum
    setArb s d (fun a => { a with u := u, uMax := Nat.max a.uMax u, lvlSum := 0 })) s

/-! ### Parameters and the floor sum (R219, R220) -/

/-- The budget parameters of a leader: a pair uses the even member's, and the pair defaults where none was set (Table 10-1). -/
def budOf (s : State) (d : Nat) : Budget :=
  let b := (cfgAt s d).bud
  if isEven s d then
    { b with floor := if b.set.getLsbD 0 then b.floor else 240, idle := if b.set.getLsbD 1 then b.idle else 64,
             ceil := if b.set.getLsbD 2 then b.ceil else 896 }
  else b

/-- Working cells of a leader by its committed cell map: isolations not yet committed still count. -/
def mapWorking (s : State) (d : Nat) : Nat :=
  ((membersOf s d).map (fun x => workingCells x (domOf s x) + (domOf s x).unc)).sum

/-- `ceil_d`: `BG_CEIL`, lowered by derating to floor(2.5 A × n × V_T / 62.5 mW) (R103, R222). -/
def ceilGrant (s : State) (d : Nat) : Nat :=
  let n := mapWorking s d
  let c := (budOf s d).ceil
  if ratingOf s d n = .derated then Nat.min c (n * (640 + (domOf s d).tgt) / 40) else c

/-- A domain counts in the floor sum: LIT, SHADE or HELD, a pair once. -/
def hasFloor (s : State) (d : Nat) : Bool :=
  let D := domOf s d
  !isOdd s d && (D.state == .lit || D.state == .shade || D.state == .held)

/-- The inrush grant reserved for a domain in soft start. -/
def inrushOf (s : State) (d : Nat) : Nat := let D := domOf s d; if inSoftStart D && !isOdd s d then D.arb.inrush else 0

/-- The floor sum of R219. -/
def floorSum (s : State) : Nat :=
  ((List.range 80).map (fun d => (if hasFloor s d then (budOf s d).floor else 0) + inrushOf s d)).sum

/-- The cap that a regrant uses and its commit brings into force: `CAP_CHIP` − INCORR, never below the floor sum (R220). -/
def capNew (s : State) : Nat := Nat.max (s.arb.capChip - s.arb.incorr) (floorSum s)

/-! ### Levels (R225) -/

/-- The smallest level that keeps a demand within a grant; 15 when none does. -/
def levelFor (lk u g : Nat) : Nat :=
  if u ≤ lk then 0
  else Nat.min 15 (leastUpTo (fun l => decide (lk + ceilDiv ((u - lk) * (16 - l)) 16 ≤ g)) 16 0)

/-- Whether levels act on a tile: always outside STEADY, otherwise as a safety action (R238, R256). -/
def levelsActOn (s : State) (d : Nat) : Bool := !modeOn s 0 || s.arb.stdyOver || (domOf s d).arb.tl.isSome

/-- The level of a LIT tile from a demand and a grant. -/
def levelOf (s : State) (d u g : Nat) : Nat := if levelsActOn s d then levelFor (leakOf s d) u g else 0

/-- A level reaches the tile's throttle outputs. -/
def setLevel (s : State) (d l : Nat) : State :=
  setDom s d (fun D => { D with arb := { D.arb with lvl := l } })

/-- T of R222: a LIT tile or pair, not HELD, not in soft start. -/
def inT (s : State) (d : Nat) : Bool :=
  let D := domOf s d
  isTile d && D.state == .lit && !D.held && !inSoftStart D && !isOdd s d

/-- Whether a domain has a normal grant: LIT or SHADE, not held, past its soft start. -/
def hasGrant (s : State) (d : Nat) : Bool :=
  let D := domOf s d
  !isOdd s d && (D.state == .lit || D.state == .shade) && !D.held && !inSoftStart D

/-- Whether a regrant sets a domain's grant: one with a normal grant, or in DARK, whose grant the regrant releases (R122, R222). -/
def takesGrant (s : State) (d : Nat) : Bool := hasGrant s d || (!isOdd s d && (domOf s d).state == .dark)

/-! ### The regrant (R222, R223) -/

/-- want_d of a leader, raised by a live hint that is near (R193, R222). -/
def wantOf (s : State) (d : Nat) : Nat :=
  let D := domOf s d
  let c := ceilGrant s d
  let w := Nat.min c (D.arb.uMax + D.arb.uMax / 8)
  let near := D.lant.hints.filter (fun h => decide (h.eta ≤ 40))
  if isTile d then near.foldl (fun w h => Nat.max w (Nat.min c ((budOf s d).ceil * h.inten / 255))) w else w

/-- One tile in a regrant: physical domain, class, floor, want and grant so far. -/
structure Claim where
  dom   : Nat
  cls   : Nat
  floor : Nat
  want  : Nat
  g     : Nat
deriving DecidableEq, Repr, Inhabited

/-- Single grains to the first claims of a class, in order, while any are left. -/
def spreadRest (cls : Nat) : Nat → List Claim → List Claim
  | _, [] => []
  | left, c :: cs =>
    if left ≠ 0 ∧ c.cls = cls ∧ c.floor < c.want then { c with g := c.g + 1 } :: spreadRest cls (left - 1) cs
    else c :: spreadRest cls left cs

/-- One class of the regrant: its wants met, or what is left shared in proportion. -/
def serveClass (acc : List Claim × Nat) (cls : Nat) : List Claim × Nat :=
  let inS (c : Claim) : Bool := c.cls == cls && decide (c.floor < c.want)
  let need := ((acc.1.filter inS).map (fun c => c.want - c.floor)).sum
  let avail := acc.2
  if need ≤ avail then (acc.1.map (fun c => if inS c then { c with g := c.want } else c), avail - need)
  else
    let part := acc.1.map (fun c => if inS c then { c with g := c.floor + avail * (c.want - c.floor) / need } else c)
    let given := ((part.filter inS).map (fun c => c.g - c.floor)).sum
    (spreadRest cls (avail - given) part, 0)

/-- The grants of the tiles of T, and whether their floors were breached. -/
def shareTiles (avail : Int) (l : List Claim) : List Claim × Bool :=
  let f : Nat := (l.map (fun c => c.floor)).sum
  if avail - f < 0 then
    let a := avail.toNat
    (l.map (fun c => { c with g := if f = 0 then 0 else c.floor * a / f }), true)
  else
    ((([0, 1, 2, 3] : List Nat).foldl serveClass (l.map (fun c => { c with g := c.floor }), (avail - f).toNat)).1, false)

/-- The wants of a regrant: those of a waiting tile are those before it waited (R222, R230). -/
def setWants (s : State) : State :=
  (leadersByLog s).foldl (fun s d =>
    let w := wantOf s d
    setArb s d (fun a =>
      if inT s d && a.lender then { a with want := a.wantPre }
      else { a with want := w, wantPre := w, uPre := a.uMax })) s

/-- The grant of a domain that is not throttled: its want between floor and ceiling. -/
def plainGrant (s : State) (d : Nat) : Nat := Nat.min (Nat.max (domOf s d).arb.want (budOf s d).floor) (ceilGrant s d)

/-- The frequency move that the arbiter makes of its own, with the counts of R226. -/
def moveFreq (s : State) (d l g : Nat) : State × Option Nat :=
  if modeOn s 0 || modeOn s 2 then (setArb s d (fun a => { a with hiRun := 0, loRun := 0 }), none)
  else
    let a := (domOf s d).arb
    let c := cfgAt s d
    let hi := if 4 ≤ l then a.hiRun + 1 else 0
    let lo := if l = 0 ∧ a.want ≤ g then a.loRun + 1 else 0
    let code :=
      if 10 ≤ hi then Nat.min c.freq (Nat.max (fc0Of s d) (c.freq - 4))
      else if 10 ≤ lo then Nat.max c.freq (Nat.min (c.freq + 4) (Nat.min c.dfreq (ceilOf s d)))
      else c.freq
    if code ≠ c.freq then (setArb s d (fun a => { a with hiRun := 0, loRun := 0 }), some code)
    else (setArb s d (fun a => { a with hiRun := hi, loRun := lo }), none)

/-- The measured power of a record in STEADY against the cap in force (R238). -/
def steadyCheck (s : State) (power : Nat) : State :=
  let above := modeOn s 0 && decide (s.arb.cap < power)
  let s1 := setArbChip s (fun a => { a with stdyOver := above })
  if above then raise s1 1 0x03 0x5 0 (satNat 16 power * 0x10000 + satNat 16 s.arb.cap) else s1

/-- Thermal limits of the LIT tiles, evaluated before `regrant` (R255). -/
def thermalLimits (s : State) : State :=
  (leadersByLog s).foldl (fun s d => if limitable s d then thermalLimit s (ceilGrant s d) d else s) s

/-- `regrant` of R222: the grants that the next shutter commits. -/
def regrant (s : State) : State :=
  let ls := leadersByLog s
  let ts := ls.filter (inT s)
  let others := ls.filter (fun d => hasGrant s d && !inT s d)
  let held := ls.filter (fun d => (domOf s d).state == .held || (domOf s d).held)
  let used := (ls.map (inrushOf s)).sum + (held.map (fun d => (domOf s d).arb.g)).sum + (others.map (plainGrant s)).sum
  let claims := ts.map (fun d => (⟨d, (budOf s d).cls, (budOf s d).floor, (domOf s d).arb.want, 0⟩ : Claim))
  let sh := shareTiles ((capNew s : Int) - used) claims
  let final := sh.1.map (fun c => match (domOf s c.dom).arb.tl with
    | some x => if sh.2 then c else { c with g := Nat.min c.g x }
    | none => c)
  let mk (d g : Nat) (f : Option Nat) (b : Bool) : Grant := { dom := Fin.ofNat 80 d, g := g, fceil := ceilOf s d, freq := f, breach := b }
  let r := final.foldl (fun (acc : State × List Grant) c =>
    let m := moveFreq acc.1 c.dom (levelOf acc.1 c.dom (domOf acc.1 c.dom).arb.uMax c.g) c.g
    (m.1, acc.2 ++ [mk c.dom c.g m.2 sh.2])) (s, [])
  let idle := (ls.filter (fun d => isTile d && !inT s d)).foldl (fun s d => setArb s d (fun a => { a with hiRun := 0, loRun := 0 })) r.1
  let dark := ls.filter (fun d => (domOf s d).state == .dark)
  setArbChip idle (fun a =>
    { a with pend := some (r.2 ++ others.map (fun d => mk d (plainGrant s d) none false) ++ dark.map (fun d => mk d 0 none false)) })

/-- `REGRANT`: trims, thermal limits, the cap check of STEADY, and every grant, from the record just latched, unless a control reset holds the
arbiter (R22, R130, R222, R238, R255). -/
def execRegrant (p : Nat) (s : State) : Host.Outcome State Fault Refusal :=
  let s := now (10000 * p) s
  match if s.clk.crstBusy then [] else s.records with
  | [] => .next s
  | r :: _ =>
    let s1 := steadyCheck (virTrims s r) r.power
    let s2 := regrant (setWants (thermalLimits s1))
    .next (setDoms s2 (fun _ D => { D with arb := { D.arb with uMax := 0 } }))

/-! ### The commit of a regrant (R22, R226, R227, R233) -/

/-- A tile's committed code is brought to its ceiling; in ALIGN it is min(F_job, ceiling) (R227, R233). -/
def ceilingMove (s : State) (d : Nat) : State :=
  let c := cfgAt s d
  let top := (domOf s d).arb.fceil
  if !isTile d || isOdd s d || isAbsent s d then s
  else if top < c.freq then commitFreq s d top (s.time.gtc + 1000) false
  else if modeOn s 2 && !modeOn s 0 && Nat.min c.fjob top != c.freq then
    commitFreq s d (Nat.min c.fjob top) (s.time.gtc + 1000) false
  else s

/-- A tile's ceiling, set where its G changes (R227). -/
def ceilingAt (s : State) (d : Nat) : State := if isTile d then setArb s d (fun a => { a with fceil := ceilOf s d }) else s

/-- Every tile's ceiling, set at a regrant and at a shutter at which G changes (R227). -/
def setCeilings (s : State) : State :=
  (List.range 64).foldl (fun s d => if isAbsent s d || isOdd s d then s else setArb s d (fun a => { a with fceil := ceilOf s d })) s

/-- One grant committed; a domain that has entered HELD or a soft start takes none. A frequency move of R226 is not made where ALIGN or STEADY
comes into force with it (R233, R238). -/
def commitGrant (s : State) (x : Grant) : State :=
  let d := x.dom.val
  if !takesGrant s d then s
  else
    let s1 := setArb s d (fun a => { a with g := x.g, gLast := x.g, gForce := x.g, inrush := 0, inrushTook := 0, breach := x.breach, fceil := x.fceil })
    match x.freq with
    | some f => if isTile d && hasGrant s d && !modeOn s 0 && !modeOn s 2 then commitFreq s1 d f (s.time.gtc + 1000) false else s1
    | none => s1

/-- The arbiter's commit at 10,000p + 2,000. -/
def commitRegrant (s : State) : State :=
  match s.arb.pend with
  | none => s
  | some l =>
    if s.time.gtc % 10000 ≠ 2000 then setArbChip s (fun a => { a with pend := none })
    else
      let s1 := setArbChip s (fun a => { a with pend := none, cap := capNew s })
      let s2 := setCeilings (l.foldl commitGrant s1)
      let s3 := (List.range 64).foldl ceilingMove s2
      (List.range 64).foldl freqRetry s3

/-! ### Inrush (R121, R232) -/

/-- Grants in force, summed. -/
def grantsInForce (s : State) : Nat := ((leadersByLog s).map (fun d => (domOf s d).arb.gForce)).sum

/-- Loans, summed. -/
def loanSum (s : State) : Nat := (s.arb.loans.map (fun x => x.grains)).sum

/-- Loans cancelled from the last assigned back, until a need is met; the answer is what they gave. -/
def cancelLoans : Nat → Nat → State → State × Nat
  | 0, _, s => (s, 0)
  | fuel + 1, need, s =>
    match s.arb.loans.reverse with
    | [] => (s, 0)
    | x :: rest =>
      if need = 0 then (s, 0)
      else
        let s1 := setArb (setArbChip s (fun a => { a with loans := rest.reverse })) x.borrower
          (fun a => { a with gForce := a.gForce - x.grains })
        let r := cancelLoans fuel (need - x.grains) s1
        (r.1, x.grains + r.2)

/-- Grants of LIT and SHADE domains lowered in ascending class and logical number, none below its floor, until a need is met (R121). -/
def cutGrants (need : Nat) (s : State) : State :=
  let order := ([0, 1, 2, 3] : List Nat).flatMap (fun c => (leadersByLog s).filter (fun d => hasGrant s d && (budOf s d).cls == c))
  (order.foldl (fun (acc : State × Nat) d =>
    let a := (domOf acc.1 d).arb
    let cut := Nat.min acc.2 (a.gForce - (budOf acc.1 d).floor)
    (setArb acc.1 d (fun a => { a with gForce := a.gForce - cut, g := Nat.min a.g (a.gForce - cut) }), acc.2 - cut)) (s, need)).1

/-- The characterised start-up power of a leader in grains, both members' for a pair. -/
def inrushChar (s : State) (d : Nat) : Nat :=
  match s.char with
  | some c => ((membersOf s d).map (fun x => vget c.inrush x)).sum
  | none => 0

/-- The inrush grant of a domain is reserved in its commit: from the unlent pool, from the free part of the cap, from loans, then from grants;
what pool and loans give stays withheld from lending (R121, R232). -/
def reserveInrush (s : State) (d : Nat) : State :=
  let need := inrushChar s d
  let s := setArb s d (fun a => { a with gForce := 0 })
  let unlent := s.arb.pool - loanSum s
  let t1 := Nat.min need unlent
  let free := s.arb.cap - (grantsInForce s + unlent)
  let rest := need - t1 - free
  let c := cancelLoans s.arb.loans.length rest s
  let took := t1 + Nat.min rest c.2
  let s1 := setArbChip c.1 (fun a => { a with pool := a.pool - took })
  let s2 := cutGrants (rest - c.2) s1
  setLevel (setArb s2 d (fun a => { a with inrush := need, inrushTook := took, g := need, gForce := need, lender := false })) d 0

/-! ### The fast path (R228–R230) -/

/-- The own grant of a domain for the next epoch: the regrant's less `THR_REQ`, not below the floor (R228). -/
def ownGrant (s : State) (d : Nat) : State :=
  if !takesGrant s d then setArb s d (fun a => { a with fastTHR := 0 })
  else
    let f := (budOf s d).floor
    setArb s d (fun a => { a with gForce := if a.fastTHR = 0 then a.g else Nat.max (Nat.min a.g f) (a.g - a.fastTHR), fastTHR := 0 })

/-- Whether lending takes place (R229). -/
def lendingOn (s : State) : Bool := modeOn s 3 && !modeOn s 0

/-- Whether a tile lends: its WAIT has qualified and is 1 (R230 step 1). -/
def lends (s : State) (d : Nat) : Bool :=
  let b := (cfgAt s d).bud
  lendingOn s && inT s d && b.lend == 1 && waiting s d && decide (b.lendQual ≤ (domOf s d).arb.waitRun)

/-- A lender's grant in force becomes `BG_IDLE` and the rest is its offer. -/
def offerOf (s : State) (d : Nat) : State :=
  if lends s d then
    let i := (budOf s d).idle
    setArb s d (fun a => { a with lender := true, offer := a.gForce - i, gForce := i })
  else setArb s d (fun a => { a with lender := false, offer := 0 })

/-- The deficit of a borrower, 0 for a domain that does not borrow (R230 step 2). -/
def deficitOf (s : State) (d : Nat) : Nat :=
  let a := (domOf s d).arb
  let b := (cfgAt s d).bud
  if !lendingOn s || !inT s d || a.lender || b.borrow != 1 || levelFor (leakOf s d) a.u a.gForce == 0 then 0
  else
    let x := Nat.min (a.u - a.gForce) (Nat.min b.loanMax (ceilGrant s d - a.gForce))
    match a.tl with
    | some y => Nat.min x (y - a.gForce)
    | none => x

/-- One borrower's deficit filled from the lenders' remaining offers, in order; `room` is what is left of the pool. -/
def fillOne (borrower : Nat) : Nat → Nat → List (Nat × Nat) → List Loan × Nat × List (Nat × Nat)
  | _, room, [] => ([], room, [])
  | need, room, (l, o) :: rest =>
    let x := Nat.min need (Nat.min o room)
    if need = 0 ∨ room = 0 then ([], room, (l, o) :: rest)
    else if x = 0 then fillOne borrower need room rest
    else
      let loan : Loan := { lender := Fin.ofNat 80 l, borrower := Fin.ofNat 80 borrower, grains := x }
      if x = o then
        let r := fillOne borrower (need - x) (room - x) rest
        (loan :: r.1, r.2.1, r.2.2)
      else ([loan], room - x, (l, o - x) :: rest)

/-- The loans of a fast path (R230 step 3). -/
def assignLoans (borrowers : List (Nat × Nat)) (room : Nat) (offers : List (Nat × Nat)) : List Loan :=
  (borrowers.foldl (fun (acc : List Loan × Nat × List (Nat × Nat)) b =>
    let r := fillOne b.1 b.2 acc.2.1 acc.2.2
    (acc.1 ++ r.1, r.2.1, r.2.2)) ([], room, offers)).1

/-- The level of every LIT tile that is not HELD; 0 beneath `UVSTOP` in the other states; HELD keeps its own (R225). -/
def fastLevel (s : State) (d : Nat) : State :=
  let D := domOf s d
  if D.state == .held || D.held then s
  else setLevel (setArb s d (fun a => { a with uLvl := a.u })) d (if inT s d then levelOf s d D.arb.u D.arb.gForce else 0)

/-- The fast path of a shutter: own grants, lenders, loans and levels, from scratch. -/
def fastPath (s : State) : State :=
  let ls := leadersByLog s
  let s1 := (ls.foldl ownGrant s)
  let s2 := ls.foldl offerOf s1
  let withheld := (ls.map (fun d => if inSoftStart (domOf s2 d) then (domOf s2 d).arb.inrushTook else 0)).sum
  let offers := (ls.filter (fun d => (domOf s2 d).arb.lender)).map (fun d => (d, (domOf s2 d).arb.offer))
  let pool := (offers.map (fun x => x.2)).sum - withheld
  let defs := (ls.map (fun d => (d, deficitOf s2 d))).filter (fun x => x.2 != 0)
  let order := ([0, 1, 2, 3] : List Nat).flatMap (fun c => defs.filter (fun x => (budOf s2 x.1).cls == c))
  let loans := assignLoans order pool offers
  let s3 := setArbChip s2 (fun a => { a with loans := loans, pool := pool, withheld := withheld })
  let s4 := loans.foldl (fun s x => setArb s x.borrower (fun a => { a with gForce := a.gForce + x.grains })) s3
  (ls.filter isTile).foldl fastLevel s4

/-! ### WAIT, WAKE and the reclaim (R230–R232) -/

/-- `TILE_WAIT`: the synchronised WAIT of a site rises. -/
def execTileWait (s_ : Site) (t : Nat) (s : State) : Host.Outcome State Fault Refusal :=
  let s := now t s
  if isAbsent s s_ then .next s else .next (setTile s s_ (fun x => { x with wait := true }))

/-- `TILE_WAKE`: the synchronised WAIT of a site falls; a waiting tile or pair wakes, which
aborts parking too (R99). A WAKE whose reclaim is still to come keeps its time (R231). -/
def execTileWake (s_ : Site) (t : Nat) (s : State) : Host.Outcome State Fault Refusal :=
  let s := now t s
  let d := leader s s_
  if isAbsent s s_ then .next s
  else
    let was := waiting s d
    let s1 := setTile s s_ (fun x => { x with wait := false })
    .next (if was then
      setDom s1 d (fun D => { D with arb := { D.arb with waitRun := 0, wakeAt := some (D.arb.wakeAt.getD s.time.gtc), woke := D.arb.lender || D.arb.woke },
                                     park := { D.park with abort := true } })
      else s1)

/-- The loans that name a domain are cancelled; the other side's borrowers take the level of what they keep. -/
def cancelFor (s : State) (p : Loan → Bool) : State :=
  let gone := s.arb.loans.filter p
  let s1 := setArbChip s (fun a => { a with loans := a.loans.filter (fun x => !p x) })
  let s2 := gone.foldl (fun s x => setArb s x.borrower (fun a => { a with gForce := a.gForce - x.grains })) s1
  gone.foldl (fun s x =>
    let a := (domOf s x.borrower).arb
    if inT s x.borrower then setLevel (setArb s x.borrower (fun a => { a with uLvl := a.u })) x.borrower (levelOf s x.borrower a.u a.gForce) else s) s2

/-- A lender offers nothing any more: its grant returns to that of the last regrant, and its offer leaves the pool (R231, R232). -/
def endOffer (s : State) (d : Nat) : State :=
  let o := (domOf s d).arb.offer
  setArb (setArbChip s (fun a => { a with pool := a.pool - o })) d (fun a => { a with lender := false, offer := 0, gForce := a.g })

/-- A lender has its grant back: the reclaim of R231. -/
def reclaim (s : State) (d : Nat) : State :=
  let s2 := endOffer (cancelFor s (fun x => x.lender.val == d)) d
  let s3 := setArb s2 d (fun a => { a with uLvl := a.uPre })
  if inT s2 d then setLevel s3 d (levelOf s3 d (domOf s3 d).arb.uPre (domOf s3 d).arb.g) else s3

/-- The arbiter's part of a frame start: the reclaim of a lender's WAKE at least 25 ns old, also where the shutter between has already formed
its loans anew without it (R231), and the loans of a domain that has entered HELD (R232). -/
def arbFrame (s : State) (d : Nat) : State :=
  let D := domOf s d
  let s1 := if D.state == .held || D.held then
      let s0 := cancelFor s (fun x => x.lender.val == d || x.borrower.val == d)
      if D.arb.lender then endOffer s0 d else s0
    else s
  match D.arb.wakeAt with
  | some w =>
    if w + 25 ≤ s.time.gtc then
      let s2 := setArb s1 d (fun a => { a with wakeAt := none, woke := false })
      if D.arb.woke then reclaim s2 d else s2
    else s1
  | none => s1

/-- The levels of a frame enter the sum of R218, and the frame start counts towards `LEND_QUAL`. -/
def arbCount (s : State) (d : Nat) : State :=
  let w := waiting s d
  setArb s d (fun a => { a with lvlSum := a.lvlSum + a.lvl, waitRun := if w then a.waitRun + 1 else 0 })

/-! ### Lag (R235–R237) -/

/-- Whether the cap in force throttles a tile: the regrant gave it less than its want, not for its thermal limit, and that grant alone asks for a
level from the demand that the level in force was set from; a level from `THR_REQ`, `BG_CEIL`, derating or lending is no such cause (R235, Table
10-5). -/
def byCap (s : State) (d : Nat) : Bool :=
  let a := (domOf s d).arb
  a.lvl != 0 && decide (a.g < a.want) && a.tl != some a.g && !a.lender && levelOf s d a.uLvl a.g != 0

/-- The causes of Table 10-5 in force at a tile or pair. -/
def lagCauses (s : State) (d : Nat) : BitVec 8 :=
  let D := domOf s d
  let a := D.arb
  let ch := D.tile.change
  let has (f : FreqChange → Bool) : Bool := match ch with | some c => f c | none => false
  let lit := D.state == .lit && !D.held && !inSoftStart D
  if !modeOn s 2 || !isTile d || isOdd s d || !(D.state == .lit || D.state == .held) then 0
  else
    BitVec.ofNat 8 (bitAt (lit && byCap s d) 0 +
      bitAt (lit && (match a.tl with | some x => decide (x < a.want) | none => false)) 1 +
      bitAt (lit && a.derate) 2 + bitAt (lit && decide (a.fceil < (cfgAt s d).fjob)) 3 +
      bitAt (has (fun c => c.deferred) || D.tile.withdrawn.isSome) 4 + bitAt (has (fun c => c.held)) 5 +
      bitAt (has (fun c => c.uvAt)) 6 + bitAt (lit && a.breach) 7)

/-- A frame of lag accounting (R235, R236). -/
def lagFrame (s : State) (d : Nat) : State :=
  let c := lagCauses s d
  let lag := c != 0
  let g := s.time.gtc
  setArb s d (fun a => { a with
    lagNow := c, lagOnset := if lag && !a.lagEp && !a.lagPrev then g else a.lagOnset,
    resid := if lag && !a.lagEp && !a.lagPrev then (if a.lvl = 0 then 0 else 1)
             else if a.lvl = 0 then a.resid else Nat.min (a.resid + 1) 0xFFFFFFFF,
    lagEp := a.lagEp || lag, lagHist := (lag :: a.lagHist).take 400, lvlHist := (a.lvl :: a.lvlHist).take 400 })

/-- Lagging frames of a tile in the last 400. -/
def lagCount (s : State) (d : Nat) : Nat := ((domOf s d).arb.lagHist.filter id).length

/-- Whether a proposed code keeps a lagging tile within its grant, exactly, also where U is below LK (R177, R237). -/
def propOk (s : State) (f d : Nat) : Bool :=
  let D := domOf s d
  let fj := (cfgAt s d).fjob
  let v (x : Nat) : Nat := vfOf s d x + guardBand s d
  let lk := leakOf s d
  let num : Int := ((D.arb.u : Int) - lk) * ((64 + f) * (640 + v f) ^ 2 : Nat)
  let den : Int := ((64 + fj) * (640 + v fj) ^ 2 : Nat)
  decide ((lk : Int) + -((-num) / den) ≤ D.arb.gForce)

/-- The proposed F_job (R237). -/
def propose (s : State) (tiles : List Nat) (causes : BitVec 8) (worst : Nat) : Nat :=
  let top := (cfgAt s worst).fjob
  let low := fc0Of s worst
  if causes &&& 0x7C ≠ 0 then top
  else
    match ((List.range (top + 1)).filter (fun f => decide (low ≤ f))).reverse.find? (fun f => tiles.all (propOk s f)) with
    | some f => f
    | none => low

/-- The tile that a notice names: most lagging frames, lowest logical number among equals. -/
def worstOf (s : State) (tiles : List Nat) : Nat :=
  match tiles.foldl (fun b d => match b with
    | some e => if lagCount s e < lagCount s d then some d else b
    | none => some d) (none : Option Nat) with
  | some d => d
  | none => 0

/-- A LAG_NOTICE (Table 10-6) over the lagging tiles of a port, in ascending logical number. -/
def lagNotice (s : State) (tiles : List Nat) : Event :=
  let w := worstOf s tiles
  let causes := tiles.foldl (fun c d => c ||| lagCauses s d) 0
  let onset := tiles.foldl (fun m d => Nat.min m (domOf s d).arb.lagOnset) (domOf s w).arb.lagOnset
  let a := (domOf s w).arb
  { typ := 0x02, dom := BitVec.ofNat 8 (logOf s w), cls := 0, epoch := epochIn s,
    pay := leBytes 8 onset ++ leBytes 1 tiles.length ++ leBytes 1 (logOf s w) ++ leBytes 1 causes.toNat ++
      leBytes 1 (cfgAt s w).fjob ++ leBytes 1 (propose s tiles causes w) ++ [0] ++ leBytes 2 (lagCount s w) ++
      leBytes 4 a.resid ++ leBytes 4 (a.lvlHist.sum * 256 / 400) }

/-- The end notice of R236. -/
def lagEnd (s : State) : Event :=
  { typ := 0x02, dom := 0xFE, cls := 0, epoch := epochIn s, pay := zeros 9 ++ [0xFE] ++ zeros 14 }

/-- The notices of a shutter (R236), and the epoch's lag becomes that of the epoch before. -/
def lagShutter (s : State) : State :=
  let ls := (leadersByLog s).filter isTile
  let ended := ls.filter (fun d => (domOf s d).arb.lagEp)
  let before := ls.filter (fun d => (domOf s d).arb.lagPrev)
  let fresh := ended.any (fun d => !(domOf s d).arb.lagPrev)
  let due := fresh || (!ended.isEmpty && s.time.gtc % 100000 == 0)
  let mine (p : Nat) (l : List Nat) : List Nat := l.filter (fun d => (portOf s p).rightsD.getLsbD (logOf s d))
  let s1 := (List.range 8).foldl (fun s p =>
    if ended.isEmpty then (if !(mine p before).isEmpty then postEvent s p (lagEnd s) else s)
    else if due && !(mine p ended).isEmpty then postEvent s p (lagNotice s (mine p ended))
    else s) s
  setDoms s1 (fun _ D => { D with arb := { D.arb with lagPrev := D.arb.lagEp, lagEp := false } })

end Sys2Proof.Machine
end

