-- ==== Sys2Proof/Machine/Cle.lean ====
section
/-! DEFINITION. The CLE instructions (Table 07-7): what each does to a lane, and the lockstep comparison of the pair. -/

namespace Sys2Proof.Machine

/-- What an instruction reads besides its lane: the bound program's constants, the domain's committed state words and
the latched input ports. -/
structure ClEnv where
  consts : List Word
  words  : Mem 32
  inputs : Vector Word 13
deriving DecidableEq, Repr, Inhabited

/-- What an executed instruction writes: a register, a buffered state word, an output port, a skip count, a
repetition, the end of the section. The lockstep comparator sees all of it (R168). -/
structure ClEff where
  reg   : Option (Reg × Word)
  sw    : Option (Nat × Word)
  out   : Option (Nat × Word)
  skip  : Nat
  rep   : Option RepSt
  ended : Bool
deriving DecidableEq, Repr, Inhabited

/-- An instruction that writes nothing. -/
def effNone : ClEff := { reg := none, sw := none, out := none, skip := 0, rep := none, ended := false }

/-- An instruction that writes a register. -/
def effReg (d : Reg) (v : Word) : ClEff := { effNone with reg := some (d, v) }

/-- A general register of a lane, at the start of the instruction. -/
def gr (l : LaneCtx) (r : Reg) : Word := vget l.g r.toNat

/-- A general register as a signed number. -/
def gi (l : LaneCtx) (r : Reg) : Int := (gr l r).toInt

/-- A state word as a slot reads it: the newest buffered value, else the committed word (R154). -/
def readSw (e : ClEnv) (l : LaneCtx) (i : Nat) : Word :=
  match l.buf.find? (fun x => x.1 == i) with
  | some x => x.2
  | none => e.words.read i

/-- The instruction pointer after the word at it: back to the start of a REP body with iterations left, else onward (R161). -/
def advance (l : LaneCtx) : LaneCtx :=
  match l.rep with
  | none => { l with ip := l.ip + 1 }
  | some r =>
    if l.ip + 1 = r.start + r.len then
      if r.left = 0 then { l with ip := l.ip + 1, rep := none }
      else { l with ip := r.start, rep := some { r with left := r.left - 1 } }
    else { l with ip := l.ip + 1 }

/-- A lane after an executed instruction. -/
def applyEff (l : LaneCtx) (e : ClEff) : LaneCtx :=
  let l1 := advance l
  { l1 with
    g := (match e.reg with | some (d, v) => vset l1.g d.toNat v | none => l1.g),
    buf := (match e.sw with | some x => x :: l1.buf | none => l1.buf),
    outs := (match e.out with | some (p, v) => vset l1.outs p (some v) | none => l1.outs),
    skip := e.skip,
    rep := (match e.rep with | some r => some r | none => l1.rep),
    ended := e.ended }

/-- One word met by one lane: nothing after END, nothing but the pointer for a skipped word, else the instruction
(R161). The answer holds what was executed. -/
def laneWord (f : ClEnv → LaneCtx → ClEff) (env : ClEnv) (l : LaneCtx) : LaneCtx × Option ClEff :=
  if l.ended then (l, none)
  else if l.skip ≠ 0 then ({ advance l with skip := l.skip - 1 }, none)
  else
    let e := f env l
    (applyEff l e, some e)

/-- What a slot reads in the slot in progress. -/
def envOf (s : State) : ClEnv :=
  { consts := constsOf s s.slot.dom, words := (domOf s s.slot.dom).sw, inputs := s.slot.inputs }

/-- Physical number of the spare that may take a position: a lane that serves none, is not retired and whose last
self-test passed (R150, R169). -/
def spareLane (s : State) : Option Nat :=
  (List.range 17).find? (fun l => !(s.laneOf.toList.any (fun x => x.map (fun y => y.val) == some l)) &&
    !(vget s.lanes l).retired && (vget s.lanes l).passed)

/-- CLE fault detail (Table 07-13). -/
def cleDetail (cause dom slot pos cnt sect cyc : Nat) : Nat :=
  cause * 0x10000000 + dom * 0x100000 + slot * 0x20000 + pos * 0x1000 + cnt * 0x400 + sect * 0x40 + cyc

/-- Whether a mismatch was detected before another: an earlier cycle of the frame, or the same cycle at a lower
position (R169). -/
def mismBefore (a b : Mismatch) : Bool :=
  decide (40 * a.slot + a.cycle < 40 * b.slot + b.cycle) ||
  (40 * a.slot + a.cycle == 40 * b.slot + b.cycle && decide (a.pos < b.pos))

/-- The mismatch of a frame whose position the spare takes (R169). -/
def firstMism (ms : List Mismatch) : Option Mismatch :=
  ms.foldl (fun best m => match best with
    | none => some m
    | some b => if mismBefore m b then some m else some b) none

/-- A message of the queue with its class changed to contained. -/
def asContained (m : FaultMsg) : FaultMsg :=
  let b : DWord := (1#2 ++ (m.bits.extractLsb' 2 60) ++ 0#2 : BitVec 64)
  { m with bits := b ||| parityOf b }

/-- The two lanes disagree (R168): the slot does not commit, the lane is retired, and LOCKSTEP is raised, corrected
when the spare takes this position under R169 and contained otherwise. A mismatch of the same frame that the spare
would have taken until now becomes contained. -/
def mismatchFound (s : State) (cyc : Nat) : State :=
  let c := s.slot
  let D := domOf s c.dom
  let laneNo := match vget s.laneOf c.pos with | some l => l.val | none => 0
  let old := s.mism.filter (fun m => m.frame == c.frame)
  let det := cleDetail 2 c.dom c.slot c.pos D.overruns c.section_ cyc
  let m0 : Mismatch :=
    { frame := c.frame, slot := c.slot, cycle := cyc, pos := c.pos, msg := 0 }
  let best := firstMism old
  let first := match best with | none => true | some b => mismBefore m0 b
  let wins := (spareLane s).isSome && first
  let s0 : State := match best with
    | some b =>
      if wins then
        let qs := s.safety.queue.map (fun q => if q.bits = b.msg then asContained q else q)
        { s with safety := { s.safety with queue := qs } }
      else s
    | none => s
  let cls := if wins then 0 else 1
  let m : Mismatch := { m0 with msg := faultWord cls 0x11 0x2 laneNo det (epochIn s) }
  let s1 := raise s0 cls 0x11 0x2 laneNo det
  { s1 with slot := { s1.slot with mismatch := some cyc }, mism := m :: old,
            lanes := vupd s1.lanes laneNo (fun l => { l with retired := true }) }

/-- One word met by both lanes of the slot in progress, and the comparison after it (R168). Nothing runs after a
mismatch or beyond the program's cycles (Table 07-2). -/
def cleWordStep (f : ClEnv → LaneCtx → ClEff) (s : State) : State :=
  let c := s.slot
  if c.mismatch.isSome || decide (37 < c.cycle) then s
  else
    let env := envOf s
    let a := laneWord f env c.a
    let b := laneWord f env c.b
    let ran := a.2.isSome || b.2.isSome
    let s1 : State := { s with slot := { c with a := a.1, b := b.1, cycle := if ran then c.cycle + 1 else c.cycle } }
    if ran && (a.2 != b.2 || a.1.ip != b.1.ip) then mismatchFound s1 c.cycle else s1

/-- A CLE instruction as a command: it runs in the slot in progress. -/
def cleExec (f : ClEnv → LaneCtx → ClEff) (s : State) : Host.Outcome State Fault Refusal := .next (cleWordStep f s)

/-! ### The instructions -/

/-- NOP: none. -/
def effNop (_ : ClEnv) (_ : LaneCtx) : ClEff := effNone
/-- END: ends the section. -/
def effEnd (_ : ClEnv) (_ : LaneCtx) : ClEff := { effNone with ended := true }
/-- REP: the next m instructions run k times. -/
def effRep (m1 : BitVec 4) (k1 : BitVec 6) (_ : ClEnv) (l : LaneCtx) : ClEff :=
  { effNone with rep := some { start := l.ip + 1, len := m1.toNat + 1, left := k1.toNat } }
/-- SKIPIF: if cond(ga, gb), the next n instructions are not executed. -/
def effSkipif (a b : Reg) (cond n : BitVec 3) (_ : ClEnv) (l : LaneCtx) : ClEff :=
  { effNone with skip := if condHolds cond (gi l a) (gi l b) then n.toNat else 0 }
/-- SEL: gd := ga if cond(gc, 0), else gb. -/
def effSel (d a b : Reg) (cond : BitVec 3) (c : Reg) (_ : ClEnv) (l : LaneCtx) : ClEff :=
  effReg d (if condHolds cond (gi l c) 0 then gr l a else gr l b)
/-- LDI: gd := sext(imm). -/
def effLdi (d : Reg) (imm : BitVec 14) (_ : ClEnv) (_ : LaneCtx) : ClEff := effReg d (BitVec.ofInt 32 (sext14 imm))
/-- LDIQ: gd := sext(imm) << 16. -/
def effLdiq (d : Reg) (imm : BitVec 14) (_ : ClEnv) (_ : LaneCtx) : ClEff :=
  effReg d (BitVec.ofInt 32 (sext14 imm * 65536))
/-- LDC: gd := constant imm of the bound program. -/
def effLdc (d : Reg) (idx : BitVec 8) (e : ClEnv) (_ : LaneCtx) : ClEff := effReg d (e.consts.getD idx.toNat 0)
/-- MOV: gd := ga. -/
def effMov (d a : Reg) (_ : ClEnv) (l : LaneCtx) : ClEff := effReg d (gr l a)
/-- LDS: gd := s[imm]. -/
def effLds (d : Reg) (idx : BitVec 6) (e : ClEnv) (l : LaneCtx) : ClEff := effReg d (readSw e l idx.toNat)
/-- STS: s[imm] := ga. -/
def effSts (a : Reg) (idx : BitVec 6) (_ : ClEnv) (l : LaneCtx) : ClEff := { effNone with sw := some (idx.toNat, gr l a) }
/-- LDSX: gd := s[(imm + (gb >> 16)) mod 64]. -/
def effLdsx (d b : Reg) (idx : BitVec 6) (e : ClEnv) (l : LaneCtx) : ClEff := effReg d (readSw e l (idxSum idx (gr l b)))
/-- STSX: s[(imm + (gb >> 16)) mod 64] := ga. -/
def effStsx (a b : Reg) (idx : BitVec 6) (_ : ClEnv) (l : LaneCtx) : ClEff :=
  { effNone with sw := some (idxSum idx (gr l b), gr l a) }
/-- IN: gd := input port imm. -/
def effIn (d : Reg) (port : BitVec 4) (e : ClEnv) (_ : LaneCtx) : ClEff := effReg d (vget e.inputs port.toNat)
/-- OUT: output port imm := ga. -/
def effOut (a : Reg) (port : BitVec 4) (_ : ClEnv) (l : LaneCtx) : ClEff := { effNone with out := some (port.toNat, gr l a) }
/-- ADD: gd := sat32(ga + gb). -/
def effAdd (d a b : Reg) (_ : ClEnv) (l : LaneCtx) : ClEff := effReg d (q32 (gi l a + gi l b))
/-- SUB: gd := sat32(ga − gb). -/
def effSub (d a b : Reg) (_ : ClEnv) (l : LaneCtx) : ClEff := effReg d (q32 (gi l a - gi l b))
/-- ADDI: gd := sat32(ga + sext(imm)). -/
def effAddi (d a : Reg) (imm : BitVec 14) (_ : ClEnv) (l : LaneCtx) : ClEff := effReg d (q32 (gi l a + sext14 imm))
/-- ADDIQ: gd := sat32(ga + (sext(imm) << 16)). -/
def effAddiq (d a : Reg) (imm : BitVec 14) (_ : ClEnv) (l : LaneCtx) : ClEff :=
  effReg d (q32 (gi l a + sext14 imm * 65536))
/-- NEG: gd := sat32(−ga). -/
def effNeg (d a : Reg) (_ : ClEnv) (l : LaneCtx) : ClEff := effReg d (q32 (-(gi l a)))
/-- ABS: gd := sat32(|ga|). -/
def effAbs (d a : Reg) (_ : ClEnv) (l : LaneCtx) : ClEff := effReg d (q32 (gi l a).natAbs)
/-- MIN: gd := min(ga, gb). -/
def effMin (d a b : Reg) (_ : ClEnv) (l : LaneCtx) : ClEff := effReg d (if gi l a ≤ gi l b then gr l a else gr l b)
/-- MAX: gd := max(ga, gb). -/
def effMax (d a b : Reg) (_ : ClEnv) (l : LaneCtx) : ClEff := effReg d (if gi l a ≤ gi l b then gr l b else gr l a)
/-- CLAMP: gd := min(max(gd, ga), gb). -/
def effClamp (d a b : Reg) (_ : ClEnv) (l : LaneCtx) : ClEff :=
  let x := if gi l d ≤ gi l a then gr l a else gr l d
  effReg d (if x.toInt ≤ gi l b then x else gr l b)
/-- MUL: gd := qmul(ga, gb). -/
def effMul (d a b : Reg) (_ : ClEnv) (l : LaneCtx) : ClEff := effReg d (BitVec.ofInt 32 (qmul (gi l a) (gi l b)))
/-- MAC: gd := sat32(gd + qprod(ga, gb)). -/
def effMac (d a b : Reg) (_ : ClEnv) (l : LaneCtx) : ClEff := effReg d (q32 (gi l d + qprod (gi l a) (gi l b)))
/-- MSU: gd := sat32(gd − qprod(ga, gb)). -/
def effMsu (d a b : Reg) (_ : ClEnv) (l : LaneCtx) : ClEff := effReg d (q32 (gi l d - qprod (gi l a) (gi l b)))
/-- SHL: gd := sat32(ga << n). -/
def effShl (d a : Reg) (n : BitVec 5) (_ : ClEnv) (l : LaneCtx) : ClEff := effReg d (q32 (gi l a * 2 ^ n.toNat))
/-- SHR: gd := rne(ga, n). -/
def effShr (d a : Reg) (n : BitVec 5) (_ : ClEnv) (l : LaneCtx) : ClEff :=
  effReg d (BitVec.ofInt 32 (rne (gi l a) n.toNat))
/-- AND: gd := ga & gb. -/
def effAnd (d a b : Reg) (_ : ClEnv) (l : LaneCtx) : ClEff := effReg d (gr l a &&& gr l b)
/-- OR: gd := ga | gb. -/
def effOr (d a b : Reg) (_ : ClEnv) (l : LaneCtx) : ClEff := effReg d (gr l a ||| gr l b)
/-- XOR: gd := ga ^ gb. -/
def effXor (d a b : Reg) (_ : ClEnv) (l : LaneCtx) : ClEff := effReg d (gr l a ^^^ gr l b)

/-- The effect of a CLE instruction; none for a command that is no CLE instruction. -/
def cleEff : Instr → Option (ClEnv → LaneCtx → ClEff)
  | .cleNop => some effNop
  | .cleEnd => some effEnd
  | .rep m1 k1 => some (effRep m1 k1)
  | .skipif a b c n => some (effSkipif a b c n)
  | .sel d a b c e => some (effSel d a b c e)
  | .ldi d i => some (effLdi d i)
  | .ldiq d i => some (effLdiq d i)
  | .ldc d i => some (effLdc d i)
  | .mov d a => some (effMov d a)
  | .lds d i => some (effLds d i)
  | .sts a i => some (effSts a i)
  | .ldsx d b i => some (effLdsx d b i)
  | .stsx a b i => some (effStsx a b i)
  | .cleIn d p => some (effIn d p)
  | .cleOut a p => some (effOut a p)
  | .add d a b => some (effAdd d a b)
  | .sub d a b => some (effSub d a b)
  | .addi d a i => some (effAddi d a i)
  | .addiq d a i => some (effAddiq d a i)
  | .neg d a => some (effNeg d a)
  | .abs d a => some (effAbs d a)
  | .min d a b => some (effMin d a b)
  | .max d a b => some (effMax d a b)
  | .clamp d a b => some (effClamp d a b)
  | .mul d a b => some (effMul d a b)
  | .mac d a b => some (effMac d a b)
  | .msu d a b => some (effMsu d a b)
  | .shl d a n => some (effShl d a n)
  | .shr d a n => some (effShr d a n)
  | .and d a b => some (effAnd d a b)
  | .or d a b => some (effOr d a b)
  | .xor d a b => some (effXor d a b)
  | _ => none

/-- Whether an instruction may stand at the pointer of a slot: no REP and no END inside a REP body (R161). -/
def inBody (s : State) : Bool := s.slot.a.rep.isSome && s.slot.a.skip == 0

/-- `CLE_NOP` (R159). -/
def execCleNop (s : State) : Host.Outcome State Fault Refusal := cleExec effNop s
/-- `END` (R159). -/
def execCleEnd (s : State) : Host.Outcome State Fault Refusal :=
  if inBody s then .fault (.misplacedCl "END in a REP body") else cleExec effEnd s
/-- `REP` (R159, R161). -/
def execRep (m1 : BitVec 4) (k1 : BitVec 6) (s : State) : Host.Outcome State Fault Refusal :=
  if inBody s then .fault (.misplacedCl "REP in a REP body") else cleExec (effRep m1 k1) s
/-- `SKIPIF` (R159–R161). -/
def execSkipif (a b : Reg) (cond n : BitVec 3) (s : State) : Host.Outcome State Fault Refusal :=
  if !condOk cond then .fault (.invalidClEncoding "SKIPIF condition")
  else if !skipOk n then .fault (.invalidClEncoding "SKIPIF count") else cleExec (effSkipif a b cond n) s
/-- `SEL` (R159, R160). -/
def execSel (d a b : Reg) (cond : BitVec 3) (c : Reg) (s : State) : Host.Outcome State Fault Refusal :=
  if !condOk cond then .fault (.invalidClEncoding "SEL condition") else cleExec (effSel d a b cond c) s
/-- `LDI`. -/
def execLdi (d : Reg) (imm : BitVec 14) (s : State) : Host.Outcome State Fault Refusal := cleExec (effLdi d imm) s
/-- `LDIQ`. -/
def execLdiq (d : Reg) (imm : BitVec 14) (s : State) : Host.Outcome State Fault Refusal := cleExec (effLdiq d imm) s
/-- `LDC`: the index lies below the bound program's constants (Table 07-10 reason 0x07). -/
def execLdc (d : Reg) (idx : BitVec 8) (s : State) : Host.Outcome State Fault Refusal :=
  if (envOf s).consts.length ≤ idx.toNat then .fault (.invalidClEncoding "LDC index") else cleExec (effLdc d idx) s
/-- `MOV`. -/
def execMov (d a : Reg) (s : State) : Host.Outcome State Fault Refusal := cleExec (effMov d a) s
/-- `LDS`. -/
def execLds (d : Reg) (idx : BitVec 6) (s : State) : Host.Outcome State Fault Refusal := cleExec (effLds d idx) s
/-- `STS`. -/
def execSts (a : Reg) (idx : BitVec 6) (s : State) : Host.Outcome State Fault Refusal := cleExec (effSts a idx) s
/-- `LDSX`. -/
def execLdsx (d b : Reg) (idx : BitVec 6) (s : State) : Host.Outcome State Fault Refusal := cleExec (effLdsx d b idx) s
/-- `STSX`. -/
def execStsx (a b : Reg) (idx : BitVec 6) (s : State) : Host.Outcome State Fault Refusal := cleExec (effStsx a b idx) s
/-- `IN`. -/
def execCleIn (d : Reg) (port : BitVec 4) (s : State) : Host.Outcome State Fault Refusal :=
  if !inPortOk port then .fault (.invalidClEncoding "IN port") else cleExec (effIn d port) s
/-- `OUT`. -/
def execCleOut (a : Reg) (port : BitVec 4) (s : State) : Host.Outcome State Fault Refusal :=
  if !outPortOk port then .fault (.invalidClEncoding "OUT port") else cleExec (effOut a port) s
/-- `ADD`. -/
def execAdd (d a b : Reg) (s : State) : Host.Outcome State Fault Refusal := cleExec (effAdd d a b) s
/-- `SUB`. -/
def execSub (d a b : Reg) (s : State) : Host.Outcome State Fault Refusal := cleExec (effSub d a b) s
/-- `ADDI`. -/
def execAddi (d a : Reg) (imm : BitVec 14) (s : State) : Host.Outcome State Fault Refusal := cleExec (effAddi d a imm) s
/-- `ADDIQ`. -/
def execAddiq (d a : Reg) (imm : BitVec 14) (s : State) : Host.Outcome State Fault Refusal := cleExec (effAddiq d a imm) s
/-- `NEG`. -/
def execNeg (d a : Reg) (s : State) : Host.Outcome State Fault Refusal := cleExec (effNeg d a) s
/-- `ABS`. -/
def execAbs (d a : Reg) (s : State) : Host.Outcome State Fault Refusal := cleExec (effAbs d a) s
/-- `MIN`. -/
def execMin (d a b : Reg) (s : State) : Host.Outcome State Fault Refusal := cleExec (effMin d a b) s
/-- `MAX`. -/
def execMax (d a b : Reg) (s : State) : Host.Outcome State Fault Refusal := cleExec (effMax d a b) s
/-- `CLAMP`. -/
def execClamp (d a b : Reg) (s : State) : Host.Outcome State Fault Refusal := cleExec (effClamp d a b) s
/-- `MUL`. -/
def execMul (d a b : Reg) (s : State) : Host.Outcome State Fault Refusal := cleExec (effMul d a b) s
/-- `MAC`. -/
def execMac (d a b : Reg) (s : State) : Host.Outcome State Fault Refusal := cleExec (effMac d a b) s
/-- `MSU`. -/
def execMsu (d a b : Reg) (s : State) : Host.Outcome State Fault Refusal := cleExec (effMsu d a b) s
/-- `SHL`: a count of 1–31 (Table 07-7). -/
def execShl (d a : Reg) (n : BitVec 5) (s : State) : Host.Outcome State Fault Refusal :=
  if !shiftOk n then .fault (.invalidClEncoding "SHL count") else cleExec (effShl d a n) s
/-- `SHR`: a count of 1–31 (Table 07-7). -/
def execShr (d a : Reg) (n : BitVec 5) (s : State) : Host.Outcome State Fault Refusal :=
  if !shiftOk n then .fault (.invalidClEncoding "SHR count") else cleExec (effShr d a n) s
/-- `AND`. -/
def execAnd (d a b : Reg) (s : State) : Host.Outcome State Fault Refusal := cleExec (effAnd d a b) s
/-- `OR`. -/
def execOr (d a b : Reg) (s : State) : Host.Outcome State Fault Refusal := cleExec (effOr d a b) s
/-- `XOR`. -/
def execXor (d a b : Reg) (s : State) : Host.Outcome State Fault Refusal := cleExec (effXor d a b) s

end Sys2Proof.Machine
end

