-- ==== Sys2Proof/Machine/CleSlot.lean ====
section
/-! DEFINITION. CLE slots: input ports, the run of a section on a lane pair, outputs, overruns and HELD (R150–R157, R167–R175, R188, R204). -/

namespace Sys2Proof.Machine

/-- Slot cycles that a program has (R175): floor(CCLK × 50 ns) − 4 with CCLK from PLL-C, also where forced clocks take it (Table 15-3). On
FOSC the frequency is not exact; its nominal 200 MHz is taken (log 22). -/
def slotBudget (s : State) : Nat :=
  if s.clk.ccur = 1 then 5 * s.clk.pllC.ndiv.toNat / (4 * s.clk.pllC.rdiv.toNat * s.clk.pllC.pdiv.toNat) - 4
  else 6

/-- The physical domain that a position serves in a slot (Table 07-1). -/
def slotDom (pos slot : Nat) : Nat := 16 * slot + pos

/-- Table 07-3 for a domain in its present condition; of one that its station has forced DARK before the shutter commits it, the model's choice
(log 93). -/
def slotUse (s : State) (d : Nat) : SlotUse :=
  if isAbsent s d || (isOdd s d && joined s (d - 1)) then ⟨false, false, false⟩
  else
    let live := profRuns (domOf s (leader s d))
    ⟨true, live, live && !isOdd s d⟩

/-- `VREF` of a domain as the slot reads it; the members of a pair share the pair's. -/
def slotVref (s : State) (d : Nat) : Int := (domOf s (leader s d)).prof.vref

/-- `TEMP` of a domain: the hottest sensor of both sites of a joined pair (R155). -/
def slotTemp (s : State) (d : Nat) : Int :=
  if joined s d then Max.max (domOf s d).maxT (domOf s (d + 1)).maxT else (domOf s d).maxT

/-- The input ports of a domain at the latch of its slot (Table 07-4); `VMEAS` and `IMEAS` are those of the frame's latch (R16). -/
def slotInputs (s : State) (d n : Nat) : Vector Word 13 :=
  let D := domOf s d
  let L := domOf s (leader s d)
  let w (x : Int) : Word := BitVec.ofInt 32 x
  #v[w (linkMv D.vFr), w (if D.en then D.iFr * 128 else 0 : Nat), w (slotVref s d), w (codeMv L.tgt),
     w (vget D.lant.ipred 0), w (vget D.lant.ipred 1), w (vget D.lant.ipred 2), w (vget D.lant.ipred 3),
     w (if isOdd s d then 0 else rcTerm s d), w (slotTemp s d * 4096),
     w (if isTile d then 52428800 + 819200 * D.tile.freqIn else 0 : Nat), w (D.band * 65536 : Nat), w (n % 8 * 65536 : Nat)]

/-- The section that a program runs in a frame (R152). -/
def sectionOf (g : Program) (n : Nat) : Nat := if g.sections.length = 0 then 0 else n % 8 % g.sections.length

/-- The upsets of lane B that strike in the cycles that `now` names (R168). -/
def applyUpsets (ups : List Upset) (now : Nat → Bool) (l : LaneCtx) : LaneCtx :=
  ups.foldl (fun l u =>
    if !now u.cycle then l
    else
      match u.at_ with
      | .greg r => { l with g := vupd l.g r.toNat (fun x => x ^^^ u.flip) }
      | .buffered i => { l with buf := l.buf.modify i (fun e => (e.1, e.2 ^^^ u.flip)) }
      | .out p => { l with outs := vupd l.outs p (fun o => o.map (fun x => x ^^^ u.flip)) }) l

/-- The words of a section, run until END, a mismatch or the last cycle of the program's budget. -/
def runSection (words : List Word) (lastCycle : Nat) (ups : List Upset) : Nat → State → State
  | 0, s => s
  | fuel + 1, s =>
    let c := s.slot
    if c.mismatch.isSome || (c.a.ended && c.b.ended) || decide (lastCycle < c.cycle) then s
    else
      match words[c.a.ip]? with
      | none => s
      | some w =>
        match (rawCle w).bind cleEff with
        | none => s
        | some f =>
          let b := if c.b.skip = 0 then applyUpsets ups (· == c.cycle) c.b else c.b
          runSection words lastCycle ups fuel (cleWordStep f { s with slot := { c with b := b } })

/-- Words met in a section are bounded by its cycles: each executed one skips at most seven. -/
def slotFuel : Nat := 320

/-- Whether the floor clamp of R204 acts on a domain. -/
def floorClampActs (s : State) (d : Nat) : Bool :=
  isTile d && lanternActive s d && (domOf s d).state == .lit && !(domOf s d).fallback

/-- A code under the floor clamp of R204: never below vf(f) while it acts. The Bool says that it acted. -/
def floorClamp (s : State) (d raw : Nat) : Nat × Bool :=
  let low := vfOf s d (Nat.max (cfgAt s d).freq (domOf s d).tile.freqIn) - 8 * sieveStep s d
  if floorClampActs s d && decide (raw < low) then (low, true) else (raw, false)

/-- The end of the slot in which GTC stands (R17). -/
def slotEndAt (s : State) : Nat := s.time.gtc / 50 * 50 + 50

/-- A station takes `FLARE_ARM`, in force from an instant on, unless it holds its domain (R17, R38). -/
def stationArm (at_ : Nat) (arm : Bool) (D : Domain) : Domain :=
  if D.stHeld then D else { D with armOld := D.flareArm, armAt := at_, flareArm := arm }

/-- Whether what a slot sends reaches the station with the records of its own frame: the record is not lost, and the links are not
stretched (R17, R39, R354). -/
def slotReaches (s : State) (D : Domain) : Bool := !D.downBad && !s.clk.stretch

/-- `FLARE_ARM` of a slot, in force from its end where it reaches the station at once (R17). -/
def armFrom (s : State) (arm : Bool) (D : Domain) : Domain :=
  let D1 : Domain := { D with hubArm := arm }
  if slotReaches s D then stationArm (slotEndAt s) arm D1 else D1

/-- A station takes a set-point code and sends it to its cells, unless it holds its domain (R38, R156). -/
def stationCode (code : Nat) (D : Domain) : Domain :=
  if D.stHeld then D
  else
    let D1 : Domain := { D with stCode := code }
    { D1 with cells := if sendsCode D1 then D1.cells.map (takeCode D1 true) else D1.cells }

/-- A code reaches a domain's cells, both sites' for a joined pair; the floor clamp is counted (R126, R156, R204). -/
def sendCode (s : State) (d raw : Nat) (clamps : Bool) : State :=
  let c := if clamps then floorClamp s d raw else (raw, false)
  let s1 := if c.2 then setDom s d (bump 9 1) else s
  (if joined s d then [d, d + 1] else [d]).foldl (fun s x =>
    setDom s x (fun D =>
      let D1 : Domain := { D with code := c.1 }
      if slotReaches s D then stationCode c.1 D1
      else if s.clk.stretch then D1
      else { D1 with cells := if sendsCode D1 then D1.cells.map (takeCode D1 true) else D1.cells })) s1

/-- The outputs of a slot that are not committed: the previous code, under the floor clamp where outputs are applied, and all else 0
(Table 07-5, R204). -/
def outputsHeld (s : State) (d : Nat) : State :=
  let s1 := setDom s d (fun D => { armFrom s false D with thrReq := 0 })
  sendCode s1 d (domOf s1 d).code ((domOf s1 d).use.applied)

/-- Stores that an error leaves unusable: the program number of a domain (R173). -/
def markUnusable (s : State) (d : Nat) : State :=
  let p := (cfgAt s d).prog
  { s with progs := vupd s.progs p (fun g => g.map (fun x => { x with unusable := true })) }

/-- The bound program's initial state image enters a domain's state words (R166, R167, R173). -/
def loadInit (s : State) (d : Nat) : State :=
  match boundProg s d with
  | some g => setDom s d (fun D => { D with sw := memOfList g.init })
  | none => s

/-- DEADLINE and the count of consecutive overruns of a LIT or SHADE domain past leg 1 (R171, R172). Without a lane it is raised once per
domain. The slot cycle of the detail is the last of the program's cycles, 37 at 800 MHz; below that, and where no section ran, the same
formula is the model's choice (log 22). A lane got back and lost before a slot has committed raises nothing new (log 94). -/
def overrun (s : State) (d cause inst slot pos sect : Nat) : State :=
  let counts := (domOf s d).use.applied
  let n := Nat.min 3 ((domOf s d).overruns + (if counts then 1 else 0))
  let quiet := cause = 1 ∧ (domOf s d).noLane
  let s1 := setDom s d (fun D => { D with overruns := n, noLane := cause == 1 })
  let s2 := if quiet then s1 else raise s1 1 0x10 0x2 inst (cleDetail cause d slot pos n sect (1 + slotBudget s))
  outputsHeld s2 d

/-- A corrected or uncorrectable store error of a slot (R173). -/
def storeErr (d : Nat) (s : State) (e : StoreErr) : State :=
  match e with
  | .corrProg a => raise s 0 0x41 0x2 0x20 a.toNat
  | .corrState a => raise s 0 0x41 0x2 0x21 a.toNat
  | .uncProg a => markUnusable (raise s 1 0x42 0x2 0x20 a.toNat) d
  | .uncState a => loadInit (raise s 1 0x42 0x2 0x21 a.toNat) d

/-- Whether an error aborts the slot. -/
def errAborts (e : StoreErr) : Bool :=
  match e with
  | .uncProg _ | .uncState _ => true
  | _ => false

/-- The code of a committed slot before the floor clamp: `VSET` converted, or the previous one; `VREF` in fall-back (R156, R157, R188). -/
def slotCode (s : State) (d : Nat) (vset : Option Word) : Nat :=
  let D := domOf s d
  if D.fallback then vsetCode (slotVref s d) else match vset with | some v => vsetCode v.toInt | none => D.code

/-- `THR_REQ` of a port value: its floor, clamped to 0–4,095. -/
def thrReqOf (v : Word) : Nat := (clampInt 0 4095 (v.toInt / 65536)).toNat

/-- The outputs of a committed slot reach the domain's cells, the arbiter and the flag byte (R156). -/
def applyOutputs (s : State) (d : Nat) (o : Vector (Option Word) 4) : State :=
  let fb := (domOf s d).fallback
  let arm := match vget o 1 with | some v => v != 0 && !fb | none => false
  let thr := match vget o 2 with | some v => if fb then 0 else thrReqOf v | none => 0
  let flg : Byte := match vget o 3 with | some v => if fb then 0 else v.extractLsb' 16 8 | none => 0
  let s1 := setDom s d (fun D =>
    let D1 : Domain := { armFrom s arm D with thrReq := thr, flags := D.flags ||| flg,
                                              arb := { D.arb with fastTHR := Nat.max D.arb.fastTHR thr } }
    if flg ≠ 0 then bump 6 1 D1 else D1)
  sendCode s1 d (slotCode s d (vget o 0)) true

/-- The buffered writes of a slot enter the domain's state words, oldest first (R154). -/
def commitWords (s : State) (d : Nat) (buf : List (Nat × Word)) : State :=
  setDom s d (fun D => { D with sw := buf.reverse.foldl (fun m x => m.write x.1 x.2) D.sw })

/-- Cycles 38 and 39 of a slot whose section has ended: the final comparison and the commit (R152, R168). -/
def slotEnd (s : State) (d : Nat) (u : SlotUse) (ups : List Upset) : State :=
  let c := s.slot
  let b := applyUpsets ups (fun y => decide (c.cycle ≤ y ∧ y ≤ 38)) c.b
  if c.a.buf ≠ b.buf ∨ c.a.outs ≠ b.outs then outputsHeld (mismatchFound s 38) d
  else
    let s1 := setDom s d (fun D => { D with overruns := 0, noLane := false })
    let s2 := if u.kept then commitWords s1 d c.a.buf else s1
    if u.applied then applyOutputs s2 d c.a.outs else outputsHeld s2 d

/-- A slot begins on a serving lane pair: its ports are latched, and each corrected error of its stores has cost it two cycles (R152, R173). -/
def slotBegin (s : State) (d n pos slot errs : Nat) (g : Program) : State :=
  let ins := slotInputs s d n
  let c : SlotCtx :=
    { a := .reset, b := .reset, inputs := ins, dom := Fin.ofNat 80 d, frame := n, slot := slot, pos := pos, section_ := sectionOf g n,
      cycle := 2 + 2 * errs, mismatch := none }
  { s with slot := c, input := { s.input with ports := s.input.ports ++ [(n % 8, d, ins)] } }

/-- A slot after its section has run as far as it does. -/
def slotRan (s : State) (d n pos slot errs : Nat) (g : Program) (ups : List Upset) : State :=
  runSection (g.sections.getD (sectionOf g n) []) (1 + slotBudget s) ups slotFuel (slotBegin s d n pos slot errs g)

/-- A slot on a serving lane pair: ports latched, the section run, and its end. -/
def slotRun (s : State) (d n pos slot lane : Nat) (u : SlotUse) (g : Program) (ups : List Upset) (errs : List StoreErr) : State :=
  let sect := sectionOf g n
  let s1 := errs.foldl (storeErr d) s
  if errs.any errAborts then overrun s1 d 2 lane slot pos sect
  else
    let s4 := slotRan s1 d n pos slot errs.length g ups
    if s4.slot.mismatch.isSome then outputsHeld s4 d
    else if s4.slot.a.ended && s4.slot.b.ended then slotEnd s4 d u ups
    else overrun s4 d 0 lane slot pos sect

/-- The error of a frame enters a domain's RC, and whether the frame is excluded, whatever becomes of its slot (R213). -/
def slotLearn (s : State) (d n : Nat) : State :=
  if isOdd s d then s
  else
    let ins := slotInputs s d n
    rcLearn s d ((vget ins 2).toInt) ((vget ins 0).toInt)

/-- `CLE_SLOT`: the slot of a position in a frame, whole (R152), as the domain's condition at the frame start has it (R153). A slot after a
mismatch of the same frame is not run and leaves the overrun count as it is (R168). -/
def execCleSlot (n : Nat) (pos : Fin 16) (slot : Fin 5) (ups : List Upset) (errs : List StoreErr) (s : State) :
    Host.Outcome State Fault Refusal :=
  let s0 := now (250 * n + 50 * slot.val) s
  let d := slotDom pos slot
  let u := (domOf s0 d).use
  let s := if !u.runs || s0.clk.crstBusy then s0 else slotLearn s0 d n
  if !u.runs || s.clk.crstBusy then .next s
  else if s.mism.any (fun m => m.frame == n && m.pos == pos.val) then .next (outputsHeld s d)
  else
    let sect := match boundProg s d with | some g => sectionOf g n | none => 0
    let r :=
      match vget s.laneOf pos with
      | none => overrun s d 1 (0x80 + pos.val) slot pos sect
      | some lane =>
        match boundProg s d with
        | none => overrun s d 2 lane slot pos sect
        | some g => if g.unusable then overrun s d 2 lane slot pos sect else slotRun s d n pos slot lane u g ups errs
    .next { r with slot := { SlotCtx.reset with dom := Fin.ofNat 80 d } }

/-- A domain enters HELD at the hub, which sends state order 3: the station holds it from the next frame (R38, R172). -/
def overrunHold (s : State) (d : Nat) : State := holdDomain s (leader s d) .overrun

/-- `OVERRUN_HELD`: the third consecutive overrun of a LIT or SHADE domain (R172); the count starts at 0 in HELD (log 91). -/
def execOverrunHeld (d : Dom) (t : Nat) (s : State) : Host.Outcome State Fault Refusal :=
  let s := now t s
  if 3 ≤ (domOf s d).overruns && !isAbsent s d then
    .next (overrunHold (setDom s d (fun D => { D with overruns := 0 })) d)
  else .next s

end Sys2Proof.Machine
end

