-- ==== Sys2Proof/Machine/Energy.lean ====
section
/-! DEFINITION. Energies at the input: whole µJ, staleness of the meter, and the ratio of a meter window (R240, R282–R284). -/

namespace Sys2Proof.Machine

/-- Whole µJ of a sum in pJ enter a 64-bit accumulator; `unit` sub-units make one pJ. -/
def carryUj (uj : DWord) (pj : Int) (unit : Int) : DWord × Int :=
  (uj + BitVec.ofInt 64 (pj / (1000000 * unit)), pj % (1000000 * unit))

/-- The meter changed. -/
def setMeter (s : State) (f : Meter → Meter) : State := { s with meter := f s.meter }

/-! ### Staleness (R282) -/

/-- The conditions of R282, with those of a stopped MCLK and a gated meter (Table 15-3, R361). -/
def staleNow (s : State) : Bool :=
  let m := s.meter
  !m.kGood || !m.mask.getLsbD 0 || !m.mask.getLsbD 1 || m.phase == .cal || (m.recal &&& m.mask) != 0 || m.plaus != 0 ||
  !(vget s.clk.run 3) || m.gated

/-- The energies of a window enter the input-energy accumulators at k (R240). -/
def flushWindow (s : State) : State :=
  let k := s.meter.k
  let one (t : Tile) (x : Nat) : Tile :=
    let e := carryUj (vget t.ctxInUj x) (vget t.ctxInPj x + vget t.ctxWin x * k) 16777216
    { t with ctxInUj := vset t.ctxInUj x e.1, ctxInPj := vset t.ctxInPj x e.2, ctxWin := vset t.ctxWin x 0 }
  let s1 := setDoms s (fun _ D => { D with tile := (List.range 4).foldl one D.tile })
  let m := s1.meter
  let e := carryUj m.sharedIn (m.sharedInPj + m.sharedWin * k) 16777216
  setMeter s1 (fun m => { m with sharedIn := e.1, sharedInPj := e.2, sharedWin := 0 })

/-- Whether a window that ended while the meter was not stale waits for its nearest latch. -/
def waitingGood (m : Meter) : Bool := match m.eWait with | some x => !x.2.2 | none => false

/-- The stale flag follows its conditions; energies gathered before the meter becomes stale take the last k, which a window that has ended is still
to form. -/
def staleUpdate (s : State) : State :=
  let n := staleNow s
  let s1 := if n && !s.meter.stale && !waitingGood s.meter then flushWindow s else s
  setMeter s1 (fun m => { m with stale := n })

/-! ### The ratio of a window (R283, R284) -/

/-- A METER_PLAUS condition evaluated: raised once per onset, cleared when it passes (R284). -/
def plausCond (s : State) (cond inst code : Nat) (bad : Bool) : State :=
  let was := s.meter.plaus.getLsbD (cond - 1)
  let s1 := setMeter s (fun m => { m with plaus := if bad then m.plaus ||| BitVec.twoPow 4 (cond - 1)
                                                  else m.plaus &&& ~~~ (BitVec.twoPow 4 (cond - 1)) })
  if bad && !was then raise s1 1 0x80 0x9 inst (cond * 0x1000000 + code % 0x1000000) else s1

/-- k as Q8.24, rounded to nearest (R423), from E_in in µJ and E_cells in nJ; free where no cell energy was measured (log 8). -/
def ratioK (ein ecells : Nat) : Nat :=
  if ecells = 0 then Config.ratioNoCells ein else (rdiv (ein * 1000 * 16777216 : Nat) ecells).toNat

/-- Condition 0x04: k outside 1.10–1.45 at three consecutive windows of at least 3,200 grains; E_cells in nJ. -/
def plausRatio (s : State) (ein ecells n : Nat) : State :=
  let e := ein * 1000
  let bad := decide (3125 * n * 1000 ≤ 64 * ecells) && !decide (110 * ecells ≤ 100 * e ∧ 100 * e ≤ 145 * ecells)
  let s1 := setMeter s (fun m => { m with kRun := if bad then m.kRun + 1 else 0 })
  plausCond s1 4 0x10 (satNat 24 (e * 65536 / Nat.max 1 ecells)) (bad && decide (3 ≤ s1.meter.kRun))

/-- The ratio of a window whose E_in is known: E_cells is the change of the summed A_d since the latch nearest the window's start; `stale` says
whether the meter was stale at the window's end (R240, R283). -/
def windowRatio (s : State) (ein n : Nat) (stale : Bool) : State :=
  let ec := s.meter.cellE - s.meter.eFrom
  let s1 := if stale then s else flushWindow (setMeter s (fun m => { m with k := ratioK ein ec }))
  plausRatio s1 ein ec n

/-- Whether the frame latch nearest to an instant has been taken: it lies no more than half a frame back (R16, R283). -/
def latchBehind (t : Nat) : Bool := decide ((t + 120) % 250 ≤ 125)

/-- The start of a window: E_cells counts from the nearest latch. -/
def windowFrom (t : Nat) (m : Meter) : Meter := if latchBehind t then { m with eFrom := m.cellE, eOpen := false } else { m with eOpen := true }

/-- The end of a window with its E_in: the ratio is formed with the nearest latch. -/
def windowTo (s : State) (t ein n : Nat) : State :=
  if latchBehind t then windowRatio s ein n s.meter.stale else setMeter s (fun m => { m with eWait := some (ein, n, m.stale) })

/-- The summed A_d at the frame latch just taken, in nJ: a window that starts or ends nearest to this latch takes it (R283;
log 99). -/
def meterLatch (nj : Nat) (s : State) : State :=
  let s1 := setMeter s (fun m => { m with cellE := nj })
  let s2 := match s1.meter.eWait with
    | some x => staleUpdate (setMeter (windowRatio s1 x.1 x.2.1 x.2.2) (fun m => { m with eWait := none }))
    | none => s1
  if s2.meter.eOpen then setMeter s2 (fun m => { m with eFrom := m.cellE, eOpen := false }) else s2

end Sys2Proof.Machine
end

