-- ==== Sys2Proof/Machine/LinkFrame.lean ====
section
/-! DEFINITION. The frames of a station link: built and read bit by bit as Table 02-1 lays them out (R37). -/

namespace Sys2Proof.Machine

/-- A domain record of a down frame. -/
structure DownRec where
  code  : BitVec 10
  arm   : Bool
  div   : BitVec 2
  skip  : BitVec 16
  order : BitVec 3
  seq   : Byte
deriving DecidableEq, Repr, Inhabited

/-- A down frame: its number, the four markers, 18 domain records and the command channel. -/
structure DownFrame where
  num   : Byte
  marks : BitVec 4
  recs  : List DownRec
  chan  : BitVec 384
deriving DecidableEq, Repr, Inhabited

/-- A domain record of an up frame. -/
structure UpRec where
  cur   : BitVec 16
  vmin  : BitVec 16
  cross : BitVec 4
  flare : BitVec 2
  works : BitVec 5
deriving DecidableEq, Repr, Inhabited

/-- An up frame: its number, the link status, 18 domain records and the report channel. -/
structure UpFrame where
  num    : Byte
  status : Byte
  recs   : List UpRec
  chan   : BitVec 1408
deriving DecidableEq, Repr, Inhabited

/-- Bits [off + n − 1 : off] of a frame. -/
def frameField (w off n : Nat) : BitVec n := BitVec.ofNat n (w / 2 ^ off)

/-- The 64 bits of a down record. -/
def DownRec.word (r : DownRec) : Nat :=
  r.code.toNat + r.arm.toNat * 2 ^ 10 + r.div.toNat * 2 ^ 11 + r.skip.toNat * 2 ^ 13 + r.order.toNat * 2 ^ 29 + r.seq.toNat * 2 ^ 32

/-- The down record in a frame from a bit on. -/
def downRecAt (w off : Nat) : DownRec :=
  { code := frameField w off 10, arm := frameField w (off + 10) 1 == 1, div := frameField w (off + 11) 2,
    skip := frameField w (off + 13) 16, order := frameField w (off + 29) 3, seq := frameField w (off + 32) 8 }

/-- The 96 bits of an up record. -/
def UpRec.word (r : UpRec) : Nat :=
  r.cur.toNat + r.vmin.toNat * 2 ^ 16 + r.cross.toNat * 2 ^ 32 + r.flare.toNat * 2 ^ 36 + r.works.toNat * 2 ^ 38

/-- The up record in a frame from a bit on. -/
def upRecAt (w off : Nat) : UpRec :=
  { cur := frameField w off 16, vmin := frameField w (off + 16) 16, cross := frameField w (off + 32) 4,
    flare := frameField w (off + 36) 2, works := frameField w (off + 38) 5 }

/-- Words of `width` bits laid one after another, the first at the lowest bits. -/
def packWords (width : Nat) : List Nat → Nat
  | [] => 0
  | x :: rest => x + 2 ^ width * packWords width rest

/-- A frame's body of `n` bytes with its CRC-32C above it. -/
def withCrc (n body : Nat) : Nat := body + (crc32c (leBytes n body)).toNat * 2 ^ (8 * n)

/-- The 1,600 bits of a down frame. -/
def DownFrame.bits (f : DownFrame) : BitVec 1600 :=
  BitVec.ofNat 1600 (withCrc 196 (0xB5 + f.num.toNat * 2 ^ 8 + f.marks.toNat * 2 ^ 16 + packWords 64 (f.recs.map DownRec.word) * 2 ^ 32 +
    f.chan.toNat * 2 ^ 1184))

/-- The 3,200 bits of an up frame. -/
def UpFrame.bits (f : UpFrame) : BitVec 3200 :=
  BitVec.ofNat 3200 (withCrc 396 (0x4A + f.num.toNat * 2 ^ 8 + f.status.toNat * 2 ^ 16 + packWords 96 (f.recs.map UpRec.word) * 2 ^ 32 +
    f.chan.toNat * 2 ^ 1760))

/-- Whether the CRC above a frame's body of `n` bytes is that of the body (R39). -/
def crcGood (n w : Nat) : Bool := frameField w (8 * n) 32 == crc32c (leBytes n w)

/-- A received down frame; none where its CRC fails (R39). -/
def readDown (b : BitVec 1600) : Option DownFrame :=
  let w := b.toNat
  if crcGood 196 w then
    some { num := frameField w 8 8, marks := frameField w 16 4, recs := (List.range 18).map (fun i => downRecAt w (32 + 64 * i)),
           chan := frameField w 1184 384 }
  else none

/-- A received up frame; none where its CRC fails (R39). -/
def readUp (b : BitVec 3200) : Option UpFrame :=
  let w := b.toNat
  if crcGood 396 w then
    some { num := frameField w 8 8, status := frameField w 16 8, recs := (List.range 18).map (fun i => upRecAt w (32 + 96 * i)),
           chan := frameField w 1760 1408 }
  else none

/-! ### What the hub and a die put into a frame -/

/-- State order of a domain (Table 02-1, R38). -/
def orderOf (D : Domain) : BitVec 3 :=
  if D.held then 3
  else
    match D.state with
    | .dark | .absent => 0
    | .shade => 1
    | .lit => 2
    | .held => 3

/-- The record of a domain that the hub sends; both sites of a pair have the same (R44). -/
def sentRec (s : State) (d : Nat) : DownRec :=
  let D := domOf s (leader s d)
  { code := BitVec.ofNat 10 D.code, arm := D.hubArm, div := BitVec.ofNat 2 (levelDiv D.arb.lvl), skip := levelSkip D.arb.lvl,
    order := orderOf D, seq := D.cmSeq }

/-- The records of a die in ascending domain order, those that link 4 does not use as zero. -/
def recsOf {α : Type} (e : Nat) (f : Nat → α) (zero : α) : List α := ((domsOfDie e).map f ++ List.replicate 18 zero).take 18

/-- Whether a frequency switch of a die falls on this instant. -/
def switchMark (s : State) (e : Nat) : Bool :=
  (domsOfDie e).any (fun d => match (domOf s d).tile.change with | some c => c.swGtc == s.time.gtc | none => false)

/-- The frame number at this instant (R37). -/
def frameNum (s : State) : Byte := BitVec.ofNat 8 (s.time.gtc / 250)

/-- The down frame that the hub sends to a die at this instant. The coding of its command channel is free (log 70). -/
def sentDown (s : State) (e : Nat) : DownFrame :=
  { num := frameNum s,
    marks := BitVec.ofNat 4 (bitAt (s.time.gtc % 2000 == 0) 0 + bitAt (s.time.gtc % 1000 == 0) 1 + bitAt (switchMark s e) 2 +
      bitAt s.clk.crstBusy 3),
    recs := recsOf e (sentRec s) ⟨0, false, 0, 0, 0, 0⟩,
    chan := BitVec.ofNat 384 (Config.linkChannel e s.time.gtc) }

/-- The up frame that a die sends for the latch of this frame. The coding of link status and report channel is free (log 70). -/
def sentUp (s : State) (e : Nat) : UpFrame :=
  { num := frameNum s, status := BitVec.ofNat 8 (Config.linkChannel (5 + e) s.time.gtc),
    recs := recsOf e (fun d =>
      let D := domOf s d
      ⟨BitVec.ofNat 16 (satNat 16 D.imeas), D.vmeas, D.droop.crossed, D.droop.flRep, BitVec.ofNat 5 (workingCells d D)⟩) ⟨0, 0, 0, 0, 0⟩,
    chan := BitVec.ofNat 1408 (Config.linkChannel (10 + e) s.time.gtc) }

end Sys2Proof.Machine
end

