-- ==== Sys2Proof/Machine/Links.lean ====
section
/-! DEFINITION. Station links: bad frames, loss, training and return (R37–R39, R118, R119). -/

namespace Sys2Proof.Machine

/-- A link changed. -/
def setLink (s : State) (e : Nat) (f : Link → Link) : State := { s with links := vupd s.links e f }

/-- PARITY of a link: corrected for a run of bad frames, contained for its loss (R39). -/
def linkFault (s : State) (cls e : Nat) : State := raise s cls 0x40 0x6 (0xF0 + e) 0

/-- The newest entry of Lantern's current history follows a changed value of its latch (R39, R192). -/
def renoteCurrent (D : Domain) : Domain :=
  { D with iHist := (match D.iHist with | _ :: r => (if D.en then D.iHub else 0) :: r | [] => []) }

/-- The domains of a die read the previous frame's sums (R39). -/
def upPrevious (s : State) (e : Nat) : State :=
  (domsOfDie e).foldl (fun s d => setDom s d (fun D =>
    renoteCurrent { D with vHub := D.vPrev, iHub := D.iPrev })) s

/-- The report channel of an up frame is lost: the activity counts, hints and step marks of the frame (R37, R39). -/
def upLost (s : State) (e : Nat) : State :=
  let s1 := (domsOfDie e).foldl (fun s d => setDom s d (fun D =>
    { D with tile := { D.tile with act := D.tile.act1 }, lant := { D.lant with hints := D.lant.hints.filter (fun h => !h.new) } })) s
  foldDoms s1 (fun s d =>
    if (domsOfDie e).any (fun x => isTile x && takesMarksOf s x d) then setRc s d (fun R => { R with mark := false }) else s)

/-- The stations of a die keep their previous records for a frame, or have others than the hub's (R39). -/
def downCut (s : State) (e : Nat) : State := (domsOfDie e).foldl (fun s d => setDom s d (fun D => { D with downBad := true })) s

/-- Whether the hub's own down frame of an instant reaches a die. -/
def downWhole (l : Link) (g : Nat) : Bool := linkCarries l && !l.badDn.contains g && l.taken != some g

/-- A station takes the state order, throttle setting and cell-map sequence of a record; while it holds the domain it ignores the setting,
and a reserved order changes nothing (R38; log 70). A change of state aborts parking (R99). -/
def takeRecord (s : State) (d : Nat) (r : DownRec) : State :=
  let s1 := if r.order = 3 then stationHold s d else s
  setMembers s1 d (fun M =>
    let M1 : Domain := { M with stHeld := r.order == 3 || (M.stHeld && decide (3 < r.order)), stSeq := r.seq,
                                stOrder := if r.order ≤ 3 then r.order else M.stOrder,
                                park := { M.park with abort := M.park.abort || (decide (r.order ≤ 3) && (M.stHeld != (r.order == 3) || M.stOrder != r.order)) } }
    if M1.stHeld then M1 else { M1 with stDiv := r.div, stSkip := r.skip })

/-- A station takes all of a record: its set-point and `FLARE_ARM` too (R38). -/
def takeWhole (s : State) (d : Nat) (r : DownRec) : State :=
  setMembers (takeRecord s d r) d (fun M => stationCode r.code.toNat (stationArm s.time.gtc r.arm M))

/-- A received record with contents of its own (R38). -/
def takeOwn (s : State) (d : Nat) (r : DownRec) : State :=
  if isAbsent s d || isOdd s d then s else driveThr (takeWhole s d r) d

/-- What the station of a domain has from the hub's own down frame at a frame start: on stretched links a frame begins at every other one
and carries the outputs of the slots that have ended (R38, R354). -/
def hubRecord (s : State) (n d : Nat) : State :=
  if (domOf s d).downBad then s
  else if !s.clk.stretch then takeRecord s d (sentRec s d)
  else if n % 2 = 0 then takeWhole s d (sentRec s d)
  else s

/-- A bad frame of a link is counted; the first of a run raises PARITY as corrected. Runs are counted per direction (R39; log 71). -/
def badFrame (s : State) (e run : Nat) : State :=
  let s1 := setLink s e (fun l => { l with bad := l.bad + 1, good := 0 })
  if run = 0 then linkFault s1 0 e else s1

/-- The GTCs of the last bad frames with one more; a window of two epochs needs no more than sixteen. -/
def noteBad (g : Nat) (l : List Nat) : List Nat := (g :: l).take 16

/-- A good up frame ends a run and counts towards the return of a retrained link (R39, R119). -/
def upGood (s : State) (e : Nat) : State := setLink s e (fun l => { l with upBad := 0, good := if l.lost then l.good + 1 else 0 })

/-- A good down frame ends a run. -/
def downGood (s : State) (e : Nat) : State := setLink s e (fun l => { l with dnBad := 0 })

/-- A bad up frame is discarded whole: each slot reads the previous sums, and its reports are lost (R39). -/
def upBadFrame (s : State) (e : Nat) : State :=
  let s1 := setLink (badFrame s e (linkOf s e).upBad) e (fun l => { l with upBad := l.upBad + 1, badUp := noteBad s.time.gtc l.badUp })
  upLost (upPrevious s1 e) e

/-- A bad down frame is discarded whole: each station keeps its previous record (R39). -/
def downBadFrame (s : State) (e : Nat) : State :=
  let s1 := setLink (badFrame s e (linkOf s e).dnBad) e (fun l => { l with dnBad := l.dnBad + 1, badDn := noteBad s.time.gtc l.badDn })
  downCut s1 e

/-- The sums of an up frame that came with contents of its own reach the hub (R37). -/
def takeSums (s : State) (e : Nat) (f : UpFrame) : State :=
  ((domsOfDie e).zip f.recs).foldl (fun s x => setDom s x.1 (fun D =>
    renoteCurrent { D with vHub := x.2.vmin, iHub := x.2.cur.toNat })) s

/-- Whether link frames fit at TCLK: with CCLK from FOSC, below 400 MHz, none does while a domain is LIT, SHADE or HELD (R354, Table 15-2). -/
def linkFits (s : State) : Bool :=
  s.clk.ccur == 1 || !(s.dom.toList.any (fun D => D.state == .lit || D.state == .shade || D.state == .held))

/-- `LINK_UP_FRAME` (R37, R39): a frame arrives as the die sent it, or with the bits received. -/
def execLinkUpFrame (d : Fin 5) (rx : LinkRx 3200) (t : Nat) (s : State) : Host.Outcome State Fault Refusal :=
  let s := now t s
  if !linkCarries (linkOf s d) then .next s
  else if !linkFits s then .next (upBadFrame s d)
  else
    match rx with
    | .intact => .next (upGood s d)
    | .received b =>
      match readUp b with
      | some f => .next (takeSums (upGood s d) d f)
      | none => .next (upBadFrame s d)

/-- `LINK_DOWN_FRAME` (R37–R39): a frame arrives as the hub sent it, its records then taken at the frame's start, or with the bits
received; a bad one changes no station's state. -/
def execLinkDownFrame (d : Fin 5) (rx : LinkRx 1600) (t : Nat) (s : State) : Host.Outcome State Fault Refusal :=
  let s := now t s
  if !linkCarries (linkOf s d) then .next s
  else if !linkFits s then .next (downBadFrame s d)
  else
    match rx with
    | .intact => .next (downGood s d)
    | .received b =>
      match readDown b with
      | some f =>
        let s1 := setLink (downGood s d) d (fun l => { l with taken := some s.time.gtc })
        .next (((domsOfDie d).zip f.recs).foldl (fun s x => takeOwn s x.1 x.2) (downCut s1 d))
      | none => .next (downBadFrame s d)

/-- `LINK_LOST`: four consecutive bad frames in a direction; the die's SHADE and LIT domains become HELD, their stations at once (R38, R39,
R118). -/
def execLinkLost (d : Fin 5) (t : Nat) (s : State) : Host.Outcome State Fault Refusal :=
  let s := now t s
  let l := linkOf s d
  if (4 ≤ l.upBad || 4 ≤ l.dnBad) && linkCarries l then
    let s1 := setLink s d (fun l => { l with lost := true, trained := false, good := 0, upBad := 0, dnBad := 0, lostAt := s.time.gtc })
    .next ((domsOfDie d).foldl (fun s x => if isOdd s x then s else holdUnlinked s x) (linkFault s1 1 d))
  else .next s

/-- `LINK_TRAINED`: a training attempt ends; a failed one is repeated at once. Training measures the latency (R20, R39). -/
def execLinkTrained (d : Fin 5) (ok : Bool) (lat : Nat) (t : Nat) (s : State) : Host.Outcome State Fault Refusal :=
  let s := now t s
  if ok then
    .next (setLink s d (fun l => if l.trained then l else { l with trained := true, lat := lat, good := 0, upBad := 0, dnBad := 0, upAt := t }))
  else .next s

/-- `LINK_RESTORED`: 64 good frames since training; the domains that the loss held return at the first shutter at least
250 ns later (R119). -/
def execLinkRestored (d : Fin 5) (t : Nat) (s : State) : Host.Outcome State Fault Refusal :=
  let s := now t s
  let l := linkOf s d
  if l.lost && l.trained && decide (64 ≤ l.good) then
    let s1 := setLink s d (fun l => { l with lost := false })
    .next ((domsOfDie d).foldl (fun s x =>
      if (domOf s x).held && !isOdd s x then report s x .resume else s) s1)
  else .next s

end Sys2Proof.Machine
end

