-- ==== Sys2Proof/Machine/Frame.lean ====
section
/-! DEFINITION. The frame latch and the frame start: what every station and the hub do once a frame (R16–R19, R96–R107, R126, R169, R239). -/

namespace Sys2Proof.Machine

/-! ### Energy attribution (R239, R240) -/

/-- A share of energy in pJ; the manual leaves a fraction of a pJ open (log 10). -/
def shareOf (num den : Int) : Int := if num % den = 0 then num / den else Config.shareRound num den

/-- A context's share of a frame enters its accumulators; while the meter is stale the last ratio is applied at once (R240). -/
def addShare (stale : Bool) (k x : Nat) (a : Int) (t : Tile) : Tile :=
  let e := carryUj (vget t.ctxUj x) (vget t.ctxPj x + a) 1
  let i := carryUj (vget t.ctxInUj x) (vget t.ctxInPj x + a * k) 16777216
  let t1 : Tile := { t with ctxUj := vset t.ctxUj x e.1, ctxPj := vset t.ctxPj x e.2 }
  if stale then { t1 with ctxInUj := vset t.ctxInUj x i.1, ctxInPj := vset t.ctxInPj x i.2 }
  else { t1 with ctxWin := vupd t.ctxWin x (fun w => w + a) }

/-- Model energy of context x from counts (R239). -/
def ctxModel (s : State) (counts : List Nat) (x : Nat) : Nat :=
  match s.char with
  | some c => c.cIss * counts.getD (2 * x) 0 + c.cMat * counts.getD (2 * x + 1) 0
  | none => 0

/-- The shares of the four contexts of a domain in a frame: `res` are the resident ones, `last` the most recently resident. -/
def ctxShares (e s : Int) (ms : List Nat) (res : List Bool) (last : Option (Fin 4)) : List Int :=
  let n : Int := ((res.filter id).length : Nat)
  let m : Int := (ms.sum : Nat)
  (List.range 4).map (fun x =>
    let r : Int := if res.getD x false then 1 else 0
    if n = 0 then (if x = 0 then e else 0)
    else if m = 0 then shareOf (s * r) n + (if last.map (fun y => y.val) = some x then e - s else 0)
    else shareOf (s * m * r + (e - s) * (ms.getD x 0 : Nat) * n) (n * m))

/-- The energy of the frame that ended is attributed to the contexts of a tile or pair. -/
def attributeDom (s : State) (d : Nat) : State :=
  let g := s.time.gtc
  let T := (domOf s d).tile
  let e : Int := (((membersOf s d).map (fun x => (domOf s x).eFrame)).sum : Nat)
  let counts := sumCounts ((membersOf s d).map (fun x => if (domOf s x).tile.actQ ≠ 0 then siteCounts s x false else List.replicate 8 0))
  let issued (x : Nat) : Bool := counts.getD (2 * x) 0 != 0
  let lastAt := vmapIdx T.ctxLast (fun x u => if issued x then some g else u)
  let res := lastAt.toList.map (fun u => match u with | some y => decide (g < y + 1000000) | none => false)
  let last := match (List.range 4).find? issued with | some x => some (Fin.ofNat 4 x) | none => T.lastCtx
  let shares := ctxShares e (leakOf s d * 15625 : Nat) ((List.range 4).map (ctxModel s counts)) res last
  let T1 := (List.range 4).foldl (fun t x => addShare s.meter.stale s.meter.k x (shares.getD x 0) t)
    { T with ctxLast := lastAt, lastCtx := last }
  setTile s d (fun _ => T1)

/-- The energy of the non-tile domains enters the chip-shared account. -/
def attributeShared (s : State) : State :=
  let a : Int := ((((List.range 80).filter (fun d => !isTile d)).map (fun d => (domOf s d).eFrame)).sum : Nat)
  let m := s.meter
  let e := carryUj m.sharedUj (m.sharedPj + a) 1
  let i := carryUj m.sharedIn (m.sharedInPj + a * m.k) 16777216
  let m1 : Meter := { m with sharedUj := e.1, sharedPj := e.2 }
  { s with meter := if m.stale then { m1 with sharedIn := i.1, sharedInPj := i.2 } else { m1 with sharedWin := m.sharedWin + a } }

/-- The attribution of the frame before the one just latched. -/
def attributeAll (s : State) : State :=
  let s1 := ((List.range 64).filter (fun d => !isAbsent s d && !isOdd s d)).foldl attributeDom s
  setDoms (attributeShared s1) (fun _ D => { D with eFrame := 0, tile := { D.tile with actQ := 0 } })

/-! ### The latch (R16) -/

/-- A station's measurements of the latch. -/
def takeSense (s : State) (x : SenseSample) : State :=
  if isAbsent s x.dom then s else setDom s x.dom (fun D => { D with vmeas := x.vmeas, eFrame := x.energy })

/-- Summed current of a domain's own cells from their last reports. -/
def ownCurrent (d : Nat) (D : Domain) : Nat := ((List.range (nCells d)).map (fun k => repI (cellOf D k).rep)).sum

/-- The current sums; a pair joined by the frame that the latch serves has the lower voltage and the summed current of its sites (R155). -/
def latchSums (n : Nat) (s : State) : State :=
  let s1 := setDoms s (fun d D => { D with imeas := ownCurrent d D })
  (List.range 64).foldl (fun s d =>
    if isEven s d && decide ((domOf s d).pairAt + 4000 ≤ 250 * n) then
      let o := domOf s (d + 1)
      setDom s d (fun D => { D with imeas := D.imeas + o.imeas, vmeas := if o.vmeas < D.vmeas then o.vmeas else D.vmeas })
    else s) s1

/-- `IMEAS` of a latch joins Lantern's history: 0 while the cells are disabled (Table 07-4, R192). -/
def noteCurrent (D : Domain) : Domain := { D with iHist := ((if D.en then D.iHub else 0) :: D.iHist).take 8 }

/-- The latched values reach the hub (R16, R39). On stretched links only those of even frames do: a slot whose latch was not carried
reads the previous ones (R354). -/
def toHub (n : Nat) (s : State) : State :=
  if s.clk.stretch && n % 2 == 1 then setDoms s (fun _ D => noteCurrent { D with vPrev := D.vHub, iPrev := D.iHub })
  else setDoms s (fun _ D => noteCurrent { D with vPrev := D.vHub, vHub := D.vmeas, iPrev := D.iHub, iHub := D.imeas })

/-- What R205 asks of a latch: whether the domain was LIT and out of fall-back, and whether its tile's clock stood at the latch, or at any time
since the latch before. -/
def errLatch (s : State) : State :=
  setDoms s (fun d D =>
    { D with droop := { D.droop with uvSeen := D.droop.uvstop },
             lant := { D.lant with latOk := D.state == .lit && !D.fallback, latUv := isTile d && (D.droop.uvSeen || D.droop.uvstop),
                                   refUv := isTile d && D.droop.uvstop, cut := false } })

/-- One cell in `share` (R96), with the runs of causes 0x1 and 0x9 (R101). -/
def shareCell (itot wsum : Nat) (c : Cell) : Cell :=
  let tgt : Int := truncDiv (itot * c.weight.toNat : Nat) wsum
  let i : Int := (repI c.rep : Nat)
  let acc := clampInt (-15360) 15360 (c.acc - (i - tgt))
  let tr := rne acc 10
  { c with acc := acc, strim := tr, underRun := if tr = 15 ∧ 4 * i < tgt then c.underRun + 1 else 0,
           overRun := if tr = -15 ∧ 7 * tgt < 4 * i then c.overRun + 1 else 0 }

/-- `share` of R96 at a station. -/
def shareLatch (s : State) (d : Nat) : State :=
  let D := domOf s d
  let act := activeCells s d
  let wsum := (act.map (fun x => (cellAt s x).weight.toNat)).sum
  if !D.en || !(D.state == .lit || D.state == .shade || D.state == .held) || wsum = 0 then s
  else
    let itot := itotOf s d
    act.foldl (fun s x => setCellAt s x (shareCell itot wsum)) s

/-- What a latch does in one cell: frames without a handshake or with three bad reports in a row, and the sums of the crack window (R101,
R106); its overload timer (R89); and what it takes from its station (R87–R90). `us` marks the latch that ends a microsecond. -/
def cellLatch (D : Domain) (us : Bool) (c0 : Cell) : Cell :=
  let en := D.en
  let c := takeCode D (sendsCode D) (overloadStep us (if en && cellWorks c0 then repI c0.rep else 0) c0)
  let quiet := en && cellWorks c && (c.autoHold || decide (3 ≤ c.parFails))
  let i := repI c.rep
  let counts := en && c.st == .active && decide (512 ≤ i) && !c.rep.getLsbD 30
  { c with silent := if quiet then c.silent + 1 else 0, sumDrop := if counts then c.sumDrop + fld c.rep 21 12 else c.sumDrop,
           sumI := if counts then c.sumI + i else c.sumI, nWin := if counts then c.nWin + 1 else c.nWin }

/-- Cells that are still overloaded in a new epoch report OC again (R89). -/
def ovldLatch (s : State) (d : Nat) : State :=
  (stationCells s d).foldl (fun s x => if (cellAt s x).ovld && cellWorks (cellAt s x) then reportOvld s x else s) s

/-- Parking at a latch: `FLARE_ARM`, or a neighbour's cell enable that counts as it, aborts it too (R121); an abort holds for its own frame
only; the fire level returns once every working cell reports ACTIVE (R99, R146). -/
def parkAll (s : State) (d : Nat) : State :=
  let arm := armNow s.time.gtc (domOf s d) || (domOf s d).droop.forced
  let s1 := if arm then setDom s d (fun D => { D with park := { D.park with abort := true } }) else s
  let s2 := if parks s1 d then parkLatch s1 d else setDom s1 d (fun D => { D with park := { D.park with abort := false, qual := none } })
  let allActive := (stationCells s2 d).all (fun x =>
    let c := cellAt s2 x
    !cellWorks c || (c.st == .active && fld c.rep 24 22 == 0))
  if allActive then setDroop s2 d (fun r => { r with parkedFire := false }) else s2

/-- The latch counts of transitions: end condition, short, discharge (R114, R117, R122). -/
def transLatch (s : State) (d : Nat) : State :=
  let D := domOf s d
  let v := linkMv D.vmeas
  let near := decide ((codeMv D.tgt - v).natAbs ≤ 655360)
  let ref := if D.tr.ph = .leg1 then D.tr.ref else D.prof.vref
  let pkl := (stationCells s d).all (fun x => !cellWorks (cellAt s x) || (cellAt s x).rep.getLsbD 27)
  let short := (D.tr.ph == .leg1 || D.tr.ph == .leg2 || D.tr.ph == .settle) && decide (3276800 < ref - v) && pkl
  let ends := D.tr.ph == .leg2 || D.tr.ph == .settle || D.tr.ph == .lift
  let low := D.tr.ph == .discharge && decide (D.vmeas.toNat < 1600)
  setMembers s d (fun M => { M with tr := { M.tr with within := if ends && near then M.tr.within + 1 else 0,
                                                      shortRun := if short then M.tr.shortRun + 1 else 0,
                                                      ph := if low then .idle else M.tr.ph } })

/-- The latch counts of a derated domain; its divider ends after 40 latches below 90 % of the limit (R104). -/
def derateLatch (s : State) (d : Nat) : State :=
  let D := domOf s d
  let n := workingOf s d
  let der := ratingOf s d n == .derated
  let s1 := setArb s d (fun a => { a with derRun := if der && decide (1280 * n < D.imeas) then a.derRun + 1 else 0,
                                          derOk := if a.derate && decide (D.imeas < 1152 * n) then a.derOk + 1 else 0 })
  let a := (domOf s1 d).arb
  if a.derate && (!der || decide (40 ≤ a.derOk)) then driveThr (setArb s1 d (fun a => { a with derate := false, derOk := 0 })) d else s1

/-- What the station of one domain does at a latch. -/
def stationLatch (s : State) (d : Nat) : State :=
  if !stationActs s d then s
  else
    let s1 := shareLatch s d
    let us := decide ((s.time.gtc + 120) / 250 % 4 = 3)
    let s2 := (stationCells s1 d).foldl (fun s x => setCellAt s x (cellLatch (domOf s x.1) us)) s1
    let s3 := parkAll (ovldLatch s2 d) d
    if isOdd s3 d then s3
    else
      supLatch (derateLatch (transLatch (droopLatch s3 d) d) d) d

/-- The cell energy of the frame just latched enters each domain's running sum, a pair's the even member's; the meter takes the sum of the A_d, in
whole nJ each (R239, R270, R283). -/
def latchEnergy (s : State) : State :=
  let s1 := (List.range 80).foldl (fun u d => setDom u (leader s d) (fun D => { D with latPj := D.latPj + (domOf s d).eFrame })) s
  meterLatch ((List.range 80).map (fun d => (domOf s1 d).latPj / 1000)).sum s1

/-- `FRAME_MK` is a pulse of one cycle (R40): it has ended by the next latch. -/
def pulseEnd (s : State) : State := setDoms s (fun _ D => { D with tile := { D.tile with frameMk := false } })

/-- What a fault record takes from the last latch, beside `VMEAS` and the current (Table 16-9). -/
def latchedFields (D : Domain) : Domain :=
  { D with latT := D.maxT, latCode := D.code, cells := D.cells.map (fun c => { c with latI := repI c.rep }) }

/-- `FRAME_LATCH`: the latch for frame n, 120 ns before it begins (R16). -/
def execFrameLatch (n : Nat) (sense : List SenseSample) (s : State) : Host.Outcome State Fault Refusal :=
  let s0 := attributeAll (now (250 * n - 120) s)
  let s1 := errLatch (toHub n (latchSums n (latchEnergy (sense.foldl takeSense s0))))
  .next (foldDoms (setDoms (pulseEnd s1) (fun _ D => latchedFields D)) stationLatch)

/-! ### Waveforms (R276) -/

/-- The waveform record of the frame that ends (Table 12-8). -/
def waveRec (D : Domain) : DWord :=
  BitVec.ofNat 64 (D.vPrev.toNat + satNat 16 D.iPrev * 2 ^ 16 + D.stCode % 1024 * 2 ^ 32 + D.droop.crossed.toNat * 2 ^ 42 +
    D.droop.flRep.toNat * 2 ^ 46 + (BitVec.ofInt 16 (sat16 (rne (vget D.lant.ipred 1) 10))).toNat * 2 ^ 48)

/-- The physical domains that any port's stream names for waveforms. -/
def waveDoms (s : State) : List Nat :=
  let names := (s.ports.toList.flatMap (fun P =>
    (traceSets P.trace).flatMap (fun o => o.waves.toList))).map BitVec.toNat
  (((names.filter (fun l => decide (l < 80))).map (physOf s)).filter (fun d => !isAbsent s d)).eraseDups

/-- The records of the frame that ends are taken, and its crossings forgotten. -/
def waveCapture (frame : Nat) (s : State) : State :=
  let l := (waveDoms s).map (fun d => (frame, (Fin.ofNat 80 d : Dom), waveRec (domOf s d)))
  let s1 : State := { s with input := { s.input with wave := s.input.wave ++ l } }
  setDoms s1 (fun _ D => { D with droop := { D.droop with crossed := 0 } })

/-! ### The frame start (R17) -/

/-- A retired lane leaves its position; a spare takes the position of the first mismatch, or else the lowest one that has
no lane (R169). A self-test of the spare is abandoned. -/
def laneTakeover (s : State) : State :=
  let vac (x : Option (Fin 17)) : Bool := match x with | some l => (vget s.lanes l).retired | none => true
  let spare := spareLane s
  let open_ := (List.range 16).filter (fun p => vac (vget s.laneOf p))
  let pick := match firstMism s.mism with
    | some m => some m.pos
    | none => open_.head?
  let s1 : State := { s with laneOf := vmapIdx s.laneOf (fun _ x => if vac x then none else x), mism := [] }
  match spare, pick with
  | some l, some p =>
    let s2 := abandonTests s1 (fun u => match u with | .lane x => x.val == l | _ => false)
    { s2 with laneOf := vset s2.laneOf p (some (Fin.ofNat 17 l)) }
  | _, _ => s1

/-- The counts of the frame that ended: throttled frames of the epoch, and the histories of Lantern's features. -/
def frameCounts (g : Nat) (D : Domain) : Domain :=
  { D with codeFrame := D.stCode, epThr := if g % 2000 = 0 then 0 else D.epThr + (if D.thrFrame then 1 else 0),
           thrHist := (D.thrFrame :: D.thrHist).take 4, dtHist := (D.dtFrame :: D.dtHist).take 4, dtFrame := 0, thrFrame := false }

/-- Segments of the tie close or open, one at each frame start (R126, R128). -/
def tieFrame (D : Domain) : Domain :=
  if D.pair == .even && !D.opening && decide (D.segs < 16) then { D with segs := D.segs + 1 }
  else if D.opening && decide (0 < D.segs) then { D with segs := D.segs - 1, opening := decide (1 < D.segs) }
  else { D with opening := false }

/-- Temperature and band reach the CLE (Table 01-3), and a new band's waveform the cells, also of DARK domains (R93, R252); the hottest
reading of the crack window is kept (R106). Station tables found bad in the frame before have been reloaded from the hub, which holds the same values
(R383). -/
def tempFrame (D : Domain) : Domain :=
  { D with band := D.bandNew, tblBad := false, cells := if D.band = D.bandNew then D.cells else D.cells.map (takeWave D.bandNew),
           maxT := clampInt (-2048) 2047 D.tempNew, winT := Max.max D.winT D.tempNew }

/-- The checks, hints and step mark that a frame start applies to a tile's table (R193). -/
def hintFrame (D : Domain) : Domain := { D with lant := { D.lant with hints := D.lant.hints.filterMap ageHint } }

/-- A domain whose checker failed enters fall-back (R187). -/
def fallbackFrame (D : Domain) : Domain :=
  if D.sup.fbPend then { D with fallback := true, sup := { D.sup with fbPend := false } } else D

/-- A pair joins at t + 4,000: one station runs its cells, all unparked, and its checker starts (R126, R185). -/
def joinFrame (s : State) (d : Nat) : State :=
  if isEven s d && s.time.gtc == (domOf s d).pairAt + 4000 then
    let s1 := unparkAll s d
    if supRuns (domOf s1 d) then supAgain s1 d else s1
  else s

/-- At the first frame of leg 2 the bound program's initial image is loaded (R167). -/
def legImage (s : State) (d : Nat) (was : Trans) : State :=
  let D := domOf s d
  if D.tr.ph = .leg2 ∧ was ≠ .leg2 then loadInit s d else s

/-- The hub's work for one leader at a frame start, but for the arbiter's: its control logic rests while a control reset is in progress
(R365). -/
def domFrame (n : Nat) (s : State) (d : Nat) : State :=
  if isAbsent s d || isOdd s d then s
  else
    let was := (domOf s d).tr.ph
    let s1 := profileFrame (joinFrame s d) d
    if s1.clk.crstBusy then s1
    else freqFrame (rcFrame (presentPred (errFrame (legImage s1 d was) d) d n) d) d

/-- The arbiter's fast path for one leader at a frame start: its reclaim comes before any level is counted (R231). -/
def domArb (s : State) (d : Nat) : State :=
  if isAbsent s d || isOdd s d || s.clk.crstBusy then s else arbFrame s d

/-- A leader's levels of the frame are counted once every reclaim of the frame start is done (R218, R235). -/
def domCount (s : State) (d : Nat) : State :=
  if isAbsent s d || isOdd s d || s.clk.crstBusy then s else lagFrame (arbCount s d) d

/-- A station at the frame start: the clock stops that end, the record of the hub's down frame unless it was lost, and the tile clock
outputs of the frame (R38, R39, R138, R148). -/
def stationFrame (n : Nat) (s : State) (d : Nat) : State :=
  if isAbsent s d || isOdd s d then s
  else driveThr (setMembers (hubRecord (uvRelease s d) n d) d (fun M => { M with thrFrame := false })) d

/-- A tile site's byte of the epoch's input block (Table 17-3 part 3), if it is not 0. -/
def siteByte (n : Nat) (s : State) (d : Nat) : List (Nat × Nat × Byte) :=
  let T := (domOf s d).tile
  let b := bitAt T.wait 0 + bitAt T.markTaken 1 + bitAt T.hintAcc 2 + bitAt (domOf s d).droop.uvstop 3
  if b = 0 then [] else [(n % 8, d, BitVec.ofNat 8 b)]

/-- The site bytes of a frame, and the flags they report cleared. -/
def siteFrame (n : Nat) (s : State) : State :=
  let l := (List.range 64).flatMap (siteByte n s)
  let s1 : State := { s with input := { s.input with sites := s.input.sites ++ l } }
  setDoms s1 (fun _ D => { D with tile := { D.tile with markTaken := false, hintAcc := false } })

/-- What the slots of the frame read of each domain: the values of its latch and its condition now (R16, R153). -/
def frameInputs (s : State) : State := setDoms s (fun d D => { D with vFr := D.vHub, iFr := D.iHub, use := slotUse s d })

/-- Whether the down frame of this instant leaves a domain's station without the hub's own record (R39). -/
def markLost (s : State) : State :=
  setDoms s (fun d D => { D with downBad := !downWhole (linkOf s (dieOf d)) s.time.gtc })

/-- The report channel of a good up frame brings the hub the reports of 30 cells of each die, in ascending cell number over the eight
frames of an epoch, or over eight stretched ones of two epochs (R92, R354). -/
def forwardReports (n : Nat) (s : State) : State :=
  let turn := if s.clk.stretch then n / 2 % 8 else n % 8
  (List.range 5).foldl (fun s e =>
    if !linkCarries (linkOf s e) || (linkOf s e).badUp.contains s.time.gtc || (s.clk.stretch && n % 2 == 1) then s
    else
      let cells := (domsOfDie e).flatMap (fun d => (List.range (nCells d)).map (fun k => (d, k)))
      ((cells.drop (30 * turn)).take 30).foldl (fun s x => setCellAt s x (fun c => { c with hubRep := c.rep })) s) s

/-- `FRAME_MK` goes out to every present site; an ABSENT one keeps its outputs at their reset values (R40). -/
def pulseStart (s : State) : State :=
  setDoms s (fun d D => { D with tile := { D.tile with frameMk := isTile d && !isAbsent s d } })

/-- `FRAME_START`: a CLE frame begins (R17). The waveform record of an epoch's last frame is taken by its shutter. -/
def execFrameStart (n : Nat) (s : State) : Host.Outcome State Fault Refusal :=
  let s0 := if n % 8 = 0 then now (250 * n) s else waveCapture (n % 8 - 1) (now (250 * n) s)
  let s1 := setDoms (if s0.clk.crstBusy then s0 else laneTakeover s0) (fun _ D => hintFrame (fallbackFrame (tempFrame (tieFrame (frameCounts s0.time.gtc D)))))
  let s2 := foldDoms (foldDoms (foldDoms (markLost s1) (domFrame n)) domArb) domCount
  .next (frameInputs (siteFrame n (pulseStart (forwardReports n (foldDoms s2 (stationFrame n))))))

end Sys2Proof.Machine
end

