-- ==== Sys2Proof/Machine/Meter.lean ====
section
/-! DEFINITION. The metering converter: scans, windows, calibration, input power, staleness and plausibility (R61, R221, R240, R277–R285). -/

namespace Sys2Proof.Machine

/-! ### Scans (R277) -/

/-- Window length in MCLK cycles (Table 12-9), by the selection that the channel began with. A loss of sync during its settling acts on the next
channel; a lock found by the window's start counts (R277, R278). -/
def windowLen (m : Meter) : Nat :=
  match m.chMains.toNat with
  | 0 => 81920
  | 1 => 68267
  | 2 => if m.chLost && m.syncLost then 81920 else m.period
  | _ => Nat.min 98304 (Nat.max 16384 m.win.toNat)

/-- The lowest masked channel at or above a number. -/
def nextChannel (m : Meter) (c : Nat) : Option Nat := (List.range 16).find? (fun i => decide (c ≤ i) && m.mask.getLsbD i)

/-- The multiplexer switches to a channel (R277). -/
def toChannel (c : Nat) (m : Meter) : Meter :=
  { m with phase := .settle, ch := BitVec.ofNat 4 c, chMains := m.mains, chLost := m.syncLost }

/-- A scan starts at the lowest masked channel; an empty mask leaves the meter idle. -/
def startScan (m : Meter) : Meter :=
  match nextChannel m 0 with
  | some c => { toChannel c m with go := true, c0 := none }
  | none => { m with go := false, phase := .idle }

/-- After a channel: the next one, or the end of the scan, with the next scan in continuous mode. `SCAN` counts the scans completed. -/
def nextConv (m : Meter) : Meter :=
  if m.gated then { m with go := false, phase := .idle }
  else
    match nextChannel m (m.ch.toNat + 1) with
    | some c => toChannel c m
    | none =>
      let m1 := { m with done := true, scanCnt := m.scanCnt + 1, c0 := none }
      if m.cont then startScan m1 else { m1 with go := false, phase := .idle }

/-- A calibration starts (R280). -/
def startCal (cmd : BitVec 4) (m : Meter) : Meter :=
  { m with phase := .cal, calCmd := cmd, calPend := 0, recal := BitVec.allOnes 16 }

/-- Whether a calibration runs or waits for the end of a conversion. -/
def calBusy (m : Meter) : Bool := m.phase == .cal || m.calPend != 0

/-- The GO bit of a write: rejected with an empty mask or while a calibration runs; without effect during a scan (R277, R280).
A meter that is not clocked takes no GO (R361). -/
def meterGo (m : Meter) : Meter :=
  if m.phase = .cal then { m with rej := true }
  else if m.go then m
  else if m.mask = 0 then { m with rej := true }
  else if m.gated then m
  else startScan m

/-- The calibration command of a write, with the channel and target of that write (Table 12-10): it acts at the end of the conversion in
progress. -/
def meterCal (cmd : BitVec 4) (m : Meter) : Meter :=
  if cmd = 0 then m
  else if calBusy m || !([1, 2, 4, 5].contains cmd.toNat) then { m with rej := true }
  else
    let m1 := { m with calOn := m.calCh, calTo := m.calFs }
    if m.phase = .idle then startCal cmd m1 else { m1 with calPend := cmd }

/-- A write of `DG.MTR_CTRL` (Table 12-12). -/
def writeMtrCtrl (s : State) (val : Word) : State :=
  let m := s.meter
  let mains := val.extractLsb' 2 2
  let m1 := { m with calFs := val.extractLsb' 16 16, calCh := val.extractLsb' 8 4, mains := mains, cont := bitOf val 1 }
  let m2 := if mains = m.mains then m1 else { m1 with syncLost := true, edges := 0, lastEdge := none }
  let m3 := if bitOf val 0 then meterGo m2 else m2
  staleUpdate { s with meter := meterCal (val.extractLsb' 4 4) m3 }

/-- A write of the meter control register while setup writes are heard. -/
def mtrRow (val : Word) (t : Nat) (s : State) : State :=
  let s := ackWrite (now t s)
  if setupOpen s then writeMtrCtrl s val else s

/-- `MTR_GO` (R277). -/
def execMtrGo (val : Word) (t : Nat) (s : State) : Host.Outcome State Fault Refusal := .next (mtrRow val t s)

/-- `CAL_SYSTEM_ZERO` (R280). -/
def execCalSystemZero (val : Word) (t : Nat) (s : State) : Host.Outcome State Fault Refusal := .next (mtrRow val t s)

/-- `CAL_SYSTEM_FULL_SCALE` (R280). -/
def execCalSystemFullScale (val : Word) (t : Nat) (s : State) : Host.Outcome State Fault Refusal := .next (mtrRow val t s)

/-- `CAL_SELF` (R280). -/
def execCalSelf (val : Word) (t : Nat) (s : State) : Host.Outcome State Fault Refusal := .next (mtrRow val t s)

/-- `CAL_SELF_ALL` (R280). -/
def execCalSelfAll (val : Word) (t : Nat) (s : State) : Host.Outcome State Fault Refusal := .next (mtrRow val t s)

/-- `METER_SETTLE_END`: the window begins, its length fixed (R277). -/
def execMeterSettleEnd (t : Nat) (s : State) : Host.Outcome State Fault Refusal :=
  let s := now t s
  if s.meter.phase = .settle then .next (setMeter s (fun m => windowFrom t { m with phase := .window, winN := windowLen m })) else .next s

/-! ### Results (R279, R283, R284) -/

/-- raw of R279. -/
def rawResult (balance : Int) (n : Nat) : Int := rdiv (balance * 8388608) n

/-- The unclamped result of R279: OFS signed, GAIN Q2.22. -/
def scaledResult (raw : Int) (ofs gain : BitVec 24) : Int := rne ((raw - ofs.toInt) * gain.toNat) 22

/-- Whether a result is flagged out of range (R279). -/
def rangeBad (raw x : Int) : Bool := decide (raw < -419430 ∨ 8388607 < raw) || x != sat24 x

/-- A LINEAR11 value times 2^16: PRESUMED, from PMBus (log 17). -/
def linear11 (w : BitVec 16) : Int := (w.extractLsb' 0 11).toInt * 2 ^ ((w.extractLsb' 11 5).toInt + 16).toNat

/-- CH0 differs from READ_VIN by more than 2 %. -/
def vinOff (c : Int) (w : BitVec 16) : Bool :=
  let a := c * 50 * 65536
  let b := linear11 w * 8388608
  decide (2 * b < (a - b).natAbs * 100)

/-- Conditions 0x01–0x03 of Table 12-11 after the result of a channel. -/
def plausChannel (s : State) (ch : Nat) (c : Int) : State :=
  let code := (BitVec.ofInt 24 c).toNat
  if ch = 14 then plausCond s 1 14 code (!decide (4185915 ≤ c ∧ c ≤ 4202693))
  else if ch = 15 then plausCond s 2 15 code (decide (67 < c.natAbs))
  else if ch = 0 then (match s.bus.lastVin with | some w => plausCond s 3 0 code (vinOff c w) | none => s)
  else s

/-- P_in of R283, in grains. -/
def pIn (c0 c1 : Int) : Nat := if c0 < 0 ∨ c1 < 0 then 0 else (c0 * c1 * 15625 / 2 ^ 38).toNat

/-- E_in of R283, in µJ. -/
def eIn (c0 c1 : Int) (n : Nat) : Nat := if c0 < 0 ∨ c1 < 0 then 0 else (c0 * c1 * n * 1953125 / 2 ^ 51).toNat

/-- The input guard's correction; `CAP_IN` = 0 disables it (R220, R221). -/
def incorrUpdate (s : State) (p : Nat) : State :=
  setArbChip s (fun a => { a with incorr :=
                                    if a.capIn = 0 then a.incorr
                                    else if a.capIn < p then a.incorr + ceilDiv ((p - a.capIn) * 13) 16
                                    else if p + 320 < a.capIn then a.incorr - Nat.min a.incorr 32 else a.incorr })

/-- A CH1 result that follows a CH0 result of the same scan (R221, R240, R283). -/
def pairResult (s : State) (c0 c1 : Int) (t : Nat) : State :=
  let n := s.meter.winN
  let p := pIn c0 c1
  let s1 := setMeter s (fun m => { m with pIn := p, c1 := c1 })
  windowTo (if s1.meter.stale then s1 else incorrUpdate s1 p) t (eIn c0 c1 n) n

/-- `METER_WINDOW_END`: the modulator's positive and negative decisions give the result, its flags, input power and the plausibility conditions;
then the next channel, the end of the scan, or a waiting calibration (R277–R284). -/
def execMeterWindowEnd (pos neg : Nat) (t : Nat) (s : State) : Host.Outcome State Fault Refusal :=
  let s := now t s
  let m := s.meter
  if m.phase ≠ .window then .next s
  else
    let ch := m.ch.toNat
    let raw := rawResult ((pos : Int) - neg) m.winN
    let x := scaledResult raw (vget m.ofs ch) (vget m.gain ch)
    let res := sat24 x
    let bad := rangeBad raw x
    let pair := ch = 1 ∧ m.c0.isSome
    let s1 := staleUpdate (setMeter s (fun m => { m with
      c0 := if ch = 0 then some res else m.c0, kGood := m.kGood || decide pair,
      recal := m.recal &&& ~~~ (BitVec.twoPow 16 ch) }))
    let s2 := setMeter s1 (fun m => { m with data := vset m.data ch
                                               { valid := true, stale := m.stale, range := bad, scan := m.scanCnt, res := BitVec.ofInt 24 res } })
    let s3 := if bad then raise s2 0 0x81 0x9 ch 0 else s2
    let s4 := plausChannel s3 ch res
    let s5 := match m.c0 with | some c0 => if ch = 1 then pairResult (staleUpdate s4) c0 res t else s4 | none => s4
    let m5 := if s5.meter.calPend ≠ 0 then startCal s5.meter.calPend s5.meter else nextConv s5.meter
    .next (staleUpdate { s5 with meter := m5 })

/-! ### Calibration (R280, R281) -/

/-- A quotient rounded to nearest for a divisor of either sign. -/
def rdivSigned (x y : Int) : Int := if 0 < y then rdiv x y else -(rdiv x (-y))

/-- A system value written, or CALERR where the register that the command computes would leave its range (R280), and its S1 record, which goes
through the MC (R391). -/
def sysCal (s : State) (zero : Bool) (ch : Nat) (ofs gain : Int) : State :=
  if if zero then 83886 < ofs.natAbs else gain < 0x300000 ∨ 0x500000 < gain then setMeter s (fun m => { m with calErr := true })
  else
    let s1 := setMeter s (fun m => { m with ofs := vset m.ofs ch (BitVec.ofInt 24 ofs), gain := vset m.gain ch (BitVec.ofInt 24 gain) })
    if mcRunning s then
      let c : SysCal := { ch := Fin.ofNat 16 ch, ofs := BitVec.ofInt 24 ofs, gain := BitVec.ofInt 24 gain }
      let s2 : State := { s1 with strata := { s1.strata with cals := s1.strata.cals ++ [c] } }
      (queueRecord s2 1 0x0101 s.time.gtc (leBytes 4 ch ++ leBytesS 4 ofs ++ leBytesS 4 gain)).1
    else s1

/-- One channel's raw results applied under a command. A self-calibration whose two results are equal has no stated gain:
it is free (log 23). -/
def calChannel (cmd : Nat) (s : State) (r : CalRaw) : State :=
  let m := s.meter
  let ch := r.ch.val
  if cmd ≠ 5 ∧ ch ≠ m.calOn.toNat then s
  else if cmd = 1 then sysCal s true ch r.rawZ (vget m.gain ch).toNat
  else if cmd = 2 then
    let y := r.rawZ - (vget m.ofs ch).toInt
    sysCal s false ch (vget m.ofs ch).toInt (if y = 0 then 0 else rdivSigned (m.calTo.toNat * 256 * 2 ^ 22 : Nat) y)
  else
    let y := r.rawR - r.rawZ
    let f := freshBelow s 16777216
    let g : BitVec 24 := if y = 0 then BitVec.ofNat 24 f.1 else BitVec.ofInt 24 (rdivSigned (2 ^ 45) y)
    setMeter (if y = 0 then f.2 else s) (fun m => { m with ofs := vset m.ofs ch (BitVec.ofInt 24 r.rawZ), gain := vset m.gain ch g })

/-- `CALIBRATION_DONE`: OFS and GAIN are written, CALDONE set, and the scan resumes at the next channel (R280). -/
def execCalibrationDone (res : List CalRaw) (t : Nat) (s : State) : Host.Outcome State Fault Refusal :=
  let s := now t s
  if s.meter.phase ≠ .cal then .next s
  else
    let s1 := res.foldl (calChannel s.meter.calCmd.toNat) s
    let s2 := setMeter s1 (fun m =>
      let m1 := { m with calDone := true, calCmd := 0, recal := BitVec.allOnes 16, phase := .idle }
      if m.go then nextConv m1 else m1)
    .next (staleUpdate s2)

/-! ### Mains sync (R61, R278) -/

/-- `MAINS_SYNC_EDGE`: `mclks` is the period in MCLK cycles since the previous accepted edge. The first edge after a loss has
no accepted edge before it and is taken; every other edge is accepted 15.4–22.2 ms after the last accepted one. -/
def execMainsSyncEdge (mclks : Nat) (t : Nat) (s : State) : Host.Outcome State Fault Refusal :=
  let s := now t s
  let m := s.meter
  if m.mains ≠ 2 then .next s
  else
    match m.lastEdge with
    | none => .next (setMeter s (fun m => { m with lastEdge := some s.time.run, edges := 1 }))
    | some u =>
      if u + 15400000 ≤ s.time.run ∧ s.time.run ≤ u + 22200000 then
        .next (setMeter s (fun m => { m with lastEdge := some s.time.run, edges := 2, period := mclks, syncLost := false }))
      else .next (setMeter s (fun m => { m with edgeRej := if m.edgeRej = 0xFFFF then 0xFFFF else m.edgeRej + 1 }))

/-- `SYNC_LOST`: no edge accepted for 40 ms (R278). -/
def execSyncLost (t : Nat) (s : State) : Host.Outcome State Fault Refusal :=
  let s := now t s
  match s.meter.lastEdge with
  | some u =>
    if s.meter.mains = 2 ∧ u + 40000000 ≤ s.time.run then .next (setMeter s (fun m => { m with syncLost := true, edges := 0, lastEdge := none }))
    else .next s
  | none => .next s

end Sys2Proof.Machine
end

