-- ==== Sys2Proof/Machine/Clocks.lean ====
section
/-! DEFINITION. Clock sources, PLLs, monitors, forced clocks, power modes, the frequency counter and the start of the MC (R349–R363, R367). -/

namespace Sys2Proof.Machine

/-- The clock registers changed. -/
def setClk (s : State) (f : Clocks → Clocks) : State := { s with clk := f s.clk }

/-! ### PLLs (R349–R351) -/

/-- A PLL's configuration. -/
def pllOf (c : Clocks) : PllId → PllCfg
  | .c => c.pllC
  | .t => c.pllT
  | .m => c.pllM

/-- Whether a PLL is locked. -/
def pllLocked (c : Clocks) : PllId → Bool
  | .c => c.lockC
  | .t => c.lockT
  | .m => c.lockM

/-- The registers with a PLL's lock bit set or cleared. -/
def setLock (b : Bool) (c : Clocks) : PllId → Clocks
  | .c => { c with lockC := b }
  | .t => { c with lockT := b }
  | .m => { c with lockM := b }

/-- The registers with a PLL's configuration replaced. -/
def setPll (x : PllCfg) (c : Clocks) : PllId → Clocks
  | .c => { c with pllC := x }
  | .t => { c with pllT := x }
  | .m => { c with pllM := x }

/-- Whether a PLL is the selected source of its mux; for PLL-M, whether MCLK is enabled (R350). -/
def pllSelected (c : Clocks) : PllId → Bool
  | .c => c.csrc == 1 || c.ccur == 1
  | .t => c.ssrc == 1 || c.scur == 1
  | .m => c.men

/-- The bounds of R349: VCO and phase detector in MHz, output in Hz, all without division. -/
def pllOk (p : PllId) (x : PllCfg) : Bool :=
  let r := x.rdiv.toNat
  let n := x.ndiv.toNat
  let q := r * x.pdiv.toNat
  decide (1 ≤ r ∧ 16 ≤ n ∧ 1 ≤ x.pdiv.toNat ∧ 750 * r ≤ 25 * n ∧ 25 * n ≤ 1650 * r ∧ r ≤ 250) &&
  (match p with
   | .c => decide (400 * q ≤ 25 * n ∧ 25 * n ≤ 800 * q)
   | .t => decide (200 * q ≤ 25 * n ∧ 25 * n ≤ 400 * q)
   | .m => decide (4091904 * q ≤ 25000000 * n ∧ 25000000 * n ≤ 4100096 * q))

/-- Whether CCLK runs below 800 MHz (R354). -/
def stretched (c : Clocks) : Bool :=
  c.ccur != 1 || decide (25 * c.pllC.ndiv.toNat < 800 * (c.pllC.rdiv.toNat * c.pllC.pdiv.toNat))

/-- `STRETCH` follows CCLK (R354). -/
def stretchUpdate (s : State) : State := setClk s (fun c => { c with stretch := stretched c })

/-- `PLL_CFG_WRITE`: ignored with CFGREJ while the PLL is selected or when the write breaks R349; a change unlocks it (R350). -/
def execPllCfgWrite (pll : PllId) (val : Word) (t : Nat) (s : State) : Host.Outcome State Fault Refusal :=
  let s := ackWrite (now t s)
  let x : PllCfg := { en := bitOf val 31, rdiv := val.extractLsb' 24 7, ndiv := val.extractLsb' 10 14, pdiv := val.extractLsb' 2 8 }
  if !setupOpen s then .next s
  else if pllSelected s.clk pll || !pllOk pll x then .next (setClk s (fun c => { c with cfgRej := true }))
  else if x = pllOf s.clk pll then .next s
  else .next (setClk s (fun c => setLock false (setPll x c pll) pll))

/-- A monitored clock runs, or is declared stopped or out of range. -/
def setRun (c : Clocks) (i : Nat) (b : Bool) : Clocks := { c with run := vset c.run i b }

/-- The bring-up switch of a mux whose PLL has locked, always under CHECKED (R358, Table 15-7). MCLK stays stopped while the clocks are forced
(R360). -/
def bringUpSwitch (c : Clocks) (p : PllId) : Clocks :=
  match p with
  | .c => if c.csrc = 1 ∧ c.ccur = 0 ∧ !c.lost then { c with cBusy := true, cWait := false } else c
  | .t => if c.ssrc = 1 ∧ c.scur = 0 ∧ !c.lost then { c with sBusy := true, sWait := false } else c
  | .m => if c.men ∧ !c.lost then setRun c 3 true else c

/-- `PLL_LOCK` (R350). -/
def execPllLock (pll : PllId) (t : Nat) (s : State) : Host.Outcome State Fault Refusal :=
  let s := now t s
  if !(pllOf s.clk pll).en || s.clk.pwrCur == 2 then .next s
  else .next (staleUpdate (setClk s (fun c => bringUpSwitch (setLock true c pll) pll)))

/-- Instance of PLL_UNLOCK. -/
def pllInst : PllId → Nat
  | .c => 8
  | .t => 9
  | .m => 0xA

/-- Whether a PLL drives its clock now. -/
def pllInUse (c : Clocks) : PllId → Bool
  | .c => c.ccur == 1
  | .t => c.scur == 1
  | .m => c.men

/-- `PLL_UNLOCK`: PLL_UNLOCK as contained for a selected PLL; its output stays selected (R351). -/
def execPllUnlock (pll : PllId) (t : Nat) (s : State) : Host.Outcome State Fault Refusal :=
  let s := now t s
  if !pllLocked s.clk pll then .next s
  else
    let s1 := setClk s (fun c => setLock false c pll)
    .next (if pllInUse s.clk pll then raise s1 1 0x32 0xA (pllInst pll) 0 else s1)

/-! ### Switching (R355–R358) -/

/-- Whether a source of a mux is ready: 0 FOSC running, 1 the PLL locked and its reference running (R355). -/
def sourceReady (c : Clocks) (p : PllId) (src : Nat) : Bool :=
  if src = 0 then vget c.run 5 else pllLocked c p && (pllOf c p).en && vget c.run 0

/-- One mux's field of a write: none for a value that changes nothing; a switch during a switch, or one that is refused,
leaves the field as it is (R355, R356). -/
def switchMux (c : Clocks) (p : PllId) (cur new : BitVec 2) (busy : Bool) : Option Bool :=
  if new = cur ∨ 1 < new.toNat then none
  else if busy then some false
  else if !c.swMode && !sourceReady c p new.toNat then some false
  else some true

/-- `CLK_SRC_SWITCH`: a write of `DG.CLK_SRC` (R355–R357). -/
def execClkSrcSwitch (val : Word) (t : Nat) (s : State) : Host.Outcome State Fault Refusal :=
  let s := ackWrite (now t s)
  if !setupOpen s then .next s
  else
    let c0 := s.clk
    let nc := val.extractLsb' 0 2
    let ns := val.extractLsb' 4 2
    let c1 := { c0 with men := bitOf val 8 }
    let c2 := if c1.men = c0.men then c1 else setRun c1 3 (c1.men && c1.lockM && !c1.lost)
    let c3 := match switchMux c2 .c c2.csrc nc c2.cBusy with
      | none => c2
      | some false => { c2 with refused := true }
      | some true => { c2 with csrc := nc, cBusy := true, cWait := c2.swMode }
    let c4 := match switchMux c3 .t c3.ssrc ns c3.sBusy with
      | none => c3
      | some false => { c3 with refused := true }
      | some true => { c3 with ssrc := ns, sBusy := true, sWait := c3.swMode }
    .next (staleUpdate { s with clk := c4 })

/-- Whether a source of a mux has stopped: FOSC, or a PLL that is disabled or has lost its reference (R357). -/
def sourceStopped (c : Clocks) (p : PllId) (src : Nat) : Bool :=
  if src = 0 then !vget c.run 5 else !(pllOf c p).en || !vget c.run 0

/-- Whether a switch of a mux hangs: one begun under WAITLOW completes only while neither its old nor its new clock has stopped (R357;
log 102). -/
def switchHangs (c : Clocks) (mux : MuxId) (oldStopped : Bool) : Bool :=
  match mux with
  | .cclk => c.cWait && (oldStopped || sourceStopped c .c c.csrc.toNat)
  | .sclk => c.sWait && (oldStopped || sourceStopped c .t c.ssrc.toNat)

/-- `MUX_SWITCH_DONE`: the mux takes its source; with a stopped old clock the switch is asynchronous under CHECKED and raises
CLK_SWITCH (R356); under WAITLOW a stopped clock on either side keeps it from completing (R357). Forced clocks stay forced (R360). -/
def execMuxSwitchDone (mux : MuxId) (oldStopped : Bool) (t : Nat) (s : State) : Host.Outcome State Fault Refusal :=
  let s := now t s
  let busy := match mux with | .cclk => s.clk.cBusy | .sclk => s.clk.sBusy
  if !busy || switchHangs s.clk mux oldStopped then .next s
  else
    let s1 := setClk s (fun c =>
      let c1 := { c with swDone := true, swAsync := oldStopped }
      match mux with
      | .cclk => { c1 with cBusy := false, ccur := if c.lost then c.ccur else c.csrc }
      | .sclk => { c1 with sBusy := false, scur := if c.lost then c.scur else c.ssrc })
    let s2 := stretchUpdate s1
    .next (if oldStopped then raise s2 0 0x31 0xA (match mux with | .cclk => 0x20 | .sclk => 0x21) 0 else s2)

/-! ### Monitors (R359, R360) -/

/-- Instance of a monitored clock (Table 15-3). -/
def clockInst : MonClock → Nat
  | .xa => 0
  | .cclk => 1
  | .sclk => 2
  | .mclk => 3
  | .hclk => 4
  | .fosc => 5
  | .xb => 6

/-- Whether a clock's monitor is enabled (Table 15-11). -/
def monitored (c : Clocks) : MonClock → Bool
  | .mclk => c.mon.getLsbD 0
  | .hclk => c.mon.getLsbD 1
  | .fosc => c.mon.getLsbD 2
  | _ => true

/-- Class of CLK_LOSS for a clock (Table 15-3). -/
def lossClass (c : Clocks) : MonClock → Nat
  | .mclk | .hclk => 1
  | .fosc => if c.ccur = 0 ∨ c.scur = 0 then 2 else 1
  | _ => 2

/-- The clocks are forced (R360): from FOSC, or after the loss of FOSC from the PLLs where they are locked; MCLK stops, and
every station holds its domains where the links cannot run (R39). -/
def forceClocks (s : State) (fromPll : Bool) : State :=
  let s1 := setClk s (fun c =>
    let c1 := { c with lost := true, forcedSince := true, cBusy := false, sBusy := false,
                       ccur := if fromPll && c.lockC then 1 else 0, scur := if fromPll && c.lockT then 1 else 0 }
    setRun (setRun (setRun c1 3 false) 1 true) 2 true)
  let s2 := staleUpdate (stretchUpdate s1)
  if linksDark s2 then foldDoms s2 holdUnlinked else s2

/-- `CLOCK_MONITOR_FAULT`: CLK_LOSS with the reaction of Table 15-3. -/
def execClockMonitorFault (c : MonClock) (t : Nat) (s : State) : Host.Outcome State Fault Refusal :=
  let s := now t s
  let i := clockInst c
  if !monitored s.clk c || !(vget s.clk.run i) then .next s
  else
    let cls := lossClass s.clk c
    let s1 := raiseAtOnce (setClk s (fun k => setRun k i false)) cls 0x30 0xA i 0
    match c with
    | .xa | .cclk | .sclk => .next (forceClocks s1 false)
    | .fosc => .next (if cls = 2 then forceClocks s1 true else s1)
    | .mclk => .next (staleUpdate s1)
    | .hclk | .xb => .next s1

/-- `CLOCK_RETURN`: the monitor reports the clock running again. Forced clocks keep MCLK stopped (R360). -/
def execClockReturn (c : MonClock) (t : Nat) (s : State) : Host.Outcome State Fault Refusal :=
  let s := now t s
  if c = .mclk ∧ s.clk.lost then .next s
  else .next (staleUpdate (setClk s (fun k => setRun k (clockInst c) true)))

/-- The condition under which forced clocks end (R360): every source whose monitor is enabled runs and the PLLs are locked. -/
def clocksGood (s : State) : Bool :=
  let c := s.clk
  [MonClock.xa, .hclk, .fosc, .xb].all (fun k => vget c.run (clockInst k) || !monitored c k) && c.lockC && c.lockT && (c.lockM || !c.men)

/-- Forced clocks end: the muxes take their selected sources again (R360). -/
def endForce (s : State) : State :=
  if s.clk.lost && clocksGood s then
    staleUpdate (stretchUpdate (setClk s (fun c => setRun { c with lost := false, ccur := c.csrc, scur := c.ssrc } 3 (c.men && c.lockM))))
  else s

/-! ### Power modes (R361, R362) -/

/-- The bits of a write of `DG.PWRMODE` beside `MODE`. -/
def pwrBits (val : Word) (c : Clocks) : Clocks :=
  { c with wakeT8 := bitOf val 4, pwrDone := c.pwrDone && !bitOf val 9, pwrRej := c.pwrRej && !bitOf val 8 }

/-- Whether a write of `DG.PWRMODE` is heard: DEEP answers it too (R362), a control reset in progress does not (R365). -/
def pwrOpen (s : State) : Bool := !s.clk.crstBusy

/-- `PWRMODE_RUN` (R361, R362). -/
def execPwrmodeRun (val : Word) (t : Nat) (s : State) : Host.Outcome State Fault Refusal :=
  let s := ackWrite (now t s)
  if pwrOpen s then .next (setClk s (fun c => { pwrBits val c with pwrMode := 0, leaveDeep := c.pwrCur == 2 })) else .next s

/-- `PWRMODE_SLEEP`: `MODE` holds what was written (R4); only a write of RUN leaves DEEP (R361, R362; log 103). -/
def execPwrmodeSleep (val : Word) (t : Nat) (s : State) : Host.Outcome State Fault Refusal :=
  let s := ackWrite (now t s)
  if pwrOpen s then
    .next (setClk s (fun c => { pwrBits val c with pwrMode := 1, t8Seen := t8Eligible s }))
  else .next s

/-- Whether a command reads the strata: a `LOG_READ`, or a `CHAR_LOAD` from S0. -/
def strataRead (s : State) : Bool :=
  s.cmds.any (fun c => c.stage == .running && (c.op == 0x80 || (c.op == 0xA0 && opB c.d 16 != 1)))

/-- The conditions of DEEP (R362). -/
def deepOk (s : State) : Bool :=
  s.dom.toList.all (fun D => D.state == .dark || D.state == .absent) && s.cmds.all (fun c => !dAt c.d) &&
  s.meter.phase == .idle && s.strata.queue.isEmpty && s.strata.erasing.isNone && !s.strata.lbBusy && !strataRead s

/-- `PWRMODE_DEEP`: refused with REJ unless everything is dark and idle (R362). -/
def execPwrmodeDeep (val : Word) (t : Nat) (s : State) : Host.Outcome State Fault Refusal :=
  let s := ackWrite (now t s)
  if !pwrOpen s then .next s
  else if deepOk s then .next (setClk s (fun c => { pwrBits val c with pwrMode := 2, leaveDeep := false }))
  else .next (setClk s (fun c => { pwrBits val c with pwrRej := true }))

/-- The meter's clock follows the gate of the mode: without it a conversion in progress ends the scan (R361). -/
def meterGate (s : State) : State := staleUpdate (setMeter s (fun m => { m with gated := !gateOn s 0 }))

/-- What a completed transition changes: the MC's clock, and in DEEP the PLLs, FOSC and the shutter unit; on leaving DEEP
FOSC starts and the links are to be retrained (R361, R362). -/
def enterMode (s : State) (from_ mode : Nat) : State :=
  let s1 : State := { s with mc := { s.mc with gated := mode != 0, kickAt := if s.mc.gated && mode = 0 then s.time.run else s.mc.kickAt } }
  if mode = 2 then
    { setClk s1 (fun c => setRun (setRun { c with lockC := false, lockT := false, lockM := false, ccur := 0, scur := 0 } 3 false) 5 false)
                                                    with time := { s1.time with started := false } }
  else if from_ = 2 then
    { stretchUpdate (setClk s1 (fun c => setRun c 5 true)) with
      links := s1.links.map (fun l => { l with trained := false }),
      time := { s1.time with vldSince := s1.time.gtc, resume := true },
      therm := { s1.therm with valid := false } }
  else s1

/-- Whether Dorgus still owes a completion, which it posts before it enters DEEP (R362). -/
def owes (s : State) : Bool := (List.range 8).any (awaiting s)

/-- Whether a transition is under way: another mode is written than the one in force, and out of DEEP since RUN was written (R361, R362). -/
def pwrMoves (c : Clocks) : Bool := if c.pwrCur = 2 then c.leaveDeep else c.pwrMode != c.pwrCur

/-- `PWRMODE_TRANSITION_DONE`: the mode written is in force, and DONE is set; SLEEP ends for a source that has become eligible for T8
since it was written (R361, R362). -/
def execPwrmodeTransitionDone (t : Nat) (s : State) : Host.Outcome State Fault Refusal :=
  let s := wakeT8 (now t s)
  if !pwrMoves s.clk || (s.clk.pwrMode == 2 && owes s) then .next s
  else
    let s1 := setClk s (fun c => { c with pwrCur := c.pwrMode, pwrDone := true, leaveDeep := false })
    .next (wakeT8 (meterGate (enterMode s1 s.clk.pwrCur.toNat s.clk.pwrMode.toNat)))

/-! ### The frequency counter (R363) -/

/-- A write of `DG.FMC_CTL`: the settings, and a count started or restarted while the counter is clocked. -/
def writeFmcCtl (s : State) (val : Word) : State :=
  let s1 := setClk s (fun c => { c with fmcGate := val.extractLsb' 8 5, fmcPre := bitOf val 4,
                                        fmcSel := if fld val 3 0 ≤ 8 then val.extractLsb' 0 4 else c.fmcSel })
  if bitOf val 31 && gateOn s 3 then
    setClk s1 (fun c => { c with fmcGo := true, fmcDone := false, fmcOvf := false, fmcCount := 0 })
  else s1

/-- `FMC_GO`. -/
def execFmcGo (val : Word) (t : Nat) (s : State) : Host.Outcome State Fault Refusal :=
  let s := ackWrite (now t s)
  if setupOpen s then .next (writeFmcCtl s val) else .next s

/-- `FMC_DONE`: the count, saturated at 2^30 − 1. -/
def execFmcDone (count : Nat) (t : Nat) (s : State) : Host.Outcome State Fault Refusal :=
  let s := now t s
  if !s.clk.fmcGo then .next s
  else .next (setClk s (fun c => { c with fmcGo := false, fmcDone := true, fmcOvf := decide (2 ^ 30 ≤ count),
                                          fmcCount := BitVec.ofNat 30 (satNat 30 count) }))

/-! ### The MC image (R367) -/

/-- The MC runs from its image: the watchdog starts (R381). -/
def startMc (s : State) : State :=
  { s with mc := { s.mc with run := true, gated := s.clk.pwrCur != 0, state := 3, kickAt := s.time.run } }

/-- `FW_GO`: acted on only while `STATE` is EMPTY or FAIL. -/
def execFwGo (val : Word) (t : Nat) (s : State) : Host.Outcome State Fault Refusal :=
  let s := ackWrite (now t s)
  if setupOpen s && bitOf val 0 && (s.mc.state == 0 || s.mc.state == 4) then
    .next { s with mc := { s.mc with go := true, state := 1, err := 0 } }
  else .next s

/-- Whether `DG.FW_LEN` is P + 160 for a payload length that Table 15-6 allows. -/
def fwLenOk (n : Nat) : Bool := decide (4096 + 160 ≤ n ∧ n ≤ 524288 + 160 ∧ (n - 160) % 64 = 0)

/-- The header check of an image whose signature holds (Table 15-6). -/
def fwHdrOk (h : List Byte) : Bool :=
  slice h 0 4 == ascii "DGFW" && leAt h 4 1 == 1 && decide (leAt h 16 4 % 4 = 0 ∧ leAt h 16 4 < leAt h 12 4)

/-- `ERR` of a load, 0 for an image that is good: the length, a fabric error, the signature, then the header (R367). -/
def fwError (len : Nat) : FwImage → Nat
  | .fabricError => if fwLenOk len then 2 else 1
  | .image h ok => if !fwLenOk len || leAt h 12 4 + 160 != len then 1 else if !ok then 4 else if fwHdrOk h then 0 else 3

/-- `FW_LOAD_DONE`: the MC starts, or FW_AUTH is raised and it stays in reset. The manual names no instance for FW_AUTH: the
value is free (log 18). -/
def execFwLoadDone (img : FwImage) (t : Nat) (s : State) : Host.Outcome State Fault Refusal :=
  let s := now t s
  if !s.mc.go then .next s
  else
    let e := fwError s.mc.len.toNat img
    if e = 0 then
      let v := match img with | .image h _ => leAt h 8 2 | .fabricError => 0
      .next (startMc { s with mc := { s.mc with go := false, image := true, version := BitVec.ofNat 16 v } })
    else
      let f := freshBelow s 256
      .next (raise { f.2 with mc := { s.mc with go := false, state := 4, err := BitVec.ofNat 4 e } } 1 0x71 0xD f.1 0)

/-- `MC_START`: after an MC or control reset the MC runs again from its image (R364). -/
def execMcStart (t : Nat) (s : State) : Host.Outcome State Fault Refusal :=
  let s := now t s
  if s.mc.image && !s.mc.run && s.mc.state != 5 && !s.clk.crstBusy then .next (startMc s) else .next s

end Sys2Proof.Machine
end

