-- ==== Sys2Proof/Machine/Resets.lean ====
section
/-! DEFINITION. Resets, the end of the safe state, cold bring-up and the characterisation record (R86, R118, R260, R364–R369, R377). -/

namespace Sys2Proof.Machine

/-! ### The end of the safe state (R377) -/

/-- Whether an internal change puts a domain into DARK. -/
def darkInt : IntWhat → Bool
  | .dark _ => true
  | _ => false

/-- Whether the reaction of an escalated contained message (Table 16-3) has yet to complete: a domain put into DARK is still discharging, a domain
change that the message ordered still waits for its shutter, the MC is still in reset, or a record waits for its second try (R375, R377, log 59). -/
def reactionOpen (s : State) (m : DWord) : Bool :=
  let k := fKindOf m
  if k = 0x70 then !s.mc.run && s.mc.state != 5
  else if k = 0x60 then s.strata.retried
  else
    match namedDom m with
    | some d =>
      let dark := k == 0x01 || k == 0x04 || k == 0x05 || k == 0x14
      (dark && (domOf s (leader s d)).tr.ph == .discharge) || s.ints.any (fun i => i.dom.val == leader s d && darkInt i.what == dark)
    | none => (k == 0x12 || k == 0x15 || k == 0x42) && s.ints.any (fun i => !darkInt i.what)

/-- Whether a collected fatal message still stands. A repeated trip, and CELL_FAIL with cause 0x5, stand until a power-on
reset. -/
def causeStands (s : State) (m : DWord) : Bool :=
  let k := fKindOf m
  if k = 0x30 then !clocksGood s
  else if k = 0x63 then !(!s.safety.pfailLow && (match s.safety.pfailUp with | some u => decide (u + 10000000 ≤ s.time.run) | none => false))
  else if k = 0x20 then s.therm.tripped || s.therm.noRestart
  else if k = 0x04 ∧ fDetail m / 0x8000 % 16 = 5 then true
  else reactionOpen s m

/-- The safe state ends with every domain DARK; `DG.SAFE_MODE` keeps its values. -/
def endSafe (s : State) : State := darkAll { s with safety := { s.safety with safe := false, causes := [] } }

/-- Whether a control reset ends the safe state: one written by the owner when no cause stands, a thermal restart when besides
every cause was TH_CRIT or CLK_LOSS. -/
def safeEnds (thermal : Bool) (s : State) : Bool :=
  s.safety.safe && s.safety.causes.all (fun m => !causeStands s m && (!thermal || fKindOf m == 0x20 || fKindOf m == 0x30))

/-! ### Control and MC resets (R86, R364, R365) -/

/-- What a control reset does, given the bit of `DG.RSTCAUSE` that it sets (Table 15-5). One written by the owner also ends HALTED and clears
`FAILS` (R381). -/
def controlResetNow (cause : BitVec 6) (thermal : Bool) (s : State) : State :=
  let s1 := (List.range 8).foldl portResetEffect s
  let s2 := abandonTests { s1 with sieve := none } (fun _ => true)
  let s3 := resetMc { s2 with cmds := [], groups := Vector.replicate 8 none, slot := .reset, mism := [] }
  let s4 := setArbChip s3 (fun a => { a with incorr := 0, pend := none })
  let s5 := setClk s4 (fun c => { c with crstBusy := true, causes := c.causes ||| cause ||| (if c.forcedSince then 0x20 else 0),
                                         forcedSince := false })
  let s6 : State := { s5 with time := { s5.time with creset := true },
                              mc := if thermal then s5.mc else { s5.mc with fails := 0, state := if s5.mc.state = 5 then 3 else s5.mc.state } }
  let s7 := s6.safety.queue.foldl (fun s q => atOnce s q.bits) (if safeEnds thermal s then endSafe (endForce s6) else endForce s6)
  foldDoms s7 (fun s d => holdDomain s d .control)

/-- `CONTROL_RESET`: a write of `DG.RSTCTL` with its key and CRST (R365). -/
def execControlReset (val : Word) (t : Nat) (s : State) : Host.Outcome State Fault Refusal :=
  let s := ackWrite (now t s)
  if setupOpen s && fld val 15 8 == 0x5A && bitOf val 0 then .next (controlResetNow 2 false s) else .next s

/-- `CONTROL_RESET_DONE`: BUSY clears; faults collected meanwhile are posted from then on (R365). -/
def execControlResetDone (t : Nat) (s : State) : Host.Outcome State Fault Refusal :=
  .next (setClk (now t s) (fun c => { c with crstBusy := false }))

/-- `MC_RESET`: a keyed write of MCRST alone; it ends HALTED and clears FAILS (R365, R381). -/
def execMcReset (val : Word) (t : Nat) (s : State) : Host.Outcome State Fault Refusal :=
  let s := ackWrite (now t s)
  if setupOpen s && fld val 15 8 == 0x5A && !bitOf val 0 && bitOf val 1 then
    let s1 := resetMc (setClk s (fun c => { c with causes := c.causes ||| 0x10 }))
    .next { s1 with mc := { s1.mc with fails := 0, state := if s1.mc.state = 5 then 3 else s1.mc.state } }
  else .next s

/-- Whether the restart condition of R260 holds: every counted sensor below TH_RESTART for the hold time, which counts in
100 ms, and no trip repeated within the hour (R261). The latch is clocked from XB and holds while that is lost (R259, Table 15-3). -/
def restartDue (s : State) : Bool :=
  let h := s.therm
  h.tripped && !h.noRestart && vget s.clk.run 6 && (match h.coolAt with | some c => decide (c + 100000000 * h.act.hold ≤ s.time.run) | none => false)

/-- No rail counts as verified: after a restart each is verified again (R129, R260). -/
def unverifyAll (s : State) : State :=
  { s with bus := { s.bus with conv := s.bus.conv.map (fun c => { c with verified := false, badPolls := 0 }) } }

/-- `THERMAL_RESTART`: the latch and the pin are released, then a control reset is performed (R260). -/
def execThermalRestart (t : Nat) (s : State) : Host.Outcome State Fault Refusal :=
  let s := now t s
  if restartDue s then
    .next (controlResetNow 4 true (setTherm (unverifyAll s) (fun h => { h with tripped := false, pinLow := false, coolAt := none })))
  else .next s

/-! ### Power-on reset and bring-up (R35, R57–R59, R364, R369) -/

/-- `POR_ASSERT`: DG_POR_N is low, and every part takes its reset values; the model's own index of free values goes on (log 5). -/
def execPorAssert (t : Nat) (s : State) : Host.Outcome State Fault Refusal :=
  .next { now t State.reset with freeIdx := s.freeIdx, pending := s.pending }

/-- The instructions of the NOR bring-up: software reset and the read of SFDP, then 4-byte address mode where there are no 4-byte instructions, and
the reads of the search (R58). -/
def norBringUp (nor : NorInfo) : List Byte :=
  norCodes false .reset ++ norCodes false .readSfdp ++
  match nor.sfdp with
  | some x => if !sfdpMeets x then [] else (if x.instr4 then [] else norCodes false .enter4) ++ norCodes x.instr4 .read
  | none => []

/-- The log as the search found it: the ends of the strata, the next sequence, the power-on count from the last boot record plus 1, and whether a
last-breath record is newer than that (R388, R394). -/
def strataFound (nor : NorInfo) (r : Strata) : Strata :=
  let boots := match lastBoot nor.image with | some b => leAt b.2 28 4 | none => 0
  { r with avail := true, dev := nor.sfdp, nextSeq := BitVec.ofNat 64 (highestSeq nor.image + 1), boots := BitVec.ofNat 32 (boots + 1),
           lbFound := breathFound nor.image, heads := Vector.ofFn (fun k : Fin 4 => (logEnds nor.image k.val).1),
           oldest := Vector.ofFn (fun k : Fin 4 => (logEnds nor.image k.val).2) }

/-- What the NOR bring-up finds: the log opened, or NOR_ERR and no log until the next power-on reset (R59). The manual names
no instance for this NOR_ERR: the value is free (log 18). -/
def openStrata (nor : NorInfo) (s0 : State) : State :=
  let s := issue (norBringUp nor) s0
  if norFit nor then startErase { s with strata := strataFound nor s.strata }
  else
    let f := freshBelow s 256
    raise f.2 1 0x60 0xB f.1 0

/-- `POR_RELEASE`: DG_POR_N is high, the oscillators run, SAFE_STAT goes high in pulse mode, the NOR device is examined, and bring-up goes on with
the rows of its events (Table 15-7). -/
def execPorRelease (nor : NorInfo) (t : Nat) (s : State) : Host.Outcome State Fault Refusal :=
  let s := now t s
  let s1 := setClk s (fun c => setRun { c with run := Vector.replicate 7 true } 3 (c.men && c.lockM))
  let s2 : State := { stretchUpdate s1 with safety := { s1.safety with pin := s1.safety.level, porHigh := true } }
  .next (staleUpdate (openStrata nor s2))

/-! ### The characterisation record (R9, R26, R368) -/

/-- The outputs to a tile at their reset values (Table 02-2). -/
def outputsReset (D : Domain) : Domain :=
  { D with tile := { D.tile with frameMk := false, hintQ := [], thrDiv := 0, thrSkip := 0, freqCode := 0, freqReq := false, freqGo := false },
           droop := stopLevel { D.droop with clkHold := true } }

/-- Sites that the record marks absent become ABSENT until the next power-on reset, their outputs at their reset values (R26, R40). -/
def absentSites (r : CharRecord) (s : State) : State :=
  setDoms s (fun d D => if d < 64 && !(r.siteMap.any (fun x => x.val == d)) then outputsReset { D with state := .absent } else D)

/-- Cell trims, host targets of domains for which no `DOM_TARGET` has committed, and meter coefficients from a record, then the
system calibrations of S1. -/
def recordTables (r : CharRecord) (s : State) : State :=
  let s1 := setDoms s (fun d D => { D with cells := vmapIdx D.cells (fun k c => { c with ctrim := vget r.ctrim (cellNoOf d k) }) })
  let s2 : State := { s1 with cfg := vmapIdx s1.cfg (fun l c => if c.tgtSet then c else { c with target := (vget r.nominal (physOf s1 l)).toNat }) }
  let m := s2.strata.cals.foldl (fun m c => { m with ofs := vset m.ofs c.ch c.ofs, gain := vset m.gain c.ch c.gain })
    { s2.meter with ofs := r.mtrOfs, gain := r.mtrGain }
  { s2 with meter := m }

/-- A record is installed (R368). The first one is followed by the set-up of the stage-1 converters (Table 15-7). -/
def installRecord (r : CharRecord) (s : State) : State :=
  let s1 := recordTables r (absentSites r { s with char := some r })
  let s2 := setTherm s1 (fun h => { h with excl := h.excl ||| absentMask s1 })
  if s.char.isNone then busInit s2 else s2

/-- CHAR_BAD, contained, from the management core. The manual names no instance: the value is free (log 18). -/
def charBad (s : State) : State :=
  let f := freshBelow s 256
  raise f.2 1 0x72 0xD f.1 0

/-- The boot record (Table 16-9 type 0x0004), written through the MC when it has read S0 (log 24). -/
def bootRecord (s : State) : State :=
  let serial := match s.char with | some r => r.serial.toNat | none => 0
  (queueRecord s 2 0x0004 s.time.gtc (leBytes 4 s.clk.causes.toNat ++ leBytes 4 s.mc.version.toNat ++ leBytes 16 serial)).1

/-- `CHAR_RECORD_INSTALL`: after the first start since a power-on reset the MC reads S0, copy 1 or else copy 2, and installs it or
raises CHAR_BAD (R59, R368). -/
def execCharRecordInstall (copy1 copy2 : Option CharRecord) (cals : List SysCal) (t : Nat) (s : State) :
    Host.Outcome State Fault Refusal :=
  let s := now t s
  if !mcRunning s || !s.mc.coldStart then .next s
  else
    let s0 : State := { s with mc := { s.mc with coldStart := false } }
    let s1 : State := if s.strata.avail then
        { s0 with strata := { s0.strata with cals := cals, lbNew := s0.strata.lbNew || s0.strata.lbFound } } else s0
    let rec? := if s.strata.avail then (s0Choice ⟨copy1, copy2⟩) else none
    match rec? with
    | some r => .next (bootRecord (installRecord r s1))
    | none => .next (bootRecord (charBad s1))

end Sys2Proof.Machine
end

