-- ==== Sys2Proof/Machine/Registers.lean ====
section
/-! DEFINITION. Writes of setup and port registers that have no row of their own, and of `DG.GMODE` (R4,
R289, R308–R314, R358, R416–R418, Table 18-1, Table 18-2). -/

namespace Sys2Proof.Machine

/-! ### Port control and rights (Table 13-16) -/

/-- A direct write of a rights register takes effect only while the port is disabled (R289). -/
def writeRights (s : State) (n r : Nat) (val : Word) : State :=
  if (portOf s n).en then s
  else setPort s n (fun P =>
    let d := P.rightsD
    match r with
    | 1 => { P with rightsD := d.extractLsb' 64 16 ++ d.extractLsb' 32 32 ++ val }
    | 2 => { P with rightsD := d.extractLsb' 64 16 ++ val ++ d.extractLsb' 0 32 }
    | 3 => { P with rightsD := val.extractLsb' 0 16 ++ d.extractLsb' 32 32 ++ d.extractLsb' 0 32 }
    | 4 => { P with rightsO := val.extractLsb' 0 11 }
    | _ => P)

/-- A write at 0x0100–0x01FF. -/
def writePortCfg (s : State) (o : Nat) (val : Word) : State :=
  let n := (o - 0x0100) / 0x20
  let r := o % 0x20 / 4
  if r = 0 then writePortCtl s n val else writeRights s n r val

/-! ### The interrupt controller (Table 13-17) -/

/-- The latched sources (Table 13-5a). -/
def latchedSrc (i : Nat) : Bool :=
  decide (i < 15) || (decide (32 ≤ i) && decide (i < 47)) || (decide (48 ≤ i) && decide (i < 63)) ||
  (decide (128 ≤ i) && decide (i < 208))

/-- A 32-bit register of a 256-bit vector replaced. -/
def putWord256 (v : BitVec 256) (k : Nat) (w : Word) : BitVec 256 :=
  (v &&& ~~~ (BitVec.setWidth 256 (BitVec.allOnes 32) <<< (32 * k))) ||| (BitVec.setWidth 256 w <<< (32 * k))

/-- A write of 1 clears a latched source (R308). -/
def clearLatched (s : State) (k : Nat) (val : Word) : State :=
  let keep (i : Nat) : Bool := !(latchedSrc i && decide (i / 32 = k) && val.getLsbD (i % 32))
  let m := (List.range 256).foldl (fun m i => if keep i then m ||| BitVec.twoPow 256 i else m) (0 : BitVec 256)
  { s with irq := { s.irq with latched := s.irq.latched &&& m } }

/-- A write of an interrupt-controller register. The T8 claim registers do nothing through the setup window. -/
def writeIrq (s : State) (o : Nat) (val : Word) : State :=
  if o < 0x0820 then clearLatched s ((o - 0x0800) / 4) val
  else if 0x0840 ≤ o ∧ o < 0x08C0 then
    let k := (o - 0x0840) / 4
    { s with irq := { s.irq with route := (List.range 8).foldl (fun v i => vset v (8 * k + i) (val.extractLsb' (4 * i) 4)) s.irq.route } }
  else if 0x08C0 ≤ o ∧ o < 0x0900 then { s with irq := { s.irq with hold := vset s.irq.hold ((o - 0x08C0) / 4) (val.extractLsb' 0 12) } }
  else if 0x0920 ≤ o ∧ o < 0x0940 then { s with irq := { s.irq with t8En := putWord256 s.irq.t8En ((o - 0x0920) / 4) val } }
  else s

/-! ### Clocks and power (Tables 15-9 to 15-15) -/

/-- A write of `DG.GATE_RUN` or `DG.GATE_SLEEP`: Lantern and trace are not gated while their mode fields are 1 (R361). -/
def gateWrite (s : State) (old : BitVec 4) (val : Word) : BitVec 4 :=
  let w := val.extractLsb' 1 4
  let keep (i : Nat) (on : Bool) : BitVec 4 := if on && old.getLsbD i && !w.getLsbD i then BitVec.twoPow 4 i else 0
  w ||| keep 1 (modeOn s 4) ||| keep 2 (modeOn s 6)

/-- A write of a clock or power register. -/
def writeClock (s : State) (o : Nat) (val : Word) : State :=
  match o with
  | 0x0C04 => setClk s (fun c => { c with swMode := if c.swLock then c.swMode else bitOf val 0, swLock := c.swLock || bitOf val 31 })
  | 0x0C08 =>
    setClk s (fun c => { c with refused := c.refused && !bitOf val 30, cfgRej := c.cfgRej && !bitOf val 29,
                                swDone := c.swDone && !bitOf val 28, swAsync := c.swAsync && !bitOf val 27 })
  | 0x0C18 => setClk s (fun c => { c with trimmed := true, ftrim := val.extractLsb' 8 7, strim := val.extractLsb' 0 7 })
  | 0x0C1C => setClk s (fun c => { c with tol := val.extractLsb' 8 2, mon := val.extractLsb' 3 3 })
  | 0x0C20 => meterGate (setClk s (fun c => { c with gateRun := gateWrite s c.gateRun val }))
  | 0x0C24 => meterGate (setClk s (fun c => { c with gateSleep := gateWrite s c.gateSleep val }))
  | 0x0C2C => setClk s (pwrBits val)
  | 0x0C30 => writeFmcCtl s val
  | 0x0C34 => setClk s (fun c => { c with fmcDone := c.fmcDone && !bitOf val 31 })
  | _ => s

/-! ### Safety, NOR and buses -/

/-- A write of a safety, NOR or bus register. A kick is taken only from the MC's own row. `AHEAD` holds whatever is written (R4). -/
def writeSafety (s : State) (o : Nat) (val : Word) : State :=
  match o with
  | 0x0D08 => writeFltCfg s val
  | 0x0D18 => { s with mc := { s.mc with timeout := val.extractLsb' 8 8, openW := val.extractLsb' 4 4 } }
  | 0x0E00 =>
    startErase (issue [] { s with strata := { s.strata with ahead := val.extractLsb' 8 4, psuspEn := bitOf val 0 } })
  | 0x0E04 =>
    { s with strata := { s.strata with lbNew := s.strata.lbNew && !bitOf val 29, gap := if fld val 15 0 = 0 then s.strata.gap else 0 } }
  | 0x0E58 => { s with bus := { s.bus with avsNew := some (val &&& 0x83F3FCF1) } }
  | 0x0E5C => { s with bus := { s.bus with cfgRej := s.bus.cfgRej && !bitOf val 29 } }
  | _ => s

/-! ### The meter and the firmware load -/

/-- A write of a meter register (Tables 12-12 to 12-17). -/
def writeMeter (s : State) (o : Nat) (val : Word) : State :=
  if o = 0x1000 then writeMtrCtrl s val
  else if o = 0x1004 then staleUpdate (setMeter s (fun m => { m with mask := val.extractLsb' 0 16 }))
  else if o = 0x1008 then
    setMeter s (fun m => { m with rej := m.rej && !bitOf val 26, calErr := m.calErr && !bitOf val 25, done := m.done && !bitOf val 24,
                                  calDone := m.calDone && !bitOf val 23 })
  else if o = 0x100C then setMeter s (fun m => { m with win := val.extractLsb' 0 20 })
  else if 0x1040 ≤ o ∧ o < 0x1080 then setMeter s (fun m => { m with ofs := vset m.ofs ((o - 0x1040) / 4) (val.extractLsb' 0 24) })
  else if 0x1080 ≤ o ∧ o < 0x10C0 then setMeter s (fun m => { m with gain := vset m.gain ((o - 0x1080) / 4) (val.extractLsb' 0 24) })
  else s

/-- A write of a firmware-load register: address and length are fixed while a load runs or the MC runs its image (R367). -/
def writeFw (s : State) (o : Nat) (val : Word) : State :=
  let m := s.mc
  if m.state = 1 ∨ m.state = 2 ∨ m.state = 3 then s
  else
    match o with
    | 0x1800 => { s with mc := { m with addr := m.addr.extractLsb' 32 32 ++ (val &&& 0xFFFFFFC0) } }
    | 0x1804 => { s with mc := { m with addr := val ++ m.addr.extractLsb' 0 32 } }
    | 0x1808 => { s with mc := { m with len := val.extractLsb' 0 20 } }
    | _ => s

/-! ### Port pages (Table 18-2) -/

/-- A write of a ring's base or size is ignored while the ring is enabled (R291). -/
def writeRingReg (s : State) (n r o : Nat) (val : Word) : State :=
  setPort s n (fun P => setRing P r (fun R =>
    if R.en then R
    else if o = 0 then { R with base := R.base.extractLsb' 32 32 ++ (val &&& 0xFFFFFFC0) }
    else if o = 4 then { R with base := val ++ R.base.extractLsb' 0 32 }
    else if o = 8 then { R with log2 := val.extractLsb' 0 5 }
    else R))

/-- A write of a port-page register; an offset that names none is ignored (R30). -/
def writePage (s : State) (n o : Nat) (val : Word) : State :=
  if o = 0x01C then
    setPort s n (fun P => { P with dbErr := P.dbErr && !bitOf val 27, cfgErr := P.cfgErr && !bitOf val 26, irqErr := P.irqErr && !bitOf val 25,
                                   evOvf := P.evOvf && !bitOf val 24 })
  else if o = 0x020 then setPort s n (fun P => { P with fired := P.fired &&& ~~~ val })
  else if 0x040 ≤ o ∧ o < 0x080 then writeRingReg s n ((o - 0x040) / 0x10) (o % 0x10) val
  else if 0x120 ≤ o ∧ o < 0x140 then setPort s n (fun P => { P with irqEn := putWord256 P.irqEn ((o - 0x120) / 4) val })
  else s

/-- A write of a setup register; an offset that names none is ignored (R30). -/
def writeSetup (s : State) (o : Nat) (val : Word) : State :=
  if o < 0x0100 then
    (match o with
     | 0x0018 => setClk s (fun c => { c with causes := c.causes &&& ~~~ (val.extractLsb' 0 6) })
     | 0x0030 => { s with scratch := val }
     | _ => s)
  else if o < 0x0200 then writePortCfg s o val
  else if o < 0x0800 then s
  else if o < 0x0C00 then writeIrq s o val
  else if o < 0x0D00 then writeClock s o val
  else if o < 0x1000 then writeSafety s o val
  else if o < 0x1400 then writeMeter s o val
  else if o < 0x1800 then writeTherm s o val
  else writeFw s o val

/-- Setup registers that a write reaches in DEEP (R362). -/
def deepWritable (o : Nat) : Bool := o == 0x0018 || o == 0x0C2C || o == 0x1450

/-- `REGISTER_WRITE`: offsets at and above 0x1_0000 are port pages. The MC reaches setup registers by a path of its own (R415). -/
def execRegisterWrite (off : BitVec 17) (val : Word) (path : Path) (t : Nat) (s : State) : Host.Outcome State Fault Refusal :=
  let s0 := now t s
  let s := match path with | .owner => ackWrite s0 | .mc => s0
  let o := off.toNat
  if 0x10000 ≤ o then .next (if pageOpen s then wakeT8 (writePage s ((o - 0x10000) / 0x1000) (o % 0x1000) val) else s)
  else if s.clk.crstBusy || (s.clk.pwrCur == 2 && !deepWritable o) then .next s
  else .next (wakeT8 (writeSetup s o val))

/-- `GMODE_WRITE`: the fields wait for their effect points (R418). -/
def execGmodeWrite (val : Word) (t : Nat) (s : State) : Host.Outcome State Fault Refusal :=
  let s := ackWrite (now t s)
  if !setupOpen s then .next s
  else
    let v := val.extractLsb' 0 7
    .next { s with mode := { s.mode with written := v, hist := s.mode.hist ++ [(s.time.gtc, v)] } }

end Sys2Proof.Machine
end

