-- ==== Sys2Proof/Machine/Models.lean ====
section
/-! DEFINITION. The loader of Lantern model images (R196–R200). -/

namespace Sys2Proof.Machine

/-- A failed check of a model image: reason and byte offset, 0xFFFF for a length or header fault (R197). -/
structure ModelFault where
  reason : Nat
  off    : Nat
deriving DecidableEq, Repr, Inhabited

/-- The completion result of a failed model check (R197). -/
def modelResult (f : ModelFault) : Nat := f.reason * 0x1000000 + f.off

/-- The first index below `n` at which a field is bad, as a fault at the byte offset of the field. -/
def firstField (reason n : Nat) (off : Nat → Nat) (bad : Nat → Bool) : Option ModelFault :=
  ((List.range n).find? bad).map (fun i => ⟨reason, off i⟩)

/-- Signed bytes of an image, as a list. -/
def imgBytesS (bs : List Byte) (off n : Nat) : List Int := (slice bs off n).map BitVec.toInt

/-- A weight matrix of an image, row by row. -/
def imgRows (bs : List Byte) (off rows cols : Nat) : List (List Int) :=
  (List.range rows).map (fun j => imgBytesS bs (off + cols * j) cols)

/-- The biases of an image. -/
def imgBias (bs : List Byte) (first n : Nat) : List Int := (List.range n).map (fun j => leAtS bs (5504 + 4 * (first + j)) 4)

/-- The checksum row of a layer: column sums of its weights (R200). -/
def ckRow (w : List (List Int)) (cols : Nat) : List Int := (List.range cols).map (fun i => (w.map (fun row => row.getD i 0)).sum)

/-- The bias of a checksum row, modulo 2^32 (R200). -/
def ckBias (b : List Int) : Int := (BitVec.ofInt 32 b.sum).toInt

/-- QMUL of a requantisation entry. -/
def qmulAt (bs : List Byte) (i : Nat) : Nat := leAt bs (5904 + 4 * i) 2

/-- QSH of a requantisation entry. -/
def qshAt (bs : List Byte) (i : Nat) : Nat := leAt bs (5906 + 4 * i) 1

/-- The checks after the CRC, magic and length, in the order of Table 09-4. A failure in bytes 0–63 is a header fault (log 25);
of several failing fields the first is named (log 97). -/
def modelChecks (bs : List Byte) : List (Option ModelFault) :=
  let hdr (r : Nat) (b : Bool) : Option ModelFault := if b then some ⟨r, 0xFFFF⟩ else none
  let gain := leAt bs 12 2
  let bias (i : Nat) : Int := leAtS bs (5504 + 4 * i) 4
  [ hdr 0x04 (leNat (slice bs 5 3) != 0 || leNat (slice bs 14 46) != 0),
    firstField 0x04 100 (fun i => 5907 + 4 * i) (fun i => leAt bs (5907 + 4 * i) 1 != 0),
    hdr 0x05 (!(decide (0x0010 ≤ gain) && decide (gain ≤ 0x1000))),
    firstField 0x06 48 (fun i => 66 + 4 * i) (fun i => decide (31 < leAt bs (66 + 4 * i) 1)),
    firstField 0x07 100 (fun i => 5504 + 4 * i) (fun i => decide (bias i < -1073741824 ∨ 1073741824 < bias i)),
    ((List.range 100).find? (fun i => qmulAt bs i == 0 || !(decide (1 ≤ qshAt bs i) && decide (qshAt bs i ≤ 31)))).map
      (fun i => ⟨0x08, if qmulAt bs i = 0 then 5904 + 4 * i else 5906 + 4 * i⟩) ]

/-- The model of a checked image, with the checksum rows that the loader stores. -/
def modelOf (bs : List Byte) : Model :=
  let w1 := imgRows bs 256 64 48
  let w2 := imgRows bs 3328 32 64
  let w3 := imgRows bs 5376 4 32
  let b1 := imgBias bs 0 64
  let b2 := imgBias bs 64 32
  let b3 := imgBias bs 96 4
  { ident := BitVec.ofNat 32 (leAt bs 8 4), crc := BitVec.ofNat 32 (leAt bs 60 4), ffGain := leAt bs 12 2,
    norm := (List.range 48).map (fun i => (leAtS bs (64 + 4 * i) 2, leAt bs (66 + 4 * i) 1, leAtS bs (67 + 4 * i) 1)),
    w1 := w1, w2 := w2, w3 := w3, b1 := b1, b2 := b2, b3 := b3,
    req := (List.range 100).map (fun i => (qmulAt bs i, qshAt bs i)),
    ck1 := ckRow w1 48, ck2 := ckRow w2 64, ck3 := ckRow w3 32, cb1 := ckBias b1, cb2 := ckBias b2, cb3 := ckBias b3,
    unusable := false }

/-- The loader's checks on a model image, in the order of Table 09-4. -/
def loadModelImage (bs : List Byte) : Except ModelFault Model :=
  if crc32c (bs.take 60 ++ bs.drop 64) ≠ BitVec.ofNat 32 (leAt bs 60 4) then .error ⟨0x01, 0xFFFF⟩
  else if slice bs 0 4 ≠ ascii "DGLM" ∨ leAt bs 4 1 ≠ 1 then .error ⟨0x02, 0xFFFF⟩
  else if bs.length ≠ 6304 then .error ⟨0x03, 0xFFFF⟩
  else
    match (modelChecks bs).findSome? id with
    | some f => .error f
    | none => .ok (modelOf bs)

end Sys2Proof.Machine
end

