-- ==== Sys2Proof/Machine/Record.lean ====
section
/-! DEFINITION. The shutter record, the digests, and the outputs of `SNAPSHOT` (R81, R82, R108, R109, R342, R401, R402). -/

namespace Sys2Proof.Machine

/-! ### Measurements of an epoch (R81, R108, R239) -/

/-- What the station of a physical domain delivered for an epoch. -/
def measFor (meas : List EpochMeas) (d : Nat) : Option EpochMeas := meas.find? (fun m => m.dom.val == d)

/-- Whether the samples of a domain count: LIT, SHADE or HELD (R108). -/
def samples (D : Domain) : Bool := D.state == .lit || D.state == .shade || D.state == .held

/-- The lowest sample of an epoch and the time of its first occurrence, floor(2.5 × j); 0xFFFF and 0 without a sample (R108). -/
def epochMin (l : List (Fin 800 × BitVec 16)) : BitVec 16 × BitVec 16 :=
  let m := l.foldl (fun (b : Option (Fin 800 × BitVec 16)) x =>
    match b with
    | none => some x
    | some y => if x.2 < y.2 ∨ (x.2 = y.2 ∧ x.1 < y.1) then some x else b) none
  match m with
  | some x => (x.2, BitVec.ofNat 16 (5 * x.1.val / 2))
  | none => (0xFFFF, 0)

/-- Minimum, its time and the mean current of a leader: a pair has the lower minimum, at its first occurrence, and the
sum of the currents (R81). -/
def leaderMeas (s : State) (meas : List EpochMeas) (d : Nat) : BitVec 16 × BitVec 16 × Nat :=
  let ms := (membersOf s d).filterMap (measFor meas)
  let v := if samples (domOf s d) then
      ms.foldl (fun (b : BitVec 16 × BitVec 16) m =>
        let e := epochMin m.samples
        if e.1 < b.1 ∨ (e.1 = b.1 ∧ e.2 < b.2) then e else b) (0xFFFF, 0)
    else (0xFFFF, 0)
  (v.1, v.2, satNat 16 ((ms.map (fun m => m.imean.toNat)).sum))

/-- The cell energy of the epoch enters each domain's accumulator; a pair's enters the even member's (R239, R270). -/
def addEnergy (meas : List EpochMeas) (s : State) : State :=
  meas.foldl (fun s m => if isAbsent s m.dom then s else setDom s (leader s m.dom) (fun D => { D with energy := D.energy + m.energy })) s

/-- Cell energy of all domains in nJ. -/
def chipEnergy (s : State) : Nat := ((List.range 80).map (fun d => (domOf s d).energy)).sum

/-! ### The record (R81) -/

/-- State code of a record (Table 03-7). -/
def stateCode : DState → Nat
  | .dark => 0
  | .shade => 1
  | .lit => 2
  | .held => 3
  | .absent => 4

/-- A domain record with its state alone. -/
def bareRec (st : Nat) (paired : Bool) (vmin : BitVec 16) : DomRec :=
  { st := BitVec.ofNat 3 st, paired := paired, latched := false, lantOff := false, rcOff := false, working := 0, code := 0, target := 0,
    vmin := vmin, tmin := 0, imean := 0, temp := 0, thr := 0, glints := 0, fires := 0, energy := 0, grant := 0, freq := 0, divc := 0,
    cmSeq := 0, band := 0 }

/-- The record of a logical domain (Table 03-7), with the temperature and band of the last sample completed before its latch (R245). PAIRED
is set for both members of a mirror pair, though R125 states it of the odd one alone. DESIGN CHOICE (log 82). -/
def domRec (s : State) (meas : List EpochMeas) (l : Nat) : DomRec :=
  let d := physOf s l
  let D := domOf s d
  if D.state = .absent then bareRec 4 false 0xFFFF
  else if isOdd s d then bareRec (stateCode D.state) true 0
  else
    let m := leaderMeas s meas d
    { st := BitVec.ofNat 3 (stateCode D.state), paired := D.pair != .none, latched := D.latched, lantOff := D.lanternOff, rcOff := D.rcOff,
      working := mapWorking s d, code := codeInForce D, target := D.tgt, vmin := m.1, tmin := m.2.1, imean := BitVec.ofNat 16 m.2.2,
      temp := clampInt (-2048) 2047 D.tempNew, thr := Nat.min 8 (D.epThr + (if D.thrFrame then 1 else 0)),
      glints := satNat 4 D.epGlints, fires := satNat 8 D.epFires, energy := BitVec.ofNat 64 (D.energy / 1000),
      grant := satNat 16 D.arb.gForce, freq := if isTile d then D.tile.freqIn else 0, divc := D.tile.thrDiv, cmSeq := D.cmSeq, band := D.bandNew }

/-- Parked cells of a leader. -/
def parkedOf (s : State) (d : Nat) : Nat :=
  ((membersOf s d).map (fun x => ((List.range (nCells x)).filter (fun k =>
    let c := (cellOf (domOf s x) k).st
    c == .ramp || c == .warm || c == .cold)).length)).sum

/-- What the trace carries besides the record. -/
def domExt (s : State) (l : Nat) : DomExt :=
  let d := physOf s l
  let D := domOf s d
  let temp := clampInt (-2048) 2047 D.tempNew
  if D.state = .absent ∨ isOdd s d then { parked := 0, flags := 0, lag := false, lvl := 0, acc := D.energy, temp := temp }
  else { parked := parkedOf s d, flags := D.flags, lag := D.arb.lagEp, lvl := D.arb.lvl, acc := D.energy, temp := temp }

/-- p of R217 for one domain record. -/
def recPower (x : DomRec) : Nat := if x.st = 0 ∨ x.st = 4 then 0 else powerOf x.imean.toNat x.code

/-- Flag byte of a record header (Table 03-6); LINKDLY joins it when a commit of the shutter moves. -/
def recFlags (s : State) : Byte :=
  BitVec.ofNat 8 (bitAt (fixShut s) 0 + bitAt (modeOn s 0) 1 + bitAt s.time.creset 2 + bitAt s.time.resume 4)

/-- The record latched at a shutter, its commit list and digests still empty (R21, R81). -/
def latchRecord (s : State) (t : Nat) (meas : List EpochMeas) : Record :=
  let doms := Vector.ofFn (fun i : Fin 80 => domRec s meas i.val)
  { epoch := epochOf (t - 2000), gtc := BitVec.ofNat 64 t, firstSeq := 0, flags := recFlags s, power := (doms.toList.map recPower).sum,
    cfgDig := 0, inDig := 0, energy := BitVec.ofNat 64 (chipEnergy s / 1000), pool := s.arb.pool, cap := s.arb.cap, doms := doms,
    commits := [], bad := false, inEnergy := s.meter.inEnergy, ext := Vector.ofFn (fun i : Fin 80 => domExt s i.val), wave := s.input.wave,
    stale := s.meter.stale }

/-! ### Bytes (Tables 03-6 to 03-8) -/

/-- A domain record; outside a port's rights only byte 0 is kept (R82). -/
def domRecBytes (see : Bool) (x : DomRec) : List Byte :=
  if see then
    [recStateByte x, BitVec.ofNat 8 x.working] ++ leBytes 2 x.code ++ leBytes 2 x.target ++ leBytes 2 x.vmin.toNat ++
    leBytes 2 x.tmin.toNat ++ leBytes 2 x.imean.toNat ++ leBytesS 2 x.temp ++
    [BitVec.ofNat 8 (x.thr + 16 * x.glints), BitVec.ofNat 8 x.fires] ++ leBytes 8 x.energy.toNat ++ leBytes 2 x.grant ++
    leBytes 2 (x.freq + 256 * x.divc.toNat) ++ [x.cmSeq, BitVec.ofNat 8 x.band, 0, 0]
  else recStateByte x :: zeros 31

/-- A commit-list entry; another port's shows its sequence, port and opcode (R82). -/
def commitBytes (own : Nat → Bool) (e : CommitEntry) : List Byte :=
  if own e.port then
    leBytes 8 e.seq.toNat ++ [BitVec.ofNat 8 (e.port + bitAt e.grp 3 + bitAt e.at_ 4), BitVec.ofNat 8 e.op] ++ leBytes 2 e.tag.toNat ++
    [e.dom, e.sub, 0, 0]
  else leBytes 8 e.seq.toNat ++ [BitVec.ofNat 8 e.port, BitVec.ofNat 8 e.op] ++ zeros 6

/-- The 4,096 bytes of a record as a reader with the given rights and port sees it (R81, R82). -/
def recordBytes (see own : Nat → Bool) (r : Record) : List Byte :=
  let hdr := ascii "SHTR" ++ leBytes 4 r.epoch.toNat ++ leBytes 8 r.gtc.toNat ++ leBytes 8 r.firstSeq.toNat ++
    [BitVec.ofNat 8 r.commits.length, r.flags, 0, 0] ++ leBytes 4 r.power ++ leBytes 16 r.cfgDig.toNat ++ leBytes 16 r.inDig.toNat ++
    leBytes 8 r.energy.toNat ++ leBytes 4 r.pool ++ leBytes 4 r.cap ++ zeros 48
  let doms := (List.range 80).flatMap (fun l => domRecBytes (see l) (vget r.doms l))
  slice (hdr ++ doms ++ r.commits.flatMap (commitBytes own)) 0 4096

/-- Every field visible. -/
def seeAll (_ : Nat) : Bool := true

/-! ### The configuration digest (R401) -/

/-- Bytes 20–29 of each `DOM_LIMITS` group as a descriptor selecting every field would carry them (Table 17-2). -/
def limitBytes (x : Limits) (pair : Bool) : List Byte :=
  let b (n : Nat) : Byte := BitVec.ofNat 8 n
  leBytes 2 x.vmin ++ leBytes 2 x.vmax ++ leBytes 2 x.vret ++ [b x.ssRate, b x.shortRetry, b x.shortGap, 0] ++
  [b x.parkEn, 0] ++ leBytes 2 x.parkI ++ leBytes 2 x.unparkI ++
  [b x.parkQual, b (if pair then x.parkMin2 else x.parkMin), b x.warmHold, b x.parkHoldoff] ++
  [b x.dt1, b x.dt2, b x.dt3, 0] ++ leBytes 2 x.vfloor ++ leBytes 2 x.glintPat ++ [b x.glintMin, b x.flareEn] ++
  [b x.prfVel, b x.prfAcc, b x.prfJerk, b x.plausBand, b x.followE, 0] ++ leBytes 2 x.followT ++ [b x.supMode, 0] ++
  ([b x.ffAuth] ++ x.mae.toList.map b ++ [b x.lntBias] ++ zeros 4)

/-- The cells of a leader as its image numbers them: both members' for a pair (R11). -/
def imageCells (s : State) (d : Nat) : List Cell :=
  (membersOf s d).flatMap (fun x => (List.range (nCells x)).map (fun k => cellOf (domOf s x) k))

/-- A mask of the cells that meet a test. -/
def cellMask (cs : List Cell) (f : Cell → Bool) : Nat := ((cs.zipIdx).map (fun x => if f x.1 then 2 ^ x.2 else 0)).sum

/-- The 28 weight nibbles of Table 14-8, cell k in nibble k; a nibble without a cell is 0. -/
def weightBytes (cs : List Cell) : List Byte := leBytes 14 (((cs.zipIdx).map (fun x => x.1.cw.toNat * 16 ^ x.2)).sum)

/-- The configuration image's entry of a logical domain (Table 17-2). -/
def configEntry (s : State) (l : Nat) : List Byte :=
  let d := physOf s l
  let D := domOf s d
  let c := cfgOf s l
  let b (n : Nat) : Byte := BitVec.ofNat 8 n
  let phys := if D.state = .absent then 0xFF else d
  if isOdd s d then [b phys, 1] ++ zeros 62
  else
    let sv := match s.sieve with | some v => v.dom.val == d | none => false
    let bits := bitAt (D.pair != .none) 0 + bitAt D.latched 1 + bitAt D.lanternOff 2 + bitAt D.rcOff 3 + bitAt D.fallback 4 + bitAt sv 5
    let pg : Nat × Nat := match progOf s c.prog with | some g => (g.ident.toNat, g.crc.toNat) | none => (0, 0)
    let md : Nat × Nat × Nat := match c.model with
      | some k => (match vget s.models k with | some m => (k.val, m.ident.toNat, m.crc.toNat) | none => (k.val, 0, 0))
      | none => (0x0F, 0, 0)
    let r := c.rc
    let cs := imageCells s d
    [b phys, b bits, b c.prog, b md.1] ++ leBytes 4 pg.1 ++ leBytes 4 pg.2 ++ leBytes 4 md.2.1 ++ leBytes 4 md.2.2 ++
    [b r.on, b r.k, b r.f, b r.g, b r.l, b r.auth, b r.src, 0] ++ leBytes 4 (crc32c (limitBytes c.lim (D.pair != .none))).toNat ++
    leBytes 4 (cellMask cs (fun x => x.cout)) ++ leBytes 4 (cellMask cs (fun x => x.ccrack)) ++ weightBytes cs ++
    [D.cmSeq, b (sieveStep s d)] ++ zeros 8

/-- The 5,184-byte configuration image (Table 17-2). -/
def configImage (s : State) : List Byte :=
  ascii "DGCF" ++ leBytes 4 0xF1A0D621 ++ [BitVec.ofNat 8 (modeShown s)] ++ zeros 55 ++ (List.range 80).flatMap (configEntry s)

/-! ### The chained input digest (R402) -/

/-- Part 1 of the block: the input ports of frame f and physical domain d. -/
def portPart (x : InputBlk) (f d : Nat) : List Byte :=
  match x.ports.find? (fun e => e.1 == f && e.2.1 == d) with
  | some e => e.2.2.toList.flatMap (fun w => leBytes 4 w.toNat)
  | none => zeros 52

/-- Part 2: the raw features of interval m and physical domain d. -/
def featPart (x : InputBlk) (m d : Nat) : List Byte :=
  match x.feats.find? (fun e => e.1 == m && e.2.1 == d) with
  | some e => e.2.2.flatMap (leBytesS 4)
  | none => zeros 192

/-- Part 3: the byte of a tile site in a frame. -/
def sitePart (x : InputBlk) (f d : Nat) : Byte :=
  match x.sites.find? (fun e => e.1 == f && e.2.1 == d) with
  | some e => e.2.2
  | none => 0

/-- The epoch input block (Table 17-3). -/
def inputBlock (x : InputBlk) (r : Record) : List Byte :=
  let rb := recordBytes seeAll seeAll r
  (List.range 8).flatMap (fun f => (List.range 80).flatMap (portPart x f)) ++
  (List.range 2).flatMap (fun m => (List.range 80).flatMap (featPart x m)) ++
  (List.range 8).flatMap (fun f => (List.range 64).map (sitePart x f)) ++ rb.take 32 ++ rb.drop 64

/-- The chained input digest of a record: the chain begins anew at the first shutter and after a control reset or resume. -/
def inputDigest (x : InputBlk) (r : Record) : BitVec 128 :=
  let start : BitVec 128 := if r.flags.getLsbD 2 || r.flags.getLsbD 4 then 0 else x.prev
  digest16 (leBytes 16 start.toNat ++ inputBlock x r)

/-! ### The all-time minima (R109) -/

/-- The committed target in 1/32 mV. -/
def targetLink (code : Nat) : Int := (640 + code) * 20

/-- The all-time record of a LIT domain from an epoch's minimum. -/
def noteMinimum (start : Nat) (v t : BitVec 16) (D : Domain) : Domain :=
  let g := start + t.toNat
  let m : Int := (v.toNat : Int) - targetLink D.tgt
  { D with minV := (match D.minV with | some x => if v < x.1 then some (v, g) else some x | none => some (v, g)),
           minM := (match D.minM with | some x => if m < x.1 then some (m, D.tgt, g) else some x | none => some (m, D.tgt, g)) }

/-- Whether either entry has fallen by 5 mV or more since its last write (R109). With no write since power-on, the first entry is due at once.
DESIGN CHOICE (log 81). -/
def minimaDue (D : Domain) : Bool :=
  (match D.minV, D.minWrV with
   | some x, some w => decide (x.1.toNat + 160 ≤ w.toNat)
   | some _, none => true
   | none, _ => false) ||
  (match D.minM, D.minWrM with
   | some x, some w => decide (x.1 + 160 ≤ w)
   | some _, none => true
   | none, _ => false)

/-- An entry of kind 1 without its reserved tail (Table 14-12, Table 16-9 type 0x0102). -/
def minimaBytes (D : Domain) : List Byte :=
  let v := match D.minV with | some x => leBytes 2 x.1.toNat ++ zeros 2 ++ leBytes 8 x.2 | none => leBytes 2 0xFFFF ++ zeros 10
  let m := match D.minM with
    | some x => leBytesS 2 (clampInt (-32768) 32767 x.1) ++ leBytes 2 x.2.1 ++ leBytes 8 x.2.2
    | none => zeros 12
  v ++ m

/-- The record of a leader's minima is updated and written to S1 when due, at most once per second (R109). -/
def minimaStep (start : Nat) (meas : List EpochMeas) (s : State) (d : Nat) : State :=
  let D := domOf s d
  let m := leaderMeas s meas d
  if isAbsent s d || isOdd s d || D.state != .lit || m.1 == 0xFFFF then s
  else
    let s1 := setDom s d (noteMinimum start m.1 m.2.1)
    let D1 := domOf s1 d
    let ready := match vget s1.strata.s1At d with | some x => decide (x + 1000000000 ≤ s1.time.run) | none => true
    if minimaDue D1 && ready then
      let q := queueRecord s1 1 0x0102 s1.time.gtc ([BitVec.ofNat 8 (logOf s d), 0] ++ minimaBytes D1)
      match q.2 with
      | some _ =>
        let s2 := setDom q.1 d (fun D => { D with minWrV := D.minV.map (fun x => x.1), minWrM := D.minM.map (fun x => x.1) })
        { s2 with strata := { s2.strata with s1At := vset s2.strata.s1At d (some s1.time.run) } }
      | none => q.1
    else s1

/-! ### `SNAPSHOT` outputs (R342, Table 14-12) -/

/-- The header of kinds 1–3: magic, epoch ended, and t. -/
def snapHead (magic : String) (t : Nat) : List Byte := slice (ascii magic ++ leBytes 4 (epochOf (t - 2000)).toNat ++ leBytes 8 t) 0 64

/-- Kind 2: the entry of a domain. -/
def statBytes (D : Domain) : List Byte :=
  let L := D.lant
  slice (leBytes 8 L.lastAt ++ [L.lastBits.setWidth 8] ++ zeros 7 ++
    (List.range 4).flatMap (fun h => leBytesS 8 (vget L.last.sae h) ++ leBytesS 8 (vget L.last.se h) ++ leBytes 4 (vget L.last.n h))) 0 96

/-- Kind 3: the entry of a tile. -/
def energyBytes (T : Tile) : List Byte :=
  (List.range 4).flatMap (fun x => leBytes 8 (vget T.ctxUj x).toNat ++ leBytes 8 (vget T.ctxInUj x).toNat)

/-- The header of kind 3. -/
def energyHead (s : State) (t : Nat) : List Byte :=
  slice (ascii "DGEN" ++ leBytes 4 (epochOf (t - 2000)).toNat ++ leBytes 8 t ++ leBytes 4 s.meter.k ++
    [BitVec.ofNat 8 (bitAt s.meter.stale 0)] ++ zeros 3 ++ leBytes 8 s.meter.sharedUj.toNat ++ leBytes 8 s.meter.sharedIn.toNat) 0 64

/-- The bytes of kinds 1–3 from the state latched at t, for a port's rights. -/
def snapBytes (s : State) (t kind : Nat) (see : Nat → Bool) : List Byte :=
  let ent (n len : Nat) (f : Nat → List Byte) : List Byte :=
    (List.range n).flatMap (fun l => if see l then slice (f (physOf s l)) 0 len else zeros len)
  match kind with
  | 1 => snapHead "DGMN" t ++ ent 80 32 (fun d => minimaBytes (domOf s d))
  | 2 => snapHead "DGPS" t ++ ent 80 96 (fun d => statBytes (domOf s d))
  | _ => energyHead s t ++ ent 64 64 (fun d => energyBytes (domOf s d).tile)

/-- Size of an output (Table 14-12). -/
def snapSize (kind : Nat) : Nat := [4096, 2624, 7744, 4160].getD kind 4096

end Sys2Proof.Machine
end

