-- ==== Sys2Proof/Machine/Checks.lean ====
section
/-! DEFINITION. The command table and steps 3–7 of the check order (Tables 13-1, 14-2, 14-6; R286–R288, R316–R320, R328–R348). -/

namespace Sys2Proof.Machine

/-! ### The command table -/

/-- The scope of a command (R320). -/
inductive Scope where
  | none | any | tile
deriving DecidableEq, Repr, Inhabited

/-- A row of Table 14-6: class bit of Table 13-1 (11 none, 12 owner only), scope, whether the command is immediate, whether
it needs the MC, and whether it runs without a characterisation record (R319). -/
structure OpInfo where
  cls    : Nat
  scope  : Scope
  imm    : Bool
  mc     : Bool
  noChar : Bool
deriving DecidableEq, Repr, Inhabited

/-- Table 14-6 with Table 13-1 and R319. -/
def opInfo (op : Nat) : OpInfo :=
  match op with
  | 0x01 => ⟨11, .none, true, false, true⟩
  | 0x10 => ⟨2, .any, false, false, false⟩
  | 0x11 => ⟨1, .any, false, false, false⟩
  | 0x12 => ⟨1, .tile, false, false, false⟩
  | 0x13 => ⟨3, .any, false, false, false⟩
  | 0x14 => ⟨2, .tile, false, false, false⟩
  | 0x15 => ⟨2, .tile, false, false, false⟩
  | 0x16 => ⟨3, .any, false, false, false⟩
  | 0x20 => ⟨4, .any, false, false, false⟩
  | 0x21 => ⟨5, .none, false, false, false⟩
  | 0x22 => ⟨6, .tile, false, false, false⟩
  | 0x23 => ⟨4, .tile, false, false, false⟩
  | 0x30 => ⟨6, .tile, false, false, false⟩
  | 0x31 => ⟨6, .any, false, false, false⟩
  | 0x40 => ⟨0, .any, false, false, true⟩
  | 0x41 => ⟨0, .none, false, false, true⟩
  | 0x50 => ⟨7, .none, false, false, false⟩
  | 0x51 => ⟨7, .any, false, false, false⟩
  | 0x52 => ⟨7, .none, false, false, false⟩
  | 0x53 => ⟨7, .any, false, false, false⟩
  | 0x54 => ⟨7, .any, false, false, false⟩
  | 0x55 => ⟨7, .any, false, false, false⟩
  | 0x60 => ⟨0, .none, false, false, true⟩
  | 0x61 => ⟨0, .none, false, false, true⟩
  | 0x70 => ⟨8, .tile, false, true, false⟩
  | 0x71 => ⟨8, .tile, false, true, false⟩
  | 0x72 => ⟨8, .any, false, false, false⟩
  | 0x80 => ⟨9, .none, true, false, true⟩
  | 0x81 => ⟨9, .none, false, true, true⟩
  | 0x90 => ⟨12, .none, false, false, true⟩
  | 0x91 => ⟨10, .none, false, false, true⟩
  | 0xA0 => ⟨12, .none, true, true, true⟩
  | _ => ⟨11, .none, false, false, false⟩

/-- Whether a watch selector names a domain (Table 13-3). -/
def selDomain (sel : Nat) : Bool := decide (1 ≤ sel ∧ sel ≤ 0x0D) || decide (0x20 ≤ sel ∧ sel ≤ 0x28)

/-- The scope of a command as its operands leave it: a watch of a port or chip selector, and a self-test of any unit but a
station, name no domain (R337, R343). -/
def scopeOf (op : Nat) (d : Desc) : Scope :=
  if op = 0x40 then (if selDomain (opB d 17) then .any else .none)
  else if op = 0x72 then (if opB d 16 = 2 then .any else .none)
  else (opInfo op).scope

/-- The logical domain that a result names: the one the command names, or 0xFE (R324). -/
def domAt (op : Nat) (d : Desc) : Nat := if scopeOf op d ≠ .none ∧ d.dom.toNat < 0x50 then d.dom.toNat else 0xFE

/-- A failed check: status, byte offset and domain (R324). -/
structure Fail where
  st  : Nat
  off : Nat
  dom : Nat
deriving DecidableEq, Repr, Inhabited

/-- Whether a port holds a logical domain. -/
def holdsDom (s : State) (p l : Nat) : Bool := (portOf s p).rightsD.getLsbD l

/-- Domain numbers below which a scope's domains lie. -/
def scopeTop (op : Nat) (d : Desc) : Nat := if scopeOf op d = .tile then 0x40 else 0x50

/-- The logical domains that a command acts on, ascending: the one it names, or for 0xFF every domain of the port's
rights that fits the scope and is neither ABSENT nor the odd member of a pair (R288, R320). -/
def targetsOf (s : State) (op : Nat) (d : Desc) : List Nat :=
  if scopeOf op d = .none then []
  else if d.dom = 0xFF then
    (List.range (scopeTop op d)).filter (fun l => holdsDom s d.port l && !isAbsent s (physOf s l) && !isOdd s (physOf s l))
  else if d.dom.toNat < 0x50 then [d.dom.toNat] else []

/-- The targets of a command that are present: on an ABSENT tile a command has no physical effect (R425). -/
def presentOf (s : State) (op : Nat) (d : Desc) : List Nat := (targetsOf s op d).filter (fun l => !isAbsent s (physOf s l))

/-- The first domain, in the given order, that fails a test, with status and offset. -/
def firstDom (l : List Nat) (f : Nat → Option (Nat × Nat)) : Option Fail :=
  l.findSome? (fun x => (f x).map (fun r => ⟨r.1, r.2, x⟩))

/-- A failure when a condition holds. -/
def failIf (b : Bool) (st off dom : Nat) : Option Fail := if b then some ⟨st, off, dom⟩ else none

/-- The first of several checks that fails. -/
def firstFail (l : List (Option Fail)) : Option Fail := l.findSome? id

/-! ### Steps 4–6 -/

/-- Step 4: flags and header fields, which put no domain at fault (R316, R324). -/
def headerCheck (op : Nat) (d : Desc) : Option Fail :=
  let bad (b : Bool) (off : Nat) : Option Fail := failIf b stBadOperand off 0xFE
  firstFail [bad (dGroupEnd d && !dGroup d) 0, bad (dNotify d && !dAt d) 0, bad (!dAt d && d.atGtc != 0) 8,
    bad ((opInfo op).imm && (dAt d || dGroup d)) 0]

/-- Step 5: the first shutter, the MC, and the characterisation record (R15, R35, R319). -/
def readyCheck (s : State) (op : Nat) (d : Desc) : Option Fail :=
  let i := opInfo op
  failIf ((!s.time.fired && !i.imm) || (i.mc && !mcRunning s) || (s.char.isNone && !i.noChar)) stNotReady 0x7F (domAt op d)

/-- The waveform domains that a `TRACE_CONFIG` names, with their offsets; 0xFE is unused (R341). -/
def waveNames (d : Desc) : List (Nat × Nat) :=
  (([20, 21, 22, 23] : List Nat).map (fun o => (o, opB d o))).filter (fun x => x.2 != 0xFE)

/-- The part of step 6 that concerns domains: each named domain's bit, both members' for a pairing, and those of the waveform
domains (R125, R265, R288). -/
def domRights (s : State) (op : Nat) (d : Desc) : Option Fail :=
  let p := d.port.val
  if scopeOf op d ≠ .none ∧ d.dom = 0xFF ∧ (portOf s p).rightsD = 0 then some ⟨stNoRights, 4, 0xFE⟩
  else
    firstFail [
      firstDom (targetsOf s op d) (fun l =>
        let x := physOf s l
        if !holdsDom s p l then some (stNoRights, 4)
        else if op = 0x14 && decide (l < 0x40) && x % 2 == 0 && !holdsDom s p (logOf s (x + 1)) then some (stNoRights, 4)
        else none),
      if op = 0x60 then
        ((waveNames d).find? (fun w => decide (w.2 < 0x50) && !holdsDom s p w.2)).map (fun w => ⟨stNoRights, w.1, w.2⟩)
      else none]

/-- Step 6: owner-only commands, the class and the domains (R286, R288). The same checks are made at the commit (R67). -/
def rightsCheck (s : State) (op : Nat) (d : Desc) : Option Fail :=
  let i := opInfo op
  let p := d.port.val
  let no (b : Bool) (off : Nat) : Option Fail := failIf b stNoRights off (domAt op d)
  firstFail [no (i.cls == 12 && p != 0) 0, no (op == 0x10 && opB d 17 % 2 == 1 && p != 0) 17,
    no (decide (i.cls < 11) && !(portOf s p).rightsO.getLsbD i.cls) 0, domRights s op d]

/-! ### Parameter masks (R317) -/

/-- A field of a parameter-mask command: byte offset, size and range. -/
structure MaskField where
  off : Nat
  n   : Nat
  lo  : Nat
  hi  : Nat
deriving DecidableEq, Repr, Inhabited

/-- The fields of Table 14-7 by group. -/
def limitFields (sub : Nat) : List MaskField :=
  match sub with
  | 0 => [⟨20, 2, 160, 880⟩, ⟨22, 2, 160, 880⟩, ⟨24, 2, 160, 320⟩, ⟨26, 1, 1, 32⟩, ⟨27, 1, 0, 7⟩, ⟨28, 1, 1, 100⟩]
  | 1 => [⟨20, 1, 0, 1⟩, ⟨22, 2, 16, 128⟩, ⟨24, 2, 32, 153⟩, ⟨26, 1, 2, 64⟩, ⟨27, 1, 3, 28⟩, ⟨28, 1, 1, 100⟩, ⟨29, 1, 1, 100⟩]
  | 2 => [⟨20, 1, 2, 12⟩, ⟨21, 1, 3, 16⟩, ⟨22, 1, 4, 24⟩, ⟨24, 2, 96, 224⟩, ⟨26, 2, 1, 0xFFFE⟩, ⟨28, 1, 1, 32⟩, ⟨29, 1, 0, 1⟩]
  | 3 => [⟨20, 1, 1, 64⟩, ⟨21, 1, 1, 64⟩, ⟨22, 1, 1, 64⟩, ⟨23, 1, 5, 60⟩, ⟨24, 1, 2, 30⟩, ⟨26, 2, 4, 400⟩, ⟨28, 1, 0, 1⟩]
  | 4 => [⟨20, 1, 0, 60⟩, ⟨21, 1, 1, 255⟩, ⟨22, 1, 1, 255⟩, ⟨23, 1, 1, 255⟩, ⟨24, 1, 1, 255⟩, ⟨25, 1, 1, 255⟩]
  | _ => []

/-- The fields of the parameter-mask command of an opcode (Tables 14-7, 14-9, R340). `RC_SRC` has a range of two parts. -/
def maskFields (op sub : Nat) : List MaskField :=
  match op with
  | 0x13 => limitFields sub
  | 0x20 => [⟨20, 2, 0, 4095⟩, ⟨22, 2, 0, 4095⟩, ⟨24, 2, 16, 4095⟩, ⟨26, 1, 0, 3⟩]
  | 0x21 => [⟨20, 2, 3200, 24000⟩, ⟨22, 2, 0, 32000⟩]
  | 0x23 => [⟨20, 1, 0, 1⟩, ⟨21, 1, 0, 1⟩, ⟨22, 1, 1, 64⟩, ⟨24, 2, 0, 4095⟩]
  | 0x54 => [⟨20, 1, 0, 1⟩, ⟨21, 1, 0, 12⟩, ⟨22, 1, 1, 16⟩, ⟨23, 1, 0, 12⟩, ⟨24, 1, 0, 63⟩, ⟨25, 1, 0, 60⟩, ⟨26, 1, 0, 0x80⟩]
  | _ => []

/-- The mask of a parameter-mask command. -/
def maskOf (d : Desc) : Nat := opN d 16 4

/-- Whether a mask selects field i. -/
def selects (d : Desc) (i : Nat) : Bool := (maskOf d).testBit i

/-- The first selected field whose value is out of range: its offset. -/
def maskRangeBad (op : Nat) (d : Desc) : Option Nat :=
  let fs := maskFields op d.sub.toNat
  ((fs.zipIdx).find? (fun x => selects d x.2 &&
    (let v := opN d x.1.off x.1.n
     !(decide (x.1.lo ≤ v) && decide (v ≤ x.1.hi)) || (op == 0x54 && x.2 == 6 && decide (0x3F < v) && v != 0x80)))).map (fun x => x.1.off)

/-- The mask of a command: it selects a field, none beyond the table, and every selected field lies in range. -/
def maskBad (op : Nat) (d : Desc) : Option Nat :=
  let m := maskOf d
  if m = 0 ∨ m / 2 ^ (maskFields op d.sub.toNat).length ≠ 0 then some 16 else maskRangeBad op d

/-- A field's new value, or the one that stands. -/
def pick (d : Desc) (i off n old : Nat) : Nat := if selects d i then opN d off n else old

/-- The limits that a `DOM_LIMITS` leaves; in a pair `PARK_MIN` is the pair value (R331). -/
def newLimits (d : Desc) (pair : Bool) (x : Limits) : Limits :=
  match d.sub.toNat with
  | 0 => { x with vmin := pick d 0 20 2 x.vmin, vmax := pick d 1 22 2 x.vmax, vret := pick d 2 24 2 x.vret,
                  ssRate := pick d 3 26 1 x.ssRate, shortRetry := pick d 4 27 1 x.shortRetry, shortGap := pick d 5 28 1 x.shortGap }
  | 1 => { x with parkEn := pick d 0 20 1 x.parkEn, parkI := pick d 1 22 2 x.parkI, unparkI := pick d 2 24 2 x.unparkI,
                  parkQual := pick d 3 26 1 x.parkQual, parkMin := if pair then x.parkMin else pick d 4 27 1 x.parkMin,
                  parkMin2 := if pair then pick d 4 27 1 x.parkMin2 else x.parkMin2, warmHold := pick d 5 28 1 x.warmHold,
                  parkHoldoff := pick d 6 29 1 x.parkHoldoff }
  | 2 => { x with dt1 := pick d 0 20 1 x.dt1, dt2 := pick d 1 21 1 x.dt2, dt3 := pick d 2 22 1 x.dt3, vfloor := pick d 3 24 2 x.vfloor,
                  glintPat := pick d 4 26 2 x.glintPat, glintMin := pick d 5 28 1 x.glintMin, flareEn := pick d 6 29 1 x.flareEn }
  | 3 => { x with prfVel := pick d 0 20 1 x.prfVel, prfAcc := pick d 1 21 1 x.prfAcc, prfJerk := pick d 2 22 1 x.prfJerk,
                  plausBand := pick d 3 23 1 x.plausBand, followE := pick d 4 24 1 x.followE, followT := pick d 5 26 2 x.followT,
                  supMode := pick d 6 28 1 x.supMode }
  | 4 => { x with ffAuth := pick d 0 20 1 x.ffAuth, mae := #v[pick d 1 21 1 (vget x.mae 0), pick d 2 22 1 (vget x.mae 1),
                    pick d 3 23 1 (vget x.mae 2), pick d 4 24 1 (vget x.mae 3)], lntBias := pick d 5 25 1 x.lntBias }
  | _ => x

/-- The budget parameters that a `BUDGET_SET` leaves, from those in force for the domain's form (Table 10-1). -/
def newBudget (d : Desc) (x : Budget) : Budget :=
  { x with floor := pick d 0 20 2 x.floor, idle := pick d 1 22 2 x.idle, ceil := pick d 2 24 2 x.ceil, cls := pick d 3 26 1 x.cls }

/-! ### Cross checks (R317) -/

/-- The lowest offset among the selected fields of a command that appear in failing checks. -/
def firstSelected (op : Nat) (d : Desc) (offs : List Nat) : Nat :=
  let sel := ((maskFields op d.sub.toNat).zipIdx).filter (fun x => selects d x.2)
  match sel.find? (fun x => offs.contains x.1.off) with
  | some x => x.1.off
  | none => (sel.map (fun x => x.1.off)).headD 16

/-- The offsets of the fields of failed cross checks of limits (R133, R331, Table 04-5). -/
def limitsBad (tile pair : Bool) (sub : Nat) (x : Limits) : List Nat :=
  let pm := if pair then x.parkMin2 else x.parkMin
  let pr := if pair then (8, 28) else if tile then (4, 14) else (3, 8)
  let low := decide (Nat.min (Nat.max 160 x.vmin) x.vret < x.vfloor + 16)
  match sub with
  | 0 => (if x.vmax < x.vmin then [20, 22] else []) ++ (if low then [20, 24] else [])
  | 1 => (if x.unparkI < x.parkI + 16 then [22, 24] else []) ++ (if pm < pr.1 ∨ pr.2 < pm then [27] else [])
  | 2 => (if x.dt2 ≤ x.dt1 then [20, 21] else []) ++ (if x.dt3 ≤ x.dt2 then [21, 22] else []) ++ (if low then [24] else [])
  | _ => []

/-- The cross check of a parameter-mask command for one logical domain: the offset of the first failing selected field. -/
def crossBad (s : State) (op : Nat) (d : Desc) (l : Nat) : Option Nat :=
  let x := physOf s l
  match op with
  | 0x13 =>
    match limitsBad (isTile x) (isEven s x) d.sub.toNat (newLimits d (isEven s x) (cfgOf s l).lim) with
    | [] => none
    | offs => some (firstSelected op d offs)
  | 0x20 =>
    let b := newBudget d (budOf s x)
    match (if b.floor < b.idle then [20, 22] else []) ++ (if b.ceil < b.floor then [20, 24] else []) with
    | [] => none
    | offs => some (firstSelected op d offs)
  | 0x16 =>
    -- the mask against the cells of the domain's form (R333)
    let n := if isEven s x then 28 else nCells x
    if maskOf d / 2 ^ n ≠ 0 then some 16 else none
  | _ => none

/-- The logical domain that a failure of a whole command names: the one the command names, the first of those that 0xFF names, or 0xFE (R320,
R324). -/
def failAt (s : State) (op : Nat) (d : Desc) : Nat :=
  if scopeOf op d ≠ .none ∧ d.dom = 0xFF then (targetsOf s op d).headD 0xFE else domAt op d

/-- The cross checks of a command over its domains, with the status that their step gives. -/
def crossCheck (s : State) (op : Nat) (d : Desc) (st : Nat) : Option Fail :=
  firstDom (targetsOf s op d) (fun l => (crossBad s op d l).map (fun off => (st, off)))

/-! ### Step 7 -/

/-- Whether a GTC operand is a multiple of 2,000 at most 3,600 s ahead (R74, R234). -/
def gtcOperandBad (g now : Nat) : Bool := g % 2000 != 0 || decide (now + 3600000000000 < g)

/-- The selectors of Table 13-3. -/
def selOk (sel : Nat) : Bool :=
  selDomain sel || sel == 0x10 || sel == 0x11 || sel == 0x12 || sel == 0x18 || sel == 0x30 || sel == 0x31 || sel == 0x38

/-- Whether a selector counts (Table 13-3). -/
def selCounts (sel : Nat) : Bool := decide (1 ≤ sel ∧ sel ≤ 0x0D) || sel == 0x10 || sel == 0x11 || sel == 0x12 || sel == 0x18

/-- The kinds of the fault kind table (Table 16-3). -/
def kindOk (k : Nat) : Bool :=
  ([0x01, 0x02, 0x03, 0x04, 0x05, 0x06, 0x07, 0x10, 0x11, 0x12, 0x13, 0x14, 0x15, 0x16, 0x20, 0x21, 0x22, 0x23] ++
   [0x30, 0x31, 0x32, 0x40, 0x41, 0x42, 0x43, 0x50, 0x51, 0x52, 0x60, 0x61, 0x62, 0x63, 0x70, 0x71, 0x72, 0x80, 0x81]).contains k

/-- Operand values of `WATCH_ARM` (R337, Table 14-10): the first bad offset. -/
def watchBad (d : Desc) : Option Nat :=
  let sel := opB d 17
  let count := opB d 18 % 2 == 1
  if 31 < opB d 16 then some 16
  else if !selOk sel then some 17
  else if count && !selCounts sel then some 18
  else if !count && decide (5 < opB d 19 % 8) then some 19
  else if count && (opN d 20 4 == 0 || decide (0x7FFFFFFF < opN d 20 4)) then some 20
  else if sel = 0x18 && !kindOk d.sub.toNat then some 5
  else if selDomain sel && d.dom == 0xFF then some 4
  else none

/-- Operand values of `SNAPSHOT` (R64, R342). -/
def snapBad (s : State) (d : Desc) : Option Nat :=
  let k := opB d 16
  let named := opB d 17 % 2 == 1
  let back := (epochNow s - BitVec.ofNat 32 (opN d 20 4)).toNat
  if 3 < k then some 16
  else if named && k != 0 then some 17
  else if named && !(decide (1 ≤ back) && decide (back ≤ 16)) then some 20
  else if opN d 24 8 % 64 ≠ 0 then some 24
  else if opN d 32 4 < snapSize k then some 32
  else none

/-- Operand values of a bulk command (R338): number, address, length. -/
def loadBad (d : Desc) (top lo hi : Nat) : Option Nat :=
  if top < opB d 16 then some 16
  else if opN d 24 8 % 64 ≠ 0 then some 24
  else if opN d 32 4 < lo ∨ hi < opN d 32 4 then some 32
  else none

/-- Operand values of `LOG_READ` (R345). -/
def logReadBad (d : Desc) : Option Nat :=
  let n := opN d 28 2
  if 3 < opB d 16 then some 16
  else if n = 0 ∨ 64 < n then some 28
  else if opN d 32 8 % 64 ≠ 0 then some 32
  else if opN d 40 4 < n * (if opB d 16 = 3 then 1024 else 256) then some 40
  else none

/-- Operand values of `RIGHTS_SET` (R346): a target above 7 or a set reserved bit. -/
def rightsBad (d : Desc) : Option Nat :=
  if 7 < opB d 16 then some 16
  else if opN d 17 3 ≠ 0 then some 17
  else if opN d 30 2 ≠ 0 then some 30
  else if 2047 < opN d 32 2 then some 32
  else if opN d 34 22 ≠ 0 then some 34
  else none

/-- Operand values of `TRACE_CONFIG` (R265, Table 12-1). -/
def traceBad (d : Desc) : Option Nat :=
  if 1 < opB d 16 then some 16
  else if 2 < opB d 17 then some 17
  else if 3 < opB d 18 ∨ (opB d 18 ≠ 0 ∧ opB d 17 ≠ 2) then some 18
  else if 10 < opB d 19 ∨ (2 < opB d 19 ∧ !(waveNames d).isEmpty) then some 19
  else ((waveNames d).find? (fun w => decide (0x4F < w.2))).map (fun w => w.1)

/-- Operand values of `SELFTEST` (Table 14-13). -/
def selftestBad (d : Desc) : Option Nat :=
  if 4 < opB d 16 then some 16
  else if opB d 16 = 0 ∧ 16 < opB d 17 then some 17
  else if opB d 16 = 3 ∧ 319 < opN d 18 2 then some 18
  else none

/-- Operand values of `HINT_PHASE` (R336): a value outside its field. -/
def hintBad (d : Desc) : Option Nat :=
  if 15 < opB d 16 then some 16 else if 4095 < opN d 18 2 then some 18 else none

/-- The operand values of a command that concern no domain's data: the offset of the first bad field. Bits above a code that no table calls
reserved count as part of the value, so one of them set is out of range; bits that a table leaves out of a field it bounds, [7:3] of
byte 19 of `WATCH_ARM`, are ignored. DESIGN CHOICE (log 76). -/
def valueBad (s : State) (op : Nat) (d : Desc) : Option Nat :=
  let one (b : Bool) (off : Nat) : Option Nat := if b then some off else none
  match op with
  | 0x10 => firstOff [one (decide (2 < opB d 16)) 16, one (opB d 17 % 2 == 1 && opB d 16 != 0) 17]
  | 0x11 => one (decide (opN d 16 2 < 160 ∨ 880 < opN d 16 2)) 16
  | 0x12 => one (decide (72 < opB d 16)) 16
  | 0x13 => if 4 < d.sub.toNat then some 5 else maskBad op d
  | 0x16 => firstOff [one (maskOf d == 0) 16, one (decide (3 < opB d 20)) 20]
  | 0x20 | 0x21 | 0x23 | 0x54 => maskBad op d
  | 0x22 => firstOff [one (gtcOperandBad (opN d 24 8) s.time.gtc) 24, one (decide (72 < opB d 16)) 16]
  | 0x30 => hintBad d
  | 0x40 => watchBad d
  | 0x41 => one (decide (31 < opB d 16)) 16
  | 0x50 => loadBad d 31 320 2496
  | 0x51 => one (decide (32 < opB d 16)) 16
  | 0x52 => loadBad d 7 6304 6304
  | 0x53 => one (decide (7 < opB d 16) && opB d 16 != 0xF) 16
  | 0x60 => traceBad d
  | 0x61 => snapBad s d
  | 0x70 => firstOff [one (opB d 16 == 0 || decide (40 < opB d 16)) 16, one (decide (opN d 20 4 < 100 ∨ 1000000 < opN d 20 4)) 20]
  | 0x72 => selftestBad d
  | 0x80 => logReadBad d
  | 0x90 => rightsBad d
  | 0x91 => firstOff [one (decide (7 < opB d 16) || opB d 16 == d.port.val) 16, one (decide (2 < opB d 17)) 17]
  | 0xA0 => if opB d 16 = 0 then none else loadBad d 1 1024 1048576
  | _ => none
where
  /-- The first offset of several. -/
  firstOff (l : List (Option Nat)) : Option Nat := l.findSome? id

/-- The operand checks that read a named domain's site or its characterised table: a pairing on an odd site (R125), and a
frequency code below fc[0] (R227, R234). -/
def siteBad (s : State) (op : Nat) (d : Desc) : Option Fail :=
  firstDom (presentOf s op d) (fun l =>
    let x := physOf s l
    if op = 0x14 ∧ x % 2 = 1 then some (stBadOperand, 4)
    else if (op = 0x12 ∨ op = 0x22) ∧ opB d 16 < fc0Of s x then some (stBadOperand, 16)
    else none)

/-- Step 7: operand values. -/
def operandCheck (s : State) (op : Nat) (d : Desc) : Option Fail :=
  let bad (b : Bool) (off : Nat) : Option Fail := failIf b stBadOperand off (domAt op d)
  let noAt := op = 0x50 ∨ op = 0x52
  firstFail [bad (dAt d && decide noAt) 0, bad (dAt d && gtcOperandBad d.atGtc.toNat s.time.gtc) 8,
    bad (scopeOf op d != .none && d.dom != 0xFF && decide (scopeTop op d ≤ d.dom.toNat)) 4,
    (valueBad s op d).map (fun off => ⟨stBadOperand, off, domAt op d⟩), siteBad s op d, crossCheck s op d stBadOperand]

/-- Steps 4–7 in order. -/
def earlyChecks (s : State) (op : Nat) (d : Desc) : Option Fail :=
  firstFail [headerCheck op d, readyCheck s op d, rightsCheck s op d, operandCheck s op d]

end Sys2Proof.Machine
end

