-- ==== Sys2Proof/Machine/Conditions.lean ====
section
/-! DEFINITION. Steps 9–11 of the check order and the check at the commit shutter: state preconditions, conflicts and resources (R67, R317–R320, R425). -/

namespace Sys2Proof.Machine

/-! ### Other commands that matter to a check -/

/-- The commands other than one that are prepared or accepted. -/
def otherPrepared (s : State) (c : Cmd) : List Cmd :=
  s.cmds.filter (fun x => x.ring != c.ring && (x.stage == .prepared || x.stage == .accepted))

/-- Whether another prepared or accepted command of an opcode names a program or model number. -/
def preparedNames (s : State) (c : Cmd) (op num : Nat) : Bool :=
  (otherPrepared s c).any (fun x => x.op == op && opB x.d 16 == num)

/-- Whether a program is bound to any domain (R165). An odd member keeps its binding (R126). -/
def progBound (s : State) (num : Nat) : Bool := (List.range 80).any (fun l => (cfgOf s l).prog == num)

/-- Whether a model slot is bound to any domain (R198). -/
def modelBound (s : State) (num : Nat) : Bool :=
  (List.range 80).any (fun l => match (cfgOf s l).model with | some k => k.val == num | none => false)

/-- Store units of an image. -/
def imgUnits : Option BulkImg → Nat
  | some (.program g) => unitsOf g
  | _ => 0

/-- Whether the store has the units of a program image, its number's previous contents counted as free (R165). -/
def unitsFit (s : State) (c : Cmd) : Bool :=
  let prev := match vget s.progs (opB c.d 16) with | some g => unitsOf g | none => 0
  let staged := ((otherPrepared s c).map (fun x => imgUnits x.bulk)).sum
  decide (unitsUsed s - prev + staged + imgUnits c.bulk ≤ 1024)

/-- Whether a model slot holds a usable model. -/
def modelBindable (s : State) (k : Nat) : Bool :=
  match vget s.models k with
  | some m => !m.unusable
  | none => false

/-! ### Preconditions of single domains: status and offset -/

/-- Table 05-2, with the refusals of R129 and R258, and that of R84: at the shutter whose internal change made the domain HELD or DARK, no
`DOM_STATE` to SHADE or LIT undoes it. -/
def stateRefusal (s : State) (d : Desc) (x : Nat) : Option (Nat × Nat) :=
  let D := domOf s x
  if opB d 16 = 0 then none
  else if D.marks.moved || D.latched || ratingOf s x (mapWorking s x) == .dark || !(vget s.bus.conv (dieOf x)).verified || s.therm.tripped ||
      s.therm.noRestart || (D.state == .dark && decide (s.arb.cap < floorSum s + inrushChar s x)) then some (stRefused, 4)
  else none

/-- Whether the LIT effective target of a domain would lie above a `VMAX` code (R178). -/
def overVmax (s : State) (x host code vmax : Nat) : Bool := decide (vmax < litTarget s x host code)

/-- Whether ALIGN has ended and the next regrant is still to come: `DOM_FREQ` applies from that regrant (R419;
log 101). -/
def alignEnding (s : State) : Bool := match s.arb.alignOff with | some t => t / 10000 == s.time.gtc / 10000 | none => false

/-- The refusals of `DOM_FREQ` (R178, R227, R233, R419): the ceiling is the one set last. -/
def freqRefusal (s : State) (d : Desc) (x : Nat) : Option (Nat × Nat) :=
  let c := cfgAt s x
  let code := opB d 16
  if modeOn s 2 || alignEnding s then some (stRefused, 0x7F)
  else if (domOf s x).arb.fceil < code || overVmax s x c.target code c.lim.vmax then some (stRefused, 16) else none

/-- The state with a pair formed for the purpose of a check. -/
def asPair (s : State) (x : Nat) : State :=
  setDom (setDom s x (fun D => { D with pair := .even })) (x + 1) (fun D => { D with pair := .odd })

/-- Whether a member of a pair to be can join or leave it at all (R125, R128). -/
def pairBusy (D : Domain) : Bool := D.state == .absent || D.state == .held || D.held || inTransition D

/-- The refusals of `DOM_PAIR` (R125, R178, R182). -/
def pairRefusal (s : State) (x : Nat) : Option (Nat × Nat) :=
  let a := domOf s x
  let b := domOf s (x + 1)
  let ca := cfgAt s x
  let cb := cfgAt s (x + 1)
  let s1 := asPair s x
  if pairBusy a || pairBusy b || a.latched || b.latched || a.pair != .none || b.pair != .none || a.state != b.state ||
      a.prof.cond != .settled || b.prof.cond != .settled ||
      (a.state == .lit && (effTarget s x != effTarget s (x + 1) || ca.freq != cb.freq)) ||
      decide (mapWorking s1 x ≤ 16) || overVmax s1 x ca.target ca.freq ca.lim.vmax then some (stRefused, 4)
  else none

/-- The refusals of `DOM_UNPAIR` (R128). -/
def unpairRefusal (s : State) (x : Nat) : Option (Nat × Nat) :=
  let a := domOf s x
  if a.pair != .even || pairBusy a || decide (workingCells x a + a.unc ≤ 8) ||
      decide (workingCells (x + 1) (domOf s (x + 1)) + (domOf s (x + 1)).unc ≤ 8) then
    some (stRefused, 4)
  else none

/-- The cells that a mask selects in a leader, as (physical domain, index) (R11). -/
def maskCells (s : State) (x mask : Nat) : List (Nat × Nat) :=
  let all := (membersOf s x).flatMap (fun y => (List.range (nCells y)).map (fun k => (y, k)))
  ((all.zipIdx).filter (fun e => mask.testBit e.2)).map (fun e => e.1)

/-- The ISOLATED cells that a `DOM_CELLMAP` would return to service. -/
def isolatedIn (s : State) (d : Desc) (x : Nat) : List (Nat × Nat) :=
  (maskCells s x (maskOf d)).filter (fun y => (cellAt s y).st == .isolated)

/-- The refusals of `DOM_CELLMAP` (R95). -/
def cellmapRefusal (s : State) (d : Desc) (x : Nat) : Option (Nat × Nat) :=
  let D := domOf s x
  let out := ((maskCells s x (maskOf d)).filter (fun y => cellWorks (cellAt s y))).length
  if opB d 20 = 1 && (D.state == .lit || D.state == .shade) && ratingOf s x (mapWorking s x - out) == .dark then some (stRefused, 16)
  else if opB d 20 = 2 && D.state != .dark && !(isolatedIn s d x).isEmpty then some (stRefused, 16)
  else none

/-- The refusal of a new floor at the commit (R219), on a state in which the domain already has it. -/
def floorRefusal (s : State) : Option (Nat × Nat) := if s.arb.cap < floorSum s then some (stRefused, 20) else none

/-- The state with a domain's budget parameters set. -/
def setBudget (s : State) (d : Desc) (l : Nat) : State :=
  let b := newBudget d (budOf s (physOf s l))
  setCfg s l (fun c => { c with bud :=
                                 { c.bud with floor := if selects d 0 then b.floor else c.bud.floor, idle := if selects d 1 then b.idle else c.bud.idle,
                                              ceil := if selects d 2 then b.ceil else c.bud.ceil, cls := b.cls,
                                              set := c.bud.set ||| BitVec.ofNat 4 (maskOf d) } })

/-- The check of `BUDGET_SET` at the commit: the floors of the named domains in turn. -/
def budgetRefusal (s : State) (d : Desc) (ls : List Nat) : Option Fail :=
  if !selects d 0 then none
  else
    (ls.foldl (fun (acc : State × Option Fail) l =>
      let s1 := setBudget acc.1 d l
      (s1, match acc.2 with
        | some f => some f
        | none => if hasFloor s1 (physOf s1 l) then (floorRefusal s1).map (fun r => ⟨r.1, r.2, l⟩) else none)) (s, none)).2

/-- Sensor conditions of a live check: an ABSENT site (Table 14-13). -/
def sensorRefused (s : State) (x : Nat) : Bool := sensAbsent s x

/-- Commands that name an ABSENT tile and are refused (R425). -/
def absentRefused (op : Nat) : Bool := ([0x10, 0x12, 0x14, 0x15, 0x16, 0x22, 0x70, 0x71, 0x72] : List Nat).contains op

/-- The state preconditions of a command for one logical domain that it names. A step-mark source that is the odd member of a pair is named
too (R127, R208). -/
def domRefusal (s : State) (op : Nat) (d : Desc) (l : Nat) : Option (Nat × Nat) :=
  let x := physOf s l
  let D := domOf s x
  if isOdd s x then some (stRefused, 4)
  else if D.state = .absent then (if absentRefused op then some (stRefused, 4) else none)
  else
    match op with
    | 0x10 => stateRefusal s d x
    | 0x11 => if overVmax s x (opN d 16 2) (cfgOf s l).freq (cfgOf s l).lim.vmax then some (stRefused, 16) else none
    | 0x12 => freqRefusal s d x
    | 0x13 =>
      let v := (newLimits d (isEven s x) (cfgOf s l).lim).vmax
      if d.sub = 0 ∧ selects d 1 ∧ overVmax s x (cfgOf s l).target (cfgOf s l).freq v then some (stRefused, 22) else none
    | 0x14 => pairRefusal s x
    | 0x15 => unpairRefusal s x
    | 0x16 => cellmapRefusal s d x
    | 0x22 => if modeOn s 2 then none else some (stRefused, 0x7F)
    | 0x53 | 0x55 => if D.fallback then some (stRefused, 4) else none
    | 0x54 =>
      let src := opB d 26
      if D.fallback then some (stRefused, 4)
      else if selects d 6 && decide (src < 64) && isOdd s (physOf s src) then some (stRefused, 26) else none
    | 0x70 => if D.state = .lit ∧ !D.held then none else some (stRefused, 4)
    | 0x71 => (match s.sieve with | some v => if v.dom.val = x then none else some (stRefused, 4) | none => some (stRefused, 4))
    | 0x72 => if D.state = .dark ∨ (D.state = .shade ∧ !D.held) then none else some (stRefused, 4)
    | _ => none

/-! ### Step 9 -/

/-- The preconditions of a command that concern no single domain. `commit` selects those of step 13. -/
def chipRefusal (s : State) (commit : Bool) (c : Cmd) : Option Fail :=
  let d := c.d
  let num := opB d 16
  let no (b : Bool) (off : Nat) : Option Fail := failIf b stRefused off (failAt s c.op d)
  match c.op with
  | 0x20 => if commit then budgetRefusal s d (targetsOf s c.op d) else none
  | 0x21 => no (decide (pick d 0 20 2 s.arb.capChip < floorSum s)) 20
  | 0x22 => no (!modeOn s 2) 0x7F
  | 0x50 => no (progBound s num || (!commit && preparedNames s c 0x51 num)) 16
  | 0x51 => no (!(bindable s num || (!commit && preparedNames s c 0x50 num))) 16
  | 0x52 => no (modelBound s num || (!commit && preparedNames s c 0x53 num)) 16
  | 0x53 => firstFail [no s.lanternFail 0x7F, no (num != 0xF && !(modelBindable s num || (!commit && preparedNames s c 0x52 num))) 16]
  | 0x60 =>
    -- a waveform domain that names the odd member of a pair (R127)
    firstFail ((List.range 4).map (fun i =>
      let l := opB d (20 + i)
      failIf (decide (l < 64) && isOdd s (physOf s l)) stRefused (20 + i) l))
  | 0x61 =>
    no (commit && num == 0 && opB d 17 % 2 == 1 &&
      !((s.records.take 15).any (fun r => r.epoch == BitVec.ofNat 32 (opN d 20 4) && !r.bad))) 20
  | 0x72 =>
    if num = 0 then no (s.laneOf.toList.any (fun x => match x with | some l => l.val == opB d 17 | none => false)) 17
    else no (num == 3 && sensorRefused s (opN d 18 2)) 18
  | 0x80 => no (!s.strata.avail) 0x7F
  | 0x91 => no (num == 0 || !(portOf s num).en) 16
  | 0xA0 => no ((List.range 80).any (fun x => (domOf s x).state != .dark && !isAbsent s x)) 0x7F
  | _ => none

/-- Whether the safe state refuses a command (R376). -/
def safeRefused (s : State) (op : Nat) : Bool := s.safety.safe && op != 0x01 && op != 0x80 && op != 0x61

/-- The state preconditions of a command (step 9, and again at step 13). A command whose 0xFF leaves no domain is refused (R320). -/
def stateCheck (s : State) (commit : Bool) (c : Cmd) : Option Fail :=
  let ls := targetsOf s c.op c.d
  firstFail [failIf (safeRefused s c.op) stRefused 0x7F (failAt s c.op c.d),
    failIf (scopeOf c.op c.d != .none && ls.isEmpty) stRefused 4 0xFE,
    if c.op = 0x22 then firstDom ls (fun l => if isAbsent s (physOf s l) then some (stRefused, 4) else none) else none,
    chipRefusal s commit c, firstDom ls (domRefusal s c.op c.d)]

/-! ### Steps 10 and 11 -/

/-- Whether an immediate command of an opcode runs, for a port or at all. -/
def immRuns (s : State) (op : Nat) (p : Option PortNo) : Bool :=
  s.cmds.any (fun x => x.op == op && x.stage == .running && (match p with | some q => x.d.port == q | none => true))

/-- The units that a `SELFTEST` tests. -/
def testUnits (s : State) (d : Desc) : List TestUnit :=
  match opB d 16 with
  | 0 => [.lane (Fin.ofNat 17 (opB d 17))]
  | 1 => [.lantern]
  | 2 => (presentOf s 0x72 d).map (fun l => .station (Fin.ofNat 80 (physOf s l)))
  | 3 => [.sensor (Fin.ofNat 320 (opN d 18 2))]
  | _ => [.meter]

/-- Whether a `SELFTEST` finds its unit busy (Table 14-13). -/
def testBusy (s : State) (d : Desc) : Option Nat :=
  match opB d 16 with
  | 2 => (presentOf s 0x72 d).find? (fun l => bistRuns s (physOf s l))
  | 3 => if s.tests.any (fun r => match r.unit with | .sensor _ => true | _ => false) then some 0xFE else none
  | 4 => if calBusy s.meter then some 0xFE else none
  | _ => if (testUnits s d).any (fun u => (testOf s u).isSome) then some 0xFE else none

/-- Step 10: a conflicting operation in progress (R344, R345, R348, R411, Table 14-13; log 104). -/
def busyCheck (s : State) (c : Cmd) : Option Fail :=
  let d := c.d
  let at_ (o : Option Nat) : Option Fail := o.map (fun x => ⟨stBusy, 0x7F, x⟩)
  let bist (l : Nat) : Bool := bistRuns s (physOf s l)
  match c.op with
  | 0x10 => if opB d 16 = 0 then none else at_ ((presentOf s c.op d).find? bist)
  | 0x14 => at_ ((presentOf s c.op d).find? (fun l => bist l || bistRuns s (physOf s l + 1)))
  | 0x15 | 0x16 => at_ ((presentOf s c.op d).find? bist)
  | 0x70 =>
    -- one sieve test runs at a time: of several named domains the second finds the first one's test (R344)
    at_ (if s.sieve.isSome then some (failAt s c.op d) else (targetsOf s c.op d)[1]?)
  | 0x72 => at_ (testBusy s d)
  | 0x80 => failIf (immRuns s 0x80 (some d.port)) stBusy 0x7F 0xFE
  | 0xA0 => failIf (immRuns s 0xA0 none) stBusy 0x7F 0xFE
  | _ => none

/-- Armed watches of every port. -/
def armedCount (s : State) : Nat :=
  ((List.range 8).map (fun p => (((portOf s p).watches.toList).filter (fun w => w.isSome)).length)).sum

/-- The free slots that a `WATCH_ARM` and the prepared ones would arm afresh, each counted once (R302). -/
def armsPending (s : State) (c : Cmd) : Nat :=
  let slots := ((c :: otherPrepared s c).filter (fun x => x.op == 0x40)).map (fun x => (x.d.port, opB x.d 16))
  (slots.eraseDups.filter (fun x => (vget (portOf s x.1).watches x.2).isNone)).length

/-- Step 11 without the AT store: evaluators and store units (R165, R302). -/
def unitCheck (s : State) (c : Cmd) : Option Fail :=
  match c.op with
  | 0x40 =>
    failIf ((vget (portOf s c.d.port).watches (opB c.d 16)).isNone && decide (128 < armedCount s + armsPending s c)) stResource 0x7F
      (domAt c.op c.d)
  | 0x50 => failIf (!unitsFit s c) stResource 0x7F 0xFE
  | _ => none

/-- The check of R67 at the commit shutter: the safe state, rights, cross checks, state preconditions and conflicts. -/
def commitCheck (s : State) (c : Cmd) : Option Fail :=
  firstFail [failIf (safeRefused s c.op) stRefused 0x7F (failAt s c.op c.d), rightsCheck s c.op c.d,
    (siteBad s c.op c.d).map (fun f => { f with st := stRefused }), crossCheck s c.op c.d stRefused, stateCheck s true c,
    (busyCheck s c).map (fun f => { f with st := stRefused })]

end Sys2Proof.Machine
end

