-- ==== Sys2Proof/Machine/Effects.lean ====
section
/-! DEFINITION. What each command of Table 14-6 does at its commit shutter (R111–R128, R166, R198, R208–R211, R219–R234, R289, R329–R347). -/

namespace Sys2Proof.Machine

/-! ### Watches: the selected value (R303, Table 13-3) -/

/-- What is latched at a shutter: the record, and the state whose counters stand beside it. -/
structure Latch where
  r : Record
  s : State

/-- The value that a selector reads from the record and the counters latched at a shutter. -/
def selValue (q : Latch) (p sel dom kind : Nat) : Int :=
  let s := q.s
  let r := q.r
  let D := domOf s (physOf s dom)
  let x := vget r.doms dom
  let P := portOf s p
  if 1 ≤ sel ∧ sel ≤ 0x0D then (ctrOf D sel).toNat
  else
    match sel with
    | 0x10 => P.trace.ctrRing.toNat
    | 0x11 => P.trace.ctrQueue.toNat
    | 0x12 => P.ovfCnt.toNat
    | 0x18 => (vget s.safety.kinds kind).toNat
    | 0x20 => x.st.toNat
    | 0x21 => x.working
    | 0x22 => x.code
    | 0x23 => x.target
    | 0x24 => x.vmin.toNat
    | 0x25 => x.temp
    | 0x26 => x.grant
    | 0x27 => x.freq
    | 0x28 => if (vget r.ext dom).lag then 1 else 0
    | 0x30 => r.power
    | 0x31 => r.pool
    | _ => r.gtc.toNat

/-- A watch event (Table 13-4). -/
def watchEvent (s : State) (t slot reason m : Nat) (w : Watch) (v : Int) : Event :=
  let dom : Nat := if selDomain w.sel.toNat then w.dom.toNat else 0xFE
  { typ := 0x03, dom := if selDomain w.sel.toNat then w.dom else 0xFE, cls := 0, epoch := epochIn s,
    pay := leBytes 8 t ++ leBytes 1 slot ++ leBytes 1 reason ++ leBytes 1 w.sel.toNat ++ leBytes 1 dom ++ leBytes 4 m ++ leBytesS 8 v }

/-- A port's watches on domains that it no longer holds are cancelled, each with its event (R289, R307). -/
def cancelLost (s : State) (t : Nat) (q : Latch) (p : Nat) : State :=
  (List.range 32).foldl (fun s k =>
    match vget (portOf s p).watches k with
    | some w =>
      if selDomain w.sel.toNat && !holdsDom s p w.dom.toNat then
        postEvent (setPort s p (fun P => { P with watches := vset P.watches k none })) p
          (watchEvent s t k 2 0 w (selValue q p w.sel.toNat w.dom.toNat w.kind.toNat))
      else s
    | none => s) s

/-! ### Windows and targets -/

/-- The guard window of a leader's state (Table 04-1); HELD and DARK leave it. -/
def loadWindow (s : State) (x : Nat) : State :=
  let lim := (cfgAt s x).lim
  match (domOf s x).state with
  | .lit => setMembers s x (fun M => { M with gwFloor := Nat.max 160 lim.vmin, gwCeil := Nat.min 880 lim.vmax })
  | .shade => setMembers s x (fun M => { M with gwFloor := 160, gwCeil := 320 })
  | _ => s

/-- A change that a sieve test does not survive (Table 17-4), unless it has failed before; a host's change of state is taken as this one
(log 92). -/
def sieveAlter (s : State) (x : Nat) : State :=
  match s.sieve with
  | some v => if v.dom.val = x then { s with sieve := some { v with abandon := v.abandon || !v.fail } } else s
  | none => s

/-- Parking ends in a domain that changes state or pairing (R99). -/
def parkAbort (s : State) (x : Nat) : State := setMembers s x (fun M => { M with park := { M.park with abort := true } })

/-! ### `DOM_STATE` (R111–R124) -/

/-- Whether a short retry of a domain is pending (R123). -/
def retryPending (s : State) (x : Nat) : Bool :=
  (domOf s x).tr.retryAt.isSome || s.ints.any (fun i => i.dom.val == x && (match i.what with | .retry _ => true | _ => false))

/-- A pending retry is not made (R123). -/
def cancelRetry (s : State) (x : Nat) : State :=
  let s1 : State := { s with ints := s.ints.filter (fun i => !(i.dom.val == x && (match i.what with | .retry _ => true | _ => false))) }
  setMembers s1 x (fun M => { M with tr := { M.tr with retryAt := none } })

/-- The first commit that takes a domain out of DARK locks the clock-switch mode and the critical limit (R259, R357). -/
def firstLight (s : State) : State :=
  let s1 := setClk s (fun c => { c with swLock := true })
  setTherm s1 (fun h => { h with critLock := true })

/-- A domain leaves DARK by a soft start, with its inrush grant reserved (R113, R121). -/
def startFromDark (s : State) (x : Nat) (want : DState) (attempt : Nat) : State :=
  let s1 := setMembers (startSoft (firstLight s) x want attempt) x (fun M => { M with state := want })
  reserveInrush (loadWindow s1 x) x

/-- HELD ends: the state before it stands again, `VREF` starts at the held set-point, and the checker starts anew (R119, R185). -/
def leaveHeld (s : State) (x : Nat) : State :=
  let D := domOf s x
  if D.state ≠ .held ∧ !D.held then s
  else
    let back := if D.state = .held then D.heldFrom else D.state
    let s1 := setMembers s x (fun M => { M with state := back, held := false, heldWhy := none,
                                                prof := profHold (codeMv D.code) M.prof })
    let s2 := freqUnheld (loadWindow s1 x) x
    if supRuns (domOf s2 x) then supStart s2 x else s2

/-- A `DOM_STATE` that replaces a transition ends its move; the new one is planned from the `VREF` of that frame start (R112, R182). -/
def replaceMove (D : Domain) (M : Domain) : Domain :=
  if D.tr.ph = .descent ∨ D.tr.ph = .lift then { M with prof := profHold M.prof.vref M.prof } else M

/-- A move from SHADE, or from a descent, to LIT (R112, R115). -/
def startLift (s : State) (x : Nat) : State :=
  let D := domOf s x
  loadWindow (setMembers s x (fun M =>
    replaceMove D { M with state := .lit, tr := { TransSt.reset with ph := .lift, goal := .lit, since := s.time.gtc } })) x

/-- A descent from LIT to SHADE: the clock stops and the generator moves to `VRET` (R116). -/
def startDescent (s : State) (x : Nat) : State :=
  let D := domOf s x
  holdClock (setMembers s x (fun M => replaceMove D { M with tr := { TransSt.reset with ph := .descent, goal := .shade, since := s.time.gtc } })) x true

/-- A domain put into DARK by a host (R117). -/
def hostDark (s : State) (x : Nat) : State :=
  let D := domOf s x
  let s1 := cancelRetry s x
  if D.state = .dark ∧ !D.en then abandonBist s1 x
  else
    let s2 := discharge (abandonBist s1 x) x
    setMembers s2 x (fun M => { M with state := .dark, heldWhy := none, prof := .reset })

/-- What a request for SHADE or LIT does in the state that a domain is in. A soft start in progress, whatever its goal, is replaced by
one from the rail of the frame's latch, as is a discharge that the station has begun; a move to LIT in progress is planned anew (R112). -/
def hostLight (s : State) (x : Nat) (want : DState) : State :=
  let attempt := if retryPending s x then (domOf s x).tr.attempt + 1 else 1
  let s1 := leaveHeld (cancelRetry s x) x
  let D := domOf s1 x
  if D.state = .dark then startFromDark s1 x want attempt
  else if inSoftStart D || D.tr.ph = .discharge then
    loadWindow (setMembers (startSoft s1 x want (if D.tr.ph = .discharge then attempt else D.tr.attempt)) x (fun M => { M with state := want })) x
  else if D.state = .shade then (if want = .lit then startLift s1 x else s1)
  else if want = .lit then
    -- from HELD a clock that the descent or SHADE had stopped is released again at the end of the move (R114)
    (if D.tr.ph = .descent || D.tr.ph = .lift then startLift s1 x else s1)
  else startDescent s1 x

/-- `DOM_STATE` for one domain. The result: the state before, and whether the latch cleared. -/
def applyState (s : State) (d : Desc) (x : Nat) : State × Nat :=
  let D := domOf s x
  let clear := opB d 17 % 2 == 1
  let want : DState := if opB d 16 = 2 then .lit else if opB d 16 = 1 then .shade else .dark
  let same := D.state == want && D.tr.ph == .idle
  let s0 := setMembers s x (fun M => { M with latched := M.latched && (!clear || M.marks.latch), fallback := false, sup := { M.sup with fbPend := false } })
  let s1 := if want = .lit then s0 else
    setMembers s0 x (fun M => { M with droop := { M.droop with uvLatched := false, stops := if M.droop.uvLatched then [] else M.droop.stops } })
  let s2 := if want = .dark then hostDark s1 x else if same then s1 else hostLight s1 x want
  let s3 := if same then s2 else parkAbort (sieveAlter s2 x) x
  (s3, stateCode D.state + bitAt (clear && D.latched && !D.marks.latch) 3)

/-! ### Mirror pairs (R125–R128) -/

/-- The frequency interfaces of two sites that join are driven alike (R44): a change that either has outstanding in SHADE or LIT is requested
afresh from both. The levels of the two `FREQ_REQ` toggles stay as they stand (log 87). -/
def pairFreq (s : State) (x : Nat) (lit : Bool) : State :=
  let code := (cfgAt s x).freq
  let even := (domOf s x).tile
  let busy := (membersOf s x).any (fun y => (domOf s y).tile.change.isSome || (domOf s y).tile.freqIn != code)
  let c := if lit && busy then some (newChange code (s.time.gtc + 1000) false 1) else none
  setTiles s x (fun m => { m with change := c, nextChg := none, freqCode := even.freqCode, withdrawn := even.withdrawn })

/-- The clock stops of two sites that join: whatever stopped either stops the pair (R44; log 64). -/
def pairStops (a b : Droop) (r : Droop) : Droop :=
  { r with clkHold := a.clkHold, relPend := a.relPend, ownStop := a.ownStop.or b.ownStop, fabStops := a.fabStops ++ b.fabStops,
           uvLatched := a.uvLatched || b.uvLatched, stops := a.stops, dt3 := a.dt3, glint := a.glint }

/-- A bank under the `FLARE_EN` that governs it from a pairing or unpairing on (R133, R143). -/
def pairBank (armed : Bool) (en : Nat) (f : Flare) : Flare := if armed then armBank en f else disarm f

/-- `DOM_PAIR`: the members of an even site join at the shutter. The result: the pair's working cells. -/
def applyPair (s : State) (x : Nat) : State × Nat :=
  let a := domOf s x
  let t := s.time.gtc
  let lit := a.state == .lit || a.state == .shade
  let s0 := cancelFor s (fun l => l.lender.val == x || l.borrower.val == x || l.lender.val == x + 1 || l.borrower.val == x + 1)
  let ga := (domOf s0 x).arb
  let gb := (domOf s0 (x + 1)).arb
  let g := (if ga.lender then ga.g else ga.gForce) + (if gb.lender then gb.g else gb.gForce)
  let en := (cfgAt s x).lim.flareEn
  let s1 := unparkAll (unparkAll s0 x) (x + 1)
  let s2 := setDom s1 x (fun D =>
    { D with pair := .even, pairAt := t, segs := if lit then 0 else 16, opening := false,
             arb := { D.arb with g := g, gForce := g, gLast := ga.gLast + gb.gLast, lender := false, offer := 0 }, cmSeq := D.cmSeq })
  let s3 := setDom s2 (x + 1) (fun D =>
    { D with pair := .odd, pairAt := t, arb := { Arb.reset with fceil := D.arb.fceil }, gwFloor := a.gwFloor, gwCeil := a.gwCeil,
             droop := { D.droop with armed := false, in1 := false, in2 := false, in3 := false, inF := false, flare := pairBank a.droop.armed en D.droop.flare },
             rc := { D.rc with frozen := true, mark := false }, lant := { D.lant with hints := [], ipred := Vector.replicate 4 0, nextPred := Vector.replicate 4 0 } })
  let s4 := setMembers s3 x (dropErrs t)
  let s5 := pairFreq (setStops s4 x (pairStops a.droop (domOf s (x + 1)).droop)) x lit
  (parkAbort (sieveAlter (sieveAlter s5 x) (x + 1)) x, workingOf s3 x)

/-- `DOM_UNPAIR`: the members separate. The result: the working cells of both. -/
def applyUnpair (s : State) (x : Nat) : State × Nat :=
  let a := domOf s x
  let lit := a.state == .lit || a.state == .shade
  let lx := logOf s x
  let ly := logOf s (x + 1)
  let s0 := unparkAll (cancelFor s (fun l => l.lender.val == x || l.borrower.val == x)) x
  let g := if a.arb.lender then a.arb.g else a.arb.gForce
  let gl := a.arb.gLast
  let zero (D : Domain) : Domain := { D with cells := D.cells.map (fun c => { c with acc := 0, strim := 0 }) }
  let s1 := setDom s0 x (fun D =>
    zero { D with pair := .none, opening := lit, segs := if lit then D.segs else 0,
                  arb := { D.arb with g := g - g / 2, gForce := g - g / 2, gLast := gl - gl / 2, lender := false, offer := 0 } })
  let s2 := setDom s1 (x + 1) (fun D =>
    zero { D with pair := .none, state := a.state, tgt := a.tgt, en := a.en, code := a.code, stCode := a.stCode, stDiv := a.stDiv,
                  stSkip := a.stSkip, stHeld := a.stHeld, codeFrame := a.codeFrame, gwFloor := a.gwFloor, gwCeil := a.gwCeil,
                  prof := profHold a.prof.vref { a.prof with cur := a.prof.vref }, tr := a.tr,
                  sw := if lit then a.sw else D.sw,
                  droop := stopLevel { D.droop with armed := a.droop.armed, flare := pairBank a.droop.armed (cfgOf s ly).lim.flareEn D.droop.flare, vth := a.droop.vth, uvLatched := a.droop.uvLatched,
                                                    clkHold := a.droop.clkHold, relPend := a.droop.relPend, ownStop := a.droop.ownStop,
                                                    fabStops := a.droop.fabStops, stops := a.droop.stops, uvGood := 0,
                                                    glint := false, dt3 := false },
                  arb := { D.arb with g := g / 2, gForce := g / 2, gLast := gl / 2, lender := false, offer := 0 },
                  rc := { D.rc with frozen := false, locked := false, mark := false, idx := 0, cnt := 0, esum := 0 } })
  let s3 := if lit then setCfg s2 ly (fun c => { c with target := (cfgOf s lx).target, tgtSet := true, freq := (cfgOf s lx).freq }) else s2
  let s3 := driveThr (setDoms s3 (fun y D => if y = x ∨ y = x + 1 then dropErrs s.time.gtc D else D)) (x + 1)
  let s4 := if lit && supRuns (domOf s3 x) then supStart (supAgain s3 x) (x + 1) else s3
  (parkAbort (parkAbort (sieveAlter s4 x) x) (x + 1), workingCells x (domOf s4 x) + workingCells (x + 1) (domOf s4 (x + 1)) * 256)

/-! ### `DOM_CELLMAP` (R95, R333) -/

/-- The weight nibble of cell k of the mask. -/
def weightOf (d : Desc) (k : Nat) : BitVec 4 := BitVec.ofNat 4 (opN d 24 14 / 16 ^ k)

/-- One cell under an action of Table 14-8. -/
def mapCell (action : Nat) (w : BitVec 4) (c : Cell) : Cell :=
  match action with
  | 0 => { c with weight := w }
  | 1 => if cellWorks c then { c with st := .offline, tkSt := .offline, acc := 0, strim := 0 } else c
  | 2 => if cellWorks c then c else { c with st := .active, acc := 0, strim := 0, failed := none, underRun := 0, overRun := 0, drvfRun := 0,
                                             otRun := 0, silent := 0, ovld := false }
  | _ => { c with crack := false, crackRun := 0 }

/-- What of a leader the cell map distinguishes: service and weight of every cell. -/
def mapView (s : State) (x : Nat) : List (Bool × BitVec 4) := (imageCells s x).map (fun c => (cellWorks c, c.weight))

/-- The committed copies of the cell map that the configuration image shows: weight, CRACK flag and absence from service. A cell
whose isolation is still to be committed keeps its place. -/
def commitMap (s : State) (x : Nat) : State :=
  (membersOf s x).foldl (fun s y =>
    let open_ := s.ints.filterMap (fun i => if i.dom.val = y then (match i.what with | .cellMap (_ + 1) => some i.at_ | _ => none) else none)
    setDom s y (fun D => { D with cells := D.cells.map (fun c =>
      { c with cw := c.weight, ccrack := c.crack, cout := !cellWorks c && !(c.failed.isSome && open_.contains c.isoAt) }) })) s

/-- Whether an action would undo what an internal change of the same shutter has done to a cell (R84). -/
def justMarked (s : State) (action : Nat) (x : Nat × Nat) : Bool :=
  let m := (domOf s x.1).marks
  (action == 2 && m.outs.contains x.2) || (action == 3 && m.cracks.contains x.2)

/-- `DOM_CELLMAP` for one leader. The result: working cells and cell-map sequence. -/
def applyCellmap (s : State) (d : Desc) (x : Nat) : State × Nat :=
  let all := (membersOf s x).flatMap (fun y => (List.range (nCells y)).map (fun k => (y, k)))
  let before := mapView s x
  let s1 := (all.zipIdx).foldl (fun s e =>
    if (maskOf d).testBit e.2 && !justMarked s (opB d 20) e.1 then setCellAt s e.1 (mapCell (opB d 20) (weightOf d e.2)) else s) s
  let s2 := if mapView s1 x = before then s1 else setDom s1 x (fun D => { D with cmSeq := D.cmSeq + 1 })
  (commitMap s2 x, mapWorking s2 x + (domOf s2 x).cmSeq.toNat * 256)

/-! ### Parameters -/

/-- `DOM_LIMITS` for one logical domain: window, flare enable and parking follow at once (R88, R99, R133, R176). -/
def applyLimits (s : State) (d : Desc) (l : Nat) : State :=
  let x := physOf s l
  let s1 := setCfg s l (fun c => { c with lim := newLimits d (isEven s x) c.lim })
  if isAbsent s x then s1
  else
    let lim := (cfgOf s1 l).lim
    let D := domOf s1 x
    let s2 := loadWindow s1 x
    let bank (f : Flare) : Flare := if D.droop.armed || lim.flareEn = 0 then armBank lim.flareEn f else f
    let s3 := setMembers s2 x (fun M => { M with droop := { M.droop with flare := bank M.droop.flare } })
    if d.sub = 1 ∧ lim.parkEn = 0 ∧ (D.state = .lit ∨ D.state = .shade) then unparkAll s3 x else s3

/-- `RC_CONFIG` for one logical domain: a change of `RC_K` zeroes the bins; RC_OFF clears (R208, R214). -/
def applyRcConfig (s : State) (d : Desc) (l : Nat) : State :=
  let x := physOf s l
  let r := (cfgOf s l).rc
  let r1 : RcCfg := { on := pick d 0 20 1 r.on, k := pick d 1 21 1 r.k, f := pick d 2 22 1 r.f, g := pick d 3 23 1 r.g, l := pick d 4 24 1 r.l,
                      auth := pick d 5 25 1 r.auth, src := pick d 6 26 1 r.src }
  let s1 := setCfg s l (fun c => { c with rc := r1 })
  setDom s1 x (fun D => { D with rcOff := D.marks.rc, rc := if r1.k = r.k then D.rc else rcCleared D.rc })

/-- `LEND_POLICY` for one logical domain (R229). -/
def applyLend (s : State) (d : Desc) (l : Nat) : State :=
  setCfg s l (fun c => { c with bud := { c.bud with lend := pick d 0 20 1 c.bud.lend, borrow := pick d 1 21 1 c.bud.borrow,
                                                    lendQual := pick d 2 22 1 c.bud.lendQual, loanMax := pick d 3 24 2 c.bud.loanMax } })

/-- `BUDGET_CAP` (R220, R221). -/
def applyCap (s : State) (d : Desc) : State :=
  setArbChip s (fun a => { a with capChip := pick d 0 20 2 a.capChip, capIn := pick d 1 22 2 a.capIn, incorr := 0 })

/-- `BIND_PROGRAM` for one logical domain: it ends fall-back and, without keep-state, loads the image (R166, R188, R339). -/
def applyBind (s : State) (d : Desc) (l : Nat) : State :=
  let x := physOf s l
  let changed := (cfgOf s l).prog != opB d 16
  let s1 := setCfg s l (fun c => { c with prog := opB d 16 })
  let s2 := setMembers s1 x (fun M => { M with fallback := false, sup := { M.sup with fbPend := false } })
  let s3 := if opB d 17 % 2 = 1 then s2 else loadInit s2 x
  if changed then sieveAlter s3 x else s3

/-- `BIND_MODEL` for one logical domain: LANTERN_OFF clears and the error windows start afresh (R198). -/
def applyBindModel (s : State) (d : Desc) (l : Nat) : State :=
  let x := physOf s l
  let num := opB d 16
  let new : Option (Fin 8) := if num = 0xF then none else some (Fin.ofNat 8 num)
  let changed := (cfgOf s l).model != new || ((domOf s x).lanternOff && !(domOf s x).marks.lant)
  let s1 := setCfg s l (fun c => { c with model := new })
  let s2 := ceilingAt (setDom s1 x (fun D => { D with
    lanternOff := D.marks.lant, lant := { D.lant with sums := .zero, winStart := windowOf s.time.gtc, failRun := 0, open_ := [] } })) x
  if changed then sieveAlter s2 x else s2

/-! ### Jobs -/

/-- `JOB_ALIGN` for one logical tile: F_job, and the committed code at or below the ceiling, switched at SW (R233, R234). -/
def applyJob (s : State) (d : Desc) (l : Nat) : State :=
  let x := physOf s l
  let code := opB d 16
  let s1 := setCfg s l (fun c => { c with fjob := code })
  commitFreq s1 x (Nat.min code (domOf s x).arb.fceil) (opN d 24 8) true

/-- Whether a mark that arrives now will be taken by the RC of a domain (R210). -/
def markTakes (s : State) (x : Nat) : Bool :=
  let R := (domOf s x).rc
  !R.mark && !(R.locked && R.idx == 0)

/-- `STEP_MARK`: the domains whose `RC_SRC` is their own marks take it. The result: how many did. -/
def applyMark (s : State) (ls : List Nat) : State × Nat :=
  ls.foldl (fun acc l =>
    let x := physOf acc.1 l
    if (cfgOf acc.1 l).rc.src = 0x80 then (pendMark acc.1 x, acc.2 + (if markTakes acc.1 x then 1 else 0)) else acc) (s, 0)

/-! ### Observation, tests, rights and ports -/

/-- `WATCH_ARM`. The result: the base latched for a count watch. -/
def applyArm (s : State) (t : Nat) (q : Latch) (d : Desc) : State × Nat :=
  let p := d.port.val
  let count := opB d 18 % 2 == 1
  let expl := opB d 18 / 4 % 2 == 1
  let cur : Word := BitVec.ofInt 32 (selValue q p (opB d 17) d.dom.toNat d.sub.toNat)
  let base : Word := if !count then 0 else if expl then BitVec.ofNat 32 (opN d 24 4) else cur
  let w : Watch := { sel := BitVec.ofNat 8 (opB d 17), dom := d.dom, kind := d.sub, count := count, repeat_ := opB d 18 / 2 % 2 == 1,
                     cond := BitVec.ofNat 3 (opB d 19), thr := opN d 20 4, const := BitVec.ofNat 64 (opN d 24 8), base := base, prev := false, since := t }
  (setPort s p (fun P => { P with watches := vset P.watches (opB d 16) (some w) }), base.toNat)

/-- The parameter sets that a span which has begun can still need at t: it is 1,024 epochs at most. Each set holds until the commit of the one
before it in the list. -/
def keepSets (t : Nat) : Nat → List TraceOld → List TraceOld
  | _, [] => []
  | until_, o :: rest => if t < until_ + 2048000 then o :: keepSets t o.from_ rest else []

/-- `TRACE_CONFIG`: the parameters of spans that begin at or after the shutter; replaced ones stay while a span that began under them can run
(R265). -/
def applyTrace (t : Nat) (d : Desc) (x : TraceSt) : TraceSt :=
  { x with old := keepSets t t (traceSets x),
           en := opB d 16 == 1, mode := BitVec.ofNat 2 (opB d 17), qs := BitVec.ofNat 2 (opB d 18), k := opB d 19,
           waves := Vector.ofFn (fun i => BitVec.ofNat 8 (opB d (20 + i.val))), from_ := t, resync := true }

/-- A station reset in DARK: the station's logic takes its reset values, and its tables are reloaded from the hub, which holds the same values; its
counters, its cells' states and its flare state stay, and share accumulators and trims are 0 (R366, Table 15-5). -/
def stationReset (D : Domain) : Domain :=
  let r := D.droop
  { D with
    park := Domain.reset.park, stCode := 0, codeFrame := 0, flareArm := false, armOld := false, winT := D.maxT, tblBad := false,
    droop := { Droop.reset with flare := r.flare, fired := r.fired, flRep := r.flRep, chkAt := r.chkAt, crossed := r.crossed, stdyRep := r.stdyRep,
                                uvSeen := r.uvSeen },
    cells := D.cells.map (fun c =>
      { c with acc := 0, strim := 0, silent := 0, parFails := 0, underRun := 0, overRun := 0, drvfRun := 0, otRun := 0, crackRun := 0, sumDrop := 0,
               sumI := 0, nWin := 0, rampFr := 0 }) }

/-- A test begins (R343). A station in DARK is reset first (R366). -/
def startTest (s : State) (by_ : Option (PortNo × BitVec 16)) (u : TestUnit) : State :=
  let s1 : State := { s with tests := s.tests ++ [{ unit := u, by_ := by_ }] }
  match u with
  | .lane l => { s1 with lanes := vupd s1.lanes l (fun x => { x with testing := true }) }
  | .sensor x => setTherm s1 (fun h => { h with sens := vupd h.sens x (fun c => { c with live := true }) })
  | .station d =>
    if (domOf s1 d).state = .dark then
      setMembers s1 d stationReset
    else s1
  | .meter => staleUpdate (setMeter s1 (fun m => if m.phase = .idle then startCal 5 m else { m with calPend := 5 }))
  | .lantern => s1

/-- `SIEVE_START`: step 1 at t, or an immediate pass when its target would lie below the LIT window (R407, R408). -/
def applySieve (s : State) (d : Desc) (l : Nat) : State :=
  let x := physOf s l
  let e0 := effTarget s x
  let v : Sieve := { dom := Fin.ofNat 80 x, port := d.port, tag := d.tag, e0 := e0, step := 1, maxS := opB d 16, dwell := opN d 20 4,
                     vlow := 0xFFFF, glBase := ctrOf (domOf s x) 1, uvBase := ctrOf (domOf s x) 5, fail := false, abandon := false, since := s.time.gtc }
  if e0 < (domOf s x).gwFloor + 8 then
    postTest s d.port l 5 0 l d.tag.toNat ([0, 0] ++ leBytes 2 e0 ++ leBytes 2 0xFFFF ++ [0, 0])
  else { s with sieve := some v }

/-- The detail of a sieve event (R409). -/
def sieveDetail (s : State) (v : Sieve) : List Byte :=
  let D := domOf s v.dom
  [BitVec.ofNat 8 v.step, 0] ++ leBytes 2 (v.e0 - 8 * v.step) ++ leBytes 2 v.vlow.toNat ++
  [BitVec.ofNat 8 (satNat 8 (ctrOf D 1 - v.glBase).toNat), BitVec.ofNat 8 (satNat 8 (ctrOf D 5 - v.uvBase).toNat)]

/-- A TEST event of the sieve test. -/
def sievePost (s : State) (v : Sieve) (outcome : Nat) : State :=
  let l := logOf s v.dom
  postTest s v.port l 5 outcome l v.tag.toNat (sieveDetail s v)

/-- The sieve test ends: its event, and step 0 (R408). -/
def sieveEnd (s : State) (v : Sieve) (outcome : Nat) : State := { sievePost s v outcome with sieve := none }

/-- `RIGHTS_SET` (R289, R346). -/
def applyRights (s : State) (t : Nat) (q : Latch) (d : Desc) : State :=
  let p := opB d 16
  let s1 := setPort s p (fun P => { P with rightsD := BitVec.ofNat 80 (opN d 20 10), rightsO := BitVec.ofNat 11 (opN d 32 2) })
  cancelLost s1 t q p

/-- `PORT_QUIESCE`. The result: the target's commands still waiting (R347). -/
def applyQuiesce (s : State) (d : Desc) : State × Nat :=
  let q := opB d 16
  let n := (s.cmds.filter (fun c => c.d.port.val == q)).length
  match opB d 17 with
  | 0 => (setPort s q (fun P => { P with quiesced := true }), n)
  | 1 => (setPort s q (fun P => { P with quiesced := false }), n)
  | _ => (requestReset s q, n)

/-- `LOG_MARK`: a host-mark record of S2 (Table 16-9). The result: the low word of its sequence. -/
def applyMarkLog (s : State) (t : Nat) (d : Desc) : State × Nat :=
  let data := (d.ops.toList).take 32
  let q := queueRecord s 2 0x0002 t (data ++ [BitVec.ofNat 8 d.port.val, 0] ++ leBytes 2 d.tag.toNat)
  (q.1, match q.2 with | some x => x.toNat % 2 ^ 32 | none => 0)

/-! ### One command -/

/-- An effect on each present domain of a command, with the result of the first. -/
def onEach (s : State) (ls : List Nat) (f : State → Nat → State × Nat) : State × Nat :=
  let r := ls.foldl (fun (acc : State × Option Nat) l =>
    let y := f acc.1 l
    (y.1, match acc.2 with | some v => some v | none => some y.2)) (s, none)
  (r.1, r.2.getD 0)

/-- The effect of a command that commits at t, and its result on OK (Table 14-6). `q` is what is latched at t. A command that
names an ABSENT tile commits its values and nothing else (R425). -/
def applyEffect (t : Nat) (q : Latch) (s : State) (c : Cmd) : State × Nat :=
  let d := c.d
  let ls := targetsOf s c.op d
  let ps := presentOf s c.op d
  let each (f : State → Nat → State) (n : Nat) : State × Nat := (ls.foldl f s, n)
  match c.op with
  | 0x10 => onEach s ps (fun s l => applyState s d (physOf s l))
  | 0x11 => onEach s ls (fun s l =>
      let s1 := setCfg s l (fun c => { c with target := opN d 16 2, tgtSet := true })
      (s1, effTarget s1 (physOf s1 l)))
  | 0x12 => onEach s ps (fun s l =>
      let s1 := setCfg s l (fun c => { c with dfreq := opB d 16 })
      (commitFreq s1 (physOf s1 l) (opB d 16) (t + 1000) false, opB d 16))
  | 0x13 => each (fun s l => applyLimits s d l) 0
  | 0x14 => onEach s ps (fun s l => applyPair s (physOf s l))
  | 0x15 => onEach s ps (fun s l => applyUnpair s (physOf s l))
  | 0x16 => onEach s ps (fun s l => applyCellmap s d (physOf s l))
  | 0x20 => each (fun s l => setBudget s d l) 0
  | 0x21 => (applyCap s d, 0)
  | 0x22 => each (fun s l => applyJob s d l) (ls.length % 256)
  | 0x23 => each (fun s l => applyLend s d l) 0
  | 0x30 =>
    let h : Hint := { cls := BitVec.ofNat 4 (opB d 16), eta := BitVec.ofNat 12 (opN d 18 2), inten := BitVec.ofNat 8 (opB d 20),
                      dur := BitVec.ofNat 16 (opN d 22 2) }
    (ps.foldl (fun s l => setDom s (physOf s l) (addHint h)) s, 0)
  | 0x31 => applyMark s ps
  | 0x40 => applyArm s t q d
  | 0x41 => (setPort s d.port (fun P => { P with watches := vset P.watches (opB d 16) none }), 0)
  | 0x50 =>
    let s1 : State := match c.bulk with | some (.program g) => { s with progs := vset s.progs (opB d 16) (some g) } | _ => s
    let staged := ((otherPrepared s c).map (fun x => imgUnits x.bulk)).sum
    (s1, (1024 - (unitsUsed s1 + staged)) % 65536)
  | 0x51 => each (fun s l => applyBind s d l) (ls.length % 256)
  | 0x52 =>
    let s1 : State := match c.bulk with | some (.model m) => { s with models := vset s.models (opB d 16) (some m) } | _ => s
    (s1, 0)
  | 0x53 => each (fun s l => applyBindModel s d l) (ls.length % 256)
  | 0x54 => each (fun s l => applyRcConfig s d l) (ls.length % 256)
  | 0x55 => each (fun s l => setDom s (physOf s l) (fun D => { D with rcOff := D.marks.rc, rc := rcCleared D.rc })) (ls.length % 256)
  | 0x60 => (setPort s d.port (fun P => { P with trace := applyTrace t d P.trace }), 0)
  | 0x61 => (s, snapSize (opB d 16))
  | 0x70 => each (fun s l => applySieve s d l) 0
  | 0x71 => (match s.sieve with | some v => sieveEnd s v (if v.fail then 1 else 2) | none => s, 0)
  | 0x72 => ((testUnits s d).foldl (fun s u => startTest s (some (d.port, d.tag)) u) s, 0)
  | 0x81 => applyMarkLog s t d
  | 0x90 => (applyRights s t q d, 0)
  | 0x91 => applyQuiesce s d
  | _ => (s, 0)

end Sys2Proof.Machine
end

