-- ==== Sys2Proof/Machine/Commit.lean ====
section
/-! DEFINITION. Acceptance, commit slots, atomic groups and the host commits of a shutter (R65–R79, R318, R322, R324). -/

namespace Sys2Proof.Machine

/-! ### Units: a command, or the members of a group -/

/-- The commands of a unit: the members of a group in ring order, or the command alone (R77). -/
def unitOf (s : State) (c : Cmd) : List Cmd :=
  match c.grp with
  | none => [c]
  | some g => s.cmds.filter (fun x => x.grp == some g)

/-- Whether a command belongs to a unit. -/
def inUnit (u : List Cmd) (c : Cmd) : Bool := u.any (fun x => x.ring == c.ring)

/-- The state without the commands of a unit. -/
def dropUnit (s : State) (u : List Cmd) : State := { s with cmds := s.cmds.filter (fun c => !inUnit u c) }

/-- The state with the commands of a unit changed. -/
def editUnit (s : State) (u : List Cmd) (f : Cmd → Cmd) : State := { s with cmds := s.cmds.map (fun c => if inUnit u c then f c else c) }

/-- Whether a command has posted its interim completion (R76). -/
def hadInterim (c : Cmd) : Bool := dAt c.d && dNotify c.d && c.stage == .accepted

/-- The final completion of a command. -/
def finish (s : State) (c : Cmd) (status : Nat) (seq epoch : Word) (atWrite : Bool) (result : Nat) : State :=
  let e : Completion :=
    { tag := c.d.tag, status := BitVec.ofNat 8 status, seq := seq, epoch := epoch, result := BitVec.ofNat 32 result, isFinal := true, atWrite := atWrite }
  postCompletion s c.d.port e (hadInterim c)

/-- What a member that failed reports: its place in fetch order, status and result. -/
structure Verdict where
  ring   : Nat
  st     : Nat
  result : Nat
deriving DecidableEq, Repr, Inhabited

/-- The verdict of a failed check of a command (R324). -/
def verdictOf (c : Cmd) (f : Fail) : Verdict := ⟨c.ring, f.st, failResult f.off f.dom⟩

/-- A unit ends without a commit: each failed member has its own status, every other member GROUP_ABORT with the position of
the first that failed (R78, R324). `epoch` is the one that the commit shutter ends, if the failure was met there. -/
def failUnit (s : State) (u : List Cmd) (fails : List Verdict) (epoch : Option Word) : State :=
  let pos := match u.find? (fun c => fails.any (fun f => f.ring == c.ring)) with | some c => c.pos | none => 0xFF
  u.foldl (fun s c =>
    let v := match fails.find? (fun f => f.ring == c.ring) with | some f => (f.st, f.result) | none => (stGroupAbort, pos * 256 + 0xFE)
    finish s c v.1 0 (epoch.getD (epochNow s)) epoch.isNone v.2) (dropUnit s u)

/-- A command fails before its acceptance: alone, or with its group, which stays open if it was (R78). -/
def memberFails (s : State) (c : Cmd) (st result : Nat) : State :=
  let s1 := failUnit s (unitOf s c) [⟨c.ring, st, result⟩] none
  match vget s1.groups c.d.port, c.grp with
  | some g, some id => if g.id = id then { s1 with groups := vset s1.groups c.d.port (some { g with abort := some c.pos }) } else s1
  | _, _ => s1

/-! ### Slots (R69–R75) -/

/-- The first shutter after now. -/
def nextShutter (s : State) : Nat := shutterAfter s.time.gtc

/-- The accepted commands that hold a slot of a shutter. -/
def slotsAt (s : State) (t : Nat) : List Cmd := s.cmds.filter (fun c => c.stage == .accepted && !c.refuse && c.shutter == t)

/-- Free slots of a shutter: 64 less those assigned. -/
def freeSlots (s : State) (t : Nat) : Nat := 64 - (slotsAt s t).length

/-- AT commands assigned to a shutter. -/
def atSlots (s : State) (t : Nat) : Nat := ((slotsAt s t).filter (fun c => dAt c.d)).length

/-- The shutters that a command without AT accepted now may land on (R69–R71). -/
def candidates (s : State) : List Nat :=
  let t := nextShutter s
  if fixShut s then [t + 2000] else if s.time.gtc + 500 ≤ t then [t, t + 2000] else [t + 2000]

/-- The last shutter assigned to a command without AT of a port: later ones land no earlier (R72). -/
def portLast (s : State) (p : Nat) : Nat :=
  ((s.cmds.filter (fun c => c.d.port.val == p && c.stage == .accepted && !dAt c.d)).map (fun c => c.shutter)).foldl Nat.max 0

/-- The shutter on which a unit of n commands without AT lands, if one is free. -/
def landing (s : State) (p n : Nat) : Option Nat := (candidates s).find? (fun t => decide (portLast s p ≤ t) && decide (n ≤ freeSlots s t))

/-- The first shutter that a command without AT accepted now could reach (R74). While both candidates are full, such a command could not be
accepted now, and the shutter after them is taken. DESIGN CHOICE (log 79). -/
def reachable (s : State) : Nat :=
  match (candidates s).find? (fun t => decide (1 ≤ freeSlots s t)) with
  | some t => t
  | none => ((candidates s).getLast?).getD (nextShutter s) + 2000

/-- The first shutter from one on with n free slots; each shutter without them holds at least one command. -/
def firstFree (s : State) (start n : Nat) : Nat :=
  match ((List.range (s.cmds.length + 1)).map (fun i => start + 2000 * i)).find? (fun t => decide (n ≤ freeSlots s t)) with
  | some t => t
  | none => start + 2000 * (s.cmds.length + 1)

/-- A unit moves to the first shutter with free slots; the later units of its port, in order, follow it where they stand
before it (R72–R74). -/
def displaceTo (s : State) (u : List Cmd) (start : Nat) : State :=
  match u with
  | [] => s
  | c :: _ =>
    let put (s : State) (u : List Cmd) (start : Nat) : State × Nat :=
      let s0 := dropUnit s u
      let t := firstFree s0 start u.length
      (editUnit s u (fun c => { c with shutter := t }), t)
    let r := put s u start
    let later := (s.cmds.filter (fun x => x.stage == .accepted && !x.refuse && x.d.port == c.d.port && !dAt x.d && decide (c.order < x.order) &&
      !inUnit u x && (x.grp.isNone || x.pos == 0)))
    (later.foldl (fun (acc : State × Nat) x =>
      if x.shutter < acc.2 then
        let y := put acc.1 (unitOf acc.1 x) acc.2
        (y.1, Nat.max acc.2 y.2)
      else acc) r).1

/-- The unit without AT that was assigned to a shutter most recently, moved ones excepted. -/
def lastAssigned (s : State) (t : Nat) : Option Cmd :=
  ((slotsAt s t).filter (fun c => !dAt c.d && !c.moved)).foldl (fun b c =>
    match b with
    | none => some c
    | some x => if x.order < c.order then some c else b) none

/-- Commands without AT give way at a shutter until it has n free slots, the most recently assigned first, never splitting a
group (R73, R74). -/
def makeRoom (t n : Nat) : Nat → State → State
  | 0, s => s
  | fuel + 1, s =>
    if n ≤ freeSlots s t then s
    else
      match lastAssigned s t with
      | none => s
      | some c => makeRoom t n fuel (displaceTo s (unitOf s c) (t + 2000))

/-! ### Preparation (steps 9–12) -/

/-- Commands whose preparation involves stations: they wait for their prepares' acknowledgement. The feed-forward and RC limits of
`DOM_LIMITS` are hub tables alone (R66, R73, R331). The list is the model's choice (log 89). -/
def touchesStation (c : Cmd) : Bool :=
  ([0x10, 0x11, 0x12, 0x13, 0x14, 0x15, 0x16, 0x22, 0x70, 0x71] : List Nat).contains c.op && !(c.op == 0x13 && decide (3 ≤ c.d.sub.toNat))

/-- The AT store and the AT commits of a shutter have room for a unit (R75). -/
def storeFits (s : State) (p t n : Nat) : Bool :=
  let all := s.cmds.filter (fun c => c.stage == .accepted && dAt c.d)
  decide (all.length + n ≤ 256) && decide ((all.filter (fun c => c.d.port.val == p)).length + n ≤ 64) && decide (atSlots s t + n ≤ 48)

/-- The stations whose ISOLATED cells a `DOM_CELLMAP` returns to service (R333). -/
def cellChecks (s : State) (c : Cmd) : List Nat :=
  if c.op = 0x16 ∧ opB c.d 20 = 2 then (presentOf s c.op c.d).flatMap (fun l => (isolatedIn s c.d (physOf s l)).map (fun y => y.1)) else []

/-- Steps 9–11 of the members that are not prepared, in order, each counting those before it; the first failure. -/
def prepareMembers (s : State) : List Cmd → State × Option (Cmd × Fail)
  | [] => (s, none)
  | c :: rest =>
    if c.stage = .prepared then prepareMembers s rest
    else
      match firstFail [stateCheck s false c, busyCheck s c, unitCheck s c] with
      | some f => (s, some (c, f))
      | none => prepareMembers (editUnit s [c] (fun c => { c with stage := .prepared })) rest

/-- Step 12: the first member whose `AT_GTC`, or whose switch GTC, cannot be reached (R74, R234). -/
def lateMember (s : State) (p : Nat) (u : List Cmd) : Option (Cmd × Fail) :=
  u.findSome? (fun c =>
    let atg := c.d.atGtc.toNat
    let first := if dAt c.d then atg else (landing s p u.length).getD (reachable s)
    let f (off : Nat) : Option (Cmd × Fail) := some (c, ⟨stLate, off, domAt c.op c.d⟩)
    if dAt c.d ∧ atg < reachable s then f 8
    else if c.op = 0x22 ∧ opN c.d 24 8 < first + 2000 then f 24
    else none)

/-- A contained LATE from the shutter unit with the port as instance (R74). -/
def lateFault (s : State) (p : Nat) : State := raise s 1 0x50 0x1 p 0

/-! ### Acceptance (R65, R71, R72) -/

/-- A unit takes its slots: its commands are accepted in order, with their interim completions (R76). -/
def acceptUnit (s : State) (u : List Cmd) (t : Nat) : State :=
  u.foldl (fun s c =>
    let s1 := editUnit { s with nextOrd := s.nextOrd + 1 } [c] (fun c =>
      { c with stage := .accepted, shutter := t, order := s.nextOrd, accAt := s.time.gtc, acked := Vector.replicate 5 false })
    if dAt c.d && dNotify c.d then
      let e : Completion :=
        { tag := c.d.tag, status := BitVec.ofNat 8 stQueuedAt, seq := 0, epoch := epochNow s, result := BitVec.ofNat 32 (t / 2000 - 1),
          isFinal := false, atWrite := false }
      postCompletion s1 c.d.port e false
    else s1) s

/-- The first unit of a port that has not been accepted, once it is whole: closed, if it is a group, and with its bulk data. -/
def headUnit (s : State) (p : Nat) : Option (List Cmd) :=
  match s.cmds.find? (fun c => c.d.port.val == p && c.stage != .accepted && c.stage != .running) with
  | none => none
  | some c =>
    let u := unitOf s c
    let isOpen := match vget s.groups p, c.grp with | some g, some id => g.id == id | _, _ => false
    if isOpen || u.any (fun x => x.stage == .bulkWait || x.stage == .bistWait) then none else some u

/-- Whether a unit must wait for earlier commands of its port: its own FENCE, or that of one accepted before it (R72). -/
def fenced (s : State) (p : Nat) (u : List Cmd) : Bool :=
  let ahead := s.cmds.filter (fun c => c.d.port.val == p && (c.stage == .accepted || c.stage == .running))
  (u.any (fun c => dFence c.d) && !ahead.isEmpty) || ahead.any (fun c => dFence c.d)

/-- An immediate command that has passed its checks runs (R318): `NOP` ends at once, the others when their data is there. -/
def runImmediate (s : State) (c : Cmd) : State :=
  if c.op = 0x01 then finish (dropUnit s [c]) c stOk 0 (epochNow s) true 0
  else editUnit s [c] (fun c => { c with stage := .running })

/-- What came of a turn: the unit is still where it was, left the queue, or took a slot. -/
inductive Turn where
  | blocked | left | slot
deriving DecidableEq, Repr, Inhabited

/-- The head unit of a port has its turn: checks 9–12 if it is not prepared, the check of its cells, and its slots. Of an AT group beyond a
limit of the store, the port or the shutter, the first member completes RESOURCE and the others GROUP_ABORT. DESIGN CHOICE (log 78). -/
def turn (s : State) (p : Nat) (u : List Cmd) : State × Turn :=
  match u with
  | [] => (s, .blocked)
  | c0 :: _ =>
    if fenced s p u then (s, .blocked)
    else
      let fresh := u.any (fun c => c.stage != .prepared)
      let atg := c0.d.atGtc.toNat
      let r := prepareMembers s u
      match r.2 with
      | some (c, f) => (failUnit s u [verdictOf c f] none, .left)
      | none =>
        let needs := u.filter (fun c => c.stage != .prepared && !(cellChecks s c).isEmpty)
        if !needs.isEmpty then
          let s1 := editUnit r.1 needs (fun c => { c with stage := .bistWait })
          ((needs.flatMap (cellChecks s)).eraseDups.foldl (fun s d => startTest s none (.station (Fin.ofNat 80 d))) s1, .blocked)
        else if dAt c0.d && !storeFits s p atg u.length then
          (failUnit s u [⟨c0.ring, stResource, failResult 0x7F (domAt c0.op c0.d)⟩] none, .left)
        else
          match if fresh || dAt c0.d then lateMember s p u else none with
          | some (c, f) => (failUnit (lateFault s p) u [verdictOf c f] none, .left)
          | none =>
            if (opInfo c0.op).imm then (runImmediate s c0, .left)
            else if dAt c0.d then
              let s1 := makeRoom atg u.length (s.cmds.length + 1) r.1
              if u.length ≤ freeSlots s1 atg then (acceptUnit s1 u atg, .slot)
              else (failUnit s u [⟨c0.ring, stResource, failResult 0x7F (domAt c0.op c0.d)⟩] none, .left)
            else
              match landing s p u.length with
              | some t => (acceptUnit r.1 u t, .slot)
              | none => (r.1, .blocked)

/-- A `DOM_CELLMAP` whose check of its cells no longer runs, and did not pass, is refused. -/
def orphaned (s : State) : Option Cmd :=
  s.cmds.find? (fun c => c.stage == .bistWait &&
    !(cellChecks s c).any (fun d => s.tests.any (fun r => match r.unit with | .station x => x.val == d | _ => false)))

/-- The first port in turn whose head unit moves. -/
def tryPorts (s : State) : List Nat → State × Bool
  | [] => (s, false)
  | p :: rest =>
    match headUnit s p with
    | none => tryPorts s rest
    | some u =>
      let r := turn s p u
      match r.2 with
      | .blocked => tryPorts r.1 rest
      | .left => (r.1, true)
      | .slot => ({ r.1 with rrPort := Fin.ofNat 8 p }, true)

/-- Acceptance goes round the ports, one unit per turn, starting after the port served last, until none can move (R71). -/
def acceptLoop : Nat → State → State
  | 0, s => s
  | n + 1, s =>
    match orphaned s with
    | some c => acceptLoop n (memberFails s c stRefused (failResult 16 (domAt c.op c.d)))
    | none =>
      let r := tryPorts s ((List.range 8).map (fun j => (s.rrPort.val + 1 + j) % 8))
      if r.2 then acceptLoop n r.1 else r.1

/-- Acceptance at this instant. -/
def acceptAll (s : State) : State := acceptLoop (2 * s.cmds.length + 1) s

/-! ### The host commits of a shutter (R67, R68, R73, R79) -/

/-- The next commit sequence number: none has low 32 bits of 0 (R79). -/
def nextSeq (x : DWord) : DWord :=
  let y := x + 1
  if y.extractLsb' 0 32 = 0 then y + 1 else y

/-- Whether a link carried a good frame at a frame boundary, of the direction whose bad frames are listed. -/
def frameGood (l : Link) (bad : List Nat) (g : Nat) : Bool :=
  !bad.contains g && !(decide (l.lostAt ≤ g) && (!linkCarries l || decide (g < l.upAt)))

/-- Whether the stations of a link acknowledged by a deadline a prepare that was sent from `t0` on: a good down frame brought it, and a later
good up frame the acknowledgement (R66, R73). The last ten frame boundaries are looked at, which reach back over the previous shutter; on
stretched links a frame begins at every other one (R354). -/
def ackedIn (stretch : Bool) (l : Link) (t0 deadline : Nat) : Bool :=
  let gs := ((List.range 10).map (fun i => deadline / 250 * 250 - 250 * i)).filter (fun g => !stretch || g % 500 == 0)
  gs.any (fun g => decide (t0 ≤ g) && frameGood l l.badDn g && gs.any (fun y => decide (g < y) && frameGood l l.badUp y))

/-- When the prepare of an accepted command begins: at its acceptance, and with AT in the epoch before its shutter (R66, R75). -/
def prepareFrom (c : Cmd) : Nat := if dAt c.d then Nat.max c.accAt (c.d.atGtc.toNat - 2000) else c.accAt

/-- The acknowledgements that have come in by the deadline of shutter t are noted with their commands. -/
def noteAcks (t : Nat) (s : State) : State :=
  { s with cmds := s.cmds.map (fun c =>
      if c.stage != .accepted then c
      else { c with acked := Vector.ofFn (fun e : Fin 5 => vget c.acked e.val || ackedIn s.clk.stretch (linkOf s e.val) (prepareFrom c) (t - 250)) }) }

/-- The dies whose stations a command touches. -/
def diesOf (s : State) (c : Cmd) : List Nat :=
  if touchesStation c then (((presentOf s c.op c.d).flatMap (fun l => membersOf s (physOf s l))).map dieOf).eraseDups else []

/-- Whether every station that a command touches has acknowledged its prepare. A moved command is not carried out over a link that is
lost (R73). -/
def acknowledged (s : State) (c : Cmd) : Bool :=
  (diesOf s c).all (fun e => vget c.acked e && !(c.moved && (linkOf s e).lost))

/-- A command that has committed: its sequence and result, and the commits of the shutter before it. -/
structure Done where
  c      : Cmd
  seq    : DWord
  result : Nat
  before : Nat
deriving DecidableEq, Repr, Inhabited

/-- The commits of a shutter as they go on. -/
structure Commits where
  s     : State
  list  : List CommitEntry
  done  : List Done
  held  : List PortNo
  moved : List (List Cmd)

/-- A unit's members are checked in turn, each on the state that the members before it leave; the effects, results and failures. -/
def checkMembers (t : Nat) (q : Latch) (s : State) : List Cmd → State × List (Cmd × Nat) × List Verdict
  | [] => (s, [], [])
  | c :: rest =>
    match commitCheck s c with
    | some f =>
      let y := checkMembers t q s rest
      (y.1, y.2.1, verdictOf c f :: y.2.2)
    | none =>
      let e := applyEffect t q (dropUnit s [c]) c
      let y := checkMembers t q e.1 rest
      (y.1, (c, e.2) :: y.2.1, y.2.2)

/-- The sub-index of a command, 0 where the field is reserved: `DOM_LIMITS` and a watch of a fault kind have one (R331, R337). -/
def subOf (c : Cmd) : Byte := if c.op = 0x13 ∨ c.op = 0x40 ∧ opB c.d 17 = 0x18 then c.d.sub else 0

/-- The commit-list entry of a command (Table 03-8). A reserved field of the descriptor does not show in it (R3): without domain scope it
names the domain 0xFE, as a result does (R324). -/
def entryOf (c : Cmd) (seq : DWord) : CommitEntry :=
  { seq := seq, port := c.d.port.val, grp := dGroup c.d, at_ := dAt c.d, op := c.op, tag := c.d.tag, 
    dom := if scopeOf c.op c.d = .none then 0xFE else c.d.dom, sub := subOf c }

/-- A member that has swapped takes its sequence number, so that withdrawn commands leave no gap (log 88); its completion is posted when the record
is whole. -/
def numberMember (a : Commits) (x : Cmd × Nat) : Commits :=
  let seq := nextSeq a.s.cseq
  { a with s := { a.s with cseq := seq }, list := a.list ++ [entryOf x.1 seq], done := a.done ++ [⟨x.1, seq, x.2, a.list.length⟩] }

/-- A unit commits whole or not at all (R67, R77). -/
def commitUnit (t : Nat) (q : Latch) (a : Commits) (u : List Cmd) : Commits :=
  let epoch := epochOf (t - 2000)
  let y := checkMembers t q a.s u
  if y.2.2.isEmpty then (y.2.1).foldl numberMember { a with s := y.1 }
  else { a with s := failUnit a.s u y.2.2 (some epoch) }

/-- A unit fails whole with one status and offset: a group that is refused for want of acknowledgement or room has no member at fault, and
all its members complete alike. DESIGN CHOICE (log 77). -/
def refuseUnit (s : State) (u : List Cmd) (st off : Nat) (epoch : Word) : State :=
  failUnit s u (u.map (fun c => verdictOf c ⟨st, off, domAt c.op c.d⟩)) (some epoch)

/-- One unit at its shutter: it commits, moves on, follows a moved unit of its port, or is refused (R73, R75). -/
def shutterUnit (t : Nat) (q : Latch) (a : Commits) (u : List Cmd) : Commits :=
  match u with
  | [] => a
  | c0 :: _ =>
    let epoch := epochOf (t - 2000)
    let acked := u.all (acknowledged a.s)
    if !dAt c0.d && a.held.contains c0.d.port then { a with s := displaceTo a.s u (t + 2000) }
    else if acked then commitUnit t q a u
    else if dAt c0.d then { a with s := refuseUnit a.s u stLate 8 epoch }
    else if c0.moved then { a with s := refuseUnit a.s u stRefused 0x7F epoch }
    else { a with held := c0.d.port :: a.held, moved := a.moved ++ [u] }

/-- Whether one command commits ahead of another at a shutter: moved ones first, then by place of assignment. -/
def ahead (a b : Cmd) : Bool := (a.moved && !b.moved) || (a.moved == b.moved && decide (a.order ≤ b.order))

/-- A command put into its place in a list in commit order. -/
def placeCmd (c : Cmd) : List Cmd → List Cmd
  | [] => [c]
  | x :: rest => if ahead c x then c :: x :: rest else x :: placeCmd c rest

/-- The order of commits at a shutter: moved units first, then by their place of assignment (R73, R79). -/
def commitOrder (s : State) (t : Nat) : List (List Cmd) :=
  let heads := (slotsAt s t).filter (fun c => c.grp.isNone || c.pos == 0)
  (heads.foldl (fun l c => placeCmd c l) []).map (unitOf s)

/-- Units that have not been acknowledged move to the next shutter, in order, while it can make room for them (R73). -/
def moveUnits (t : Nat) (us : List (List Cmd)) (s : State) : State :=
  if us.isEmpty then s
  else
    let need := (us.map List.length).sum
    let s1 := makeRoom (t + 2000) need (s.cmds.length + 1) s
    us.foldl (fun s u =>
      let fits := decide (u.length ≤ freeSlots s (t + 2000))
      editUnit s u (fun c => { c with moved := true, shutter := t + 2000, refuse := !fits })) s1

/-- The commits of shutter t on the state after its internal changes and the arbiter's commit. -/
def hostCommits (t : Nat) (q : Latch) (s : State) : Commits :=
  let epoch := epochOf (t - 2000)
  let doomed := s.cmds.filter (fun c => c.stage == .accepted && c.refuse && decide (c.shutter ≤ t))
  let s1 := doomed.foldl (fun s c => refuseUnit s [c] stRefused 0x7F epoch) (noteAcks t s)
  let a := (commitOrder s1 t).foldl (shutterUnit t q) { s := s1, list := [], done := [], held := [], moved := [] }
  { a with s := moveUnits t a.moved a.s }

end Sys2Proof.Machine
end

