-- ==== Sys2Proof/Machine/HostCmds.lean ====
section
/-! DEFINITION. Host commands as they are fetched: steps 1–8 of the check order, atomic groups, bulk data, and the immediate
commands (R65, R77, R78, R295, R296, R318, R338, R345, R348). -/

namespace Sys2Proof.Machine

/-! ### Fetching a descriptor (R295) -/

/-- Whether a port's next descriptor can be fetched: enabled, CQ and CPL enabled with two unreserved CPL entries, no reset, quiesce or
fabric error, and a descriptor waiting; HCLK and the port complex must run (Table 15-3, R362, R365). -/
def fetchReady (s : State) (p : Nat) : Bool :=
  let P := portOf s p
  let cq := ringOf P 0
  let cpl := ringOf P 1
  P.en && cq.en && cpl.en && P.rstAt.isNone && !P.quiesced && !P.fabErr && ringUsed cq != 0 &&
  decide (ringUsed cpl + P.resv + 2 ≤ ringSize cpl) && vget s.clk.run 4 && pageOpen s && s.clk.pwrMode != 2

/-- Whether it is a port's turn: no port that follows the one served last, and comes before it, has a descriptor that can be fetched. -/
def fetchTurn (s : State) (p : Nat) : Bool :=
  (List.range ((p + 7 - s.fetchPort.val) % 8)).all (fun i => !fetchReady s ((s.fetchPort.val + 1 + i) % 8))

/-- Whether Dorgus fetches from a port now: its next descriptor can be fetched and it is the port's turn (R295). -/
def fetchOk (s : State) (p : Nat) : Bool := fetchReady s p && fetchTurn s p

/-- A descriptor leaves the command ring: the fetch index moves on, two CPL entries are reserved, and the turn passes to the next port. -/
def takeEntry (s : State) (p : PortNo) : State :=
  setPort { s with fetchPort := p } p
    (fun P => { setRing P 0 (fun r => { r with cons := (r.cons + 1) % (2 * ringSize r) }) with resv := P.resv + 2 })

/-- Steps 1 and 2 (R296): the reason of a failure, 1 CRC or 2 host sequence. -/
def linkCheck (s : State) (d : Desc) : Option Nat :=
  if crc32c (descBytes d) ≠ d.crc then some 1
  else match (portOf s d.port).seqExp with
    | some e => if e = d.hseq then none else some 2
    | none => none

/-- The sequence expected next: after a good descriptor or a sequence failure this one's plus 1; after a CRC failure one more
than before, if there was one. -/
def nextExpected (s : State) (d : Desc) : State :=
  setPort s d.port (fun P => { P with seqExp := match linkCheck s d with
                                                | some 1 => P.seqExp.map (fun e => e + 1)
                                                | _ => some (d.hseq + 1) })

/-- Steps 1–7: the status and result of the first failure. Step 3 compares with the opcode of the row that brings the
descriptor. -/
def fetchVerdict (s : State) (op : Nat) (d : Desc) : Option (Nat × Nat) :=
  match linkCheck s d with
  | some r => some (stBadCheck, r * 0x1000000 + 0xFFFF)
  | none =>
    if d.opcode.toNat ≠ op then some (stBadOpcode, failResult 0 0xFE)
    else (earlyChecks s op d).map (fun f => (f.st, failResult f.off f.dom))

/-- The fault of a failed step 1 or 2 (Table 13-5). -/
def fetchFault (s : State) (d : Desc) (idx : Nat) : State :=
  match linkCheck s d with
  | some r => raise s 0 0x43 0x0 d.port.val (portDetail r 0 idx)
  | none => s

/-! ### Groups (R77, R78) -/

/-- Whether a command needs bulk data before its image checks (step 8). -/
def needsBulk (op : Nat) (d : Desc) : Bool := op == 0x50 || op == 0x52 || (op == 0xA0 && opB d 16 == 1)

/-- A descriptor that passed steps 1–7 joins its port's queue. -/
def enqueueCmd (s : State) (op : Nat) (d : Desc) (idx : Nat) (grp : Option Nat) (pos : Nat) : State :=
  let c : Cmd :=
    { d := d, op := op, stage := if needsBulk op d then .bulkWait else .waiting, shutter := 0, order := 0, ring := s.nextOrd, idx := idx,
      accAt := 0, acked := Vector.replicate 5 false, moved := false, refuse := false, grp := grp, pos := pos, last := dGroupEnd d, bulk := none }
  { s with cmds := s.cmds ++ [c], nextOrd := s.nextOrd + 1 }

/-- The members of an open group that wait. -/
def openMembers (s : State) (g : OpenGroup) : List Cmd := s.cmds.filter (fun c => c.grp == some g.id)

/-- An open group ends without GROUP_END: its members complete GROUP_ABORT for no member's failure, unless one had failed. -/
def cutGroup (s : State) (p : Nat) : State :=
  match vget s.groups p with
  | none => s
  | some g => failUnit { s with groups := vset s.groups p none } (openMembers s g) [] none

/-- The group that a member joins: the port's open one, or a new one. -/
def joinedGroup (s : State) (d : Desc) : State × OpenGroup :=
  match vget s.groups d.port with
  | some g => (s, g)
  | none => ({ s with nextGrp := s.nextGrp + 1 },
    { id := s.nextGrp, since := s.time.gtc, size := 0, at_ := dAt d, atGtc := d.atGtc, abort := none })

/-- A member of a group arrives with what steps 1–7 made of it: its AT flag and `AT_GTC` must be those of the first member; a
17th member aborts the group and closes it. -/
def joinGroup (s : State) (op : Nat) (d : Desc) (idx : Nat) (v : Option (Nat × Nat)) : State :=
  let p := d.port.val
  let j := joinedGroup s d
  let g := j.2
  let s0 := j.1
  let v1 := match v with
    | some x => some x
    | none =>
      if dAt d ≠ g.at_ then some (stBadOperand, failResult 0 (domAt op d))
      else if d.atGtc ≠ g.atGtc then some (stBadOperand, failResult 8 (domAt op d)) else none
  let done (s : State) (x : Nat × Nat) : State := completeNow s p d.tag x.1 x.2 false
  let g1 : OpenGroup := { g with size := g.size + 1 }
  let close (s : State) (g : OpenGroup) : State := { s with groups := vset s.groups p (if dGroupEnd d then none else some g) }
  if 16 ≤ g.size then
    let s1 := failUnit { s0 with groups := vset s0.groups p none } (openMembers s0 g) [] none
    done s1 (v1.getD (stGroupAbort, g.abort.getD 0xFF * 256 + 0xFE))
  else
    match v1, g.abort with
    | some x, some _ => close (done s0 x) g1
    | some x, none =>
      let others := openMembers s0 g
      let s1 := others.foldl (fun s c => finish s c stGroupAbort 0 (epochNow s) true (g.size * 256 + 0xFE)) (dropUnit s0 others)
      close (done s1 x) { g1 with abort := some g.size }
    | none, some q => close (done s0 (stGroupAbort, q * 256 + 0xFE)) g1
    | none, none => close (enqueueCmd s0 op d idx (some g.id) g.size) g1

/-! ### One descriptor -/

/-- A descriptor goes where steps 1–7 send it. A command with GROUP clear closes an open group first (R78). -/
def arrive (s : State) (op : Nat) (d : Desc) (idx : Nat) (v : Option (Nat × Nat)) : State :=
  if dGroup d then joinGroup s op d idx v
  else
    let s1 := cutGroup s d.port
    match v with
    | some x => completeNow s1 d.port d.tag x.1 x.2 false
    | none => enqueueCmd s1 op d idx none 0

/-- The descriptor at the head of a command ring is fetched as a row's command. Nothing is fetched while R295 does not allow it. -/
def fetchAs (op : Nat) (d : Desc) (s : State) : State :=
  let s0 := now d.t s
  if !fetchOk s0 d.port then s0
  else
    let idx := (ringOf (portOf s0 d.port) 0).cons
    let v := fetchVerdict s0 op d
    acceptAll (arrive (nextExpected (fetchFault (takeEntry s0 d.port) d idx) d) op d idx v)

/-! ### The rows of Table 14-6 -/

/-- `NOP`, an immediate command, is fetched, checked and run (R318). -/
def execNop (d : Desc) (s : State) : Host.Outcome State Fault Refusal := .next (fetchAs 0x01 d s)

/-- `DOM_STATE` is fetched, checked and accepted (R329); its effect is that of `applyEffect` at its commit. -/
def execDomState (d : Desc) (s : State) : Host.Outcome State Fault Refusal := .next (fetchAs 0x10 d s)

/-- `DOM_TARGET` is fetched, checked and accepted (R330); its effect is that of `applyEffect` at its commit. -/
def execDomTarget (d : Desc) (s : State) : Host.Outcome State Fault Refusal := .next (fetchAs 0x11 d s)

/-- `DOM_FREQ` is fetched, checked and accepted (R330); its effect is that of `applyEffect` at its commit. -/
def execDomFreq (d : Desc) (s : State) : Host.Outcome State Fault Refusal := .next (fetchAs 0x12 d s)

/-- `DOM_LIMITS` is fetched, checked and accepted (R331); its effect is that of `applyEffect` at its commit. -/
def execDomLimits (d : Desc) (s : State) : Host.Outcome State Fault Refusal := .next (fetchAs 0x13 d s)

/-- `DOM_PAIR` is fetched, checked and accepted (R332); its effect is that of `applyEffect` at its commit. -/
def execDomPair (d : Desc) (s : State) : Host.Outcome State Fault Refusal := .next (fetchAs 0x14 d s)

/-- `DOM_UNPAIR` is fetched, checked and accepted (R332); its effect is that of `applyEffect` at its commit. -/
def execDomUnpair (d : Desc) (s : State) : Host.Outcome State Fault Refusal := .next (fetchAs 0x15 d s)

/-- `DOM_CELLMAP` is fetched, checked and accepted (R333); its effect is that of `applyEffect` at its commit. -/
def execDomCellmap (d : Desc) (s : State) : Host.Outcome State Fault Refusal := .next (fetchAs 0x16 d s)

/-- `BUDGET_SET` is fetched, checked and accepted (R334); its effect is that of `applyEffect` at its commit. -/
def execBudgetSet (d : Desc) (s : State) : Host.Outcome State Fault Refusal := .next (fetchAs 0x20 d s)

/-- `BUDGET_CAP` is fetched, checked and accepted (R334); its effect is that of `applyEffect` at its commit. -/
def execBudgetCap (d : Desc) (s : State) : Host.Outcome State Fault Refusal := .next (fetchAs 0x21 d s)

/-- `JOB_ALIGN` is fetched, checked and accepted (R335); its effect is that of `applyEffect` at its commit. -/
def execJobAlign (d : Desc) (s : State) : Host.Outcome State Fault Refusal := .next (fetchAs 0x22 d s)

/-- `LEND_POLICY` is fetched, checked and accepted (R334); its effect is that of `applyEffect` at its commit. -/
def execLendPolicy (d : Desc) (s : State) : Host.Outcome State Fault Refusal := .next (fetchAs 0x23 d s)

/-- `HINT_PHASE` is fetched, checked and accepted (R336); its effect is that of `applyEffect` at its commit. -/
def execHintPhase (d : Desc) (s : State) : Host.Outcome State Fault Refusal := .next (fetchAs 0x30 d s)

/-- `STEP_MARK` is fetched, checked and accepted (R336); its effect is that of `applyEffect` at its commit. -/
def execStepMark (d : Desc) (s : State) : Host.Outcome State Fault Refusal := .next (fetchAs 0x31 d s)

/-- `WATCH_ARM` is fetched, checked and accepted (R337); its effect is that of `applyEffect` at its commit. -/
def execWatchArm (d : Desc) (s : State) : Host.Outcome State Fault Refusal := .next (fetchAs 0x40 d s)

/-- `WATCH_CANCEL` is fetched, checked and accepted (R337); its effect is that of `applyEffect` at its commit. -/
def execWatchCancel (d : Desc) (s : State) : Host.Outcome State Fault Refusal := .next (fetchAs 0x41 d s)

/-- `LOAD_PROGRAM` is fetched, checked and accepted (R338); its effect is that of `applyEffect` at its commit. -/
def execLoadProgram (d : Desc) (s : State) : Host.Outcome State Fault Refusal := .next (fetchAs 0x50 d s)

/-- `BIND_PROGRAM` is fetched, checked and accepted (R339); its effect is that of `applyEffect` at its commit. -/
def execBindProgram (d : Desc) (s : State) : Host.Outcome State Fault Refusal := .next (fetchAs 0x51 d s)

/-- `LOAD_MODEL` is fetched, checked and accepted (R338); its effect is that of `applyEffect` at its commit. -/
def execLoadModel (d : Desc) (s : State) : Host.Outcome State Fault Refusal := .next (fetchAs 0x52 d s)

/-- `BIND_MODEL` is fetched, checked and accepted (R339); its effect is that of `applyEffect` at its commit. -/
def execBindModel (d : Desc) (s : State) : Host.Outcome State Fault Refusal := .next (fetchAs 0x53 d s)

/-- `RC_CONFIG` is fetched, checked and accepted (R340); its effect is that of `applyEffect` at its commit. -/
def execRcConfig (d : Desc) (s : State) : Host.Outcome State Fault Refusal := .next (fetchAs 0x54 d s)

/-- `RC_RESET` is fetched, checked and accepted (R340); its effect is that of `applyEffect` at its commit. -/
def execRcReset (d : Desc) (s : State) : Host.Outcome State Fault Refusal := .next (fetchAs 0x55 d s)

/-- `TRACE_CONFIG` is fetched, checked and accepted (R341); its effect is that of `applyEffect` at its commit. -/
def execTraceConfig (d : Desc) (s : State) : Host.Outcome State Fault Refusal := .next (fetchAs 0x60 d s)

/-- `SNAPSHOT` is fetched, checked and accepted (R342); its effect is that of `applyEffect` at its commit. -/
def execSnapshot (d : Desc) (s : State) : Host.Outcome State Fault Refusal := .next (fetchAs 0x61 d s)

/-- `SIEVE_START` is fetched, checked and accepted (R344); its effect is that of `applyEffect` at its commit. -/
def execSieveStart (d : Desc) (s : State) : Host.Outcome State Fault Refusal := .next (fetchAs 0x70 d s)

/-- `SIEVE_STOP` is fetched, checked and accepted (R344); its effect is that of `applyEffect` at its commit. -/
def execSieveStop (d : Desc) (s : State) : Host.Outcome State Fault Refusal := .next (fetchAs 0x71 d s)

/-- `SELFTEST` is fetched, checked and accepted (R343); its effect is that of `applyEffect` at its commit. -/
def execSelftest (d : Desc) (s : State) : Host.Outcome State Fault Refusal := .next (fetchAs 0x72 d s)

/-- `LOG_READ`, an immediate command, is fetched, checked and run (R345). -/
def execLogRead (d : Desc) (s : State) : Host.Outcome State Fault Refusal := .next (fetchAs 0x80 d s)

/-- `LOG_MARK` is fetched, checked and accepted (R345); its effect is that of `applyEffect` at its commit. -/
def execLogMark (d : Desc) (s : State) : Host.Outcome State Fault Refusal := .next (fetchAs 0x81 d s)

/-- `RIGHTS_SET` is fetched, checked and accepted (R346); its effect is that of `applyEffect` at its commit. -/
def execRightsSet (d : Desc) (s : State) : Host.Outcome State Fault Refusal := .next (fetchAs 0x90 d s)

/-- `PORT_QUIESCE` is fetched, checked and accepted (R347); its effect is that of `applyEffect` at its commit. -/
def execPortQuiesce (d : Desc) (s : State) : Host.Outcome State Fault Refusal := .next (fetchAs 0x91 d s)

/-- `CHAR_LOAD`, an immediate command, is fetched, checked and run (R348). -/
def execCharLoad (d : Desc) (s : State) : Host.Outcome State Fault Refusal := .next (fetchAs 0xA0 d s)

/-! ### Bulk data, group timeout and NOR reads -/

/-- The command of a port with a tag at a stage, the oldest first. -/
def cmdAt (s : State) (p : PortNo) (f : Cmd → Bool) : Option Cmd := s.cmds.find? (fun c => c.d.port == p && f c)

/-- A fabric error on a command's data: the port's rings stop, the command posts nothing, and its group cannot commit (R33, R297). -/
def bulkError (s : State) (c : Cmd) : State :=
  let s1 := fabricStop (dropUnit s [c]) c.d.port 0 c.idx
  match c.grp with
  | none => s1
  | some id =>
    let others := s1.cmds.filter (fun x => x.grp == some id)
    let s2 := others.foldl (fun s x => finish s x stGroupAbort 0 (epochNow s) true (c.pos * 256 + 0xFE)) (dropUnit s1 others)
    match vget s2.groups c.d.port with
    | some g => if g.id = id then { s2 with groups := vset s2.groups c.d.port (some { g with abort := some c.pos }) } else s2
    | none => s2

/-- Step 8: the image checks of a command whose data has come (R164, R197). A host buffer of `CHAR_LOAD` is verified by the MC. -/
def bulkCheck (s : State) (c : Cmd) (b : List Byte) : State :=
  let ready (x : Option BulkImg) : State := editUnit s [c] (fun c => { c with stage := .waiting, bulk := x })
  match c.op with
  | 0x50 =>
    match loadProgramImage b with
    | .ok g => ready (some (.program g))
    | .error f => memberFails s c (if f.reason = 1 then stBadCheck else stBadOperand) (loadResult f)
  | 0x52 =>
    match loadModelImage b with
    | .ok m => ready (some (.model m))
    | .error f => memberFails s c (if f.reason = 1 then stBadCheck else stBadOperand) (modelResult f)
  | _ => ready none

/-- `BULK_FETCH_DONE`: the data of a command of a port that waits for it has come, or met a fabric error (R65). -/
def execBulkFetchDone (p : PortNo) (tag : BitVec 16) (data : Bulk) (t : Nat) (s : State) : Host.Outcome State Fault Refusal :=
  let s := now t s
  match cmdAt s p (fun c => c.stage == .bulkWait && c.d.tag == tag) with
  | none => .next s
  | some c =>
    match data with
    | .fabricError => .next (acceptAll (bulkError s c))
    | .bytes b => .next (acceptAll (bulkCheck s c b))

/-- `GROUP_TIMEOUT`: GROUP_END has not been fetched 128 µs after the first member (R78). -/
def execGroupTimeout (p : PortNo) (t : Nat) (s : State) : Host.Outcome State Fault Refusal :=
  let s := now t s
  match vget s.groups p with
  | some g => if g.since + 128000 ≤ s.time.gtc then .next (acceptAll (cutGroup s p)) else .next s
  | none => .next s

/-- `LOG_READ` ends: the records picked from the slots read are written to the destination, and it completes when the last is there (R345). -/
def endLogRead (s : State) (c : Cmd) (slots : List (Nat × List Byte)) : State :=
  let rs := pickRecords s (opB c.d 16) (opN c.d 20 8) (opN c.d 28 2) slots
  let s1 := dropUnit s [c]
  let e : Completion :=
    { tag := c.d.tag, status := BitVec.ofNat 8 stOk, seq := 0, epoch := epochNow s, result := BitVec.ofNat 32 rs.length, isFinal := true, atWrite := true }
  if (portOf s1 c.d.port).fabErr then s1
  else if rs.isEmpty then postCompletion s1 c.d.port e false
  else
    let w : WriteReq :=
      { port := c.d.port, ring := none, addr := BitVec.ofNat 64 (opN c.d 32 8), data := rs.flatten, prod := 0,
        cpl := [(e, false)] }
    sendOutput s1 [w]

/-- `CHAR_LOAD` ends: a record that passed replaces the one in use; otherwise BAD_CHECK and CHAR_BAD (R348). -/
def endCharLoad (s : State) (c : Cmd) (rec : Option CharRecord) : State :=
  let s1 := dropUnit s [c]
  match rec with
  | some r => finish (installRecord r s1) c stOk 0 (epochNow s) true (r.siteMap.length % 256)
  | none => finish (charBad s1) c stBadCheck 0 (epochNow s) true (failResult 0x7F 0xFE)

/-- `NOR_READ_DONE`: the oldest immediate command of a port that runs has its data. -/
def execNorReadDone (p : PortNo) (records : List (Nat × List Byte)) (rec : S0Read) (t : Nat) (s : State) :
    Host.Outcome State Fault Refusal :=
  let s := now t s
  match cmdAt s p (fun c => c.stage == .running) with
  | none => .next s
  | some c => .next (acceptAll (if c.op = 0x80 then endLogRead s c records else endCharLoad s c (s0Choice rec)))

end Sys2Proof.Machine
end

