-- ==== Sys2Proof/Machine/Scrub.lean ====
section
/-! DEFINITION. Protected stores and self-tests: what the scrub finds, and how a test ends (R173, R201, R333, R383, R410, R411). -/

namespace Sys2Proof.Machine

/-! ### Protected stores (Table 16-5) -/

/-- A corrected word: ECC_CORR with the store's unit and instance, and the word's address. -/
def eccCorr (s : State) (unit inst addr : Nat) : State := raise s 0 0x41 unit inst addr

/-- An uncorrectable word. -/
def eccUnc (s : State) (unit inst addr : Nat) : State := raise s 1 0x42 unit inst addr

/-- A double error in an entry of the AT store: its command completes BAD_CHECK, and its group with it (Table 16-5). -/
def atLost (s : State) (p : PortNo) (tag : BitVec 16) : State :=
  match cmdAt s p (fun c => c.stage == .accepted && dAt c.d && c.d.tag == tag) with
  | none => s
  | some c => failUnit s (unitOf s c) [⟨c.ring, stBadCheck, 0xFF0000FE⟩] none

/-- A double error in a model slot: it is unusable, and every domain bound to it loses Lantern. -/
def modelLost (s : State) (k : Nat) : State :=
  let s1 : State := { s with models := vupd s.models k (fun m => m.map (fun x => { x with unusable := true })) }
  foldDoms s1 (fun s d =>
    if isAbsent s d || isOdd s d || (cfgAt s d).model.map (fun x => x.val) != some k then s else report s d (.featOff true false))

/-- What a detected error does. The manual gives no address for a record or an AT entry: the detail is free (log 27). -/
def scrubHit (s : State) (hit : ScrubHit) : State :=
  match hit with
  | .clean => s
  | .progCorr a => eccCorr s 2 0x20 a.toNat
  | .progUnc g a => { eccUnc s 2 0x20 a.toNat with progs := vupd s.progs g (fun x => x.map (fun y => { y with unusable := true })) }
  | .stateCorr a => eccCorr s 2 0x21 a.toNat
  | .hubCorr a => eccCorr s 1 0x22 a.toNat
  | .hubUnc d a => if isAbsent s d then eccUnc s 1 0x22 a.toNat else overrunHold (eccUnc s 1 0x22 a.toNat) d
  | .recordCorr a => eccCorr s 1 0x22 a.toNat
  | .recordUnc e =>
    let f := freshBelow s (2 ^ 32)
    let s1 := eccUnc f.2 1 0x22 f.1
    { s1 with records := s1.records.map (fun r => if r.epoch = e then { r with bad := true } else r) }
  | .atCorr a => eccCorr s 1 0x23 a.toNat
  | .atUnc p tag =>
    let f := freshBelow s (2 ^ 32)
    acceptAll (atLost (eccUnc f.2 1 0x23 f.1) p tag)
  | .stationPar d => setDom (raise s 0 0x40 0x6 d 0) d (fun D => { D with tblBad := true })
  | .modelCorr k a => eccCorr s 3 k a.toNat
  | .modelUnc k a => modelLost (eccUnc s 3 k a.toNat) k
  | .rcParity d b => eccCorr (setRc s d (fun R => { R with bins := R.bins.write b.toNat 0 })) 4 d b.toNat

/-- `SCRUB`: a protected store is read, in the background or by an access. -/
def execScrub (hit : ScrubHit) (t : Nat) (s : State) : Host.Outcome State Fault Refusal := .next (scrubHit (now t s) hit)

/-! ### Ends of tests (Table 17-6) -/

/-- A detail byte of a test's event, 24–31. -/
def testByte (res : TestResult) (i : Nat) : Nat := (res.detail.extractLsb' (8 * (i - 24)) 8).toNat

/-- A lane test ends: a pass returns a retired lane as the spare; a failure retires it with LOCKSTEP cause 3 (R168, R170). -/
def laneTestEnd (s : State) (l : Nat) (res : TestResult) : State :=
  if res.pass then { s with lanes := vupd s.lanes l (fun x => { x with retired := false, passed := true }) }
  else
    raise { s with lanes := vupd s.lanes l (fun x => { x with retired := true, passed := false }) } 0 0x11 0x2 l
      (cleDetail 3 0xFF 7 0x1F 0 0 (testByte res 25 % 64))

/-- An array test ends: a pass returns the array to service, a failure declares it failed (R201). -/
def arrayTestEnd (s : State) (res : TestResult) : State :=
  if res.pass then { s with lanternFail := false, lantErrs := [] }
  else
    let m := s.time.gtc / 1000
    let s1 := raise { s with lanternFail := true } 1 0x12 0x3 0xFF (abftDetail 2 3 0xFF (recentErrs s m).length m)
    if s.lanternFail then s1 else lanternOffAll s1

/-- The bank of a station after its test, both members' for a pair: restored by a pass, failed by a failure of its check. The manual gives no
condition or voltage for FLARE_FAIL from a test: both are free (log 27). -/
def bankTestEnd (s : State) (d : Nat) (res : TestResult) : State :=
  let r := (domOf s d).droop
  if res.pass then
    setMembers s d (fun M => { M with droop := { M.droop with flare :=
                                                                if M.droop.flare = .failed then (if r.armed && (cfgAt s d).lim.flareEn == 1 then .armed else .disarmed) else M.droop.flare } })
  else if testByte res 28 / 4 % 2 = 1 ∧ r.flare ≠ .failed then
    let a := freshBelow s 16
    let b := freshBelow a.2 4096
    raise (setDroop b.2 d (fun r => { r with flare := .failed })) 1 0x07 0x6 d (a.1 * 0x10000000 + b.1)
  else s

/-- The failed cells of a station test are isolated with cause 0x6 (R101). -/
def cellTestEnd (s : State) (d : Nat) (res : TestResult) : State :=
  let cells := (membersOf s d).flatMap (fun y => (List.range (nCells y)).map (fun k => (y, k)))
  (cells.zipIdx).foldl (fun s e =>
    if (res.detail.extractLsb' 0 32).getLsbD e.2 && cellWorks (cellAt s e.1) then failCell s e.1 6 else s) s

/-- The commands that wait for the check of a station's cells: a failure refuses them, and a pass prepares those that wait for no
other station (R333). -/
def cellmapChecked (s : State) (d : Nat) (pass : Bool) : State :=
  let mine := s.cmds.filter (fun c => c.stage == .bistWait && (cellChecks s c).contains d)
  if pass then
    let busy (x : Nat) : Bool := s.tests.any (fun r => match r.unit with | .station y => y.val == x | _ => false)
    editUnit s (mine.filter (fun c => !(cellChecks s c).any busy)) (fun c => { c with stage := .prepared })
  else mine.foldl (fun s c => memberFails s c stRefused (failResult 16 (logOf s d))) s

/-- What a test's result does to its unit. -/
def testEffect (s : State) (r : TestRun) (res : TestResult) : State :=
  match r.unit with
  | .lane l => laneTestEnd s l res
  | .lantern => arrayTestEnd s res
  | .station d => if r.by_.isSome then cellTestEnd (bankTestEnd s d res) d res else cellmapChecked s d res.pass
  | .sensor x => if res.pass then s else declareFailed s x 0
  | .meter => s

/-- Bytes 24–31 of a TEST event: the fields that Table 17-6 names for the unit, all others 0. -/
def testDetail (s : State) (u : TestUnit) (res : TestResult) : List Byte :=
  let x := res.detail.toNat
  let cells (d : Nat) : Nat := ((membersOf s d).map nCells).sum
  leBytes 8 (match u with
    | .lane _ => x % 2 ^ 16
    | .lantern => x % 2 ^ 24
    | .station d => x % 2 ^ cells d + x / 2 ^ 32 % 2 ^ 5 * 2 ^ 32
    | .sensor _ => x % 2 ^ 32
    | .meter => 0)

/-- `SELFTEST_DONE`: a test in progress ends, its TEST event is posted and its outcome takes effect (R410). -/
def execSelftestDone (u : TestUnit) (res : TestResult) (t : Nat) (s : State) : Host.Outcome State Fault Refusal :=
  let s := now t s
  match testOf s u with
  | none => .next s
  | some r => .next (acceptAll (testEffect (endTest s r (if res.pass then 0 else 1) (testDetail s u res)) r res))

end Sys2Proof.Machine
end

