-- ==== Sys2Proof/Machine/Watches.lean ====
section
/-! DEFINITION. The evaluation of watches at a shutter (R303–R307). -/

namespace Sys2Proof.Machine

/-- A level condition over signed or unsigned 64-bit values (Table 07-8, R303): only the hottest sensor is signed. -/
def levelHolds (w : Watch) (v : Int) : Bool :=
  let c : Int := if w.sel = 0x25 then w.const.toInt else w.const.toNat
  match w.cond.toNat with
  | 0 => decide (v = c)
  | 1 => decide (v ≠ c)
  | 2 => decide (v < c)
  | 3 => decide (c ≤ v)
  | 4 => decide (v ≤ c)
  | 5 => decide (c < v)
  | _ => false

/-- What an evaluation makes of a watch: the watch afterwards, none when it is disarmed, and m of its event when it fires. -/
def evalWatch (w : Watch) (v : Int) : Option Watch × Option Nat :=
  if w.count then
    let d := (BitVec.ofInt 32 v - w.base).toNat
    if w.thr ≤ d then
      let m := d / w.thr
      if w.repeat_ then (some { w with base := w.base + BitVec.ofNat 32 (m * w.thr) }, some m) else (none, some 1)
    else (some w, none)
  else
    let h := levelHolds w v
    if h && !w.prev then (if w.repeat_ then (some { w with prev := true }, some 1) else (none, some 1))
    else (some { w with prev := h }, none)

/-- One slot of a port at shutter t. A watch armed by a commit of t is first evaluated at the next shutter (R304). -/
def watchSlot (t : Nat) (q : Latch) (p : Nat) (s : State) (k : Nat) : State :=
  match vget (portOf s p).watches k with
  | none => s
  | some w =>
    if t ≤ w.since then s
    else
      let v := selValue q p w.sel.toNat w.dom.toNat w.kind.toNat
      let e := evalWatch w v
      let s1 := setPort s p (fun P => { P with watches := vset P.watches k e.1 })
      match e.2 with
      | none => s1
      | some m => postEvent (setPort s1 p (fun P => { P with fired := P.fired ||| BitVec.twoPow 32 k })) p (watchEvent s1 t k 1 m w v)

/-- Every armed watch of every port is evaluated, from the values latched at t. -/
def watchesAt (t : Nat) (q : Latch) (s : State) : State :=
  (List.range 8).foldl (fun s p => (List.range 32).foldl (watchSlot t q p) s) s

end Sys2Proof.Machine
end

