-- ==== Sys2Proof/Machine/Shutter.lean ====
section
/-! DEFINITION. The shutter: latch, internal changes, mode changes, commits, digests, observers, and the start and
discontinuities of GTC (R21, R35, R36, R67–R84, R170, R401, R402, R407–R409, R418, R419). -/

namespace Sys2Proof.Machine

/-! ### Internal changes (R83) -/

/-- A domain's DARK, forced by its station, is committed (R117); its grant stands until the next regrant (R122). A soft start that a host
has begun since the station reported is ended by it: no host commit undoes the change (R84). -/
def commitDark (s : State) (x : Nat) (latch : Bool) : State :=
  let s1 := if latch then setMembers s x (fun M => { M with latched := true, marks := { M.marks with latch := true } }) else s
  if (domOf s x).state = .dark then abandonBist s1 x
  else
    let s2 := if (domOf s1 x).en || inSoftStart (domOf s1 x) then discharge s1 x else s1
    setMembers (abandonBist s2 x) x (fun M =>
      { M with state := .dark, held := false, heldWhy := none, prof := .reset, marks := { M.marks with moved := true } })

/-- HELD is committed: the set-point stands at the held code (R118, R182). -/
def commitHeld (s : State) (x : Nat) (why : HeldWhy) : State :=
  let D := domOf s x
  if D.state = .lit ∨ D.state = .shade then
    parkAbort (setMembers (abandonBist s x) x (fun M =>
      { M with state := .held, heldFrom := D.state, heldWhy := some why, held := true, fallback := false, sup := { M.sup with fbPend := false },
               prof := profHold (codeMv D.code) M.prof, marks := { M.marks with moved := true } })) x
  else s

/-- A retry of a short is committed once the domain is DARK and its budget is there (R123); it lapses when the domain may not leave
DARK at all. -/
def commitRetry (s : State) (i : IntChange) (x : Nat) (want : DState) : State :=
  let D := domOf s x
  if D.latched || s.safety.safe || s.therm.tripped || ratingOf s x (mapWorking s x) == .dark then s
  else if D.state != .dark || decide (s.arb.cap < floorSum s + inrushChar s x) then { s with ints := s.ints ++ [i] }
  else startFromDark s x want (D.tr.attempt + 1)

/-- The cells that a committed cell map takes out or marks as cracked are marked for the shutter (R84). -/
def markCells (old new : State) (x : Nat) : State :=
  let fresh (y : Nat) (f : Cell → Bool) : List Nat := (List.range (nCells y)).filter (fun k => f (cellAt new (y, k)) && !f (cellAt old (y, k)))
  (membersOf new x).foldl (fun s y => setDom s y (fun D =>
    { D with marks := { D.marks with outs := D.marks.outs ++ fresh y (fun c => c.cout), cracks := D.marks.cracks ++ fresh y (fun c => c.ccrack) } })) new

/-- A sieve test fails where an internal change takes its domain out of LIT or makes it HELD (Table 17-4). -/
def sieveLeft (was : DState) (u : State) (x : Nat) : State :=
  if was = .lit ∧ (domOf u x).state ≠ .lit then sieveEvent u x else u

/-- One internal change at its shutter. -/
def commitInt (s : State) (i : IntChange) : State :=
  let x := leader s i.dom
  if isAbsent s x then s
  else
    match i.what with
    | .cellMap n =>
      let s1 := setDom s i.dom (fun D => { D with unc := D.unc - n })
      markCells s1 (commitMap (setDom s1 x (fun D => { D with cmSeq := D.cmSeq + 1 })) x) x
    | .dark latch => sieveLeft (domOf s x).state (commitDark s x latch) x
    | .held why => sieveLeft (domOf s x).state (commitHeld s x why) x
    | .resume => if (domOf s x).state = .held ∧ (domOf s x).heldWhy = some .linkLost then parkAbort (leaveHeld s x) x else s
    | .toShade =>
      if (domOf s x).state = .lit ∧ (domOf s x).tr.ph = .descent then
        parkAbort (loadWindow (setMembers s x (fun M => { M with state := .shade, tr := .reset })) x) x
      else s
    | .retry st => commitRetry s i x st
    | .featOff lantern rc =>
      let y := i.dom.val
      let s1 := ceilingAt (setDom s y (fun D => { D with lanternOff := D.lanternOff || lantern, rcOff := D.rcOff || rc,
                                                         marks := { D.marks with lant := D.marks.lant || lantern, rc := D.marks.rc || rc } })) y
      if lantern && !(domOf s y).lanternOff then sieveAlter s1 y else s1
    | .derated => s

/-- The internal changes reported at least 250 ns before shutter t, in the order of their reports. -/
def internalChanges (t : Nat) (s : State) : State :=
  let due := s.ints.filter (fun i => decide (i.at_ + 250 ≤ t))
  due.foldl commitInt { s with ints := s.ints.filter (fun i => !decide (i.at_ + 250 ≤ t)) }

/-! ### Mode fields (R418, R419, Table 18-7) -/

/-- The fields that take effect at a regrant commit: STEADY, ALIGN, LENDEN. -/
def regrantFields : BitVec 7 := 0b0001101

/-- The mode fields in force from shutter t: each has the value written last at least 250 ns before its effect point. -/
def modeAt (t : Nat) (m : Mode) : Mode :=
  let due := m.hist.filter (fun e => decide (e.1 + 250 ≤ t))
  match due.getLast? with
  | none => m
  | some e =>
    let mask : BitVec 7 := if t % 10000 = 2000 then BitVec.allOnes 7 else ~~~ regrantFields
    let rest := m.hist.filter (fun e => !decide (e.1 + 250 ≤ t))
    { m with force := (m.force &&& ~~~ mask) ||| (e.2 &&& mask), hist := if t % 10000 = 2000 then rest else e :: rest }

/-- Mode changes at a shutter: ceilings follow the guard band, ALIGN takes each tile's committed code as its job code, and a trace
stream starts afresh; the end of ALIGN is noted for `DOM_FREQ` (R419). -/
def modeChanges (t : Nat) (s : State) : State :=
  let s1 : State := { s with mode := modeAt t s.mode }
  let rose (i : Nat) : Bool := modeOn s1 i && !modeOn s i
  let s2 := if modeOn s1 0 != modeOn s 0 || modeOn s1 4 != modeOn s 4 then setCeilings s1 else s1
  let s3 : State := if rose 2 then { s2 with cfg := s2.cfg.map (fun c => { c with fjob := c.freq }) } else s2
  let s4 := if modeOn s 2 && !modeOn s1 2 then setArbChip s3 (fun a => { a with alignOff := some t }) else s3
  if rose 6 then
    { s4 with ports := s4.ports.map (fun P =>
        { P with trace := { P.trace with resync := true, old := P.trace.old.map (fun o => { o with resync := true }) } }) }
  else s4

/-! ### Metered input energy (R283) -/

/-- The input-energy accumulator advances by the cells' energy times the last k; the fraction of a µJ is kept. -/
def addInputEnergy (nj : Nat) (s : State) : State :=
  let m := s.meter
  let x := m.inFrac + nj * m.k
  let unit := 1000 * 2 ^ 24
  { s with meter := { m with inEnergy := m.inEnergy + BitVec.ofNat 64 (x / unit), inFrac := x % unit } }

/-! ### Lane rotation (R170) -/

/-- The lane whose position the spare takes: the serving one with the next higher physical number, from L16 round to L00. -/
def rotationFrom (s : State) (spare : Nat) : Option Nat :=
  ((List.range 16).map (fun i => (spare + 1 + i) % 17)).find? (fun l =>
    !(vget s.lanes l).retired && s.laneOf.toList.any (fun x => x.map (fun y => y.val) == some l))

/-- At every 1,024th shutter the spare takes a position, and the lane it releases is tested. -/
def rotateLanes (t : Nat) (s : State) : State :=
  if t % 2048000 ≠ 0 then s
  else
    match spareLane s with
    | none => s
    | some l =>
      match rotationFrom s l with
      | none => s
      | some old =>
        let s1 := abandonTests s (fun u => match u with | .lane x => x.val == l | _ => false)
        let s2 : State := { s1 with laneOf := vmapIdx s1.laneOf (fun _ x => if x.map (fun y => y.val) = some old then some (Fin.ofNat 17 l) else x) }
        startTest s2 none (.lane (Fin.ofNat 17 old))

/-! ### The sieve test (R407–R409) -/

/-- The effective target of a domain but for its sieve test. -/
def baseTarget (s : State) (x : Nat) : Nat := effTarget { s with sieve := none } x

/-- The lowest sense voltage of the epoch that ends enters the sieve step in force in it (R409). -/
def sieveFold (r : Record) (s : State) : State :=
  match s.sieve with
  | none => s
  | some v =>
    let low := (vget r.doms (logOf s v.dom)).vmin
    { s with sieve := some { v with vlow := if low < v.vlow then low else v.vlow } }

/-- The sieve test at shutter t: an ending, the end of a step, or one more epoch of the step. -/
def sieveShutter (t : Nat) (s : State) : State :=
  match s.sieve with
  | none => s
  | some v =>
    if v.since = t then s
    else
      let x := v.dom.val
      let D := domOf s x
      let tgt := v.e0 - 8 * v.step
      let moved := D.prof.cond == .settled && D.prof.pend.isNone && D.prof.vref == codeMv tgt
      if v.fail then sieveEnd s v 1
      else if v.abandon then sieveEnd s v 2
      else if D.state != .lit || D.held then sieveEnd s v 1
      else if baseTarget s x != v.e0 then sieveEnd s v 2
      else if moved && decide (D.prof.settleAt + 1000 * v.dwell ≤ t) then
        let s1 := sievePost s v 3
        if v.step = v.maxS ∨ v.e0 < D.gwFloor + 8 * (v.step + 1) then sieveEnd s1 v 0
        else { s1 with sieve := some { v with step := v.step + 1, vlow := 0xFFFF, glBase := ctrOf D 1, uvBase := ctrOf D 5 } }
      else s

/-! ### Completions and outputs of the commits (R297, R342) -/

/-- The bytes that a `SNAPSHOT` writes: the record of its own shutter with the commits before it, a retained record, or a table. The rights that
mask it are those that stand once every commit of the shutter is made, a later `RIGHTS_SET` included. DESIGN CHOICE (log 80). -/
def snapOutput (s : State) (r : Record) (tables : Nat → (Nat → Bool) → List Byte) (x : Done) : List Byte :=
  let p := x.c.d.port.val
  let see (l : Nat) : Bool := holdsDom s p l
  let own (q : Nat) : Bool := q == p
  match opB x.c.d 16 with
  | 0 =>
    if opB x.c.d 17 % 2 = 1 then
      match s.records.find? (fun y => y.epoch == BitVec.ofNat 32 (opN x.c.d 20 4)) with
      | some y => recordBytes see own y
      | none => []
    else
      let before := r.commits.take x.before
      recordBytes see own { r with commits := before, firstSeq := match before with | e :: _ => e.seq | [] => 0 }
  | k => tables k see

/-- The completions of a shutter's commits in sequence; a port's completions after a `SNAPSHOT` of its own wait with it for the
acknowledgement of its output. -/
def emitDone (r : Record) (tables : Nat → (Nat → Bool) → List Byte) (acc : State × List WriteReq) (x : Done) : State × List WriteReq :=
  let s := acc.1
  let p := x.c.d.port
  let e : Completion :=
    { tag := x.c.d.tag, status := BitVec.ofNat 8 stOk, seq := x.seq.extractLsb' 0 32, epoch := r.epoch, result := BitVec.ofNat 32 x.result,
      isFinal := true, atWrite := false }
  if x.c.op = 0x61 then
    if (portOf s p).fabErr then acc
    else
      let w : WriteReq :=
        { port := p, ring := none, addr := BitVec.ofNat 64 (opN x.c.d 24 8), data := snapOutput s r tables x, prod := 0,
          cpl := [(e, hadInterim x.c)] }
      (s, acc.2 ++ [w])
  else if acc.2.any (fun w => w.port == p) then
    let i := acc.2.length - 1 - (acc.2.reverse.findIdx (fun w => w.port == p))
    (s, acc.2.modify i (fun w => { w with cpl := w.cpl ++ [(e, hadInterim x.c)] }))
  else (postCompletion s p e (hadInterim x.c), acc.2)

/-! ### The shutter -/

/-- The records that some stream's spans may still need. -/
def keepRecords (s : State) : Nat :=
  s.ports.toList.foldl (fun n P =>
    (traceSets P.trace).foldl (fun n o => Nat.max n (2 ^ o.k + 1)) n) 16

/-- The counts of the epoch that ended and the marks of its internal changes are forgotten. -/
def epochCounts (d : Nat) (D : Domain) : Domain :=
  { D with epGlints := 0, epFires := 0, flags := 0, marks := .reset, droop := { D.droop with stdyRep := 0 },
           cells := vmapIdx D.cells (fun k c => if k < nCells d then { c with ovldSeen := false } else c) }

/-- The effective targets after the commits are in force for the epoch that opens. -/
def setTargets (s : State) : State :=
  foldDoms s (fun s d => if isAbsent s d || isOdd s d then s else setMembers s d (fun M => { M with tgt := effTarget s d }))

/-- Port resets whose shutter has come, after its commits (R300). -/
def dueResets (t : Nat) (s : State) : State :=
  (List.range 8).foldl (fun s p =>
    match (portOf s p).rstAt with
    | some x => if x ≤ t then portResetEffect s p else s
    | none => s) s

/-- Steps 1 and 2 of R68, and the arbiter's commit. -/
def shutterInternal (t : Nat) (s : State) : State :=
  let s1 := modeChanges t (internalChanges t s)
  if t % 10000 = 2000 then commitRegrant s1 else s1

/-- The record with the grants and the lend pool in force from t, and the cap in force there (R220, R230); the odd member of a pair has
none. -/
def grantFields (pre s : State) (r : Record) : Record :=
  let g (i : Fin 80) (x : DomRec) : DomRec :=
    let d := physOf s i.val
    if x.st = 4 ∨ isOdd pre d then x else { x with grant := satNat 16 (domOf s d).arb.gForce }
  { r with pool := s.arb.pool, cap := s.arb.cap, doms := Vector.ofFn (fun i : Fin 80 => g i (vget r.doms i.val)) }

/-- The final record: grants, flags, commit list and digests (R81, R230, R401, R402). `pre` is the state whose configuration was in
force. -/
def finalRecord (pre : State) (r : Record) (a : Commits) : Record :=
  let r1 : Record := { grantFields pre (fastPath a.s) r with
    flags := if a.moved.isEmpty then r.flags else r.flags ||| 8, commits := a.list,
    firstSeq := match a.list with | e :: _ => e.seq | [] => 0, cfgDig := digest16 (configImage pre) }
  { r1 with inDig := inputDigest pre.input r1 }

/-- Cell energy of an epoch in nJ. -/
def epochNj (meas : List EpochMeas) (s : State) : Nat := ((meas.filter (fun m => !isAbsent s m.dom)).map (fun m => m.energy)).sum

/-- What is latched at shutter t, and the state before its host commits (R68). -/
def beforeCommits (t : Nat) (meas : List EpochMeas) (s : State) : Latch × State :=
  let s1 := addInputEnergy (epochNj meas s) (addEnergy meas (waveCapture 7 s))
  let pre := (List.range 80).foldl (minimaStep (t - 2000) meas) s1
  let r0 := latchRecord pre t meas
  (⟨r0, pre⟩, shutterInternal t (sieveFold r0 (measure pre r0)))

/-- The latch with the grants that come into force at t, as the watches and the cancel events of its own commits read them (R230, R303). -/
def withGrants (t : Nat) (q : Latch) (s : State) : Latch := { q with r := grantFields q.s (fastPath (hostCommits t q s).s) q.r }

/-- `SHUTTER` at GTC t on a running control path: port resets take effect right after the commits (R300). -/
def shutterAt (t : Nat) (meas : List EpochMeas) (s : State) : State :=
  let b := beforeCommits t meas s
  let q := b.1
  let pre := q.s
  let a := hostCommits t (withGrants t q b.2) b.2
  let r := finalRecord pre q.r a
  let y := a.done.foldl (emitDone r (snapBytes pre t)) (a.s, [])
  let s3 := dueResets t (sendOutput y.1 y.2)
  let s4 := watchesAt t ⟨r, pre⟩ (lagShutter (fastPath s3))
  let s5 := setTargets (sieveShutter t (rotateLanes t s4))
  let s6 : State := { setDoms s5 epochCounts with
    records := (r :: s5.records).take (keepRecords s5), input := { InputBlk.empty with prev := r.inDig } }
  let s7 : State := { s6 with time := { s6.time with creset := false, resume := false } }
  acceptAll s7

/-- The inputs of the epoch in progress are forgotten: a later block holds none of an earlier epoch's (R402). -/
def clearInput (s : State) : State := { s with input := { InputBlk.empty with prev := s.input.prev } }

/-- An epoch that ends while a control reset is in progress: no record is made and nothing commits, but the energy accumulators go on (R365, Table
15-5; log 100). -/
def busyEpoch (meas : List EpochMeas) (s : State) : State :=
  setDoms (addInputEnergy (epochNj meas s) (addEnergy meas (clearInput s))) epochCounts

/-- `SHUTTER`: the epoch boundary at GTC 2,000k, once the shutter unit has started (R21, R35). -/
def execShutter (k : Nat) (meas : List EpochMeas) (s : State) : Host.Outcome State Fault Refusal :=
  let t := 2000 * k
  let s0 := now t s
  if !s0.time.started || s0.clk.pwrCur == 2 then .next (clearInput s0)
  else
    let s1 : State := { s0 with time := { s0.time with fired := true, epoch := epochOf t } }
    if s1.clk.crstBusy then .next (busyEpoch meas s1) else .next (shutterAt t meas s1)

/-! ### The GTC input (R35, R36) -/

/-- `GTC_VLD_RISE`: the 10 µs of qualification begin, and GTC becomes readable. -/
def execGtcVldRise (t : Nat) (s : State) : Host.Outcome State Fault Refusal :=
  let s := now t s
  if s.time.vld then .next s
  else .next { s with time := { s.time with vld := true, everVld := true, vldSince := t } }

/-- Whether shutters may begin or resume: on the way out of DEEP the PLLs' clocks, the links and a thermal sample come first (R362). -/
def resumeReady (s : State) : Bool := !s.time.resume || (s.therm.valid && s.clk.pwrCur != 2)

/-- `SHUTTER_START`: `GTC_VLD` has been high for 10 µs (R35). -/
def execShutterStart (t : Nat) (s : State) : Host.Outcome State Fault Refusal :=
  let s := now t s
  if s.time.vld && decide (s.time.vldSince + 10000 ≤ t) && resumeReady s then .next { s with time := { s.time with started := true } }
  else .next s

/-- A GTC value carried over a jump. -/
def carryGtc (old new x : Nat) : Nat := x + new - old

/-- The error window after a jump: the one that holds the new GTC, begun afresh unless it was in progress (R205; log 75). -/
def carryLant (new : Nat) (L : Lant) : Lant :=
  if L.winStart = windowOf new then L else { L with sums := .zero, winStart := windowOf new, open_ := [] }

/-- The timers of a domain's station over a jump: they count cycles of their own clocks, and the model keeps their marks on the GTC axis
(log 75). -/
def carryDom (f : Nat → Nat) (new : Nat) (D : Domain) : Domain :=
  { D with
    pairAt := f D.pairAt, armAt := f D.armAt,
    tr := { D.tr with since := f D.tr.since, retryAt := D.tr.retryAt.map f },
    park := { D.park with qual := D.park.qual.map f, holdoff := f D.park.holdoff, last := f D.park.last },
    cells := D.cells.map (fun c => { c with warmAt := f c.warmAt, isoAt := f c.isoAt }),
    lant := carryLant new D.lant,
    tile := { D.tile with hintQ := D.tile.hintQ.map f, ctxLast := D.tile.ctxLast.map (fun x => x.map f) },
    droop := { D.droop with stops := D.droop.stops.map f, startAt := f D.droop.startAt, startF := f D.droop.startF, last1 := D.droop.last1.map f,
                            forcedTo := f D.droop.forcedTo, ownStop := D.droop.ownStop.map f,
                            fabStops := D.droop.fabStops.map (fun x => (x.1, f x.2)) },
    sup := { D.sup with onset := f D.sup.onset, fonset := f D.sup.fonset },
    prof := { D.prof with settleAt := f D.prof.settleAt }, arb := { D.arb with wakeAt := D.arb.wakeAt.map f } }

/-- What waits on the GTC axis is carried over a jump: reports, mode writes, port resets, retries, group ages and the stations' timers. Timers of
the thermal unit, the meter, SAFE_STAT, the watchdog, the interrupt controller and the strata count `Time.run`, which has no jump. -/
def carryTimes (old new : Nat) (s : State) : State :=
  let f := carryGtc old new
  let s1 : State := { clearInput s with
    ints := s.ints.map (fun i => { i with at_ := f i.at_ }), mode := { s.mode with hist := s.mode.hist.map (fun e => (f e.1, e.2)) },
    ports := s.ports.map (fun P => { P with
      rstAt := P.rstAt.map (fun x => shutterAfter (f x - 1)), watches := P.watches.map (fun w => w.map (fun w => { w with since := f w.since })),
      trace := { P.trace with from_ := f P.trace.from_, lastAt := f P.trace.lastAt, old := P.trace.old.map (fun o => { o with from_ := f o.from_ }) } }),
    groups := s.groups.map (fun g => g.map (fun g => { g with since := f g.since })),
    cmds := s.cmds.map (fun c => { c with accAt := f c.accAt }), lantErrs := s.lantErrs.map (fun m => f (1000 * m) / 1000),
    links := s.links.map (fun l => { l with badUp := l.badUp.map f, badDn := l.badDn.map f, lostAt := f l.lostAt, upAt := f l.upAt }),
    time := { s.time with gtc := new, run := s.time.run + (old - s.time.gtc), vldSince := f s.time.vldSince } }
  setDoms (setArbChip s1 (fun a => { a with alignOff := none })) (fun _ D => carryDom f new D)

/-- Accepted units in the order of their assignment, moved ones first. -/
def assigned (s : State) (at_ : Bool) : List (List Cmd) :=
  let heads := s.cmds.filter (fun c => c.stage == .accepted && dAt c.d == at_ && (c.grp.isNone || c.pos == 0))
  (heads.foldl (fun l c => placeCmd c l) []).map (unitOf s)

/-- After a resume queued AT commands whose time has passed complete LATE, and accepted commands without AT are assigned afresh from
the first shutter on (R36). -/
def resumeCmds (s : State) : State :=
  let first := shutterAfter s.time.gtc
  let late (u : List Cmd) : Bool := match u with | c :: _ => decide (c.d.atGtc.toNat < first) && !c.refuse | [] => false
  let s1 := ((assigned s true).filter late).foldl (fun s u => failUnit s u (u.map (fun c => verdictOf c ⟨stLate, 8, domAt c.op c.d⟩)) none) s
  let s2 : State := { s1 with cmds := s1.cmds.map (fun c =>
      if c.stage = .accepted ∧ c.refuse then { c with shutter := first }
      else if c.stage = .accepted ∧ !dAt c.d then { c with shutter := 0 } else c) }
  (assigned s2 false).foldl (fun s u =>
    match u with
    | [] => s
    | c :: _ =>
      if c.refuse then s
      else
        let t := firstFree s (Nat.max first (portLast s c.d.port)) u.length
        editUnit s u (fun c => { c with shutter := t })) s2

/-- Whether two successive samples are a discontinuity: a fall, or a rise above the limit of the clock that CCLK is taken from (R36). -/
def sampleJumps (s : State) (prev sample : Nat) : Bool :=
  decide (sample < prev) || decide (prev + (if s.clk.ccur = 1 ∧ !s.clk.cBusy then 8 else 16) < sample)

/-- `GTC_DISCONTINUITY`: a sample and the one before it are judged, or `GTC_VLD` has fallen. A discontinuity is loss of the GTC clock while a
domain is LIT or HELD; otherwise the shutter unit resumes from the new value (R36). The last good sample is `g.prev`, the one before the jump or
before the fall; it lies at or after the last row's time (log 73). -/
def execGtcDiscontinuity (g : GtcPair) (vldFell : Bool) (s : State) : Host.Outcome State Fault Refusal :=
  let last := Nat.max g.prev s.time.gtc
  let sample := g.next
  if !vldFell && !sampleJumps s last sample then .next (now sample s)
  else
  let lit := (List.range 80).any (fun d => (domOf s d).state == .lit || (domOf s d).state == .held)
  let drop (s : State) : State := { s with time := { s.time with vld := s.time.vld && !vldFell } }
  if lit then
    let s1 := carryTimes last sample s
    .next (drop (atOnce (raiseExt s1 2 0x30 0xA 0x10 (last % 2 ^ 32) (BitVec.ofNat 32 (last / 2 ^ 32)))
      (faultWord 2 0x30 0xA 0x10 (last % 2 ^ 32) (epochIn s1))))
  else
    let s1 := drop (raise (carryTimes last sample s) 0 0x31 0xA 0x10 0)
    .next (acceptAll (resumeCmds { s1 with time := { s1.time with resume := true } }))

end Sys2Proof.Machine
end

