-- ==== Sys2Proof/Machine/Tile.lean ====
section
/-! DEFINITION. What a tile delivers: activity counts and phase hints (R24, R40, R44, R193). -/

namespace Sys2Proof.Machine

/-- A site's counts with a new sample: the newest is used; samples unread at the next latch are at most four, and a further
one overwrites the oldest and is counted (R24). -/
def takeCounts (counts : Vector (BitVec 16) 8) (x : Tile) : Tile :=
  { x with act1 := x.act, act := counts, actQ := Nat.min (x.actQ + 1) 4, missed := if 4 ≤ x.actQ then x.missed + 1 else x.missed }

/-- `ACT_SAMPLE`: the activity counts of the frame that ended (R40); ignored at an ABSENT site. -/
def execActSample (s_ : Site) (counts : Vector (BitVec 16) 8) (t : Nat) (s : State) : Host.Outcome State Fault Refusal :=
  let s := now t s
  if isAbsent s s_ then .next s else .next (setDom s s_ (fun D => { D with tile := takeCounts counts D.tile }))

/-- The hints of a site still in its crossing, as the GTCs at which they leave it (R24). -/
def hintsIn (T : Tile) (t : Nat) : List Nat := T.hintQ.filter (fun g => decide (t < g))

/-- `HINT_RDY`: the crossing of a site holds fewer than its eight hints (R24, R40). -/
def hintRdy (T : Tile) (t : Nat) : Bool := decide ((hintsIn T t).length < 8)

/-- The longest that a hint stays in its crossing, in whole ns: 2 cycles of the tile's current clock, 800 + 12.5 × code MHz divided by its `THR_DIV`,
and 3 CCLK cycles, of PLL-C as it is set or of the fast oscillator's slowest 180 MHz (R24, R41, R42, R349). -/
def hintBound (s : State) (T : Tile) : Nat :=
  let c := s.clk.pllC
  let n := if s.clk.ccur = 1 then 25 * c.ndiv.toNat else 180
  let q := if s.clk.ccur = 1 then c.rdiv.toNat * c.pdiv.toNat else 1
  let f := 1600 + 25 * T.freqIn
  (4000 * 2 ^ T.thrDiv.toNat * n + 3000 * q * f) / (f * n)

/-- `TILE_HINT`: a hint that `HINT_VLD` offers transfers while `HINT_RDY` is 1, into the table of the tile or pair; one offered while it is 0 is
dropped and counted. How long within its bound a hint stays in the crossing is free (R24, R40, R44, R193; log 69). -/
def execTileHint (s_ : Site) (h : Hint) (vld : Bool) (t : Nat) (s : State) : Host.Outcome State Fault Refusal :=
  let s := now t s
  if isAbsent s s_ || !vld then .next s
  else if !hintRdy (domOf s s_).tile t then
    .next (setDom s s_ (fun D => { D with tile := { D.tile with hintDrop := D.tile.hintDrop + 1 } }))
  else
    let f := freshBelow s (hintBound s (domOf s s_).tile + 1)
    let s1 := setDom f.2 s_ (fun D => { D with tile := { D.tile with hintAcc := true, hintQ := hintsIn D.tile t ++ [t + f.1] } })
    .next (setDom s1 (leader s s_) (addHint h))

end Sys2Proof.Machine
end

