-- ==== Sys2Proof/Machine/Trace.lean ====
section
/-! DEFINITION. Trace chunks: spans, coding, drops and the hand-off to a port's trace ring (R265–R276, R299). -/

namespace Sys2Proof.Machine

/-! ### Fast entries (Tables 12-3, 12-5) -/

/-- Sum over the records of a span. -/
def spanSum (recs : List Record) (f : Record → Nat) : Nat := (recs.map f).sum

/-- The accumulator of a domain at the start of a span: that of the newest record before it. -/
def accBefore (before : List Record) (l : Nat) : Nat := match before with | r :: _ => (vget r.ext l).acc | [] => 0

/-- The least minimum of a span and the index, oldest first, of the first epoch that has it. -/
def spanMin (recs : List Record) (l : Nat) : Nat × Nat :=
  let vs := (recs.reverse.map (fun r => (vget r.doms l).vmin.toNat)).zipIdx
  vs.foldl (fun b x => if x.1 < b.1 then x else b) (vs.headD (0xFFFF, 0))

/-- Status byte of a fast entry, with LAG ORed over the span (Table 12-5). -/
def fastStatus (recs : List Record) (x : DomRec) (l : Nat) : Nat :=
  (recStateByte x).toNat % 128 + bitAt (recs.any (fun r => (vget r.ext l).lag)) 7

/-- The fast entry of a logical domain over a span of 2^k epochs: `recs` newest first, `before` the records older than the span.
Outside the port's rights only the state is shown (R266). -/
def fastEntry (see : Nat → Bool) (recs before : List Record) (k l : Nat) : FastEntry :=
  match recs with
  | [] => ⟨Vector.replicate 11 0⟩
  | r :: _ =>
    let x := vget r.doms l
    if !see l then ⟨#v[(x.st.toNat : Int), 0, 0, 0, 0, 0, 0, 0, 0, 0, 0]⟩
    else
      let e := vget r.ext l
      let u := 2 ^ (k + 1)
      let m := spanMin recs l
      let odd := x.paired && x.working == 0 && x.st != 4 && (vget r.doms l).vmin == 0
      let flags := recs.foldl (fun b r => b ||| (vget r.ext l).flags) 0
      let st : Int := fastStatus recs x l
      if odd then ⟨#v[(x.st.toNat + 8 : Nat), 0, 0, 0, 0, 0, 0, 0, 0, 0, 0]⟩
      else
        ⟨#v[st, x.code, e.parked, (spanSum recs (fun r => (vget r.doms l).imean.toNat) / 2 ^ k : Nat), m.1,
            if k = 0 then (x.tmin.toNat : Int) else m.2, (Nat.min 15 (spanSum recs (fun r => (vget r.doms l).thr)) : Nat),
            (Nat.min 15 (spanSum recs (fun r => (vget r.doms l).glints)) : Nat), (Nat.min 15 (spanSum recs (fun r => (vget r.doms l).fires)) : Nat),
            (e.acc / u - accBefore before l / u : Nat), flags.toNat]⟩

/-- Widths of the fields of a fast entry, in order. -/
def fastWidths : List Nat := [8, 10, 5, 16, 16, 11, 4, 4, 4, 16, 8]

/-- A fast entry in the raw layout: 104 bits, bit 0 in byte 0. -/
def fastRaw (x : FastEntry) : List Byte :=
  let r := (fastWidths.zip x.f.toList).foldl (fun (acc : Nat × Nat) p => (acc.1 + (BitVec.ofInt p.1 p.2).toNat * 2 ^ acc.2, acc.2 + p.1)) (0, 0)
  leBytes 13 r.1

/-! ### Codes (R271, Table 12-6) -/

/-- zigzag(x). -/
def zigzag (x : Int) : Nat := if 0 ≤ x then (2 * x).toNat else (-2 * x - 1).toNat

/-- The low n bits of a number, least significant first. -/
def bitsOf (n x : Nat) : List Bool := (List.range n).map (fun i => x.testBit i)

/-- The shortest code that holds zigzag(x). -/
def codeBits (x : Int) : List Bool :=
  let z := zigzag x
  if z = 0 then [false]
  else if z < 16 then [true, false] ++ bitsOf 4 z
  else if z < 256 then [true, true, false] ++ bitsOf 8 z
  else if z < 4096 then [true, true, true, false] ++ bitsOf 12 z
  else [true, true, true, true] ++ bitsOf 17 z

/-- Bits packed into bytes, the last padded with zeros. -/
def packBits (bits : List Bool) : List Byte :=
  (List.range ((bits.length + 7) / 8)).map (fun i =>
    BitVec.ofNat 8 ((((bits.drop (8 * i)).take 8).zipIdx).map (fun b => bitAt b.1 b.2)).sum)

/-- One field coded: x, the decoded value, and the carry afterwards (R271, R272). -/
structure Coded where
  x : Int
  d : Int
  c : Int
deriving DecidableEq, Repr, Inhabited

/-- A field without quantisation. -/
def codePlain (v p c : Int) : Coded := ⟨v - p, v, c⟩

/-- A quantised field in bounded mode with step 2^s; `last` is n mod 64 = 63 (R272). -/
def codeBounded (s : Nat) (last : Bool) (v p c : Int) : Coded :=
  if last then ⟨v + c - p, v + c, 0⟩
  else
    let m := rnes (v + c) s
    let d := m * 2 ^ s
    ⟨m - Int.fdiv p (2 ^ s), d, c + v - d⟩

/-- A domain coded: its bits, decoded values and carries. -/
structure CodedDom where
  bits : List Bool
  d    : FastEntry
  cI   : Int
  cE   : Int

/-- One domain's entry in the bit stream. With `plain` the quantised fields are coded as in lossless mode. -/
def codeDom (plain : Bool) (qs : Nat) (last : Bool) (v p : FastEntry) (cI cE : Int) : CodedDom :=
  let q (i : Nat) (c : Int) : Coded := if plain then codePlain (vget v.f i) (vget p.f i) c else codeBounded qs last (vget v.f i) (vget p.f i) c
  let cs := (List.range 11).map (fun i => if i = 3 then q 3 cI else if i = 9 then q 9 cE else codePlain (vget v.f i) (vget p.f i) 0)
  let bits := if cs.all (fun c => c.x == 0) then [false] else true :: cs.flatMap (fun c => codeBits c.x)
  { bits := bits, d := ⟨Vector.ofFn (fun i : Fin 11 => (cs.getD i.val ⟨0, 0, 0⟩).d)⟩,
    cI := (cs.getD 3 ⟨0, 0, 0⟩).c, cE := (cs.getD 9 ⟨0, 0, 0⟩).c }

/-! ### A chunk (R267) -/

/-- The trace parameters that govern one chunk, and which of the stream's sets they are. -/
structure ChunkPar where
  mode   : Nat
  qs     : Nat
  k      : Nat
  waves  : List Nat
  resync : Bool
  idx    : Nat

/-- The span of a chunk of 2^k epochs. -/
def spanOf (k : Nat) : Nat := 2000 * 2 ^ k

/-- The parameter set of the chunk of shutter t among those in force for spans from `from_` on, newest first, each up to the commit of the one
that replaced it (`until_`): the first whose span begins in its time (R265, R266). -/
def chunkSet (t : Nat) : Nat → Nat → List TraceOld → Option ChunkPar
  | _, _, [] => none
  | i, until_, o :: rest =>
    if o.from_ + spanOf o.k ≤ t ∧ t < until_ + spanOf o.k then
      if o.en && t % spanOf o.k == 0 then
        some ⟨o.mode.toNat, o.qs.toNat, o.k, (o.waves.toList.map BitVec.toNat).filter (fun d => d != 0xFE), o.resync, i⟩
      else none
    else chunkSet t (i + 1) o.from_ rest

/-- The parameters of the chunk of shutter t, if one is due. -/
def chunkPar (x : TraceSt) (t : Nat) : Option ChunkPar := chunkSet t 0 (t + 1) (traceSets x)

/-- The slow entry of a logical domain (Table 12-4); the sensors of an ABSENT site show in it too (R26). -/
def slowBytes (see : Bool) (r : Record) (l : Nat) : List Byte :=
  let x := vget r.doms l
  if !see then zeros 8
  else
    let temp := if x.st = 4 then (vget r.ext l).temp else x.temp
    let v := x.working + x.target * 2 ^ 5 + (BitVec.ofInt 12 temp).toNat * 2 ^ 15 + x.band * 2 ^ 27 + x.grant % 4096 * 2 ^ 30 +
      x.freq * 2 ^ 42 + (vget r.ext l).lvl % 16 * 2 ^ 49 + x.cmSeq.toNat * 2 ^ 53
    leBytes 8 v

/-- The waveform records of a logical domain over a span: 8 frames an epoch, oldest first (R276). -/
def waveBytes (d : Nat) (recs : List Record) : List Byte :=
  recs.reverse.flatMap (fun r => (List.range 8).flatMap (fun f =>
    match r.wave.find? (fun e => e.1 == f && e.2.1.val == d) with
    | some e => leBytes 8 e.2.2.toNat
    | none => zeros 8))

/-- A chunk as it would be delivered: its bytes, and the coding state that its delivery leaves. -/
structure Chunk where
  bytes : List Byte
  n     : Nat
  pred  : Vector FastEntry 80
  cI    : Vector Int 80
  cE    : Vector Int 80

/-- The records of a span, newest first; the newest record is that of shutter t. -/
def spanRecs (s : State) (start t : Nat) : List Record :=
  s.records.takeWhile (fun r => decide (start < r.gtc.toNat) && decide (r.gtc.toNat ≤ t))

/-- The chunk of shutter t for a port. -/
def buildChunk (s : State) (p : Nat) (t : Nat) (q : ChunkPar) : Chunk :=
  let P := portOf s p
  let x := P.trace
  let k := q.k
  let see (l : Nat) : Bool := holdsDom s p l
  let start := t - 2000 * 2 ^ k
  let recs := spanRecs s start t
  let before := s.records.drop recs.length
  let r := recs.headD default
  let n := t / 2000 / 2 ^ k % 2 ^ 32
  let fast := (List.range 80).map (fastEntry see recs before k)
  let zero : FastEntry := ⟨Vector.replicate 11 0⟩
  let fresh := q.resync || n % 64 == 0
  let coded := (List.range 80).map (fun l =>
    let pr := if q.resync then zero else vget x.pred l
    let cI := if fresh then 0 else vget x.carryI l
    let cE := if fresh then 0 else vget x.carryE l
    codeDom (q.mode != 2 || q.resync) q.qs (n % 64 == 63) (fast.getD l zero) pr cI cE)
  let domain := if q.mode = 0 then fast.flatMap fastRaw else packBits (coded.flatMap (fun c => c.bits))
  let commits := (recs.reverse.flatMap (fun r => r.commits)).take 255
  let trunc := decide (255 < spanSum recs (fun r => r.commits.length))
  let own (port : Nat) : Bool := port == p
  let waves := q.waves.filter see
  let catchup := q.resync && x.dropped
  let u := 2 ^ (k + 1)
  let lost := (List.range 80).map (fun l =>
    if see l then accBefore before l / u - (match x.lastA with | some a => vget a l / u | none => accBefore before l / u) else 0)
  let body := (List.range 16).flatMap (fun i => slowBytes (see (16 * (n % 5) + i)) r (16 * (n % 5) + i)) ++ domain ++
    commits.flatMap (commitBytes own) ++ (if catchup then lost.flatMap (fun e => leBytes 4 (Nat.min e 0xFFFFFFFF)) else []) ++
    waves.flatMap (fun l => waveBytes (physOf s l) recs)
  let len := 64 * ceilDiv (112 + body.length) 64
  let orBit (i : Nat) : Bool := recs.any (fun r => r.flags.getLsbD i)
  let head := ascii "DGTC" ++ leBytes 4 n ++ leBytes 4 r.epoch.toNat ++ leBytes 8 t ++
    [BitVec.ofNat 8 (bitAt (r.flags.getLsbD 0) 0 + bitAt (r.flags.getLsbD 1) 1 + bitAt (orBit 2) 2 + bitAt (orBit 3) 3 + bitAt (orBit 4) 4 +
       bitAt q.resync 5 + bitAt catchup 6 + bitAt r.stale 7),
     BitVec.ofNat 8 commits.length, BitVec.ofNat 8 (q.mode + q.qs * 4 + k * 16),
     BitVec.ofNat 8 (n % 5 + bitAt trunc 3 + bitAt (catchup && lost.any (fun e => decide (0xFFFFFFFF < e))) 4 + waves.length * 32)] ++
    leBytes 4 (spanSum recs (fun r => r.power) / 2 ^ k) ++ leBytes 2 (satNat 16 r.pool) ++ leBytes 2 (satNat 16 r.cap) ++
    leBytes 16 r.cfgDig.toNat ++ leBytes 16 r.inDig.toNat ++ leBytes 8 r.energy.toNat ++ leBytes 8 r.inEnergy.toNat ++ leBytes 4 s.meter.pIn ++
    leBytes 2 (satNat 16 x.dropRing) ++ leBytes 2 (satNat 16 x.dropQueue) ++ leBytes 2 domain.length ++ leBytes 2 len ++ zeros 16
  let rest := slice body 0 (len - 112)
  { bytes := head ++ leBytes 4 (crc32c (head ++ rest)).toNat ++ rest, n := n,
    pred := Vector.ofFn (fun i => ((coded.map (fun c => c.d)).getD i.val zero)),
    cI := Vector.ofFn (fun i => (coded.map (fun c => c.cI)).getD i.val 0), cE := Vector.ofFn (fun i => (coded.map (fun c => c.cE)).getD i.val 0) }

/-- The accumulators at a shutter, as its record has them. -/
def accsOf (r : Record) : Vector Nat 80 := r.ext.map (fun e => e.acc)

/-! ### Delivery and drops (R274, R275, R299) -/

/-- The stream has delivered a chunk: predictors and carries stand, RESYNC and the drop counts are cleared. -/
def delivered (t : Nat) (q : ChunkPar) (c : Chunk) (r : Record) (x : TraceSt) : TraceSt :=
  { x with pred := c.pred, carryI := c.cI, carryE := c.cE, lastA := some (accsOf r), dropped := false, dropRing := 0, dropQueue := 0, lastAt := t,
           resync := q.idx != 0 && x.resync, old := x.old.mapIdx (fun i o => if i + 1 = q.idx then { o with resync := false } else o) }

/-- A chunk is dropped whole: counted, and the next delivered chunk starts afresh and catches up. The catch-up of a stream that
has delivered nothing begins at the span of its first dropped chunk. -/
def droppedChunk (t : Nat) (full : Bool) (before : List Record) (x : TraceSt) : TraceSt :=
  { x with ctrRing := if full then x.ctrRing + 1 else x.ctrRing, ctrQueue := if full then x.ctrQueue else x.ctrQueue + 1,
           dropRing := if full then x.dropRing + 1 else x.dropRing, dropQueue := if full then x.dropQueue else x.dropQueue + 1,
           lastA := (match x.lastA with | some a => some a | none => some (Vector.ofFn (fun i => accBefore before i.val))),
           dropped := true, resync := true, old := x.old.map (fun o => { o with resync := true }), lastAt := t }

/-- The skip unit before a chunk that would wrap (R299). -/
def skipUnit (n : Nat) : List Byte :=
  let b := ascii "DGSK" ++ leBytes 4 n ++ zeros 52
  b ++ leBytes 4 (crc32c b).toNat

/-- The writes of a chunk at a ring's producer index: the skip unit, the units from the second, and the first unit last. -/
def chunkWrites (p : PortNo) (r : Ring) (c : Chunk) : Ring × List WriteReq :=
  let units := c.bytes.length / 64
  let room := ringSize r - r.prod % ringSize r
  let at_ (r : Ring) (i : Nat) : DWord := r.base + BitVec.ofNat 64 ((r.prod + i) % ringSize r * 64)
  let w (id : Option RingId) (addr : DWord) (data : List Byte) (prod : Nat) : WriteReq :=
    { port := p, ring := id, addr := addr, data := data, prod := prod, cpl := [] }
  let skips := decide (room < units)
  let r1 := if skips then ringAdvance r room else r
  let r2 := ringAdvance r1 units
  (r2, (if skips then [w (some .trq) (at_ r 0) (skipUnit c.n) r1.prod] else []) ++
    (if 1 < units then [w none (at_ r1 1) (c.bytes.drop 64) 0] else []) ++ [w (some .trq) (at_ r1 0) (c.bytes.take 64) r2.prod])

/-- Whether a ring has room for a chunk and any skip. -/
def chunkFits (r : Ring) (units : Nat) : Bool :=
  let room := ringSize r - r.prod % ringSize r
  decide (units + (if room < units then room else 0) + ringUsed r ≤ ringSize r)

/-- `TRACE_CHUNK_HANDOFF`: the chunk of shutter k, the last one, if the port's stream has one, is written whole or dropped whole: for a ring without
room, or for a write queue that cannot reserve all of it (R24, R274; log 72). -/
def execTraceChunkHandoff (p : PortNo) (k : Nat) (t : Nat) (s : State) : Host.Outcome State Fault Refusal :=
  let s := now t s
  let P := portOf s p
  let r := ringOf P 3
  match s.records with
  | [] => .next s
  | newest :: _ =>
    let sh := newest.gtc.toNat
    if !modeOn s 6 || !gateOn s 2 || !P.en || !r.en || P.fabErr || P.trace.lastAt == sh || sh != 2000 * k || sh + 2000 ≤ s.time.gtc then .next s
    else
      match chunkPar P.trace sh with
      | none => .next s
      | some q =>
        let c := buildChunk s p sh q
        let before := s.records.drop (spanRecs s (sh - spanOf q.k) sh).length
        let drop (full : Bool) : State := setPort s p (fun P => { P with trace := droppedChunk sh full before P.trace })
        if !chunkFits r (c.bytes.length / 64) then .next (drop true)
        else
          let w := chunkWrites p r c
          if 64 < wqUsed s + (w.2.map writeUnits).sum then .next (drop false)
          else
          let s1 := setPort s p (fun P => { setRing P 3 (fun _ => w.1) with trace := delivered sh q c newest P.trace })
          .next { s1 with wq := s1.wq ++ w.2 }

end Sys2Proof.Machine
end

