-- ==== Sys2Proof/Machine/Dispatch.lean ====
section
/-! DEFINITION. The effect of each command: one arm per row of the table. -/

namespace Sys2Proof.Machine

/-- What a command does to everything but the queue. -/
def exec (i : Instr) (s : State) : Host.Outcome State Fault Refusal :=
  match i with
  | .nop d => Sys2Proof.Machine.execNop d s
  | .domState d => Sys2Proof.Machine.execDomState d s
  | .domTarget d => Sys2Proof.Machine.execDomTarget d s
  | .domFreq d => Sys2Proof.Machine.execDomFreq d s
  | .domLimits d => Sys2Proof.Machine.execDomLimits d s
  | .domPair d => Sys2Proof.Machine.execDomPair d s
  | .domUnpair d => Sys2Proof.Machine.execDomUnpair d s
  | .domCellmap d => Sys2Proof.Machine.execDomCellmap d s
  | .budgetSet d => Sys2Proof.Machine.execBudgetSet d s
  | .budgetCap d => Sys2Proof.Machine.execBudgetCap d s
  | .jobAlign d => Sys2Proof.Machine.execJobAlign d s
  | .lendPolicy d => Sys2Proof.Machine.execLendPolicy d s
  | .hintPhase d => Sys2Proof.Machine.execHintPhase d s
  | .stepMark d => Sys2Proof.Machine.execStepMark d s
  | .watchArm d => Sys2Proof.Machine.execWatchArm d s
  | .watchCancel d => Sys2Proof.Machine.execWatchCancel d s
  | .loadProgram d => Sys2Proof.Machine.execLoadProgram d s
  | .bindProgram d => Sys2Proof.Machine.execBindProgram d s
  | .loadModel d => Sys2Proof.Machine.execLoadModel d s
  | .bindModel d => Sys2Proof.Machine.execBindModel d s
  | .rcConfig d => Sys2Proof.Machine.execRcConfig d s
  | .rcReset d => Sys2Proof.Machine.execRcReset d s
  | .traceConfig d => Sys2Proof.Machine.execTraceConfig d s
  | .snapshot d => Sys2Proof.Machine.execSnapshot d s
  | .sieveStart d => Sys2Proof.Machine.execSieveStart d s
  | .sieveStop d => Sys2Proof.Machine.execSieveStop d s
  | .selftest d => Sys2Proof.Machine.execSelftest d s
  | .logRead d => Sys2Proof.Machine.execLogRead d s
  | .logMark d => Sys2Proof.Machine.execLogMark d s
  | .rightsSet d => Sys2Proof.Machine.execRightsSet d s
  | .portQuiesce d => Sys2Proof.Machine.execPortQuiesce d s
  | .charLoad d => Sys2Proof.Machine.execCharLoad d s
  | .cleNop => Sys2Proof.Machine.execCleNop s
  | .cleEnd => Sys2Proof.Machine.execCleEnd s
  | .rep m1 k1 => Sys2Proof.Machine.execRep m1 k1 s
  | .skipif a b cond n => Sys2Proof.Machine.execSkipif a b cond n s
  | .sel d a b cond c => Sys2Proof.Machine.execSel d a b cond c s
  | .ldi d imm => Sys2Proof.Machine.execLdi d imm s
  | .ldiq d imm => Sys2Proof.Machine.execLdiq d imm s
  | .ldc d idx => Sys2Proof.Machine.execLdc d idx s
  | .mov d a => Sys2Proof.Machine.execMov d a s
  | .lds d idx => Sys2Proof.Machine.execLds d idx s
  | .sts a idx => Sys2Proof.Machine.execSts a idx s
  | .ldsx d b idx => Sys2Proof.Machine.execLdsx d b idx s
  | .stsx a b idx => Sys2Proof.Machine.execStsx a b idx s
  | .cleIn d port => Sys2Proof.Machine.execCleIn d port s
  | .cleOut a port => Sys2Proof.Machine.execCleOut a port s
  | .add d a b => Sys2Proof.Machine.execAdd d a b s
  | .sub d a b => Sys2Proof.Machine.execSub d a b s
  | .addi d a imm => Sys2Proof.Machine.execAddi d a imm s
  | .addiq d a imm => Sys2Proof.Machine.execAddiq d a imm s
  | .neg d a => Sys2Proof.Machine.execNeg d a s
  | .abs d a => Sys2Proof.Machine.execAbs d a s
  | .min d a b => Sys2Proof.Machine.execMin d a b s
  | .max d a b => Sys2Proof.Machine.execMax d a b s
  | .clamp d a b => Sys2Proof.Machine.execClamp d a b s
  | .mul d a b => Sys2Proof.Machine.execMul d a b s
  | .mac d a b => Sys2Proof.Machine.execMac d a b s
  | .msu d a b => Sys2Proof.Machine.execMsu d a b s
  | .shl d a n => Sys2Proof.Machine.execShl d a n s
  | .shr d a n => Sys2Proof.Machine.execShr d a n s
  | .and d a b => Sys2Proof.Machine.execAnd d a b s
  | .or d a b => Sys2Proof.Machine.execOr d a b s
  | .xor d a b => Sys2Proof.Machine.execXor d a b s
  | .dbCqTail p val t => Sys2Proof.Machine.execDbCqTail p val t s
  | .dbCplHead p val t => Sys2Proof.Machine.execDbCplHead p val t s
  | .dbEvqHead p val t => Sys2Proof.Machine.execDbEvqHead p val t s
  | .dbTrqHead p val t => Sys2Proof.Machine.execDbTrqHead p val t s
  | .irqClaim tgt t => Sys2Proof.Machine.execIrqClaim tgt t s
  | .irqDone tgt val t => Sys2Proof.Machine.execIrqDone tgt val t s
  | .portReset p val t => Sys2Proof.Machine.execPortReset p val t s
  | .ringEn p val t => Sys2Proof.Machine.execRingEn p val t s
  | .portDisable p val t => Sys2Proof.Machine.execPortDisable p val t s
  | .intSwset k val t => Sys2Proof.Machine.execIntSwset k val t s
  | .badAccess page offset write t => Sys2Proof.Machine.execBadAccess page offset write t s
  | .cseqLoRead path t => Sys2Proof.Machine.execCseqLoRead path t s
  | .gtcLoRead path t => Sys2Proof.Machine.execGtcLoRead path t s
  | .fltLastLoRead path t => Sys2Proof.Machine.execFltLastLoRead path t s
  | .controlReset val t => Sys2Proof.Machine.execControlReset val t s
  | .controlResetDone t => Sys2Proof.Machine.execControlResetDone t s
  | .mcReset val t => Sys2Proof.Machine.execMcReset val t s
  | .mtrGo val t => Sys2Proof.Machine.execMtrGo val t s
  | .calSystemZero val t => Sys2Proof.Machine.execCalSystemZero val t s
  | .calSystemFullScale val t => Sys2Proof.Machine.execCalSystemFullScale val t s
  | .calSelf val t => Sys2Proof.Machine.execCalSelf val t s
  | .calSelfAll val t => Sys2Proof.Machine.execCalSelfAll val t s
  | .calibrationDone res t => Sys2Proof.Machine.execCalibrationDone res t s
  | .fmcGo val t => Sys2Proof.Machine.execFmcGo val t s
  | .fmcDone count t => Sys2Proof.Machine.execFmcDone count t s
  | .fwGo val t => Sys2Proof.Machine.execFwGo val t s
  | .fwLoadDone img t => Sys2Proof.Machine.execFwLoadDone img t s
  | .charRecordInstall copy1 copy2 cals t => Sys2Proof.Machine.execCharRecordInstall copy1 copy2 cals t s
  | .pwrmodeRun val t => Sys2Proof.Machine.execPwrmodeRun val t s
  | .pwrmodeSleep val t => Sys2Proof.Machine.execPwrmodeSleep val t s
  | .pwrmodeDeep val t => Sys2Proof.Machine.execPwrmodeDeep val t s
  | .pwrmodeTransitionDone t => Sys2Proof.Machine.execPwrmodeTransitionDone t s
  | .clkSrcSwitch val t => Sys2Proof.Machine.execClkSrcSwitch val t s
  | .muxSwitchDone mux oldStopped t => Sys2Proof.Machine.execMuxSwitchDone mux oldStopped t s
  | .pllCfgWrite pll val t => Sys2Proof.Machine.execPllCfgWrite pll val t s
  | .pllLock pll t => Sys2Proof.Machine.execPllLock pll t s
  | .pllUnlock pll t => Sys2Proof.Machine.execPllUnlock pll t s
  | .safeModeWrite val t => Sys2Proof.Machine.execSafeModeWrite val t s
  | .fltCfgClr val t => Sys2Proof.Machine.execFltCfgClr val t s
  | .wdtKick val t => Sys2Proof.Machine.execWdtKick val t s
  | .gmodeWrite val t => Sys2Proof.Machine.execGmodeWrite val t s
  | .thLimitWrite off val t => Sys2Proof.Machine.execThLimitWrite off val t s
  | .pmbCfgWrite val t => Sys2Proof.Machine.execPmbCfgWrite val t s
  | .pmbAddrWrite n val t => Sys2Proof.Machine.execPmbAddrWrite n val t s
  | .registerWrite off val path t => Sys2Proof.Machine.execRegisterWrite off val path t s
  | .porAssert t => Sys2Proof.Machine.execPorAssert t s
  | .porRelease nor t => Sys2Proof.Machine.execPorRelease nor t s
  | .pfail t => Sys2Proof.Machine.execPfail t s
  | .lastBreathDone t => Sys2Proof.Machine.execLastBreathDone t s
  | .stage1Alert t => Sys2Proof.Machine.execStage1Alert t s
  | .pmbusTransactionDone res t => Sys2Proof.Machine.execPmbusTransactionDone res t s
  | .pmbusPoll kind conv t => Sys2Proof.Machine.execPmbusPoll kind conv t s
  | .pmbusStretchTimeout t => Sys2Proof.Machine.execPmbusStretchTimeout t s
  | .pmbusRetry t => Sys2Proof.Machine.execPmbusRetry t s
  | .avsResponse good t => Sys2Proof.Machine.execAvsResponse good t s
  | .mainsSyncEdge mclks t => Sys2Proof.Machine.execMainsSyncEdge mclks t s
  | .syncLost t => Sys2Proof.Machine.execSyncLost t s
  | .gtcDiscontinuity g vldFell => Sys2Proof.Machine.execGtcDiscontinuity g vldFell s
  | .shutterStart t => Sys2Proof.Machine.execShutterStart t s
  | .frameLatch n sense => Sys2Proof.Machine.execFrameLatch n sense s
  | .frameStart n => Sys2Proof.Machine.execFrameStart n s
  | .cleSlot n pos slot upsets errs => Sys2Proof.Machine.execCleSlot n pos slot upsets errs s
  | .overrunHeld d t => Sys2Proof.Machine.execOverrunHeld d t s
  | .lanternInterval m faults => Sys2Proof.Machine.execLanternInterval m faults s
  | .lanternWindowEnd w => Sys2Proof.Machine.execLanternWindowEnd w s
  | .rcBinEnd d t => Sys2Proof.Machine.execRcBinEnd d t s
  | .shutter k meas => Sys2Proof.Machine.execShutter k meas s
  | .regrant p => Sys2Proof.Machine.execRegrant p s
  | .traceChunkHandoff p k t => Sys2Proof.Machine.execTraceChunkHandoff p k t s
  | .completionPost p t => Sys2Proof.Machine.execCompletionPost p t s
  | .bulkFetchDone p tag data t => Sys2Proof.Machine.execBulkFetchDone p tag data t s
  | .writeAck t => Sys2Proof.Machine.execWriteAck t s
  | .fabricError p ring idx t => Sys2Proof.Machine.execFabricError p ring idx t s
  | .groupTimeout p t => Sys2Proof.Machine.execGroupTimeout p t s
  | .faultMessage t => Sys2Proof.Machine.execFaultMessage t s
  | .linkUpFrame d rx t => Sys2Proof.Machine.execLinkUpFrame d rx t s
  | .linkDownFrame d rx t => Sys2Proof.Machine.execLinkDownFrame d rx t s
  | .linkLost d t => Sys2Proof.Machine.execLinkLost d t s
  | .linkTrained d ok lat t => Sys2Proof.Machine.execLinkTrained d ok lat t s
  | .linkRestored d t => Sys2Proof.Machine.execLinkRestored d t s
  | .tileWait s_ t => Sys2Proof.Machine.execTileWait s_ t s
  | .tileWake s_ t => Sys2Proof.Machine.execTileWake s_ t s
  | .actSample s_ counts t => Sys2Proof.Machine.execActSample s_ counts t s
  | .tileHint s_ h vld t => Sys2Proof.Machine.execTileHint s_ h vld t s
  | .tileStepMark s_ t => Sys2Proof.Machine.execTileStepMark s_ t s
  | .freqRdy s_ t => Sys2Proof.Machine.execFreqRdy s_ t s
  | .freqAck s_ t => Sys2Proof.Machine.execFreqAck s_ t s
  | .freqWithdraw s_ t => Sys2Proof.Machine.execFreqWithdraw s_ t s
  | .cellReport c word t => Sys2Proof.Machine.execCellReport c word t s
  | .cellAutonomousHold c t => Sys2Proof.Machine.execCellAutonomousHold c t s
  | .cellOverload c t => Sys2Proof.Machine.execCellOverload c t s
  | .cellFail c t => Sys2Proof.Machine.execCellFail c t s
  | .isolationCheck d k t => Sys2Proof.Machine.execIsolationCheck d k t s
  | .derateThrottle d t => Sys2Proof.Machine.execDerateThrottle d t s
  | .cellPark d t => Sys2Proof.Machine.execCellPark d t s
  | .warmHoldExpire c t => Sys2Proof.Machine.execWarmHoldExpire c t s
  | .crackWindowEnd d t => Sys2Proof.Machine.execCrackWindowEnd d t s
  | .ovCrossing d t => Sys2Proof.Machine.execOvCrossing d t s
  | .dt1Crossing d vlow t => Sys2Proof.Machine.execDt1Crossing d vlow t s
  | .dt2Crossing d vlow t => Sys2Proof.Machine.execDt2Crossing d vlow t s
  | .dt3Crossing d vlow t => Sys2Proof.Machine.execDt3Crossing d vlow t s
  | .floorCrossing d vlow t => Sys2Proof.Machine.execFloorCrossing d vlow t s
  | .crossingRecovery d lv t => Sys2Proof.Machine.execCrossingRecovery d lv t s
  | .glintEnd d t => Sys2Proof.Machine.execGlintEnd d t s
  | .dt3End d t => Sys2Proof.Machine.execDt3End d t s
  | .flareConductionEnd d t => Sys2Proof.Machine.execFlareConductionEnd d t s
  | .flareRecharged d t => Sys2Proof.Machine.execFlareRecharged d t s
  | .flareCheck d bankMv low t => Sys2Proof.Machine.execFlareCheck d bankMv low t s
  | .softStartEnd d t => Sys2Proof.Machine.execSoftStartEnd d t s
  | .short d t => Sys2Proof.Machine.execShort d t s
  | .shortRetry d t => Sys2Proof.Machine.execShortRetry d t s
  | .neighbourArmEnd d t => Sys2Proof.Machine.execNeighbourArmEnd d t s
  | .dischargeTimeout d t => Sys2Proof.Machine.execDischargeTimeout d t s
  | .plaus d t => Sys2Proof.Machine.execPlaus d t s
  | .follow d t => Sys2Proof.Machine.execFollow d t s
  | .freqDeferTimeout s_ t => Sys2Proof.Machine.execFreqDeferTimeout s_ t s
  | .scrub hit t => Sys2Proof.Machine.execScrub hit t s
  | .selftestDone u res t => Sys2Proof.Machine.execSelftestDone u res t s
  | .thermalSampleStart t => Sys2Proof.Machine.execThermalSampleStart t s
  | .thermalSampleComplete convs t => Sys2Proof.Machine.execThermalSampleComplete convs t s
  | .tripConfirm s_ conv t => Sys2Proof.Machine.execTripConfirm s_ conv t s
  | .fastSamplingEnd t => Sys2Proof.Machine.execFastSamplingEnd t s
  | .hotHoldEnd d t => Sys2Proof.Machine.execHotHoldEnd d t s
  | .dieSilent d t => Sys2Proof.Machine.execDieSilent d t s
  | .thermalRestart t => Sys2Proof.Machine.execThermalRestart t s
  | .meterSettleEnd t => Sys2Proof.Machine.execMeterSettleEnd t s
  | .meterWindowEnd pos neg t => Sys2Proof.Machine.execMeterWindowEnd pos neg t s
  | .clockMonitorFault c t => Sys2Proof.Machine.execClockMonitorFault c t s
  | .wdtTimeout t => Sys2Proof.Machine.execWdtTimeout t s
  | .wdtFailsClear t => Sys2Proof.Machine.execWdtFailsClear t s
  | .heartbeatToggle t => Sys2Proof.Machine.execHeartbeatToggle t s
  | .safePulseEnd t => Sys2Proof.Machine.execSafePulseEnd t s
  | .holdoffExpire tgt g t => Sys2Proof.Machine.execHoldoffExpire tgt g t s
  | .strataWriteDone ok t => Sys2Proof.Machine.execStrataWriteDone ok t s
  | .clockReturn c t => Sys2Proof.Machine.execClockReturn c t s
  | .gtcVldRise t => Sys2Proof.Machine.execGtcVldRise t s
  | .pfailNRise t => Sys2Proof.Machine.execPfailNRise t s
  | .pmbAlertRelease t => Sys2Proof.Machine.execPmbAlertRelease t s
  | .overloadTimerClear c t => Sys2Proof.Machine.execOverloadTimerClear c t s
  | .mcStart t => Sys2Proof.Machine.execMcStart t s
  | .norReadDone p records rec t => Sys2Proof.Machine.execNorReadDone p records rec t s
  | .eventPost p t => Sys2Proof.Machine.execEventPost p t s
  | .lifetimeCountersRecord payload t => Sys2Proof.Machine.execLifetimeCountersRecord payload t s

end Sys2Proof.Machine
end

