-- ==== Sys2Proof/Safety.lean ====
section
/-! DEFINITION. What counts as a sound state and what the statements mean by an answer: the terms that claims about Dorgus use. -/

namespace Sys2Proof.Machine

/-- A command answers a next state of which something holds. -/
def Answers (i : Instr) (s : State) (P : State → Prop) : Prop := ∃ t, exec i s = .next t ∧ P t

/-- The slot in progress executes the word at its pointer: no mismatch, a program cycle left, both lanes alike, the
section not ended and the word not skipped (R152, R161, R168). -/
def SlotRuns (s : State) : Prop :=
  s.slot.mismatch = none ∧ s.slot.cycle ≤ 37 ∧ s.slot.a = s.slot.b ∧ s.slot.a.ended = false ∧ s.slot.a.skip = 0

/-- The state after both lanes of the slot have become a lane and one slot cycle has passed. -/
def lanesNow (s : State) (l : LaneCtx) : State :=
  { s with slot := { s.slot with a := l, b := l, cycle := s.slot.cycle + 1 } }

/-- An instruction takes one cycle and writes a value into one register of both lanes, and nothing else but the pointer
(and the count of a repetition that the pointer ends) changes in the machine. -/
def RegResult (i : Instr) (s : State) (d : Reg) (v : Int) : Prop :=
  ∃ w : Word, w.toInt = v ∧
    exec i s = .next (lanesNow s { advance s.slot.a with g := vset s.slot.a.g d.toNat w, skip := 0 })

/-- A domain whose station has removed every enable, stopped the tile clock, disarmed the bank and begun a discharge at a GTC (R117). -/
def Discharging (D : Domain) (g : Nat) : Prop :=
  D.en = false ∧ D.held = false ∧ D.tr.ph = .discharge ∧ D.tr.since = g ∧ D.droop.uvstop = true ∧ D.droop.armed = false ∧
  (D.droop.flare = .disarmed ∨ D.droop.flare = .failed)

/-- Every domain but one, and but the members that its leader governs, is as it was. -/
def OtherDomainsSame (s u : State) (d : Nat) : Prop :=
  ∀ e : Dom, e.val ≠ d → e.val ∉ membersOf s (leader s d) → vget u.dom e = vget s.dom e

/-- Every domain is as it was but for its energy accounts at the meter: its input energies and their window (R240, R282). -/
def ContextsOnly (s u : State) : Prop :=
  ∀ e : Dom, vget u.dom e = { vget s.dom e with tile := { (vget s.dom e).tile with
    ctxInUj := (vget u.dom e).tile.ctxInUj, ctxInPj := (vget u.dom e).tile.ctxInPj, ctxWin := (vget u.dom e).tile.ctxWin } }

/-- A domain that belongs to no joined pair, by its own role and by that of the site below it. -/
def Single (s : State) (d : Nat) : Prop := (domOf s d).pair = .none ∧ ∀ e, e + 1 = d → isEven s e = false

/-! ### Host commands -/

/-- The shutter on which a command without AT lands when every slot is free (R69, R70, R398): the next one if it is 500 ns away or more and FIXSHUT
does not act, else the one after it. -/
def firstSlot (s : State) : Nat :=
  let n := 2000 * (s.time.gtc / 2000 + 1)
  if fixShut s then n + 2000 else if s.time.gtc + 500 ≤ n then n else n + 2000

/-- The machine once a descriptor has left its ring and waits alone. -/
def fetched (op : Nat) (d : Desc) (s : State) : State :=
  let s0 := now d.t s
  enqueueCmd (nextExpected (takeEntry s0 d.port) d) op d (ringOf (portOf s0 d.port) 0).cons none 0

/-- A descriptor that a machine without other commands fetches as an opcode's: no group, no AT; steps 1–7 pass, and steps 9–11 at once. -/
def Admits (op : Nat) (d : Desc) (s : State) : Prop :=
  s.cmds = [] ∧ (∀ p : Fin 8, vget s.groups p = none) ∧ dGroup d = false ∧ dAt d = false ∧
  fetchOk (now d.t s) d.port = true ∧ fetchVerdict (now d.t s) op d = none ∧
  ∀ c, (fetched op d s).cmds = [c] → cellChecks (fetched op d s) c = [] ∧
    firstFail [stateCheck (fetched op d s) false c, busyCheck (fetched op d s) c, unitCheck (fetched op d s) c] = none

/-- The descriptor has left its ring and is the only command, at a stage: of the machine only its port's command ring, the turns of the
ports, the commands and the order of acceptance have changed. -/
def Holds (op : Nat) (d : Desc) (st : Stage) (s u : State) (P : Cmd → Prop) : Prop :=
  ∃ c, u.cmds = [c] ∧ c.d = d ∧ c.op = op ∧ c.stage = st ∧ c.grp = none ∧ c.refuse = false ∧ c.moved = false ∧ P c ∧
    u.ports = (fetched op d s).ports ∧ u = { now d.t s with ports := u.ports, cmds := u.cmds, nextOrd := u.nextOrd, rrPort := u.rrPort, fetchPort := d.port }

/-- A row's descriptor is accepted for the first shutter that it can reach, and what its command does there holds. -/
def Accepts (row : Instr) (op : Nat) (d : Desc) (s : State) (P : Cmd → Prop) : Prop :=
  Answers row s (fun u => Holds op d .accepted s u (fun c => c.shutter = firstSlot (now d.t s) ∧ P c))

/-- The effect of a command at its commit, whatever the state then is and whatever has been latched: it answers a state and a result of which
something holds. -/
def Commit (c : Cmd) (P : State → State → Nat → Prop) : Prop :=
  ∀ (q : Latch) (v : State), P v (applyEffect c.shutter q v c).1 (applyEffect c.shutter q v c).2

/-- What every state that a run reaches says of its commit sequence (R79): it is 0, before the first commit, or its low word is not 0. -/
def SeqOk (s : State) : Prop := s.cseq = 0 ∨ s.cseq.extractLsb' 0 32 ≠ 0

end Sys2Proof.Machine
end

