-- ==== Sys2Proof/Certificates/Slice0/Obligations.lean ====
section
/-! DEFINITION. The statements about Dorgus that the provers are given. -/

open Sys2Proof Sys2Proof.Machine

/-! ### The queue and reset -/

/-- Step: the command at the front of the queue runs on the state with the queue's rest. -/
def Obligations.StepTakesFront : Prop :=
  ∀ (c : Instr) (rest : List Instr) (s : State), s.pending = c :: rest → step s = exec c { s with pending := rest }

/-- What reset leaves (R35, R46, R95, R113, R182, R220, R221, R251, R291, R309, R418): the values the manual states. -/
def Obligations.ResetValues : Prop :=
  (∀ d : Fin 80, let D := vget State.reset.dom d
    D.state = .dark ∧ D.droop.uvstop = true ∧ D.prof.vref = 0 ∧ D.band = 4 ∧ D.sw = ⟨[]⟩ ∧ D.rc.bins = ⟨[]⟩ ∧
    ∀ k : Fin 14, (vget D.cells k).weight = 8) ∧
  State.reset.mode.written = 0x30 ∧ State.reset.mode.force = 0x30 ∧ State.reset.cseq = 0 ∧ State.reset.time.gtc = 0 ∧
  State.reset.time.vld = false ∧ State.reset.safety.safe = false ∧ State.reset.safety.pin = false ∧
  State.reset.therm.pinLow = true ∧ (∀ i : Fin 4, vget State.reset.therm.mband i = 3) ∧
  (portOf State.reset 0).en = true ∧ (∀ p : Fin 8, p ≠ 0 → (portOf State.reset p).en = false ∧ (portOf State.reset p).rightsD = 0) ∧
  (∀ (p : Fin 8) (r : Fin 4), (ringOf (portOf State.reset p) r).log2 = 6 ∧ (ringOf (portOf State.reset p) r).en = false) ∧
  State.reset.arb.capChip = 20800 ∧ State.reset.arb.capIn = 28000 ∧ State.reset.cmds = [] ∧ State.reset.pending = []

/-- Every step of a nonempty queue that answers a state takes exactly the front command from the queue, and keeps the rule of
R79: a commit sequence that is not 0 has a low word that is not 0. An empty queue leaves the machine as it is. That an empty
queue idles is the model's choice (log 13). -/
def Obligations.StepKeepsSequence : Prop :=
  ∀ s u : State, step s = .next u →
    u.pending = s.pending.tail ∧ (SeqOk s → SeqOk u) ∧ (s.pending = [] → u = s)

/-- The rule of R79 holds at reset. -/
def Obligations.ResetSequence : Prop := SeqOk State.reset

/-! ### CLE words (chapter 07) -/

/-- Decode of encode, for every well-formed CLE instruction with every operand at every value (Table 07-7). A word has one
meaning: what it decodes to encodes back to it, so no unused field is dropped (R159). -/
def Obligations.CleRoundTrip : Prop :=
  (∀ (i : Instr) (w : Word), i.wf = true → encodeCle i = some w → decodeCle w = some i) ∧
  (∀ (i : Instr) (w : Word), decodeCle w = some i → encodeCle i = some w ∧ i.wf = true)

/-- Words of the built-in program of Table 08-5, read by the manual's encodings (R159), and words that the loader refuses:
opcode 0x00, a field that the opcode does not use, IN port 13, OUT port 4, a shift count of 0, condition 0b110, a skip count of
0. -/
def Obligations.CleKnownWords : Prop :=
  decodeCle 0x40400002 = some (.cleIn 1 2) ∧ decodeCle 0x64C48000 = some (.sub 3 1 2) ∧
  decodeCle 0x29400000 = some (.ldc 5 0) ∧ decodeCle 0x44240000 = some (.cleOut 9 0) ∧
  decodeCle 0x17D4280E = some (.sel 15 5 0 5 14) ∧ decodeCle 0x08000000 = some .cleEnd ∧
  decodeCle 0x0C000C09 = some (.rep 3 9) ∧ decodeCle 0x10084805 = some (.skipif 2 1 1 5) ∧
  decodeCle 0x00000000 = none ∧ decodeCle 0x04000001 = none ∧ decodeCle 0x4000000D = none ∧
  decodeCle 0x44000004 = none ∧ decodeCle 0xA0000000 = none ∧ decodeCle 0x10003001 = none ∧ decodeCle 0x10000000 = none

/-! ### CLE execution -/

/-- Every CLE instruction completes in a running slot: both lanes take its effect and one slot cycle passes, and nothing else in
the machine changes (R152, R159, R161, R168). REP and END need a place outside a REP body, LDC an index below the program's
constants. -/
def Obligations.CleInstructionRuns : Prop :=
  ∀ (i : Instr) (f : ClEnv → LaneCtx → ClEff) (s : State), cleEff i = some f → i.wf = true → SlotRuns s →
    (i = .cleEnd → s.slot.a.rep = none) → (∀ m k, i = .rep m k → s.slot.a.rep = none) →
    (∀ d idx, i = .ldc d idx → idx.toNat < (constsOf s s.slot.dom).length) →
    exec i s = .next (lanesNow s (applyEff s.slot.a (f (envOf s) s.slot.a)))

/-- The arithmetic of Table 07-7 over Q16.16 values: sums, differences, negation, magnitude, minimum, maximum, clamp, products
and shifts, rounded to nearest with ties to even and saturated to 32 bits (R158). Every other register keeps its value. Moves,
loads, selection and logic of Table 07-7: the value that reaches register d. A state word reads as the slot's own latest write,
else as committed (R154); LDSX adds the floor of gb's value modulo 64; an input port reads as latched. -/
def Obligations.CleResults : Prop :=
  (∀ (s : State) (d a b : Reg) (imm : BitVec 14) (n : BitVec 5), SlotRuns s →
     let x := gi s.slot.a a
     let y := gi s.slot.a b
     let z := gi s.slot.a d
     RegResult (.add d a b) s d (sat32 (x + y)) ∧ RegResult (.sub d a b) s d (sat32 (x - y)) ∧
     RegResult (.addi d a imm) s d (sat32 (x + imm.toInt)) ∧ RegResult (.addiq d a imm) s d (sat32 (x + imm.toInt * 65536)) ∧
     RegResult (.neg d a) s d (sat32 (-x)) ∧ RegResult (.abs d a) s d (sat32 x.natAbs) ∧
     RegResult (.min d a b) s d (Min.min x y) ∧ RegResult (.max d a b) s d (Max.max x y) ∧
     RegResult (.clamp d a b) s d (Min.min (Max.max z x) y) ∧
     RegResult (.mul d a b) s d (sat32 (rne (x * y) 16)) ∧
     RegResult (.mac d a b) s d (sat32 (z + rne (x * y) 16)) ∧ RegResult (.msu d a b) s d (sat32 (z - rne (x * y) 16)) ∧
     (n ≠ 0 → RegResult (.shl d a n) s d (sat32 (x * 2 ^ n.toNat)) ∧ RegResult (.shr d a n) s d (rne x n.toNat))) ∧
  (∀ (s : State) (d a b c : Reg) (imm : BitVec 14) (k : BitVec 8) (j : BitVec 6) (p : BitVec 4) (cc : BitVec 3), SlotRuns s →
     let l := s.slot.a
     let word := fun i : Nat => (readSw (envOf s) l i).toInt
     RegResult (.mov d a) s d (gi l a) ∧ RegResult (.ldi d imm) s d imm.toInt ∧
     RegResult (.ldiq d imm) s d (imm.toInt * 65536) ∧
     (∀ h : k.toNat < (constsOf s s.slot.dom).length, RegResult (.ldc d k) s d ((constsOf s s.slot.dom)[k.toNat]'h).toInt) ∧
     RegResult (.lds d j) s d (word j.toNat) ∧
     RegResult (.ldsx d b j) s d (word ((((j.toNat : Int) + gi l b / 65536) % 64).toNat)) ∧
     (p.toNat ≤ 12 → RegResult (.cleIn d p) s d (vget s.slot.inputs p.toNat).toInt) ∧
     (cc = 0 → RegResult (.sel d a b cc c) s d (if gi l c = 0 then gi l a else gi l b)) ∧
     (cc = 1 → RegResult (.sel d a b cc c) s d (if gi l c ≠ 0 then gi l a else gi l b)) ∧
     (cc = 2 → RegResult (.sel d a b cc c) s d (if gi l c < 0 then gi l a else gi l b)) ∧
     (cc = 3 → RegResult (.sel d a b cc c) s d (if gi l c ≥ 0 then gi l a else gi l b)) ∧
     (cc = 4 → RegResult (.sel d a b cc c) s d (if gi l c ≤ 0 then gi l a else gi l b)) ∧
     (cc = 5 → RegResult (.sel d a b cc c) s d (if gi l c > 0 then gi l a else gi l b)) ∧
     RegResult (.and d a b) s d (gr l a &&& gr l b).toInt ∧ RegResult (.or d a b) s d (gr l a ||| gr l b).toInt ∧
     RegResult (.xor d a b) s d (gr l a ^^^ gr l b).toInt)

/-- Stores and outputs (R154, R157, R159): STS and STSX make the written word read back and leave every other state word as it
read; OUT sets its port alone. No register and nothing outside the two lanes changes; the committed state words stay. Control of
Table 07-7 outside a REP body: NOP moves on, END ends the section, SKIPIF skips n words exactly when its condition holds, REP
opens a body of m words with k − 1 repetitions left (R159 to R161). -/
def Obligations.CleStoresAndControl : Prop :=
  (∀ (s : State) (a b : Reg) (j : BitVec 6) (p : BitVec 4), SlotRuns s →
     let l := s.slot.a
     (∃ m, exec (.sts a j) s = .next (lanesNow s m) ∧ m.g = l.g ∧ m.outs = l.outs ∧
       ∀ i, readSw (envOf s) m i = if i = j.toNat then gr l a else readSw (envOf s) l i) ∧
     (∃ m, exec (.stsx a b j) s = .next (lanesNow s m) ∧ m.g = l.g ∧ m.outs = l.outs ∧
       ∀ i, readSw (envOf s) m i =
         if i = (((j.toNat : Int) + gi l b / 65536) % 64).toNat then gr l a else readSw (envOf s) l i) ∧
     (p.toNat ≤ 3 → ∃ m, exec (.cleOut a p) s = .next (lanesNow s m) ∧ m.g = l.g ∧ m.buf = l.buf ∧
       ∀ q, q < 4 → vget m.outs q = if q = p.toNat then some (gr l a) else vget l.outs q)) ∧
  (∀ (s : State) (a b : Reg) (cc n : BitVec 3) (m1 : BitVec 4) (k1 : BitVec 6), SlotRuns s → s.slot.a.rep = none →
     let l := s.slot.a
     exec .cleNop s = .next (lanesNow s { l with ip := l.ip + 1 }) ∧
     exec .cleEnd s = .next (lanesNow s { l with ip := l.ip + 1, ended := true }) ∧
     exec (.rep m1 k1) s =
       .next (lanesNow s { l with ip := l.ip + 1, rep := some { start := l.ip + 1, len := m1.toNat + 1, left := k1.toNat } }) ∧
     (cc.toNat ≤ 5 → n ≠ 0 → exec (.skipif a b cc n) s =
       .next (lanesNow s { l with ip := l.ip + 1, skip := if condHolds cc (gi l a) (gi l b) then n.toNat else 0 })))

/-- A skipped word takes no cycle and has no effect (R161), whatever well-formed CLE instruction it is; of the state only the
two lanes' pointers and skip counts change. A REP body of m words runs its k iterations back to back (R161): k · m words from
its start leave the pointer behind the body with no repetition left, and no word before that lies outside it. -/
def Obligations.CleSkipsAndRepeats : Prop :=
  (∀ (i : Instr) (f : ClEnv → LaneCtx → ClEff) (s : State), cleEff i = some f → i.wf = true →
     s.slot.mismatch = none → s.slot.cycle ≤ 37 → s.slot.a = s.slot.b → s.slot.a.ended = false → s.slot.a.skip ≠ 0 →
     (∀ d idx, i = .ldc d idx → idx.toNat < (constsOf s s.slot.dom).length) →
     let l := { advance s.slot.a with skip := s.slot.a.skip - 1 }
     exec i s = .next { s with slot := { s.slot with a := l, b := l } }) ∧
  (∀ (l : LaneCtx) (start m k : Nat), 0 < m → 0 < k → l.ip = start →
     l.rep = some { start := start, len := m, left := k - 1 } →
     Nat.iterate advance (k * m) l = { l with ip := start + m, rep := none } ∧
     ∀ j, j < k * m → (Nat.iterate advance j l).ip = start + j % m)

/-- A disagreement of the two lanes (R168): an instruction whose register value differs between them is a mismatch of that
cycle. The lane serving the position is retired, a LOCKSTEP message is queued, and nothing outside the slot, the lanes and the
collector changes. -/
def Obligations.CleMismatch : Prop :=
  ∀ (s : State) (d a : Reg), s.slot.mismatch = none → s.slot.cycle ≤ 37 →
    s.slot.a.ended = false → s.slot.b.ended = false → s.slot.a.skip = 0 → s.slot.b.skip = 0 →
    gr s.slot.a a ≠ gr s.slot.b a → s.safety.queue.length ≤ 768 →
    ∀ lane : Fin 17, vget s.laneOf s.slot.pos = some lane →
    Answers (.mov d a) s (fun t =>
      t.slot.mismatch = some s.slot.cycle ∧ (vget t.lanes lane.val).retired = true ∧
      (∃ q, t.safety.queue.getLast? = some q ∧ fKindOf q.bits = 0x11 ∧ fUnit q.bits = 0x2 ∧ fInst q.bits = lane.val ∧
        fClass q.bits ≤ 1) ∧
      t = { s with slot := t.slot, lanes := t.lanes, mism := t.mism, safety := t.safety })

/-! ### Ports, rings and interrupts (chapter 13) -/

/-- A command doorbell (R292): a tail T' below 2S with (T' − T) mod 2S ≤ S − (T − C) mod 2S becomes the producer index; any
other value changes no ring, sets DBERR and queues PORT_ERR. The consumer doorbells (R292): a head H' below 2S with (H' − H) mod
2S ≤ (P − H) mod 2S frees the entries before it, and an invalid one sets DBERR and queues PORT_ERR with the ring's number. An
EVQ doorbell also lets the overflow record and then the backlog, oldest first, drain into the room that it makes (R298, R326); with
neither waiting, no more than the ring changes. -/
def Obligations.Doorbells : Prop :=
  (∀ (p : PortNo) (val : Word) (t : Nat) (s : State), bellHeard (now t s) p 0 = true →
     let s0 := ackWrite (now t s)
     let r := ringOf (portOf s p) 0
     let S : Nat := 2 ^ r.log2.toNat
     let tail : Nat := val.toNat % 2 ^ 17
     (tail < 2 * S ∧ ((tail : Int) - r.db) % (2 * S) ≤ S - ((r.db : Int) - r.cons) % (2 * S) →
       exec (.dbCqTail p val t) s =
         .next (setPort s0 p (fun P => setRing P 0 (fun r => { r with db := tail, prod := tail })))) ∧
     (¬(tail < 2 * S ∧ ((tail : Int) - r.db) % (2 * S) ≤ S - ((r.db : Int) - r.cons) % (2 * S)) →
       exec (.dbCqTail p val t) s =
         .next (raise (setPort s0 p (fun P => { P with dbErr := true })) 0 0x52 0x0 p (3 * 2 ^ 28 + tail)))) ∧
  (∀ (p : PortNo) (val : Word) (t : Nat) (s : State) (k : Fin 4), k ≠ 0 → bellHeard (now t s) p k = true →
     (portOf s p).backlog = [] → (portOf s p).ovfDrops = 0 → (portOf s p).ovfOpen = false →
     let s0 := ackWrite (now t s)
     let r := ringOf (portOf s p) k
     let S : Nat := 2 ^ r.log2.toNat
     let head : Nat := val.toNat % 2 ^ 17
     let row : Instr := if k = 1 then .dbCplHead p val t else if k = 2 then .dbEvqHead p val t else .dbTrqHead p val t
     (head < 2 * S ∧ ((head : Int) - r.db) % (2 * S) ≤ ((r.prod : Int) - r.db) % (2 * S) →
       exec row s = .next (setPort s0 p (fun P => setRing P k (fun r => { r with db := head, cons := head })))) ∧
     (¬(head < 2 * S ∧ ((head : Int) - r.db) % (2 * S) ≤ ((r.prod : Int) - r.db) % (2 * S)) →
       exec row s = .next (raise (setPort s0 p (fun P => { P with dbErr := true })) 0 0x52 0x0 p
         (3 * 2 ^ 28 + k * 2 ^ 26 + head)))) ∧
  (∀ (p : PortNo) (val : Word) (t : Nat) (s : State), bellHeard (now t s) p 2 = true → (portOf s p).fabErr = false →
     let P := portOf s p
     let r := ringOf P 2
     let S : Nat := 2 ^ r.log2.toNat
     let head : Nat := val.toNat % 2 ^ 17
     let lost : Event := { typ := 0x04, dom := 0xFE, cls := 0, epoch := epochIn (now t s),
                           pay := leBytes 4 P.ovfDrops ++ zeros 4 ++ leBytes 8 P.ovfFirst ++ leBytes 8 P.ovfLast }
     let records := (if P.ovfDrops = 0 then [] else [lost]) ++ P.backlog
     let room : Nat := S - (((r.prod : Int) - head) % (2 * S)).toNat - P.evWait.length
     head < 2 * S → ((head : Int) - r.db) % (2 * S) ≤ ((r.prod : Int) - r.db) % (2 * S) → 0 < room →
     Answers (.dbEvqHead p val t) s (fun u =>
       let Q := portOf u p
       Q.evWait = P.evWait ++ records.take room ∧ Q.backlog = records.drop room ∧
       Q.ovfDrops = 0 ∧ (Q.ovfOpen = true ↔ Q.backlog ≠ [] ∧ (P.ovfDrops ≠ 0 ∨ P.ovfOpen = true)) ∧
       Q = { setRing P 2 (fun r => { r with db := head, cons := head }) with
         evWait := Q.evWait, backlog := Q.backlog, ovfDrops := 0, ovfFirst := Q.ovfFirst, ovfLast := Q.ovfLast, ovfOpen := Q.ovfOpen } ∧
       (∀ q : Fin 8, q ≠ p → portOf u q = portOf s q) ∧ u = { ackWrite (now t s) with ports := u.ports }))

/-- A claim (R311, R313): a target without a claim reads the lowest eligible source, holds it, loses its software-set latch and
starts the group's hold-off timer of `DG.INT_HOLDOFFg` × 128 ns; with none eligible it reads 0x3FF and holds nothing; a target
with a claim reads it again and nothing changes. The line of a target with a claim is low. A control reset in progress lets nothing
new be claimed (R365). DONE (R312), the end of a hold-off
(R313) and the software-set latches (R314): the claimed number ends the claim and any other value leaves it and sets IRQERR; an
expired timer stops; a written 1 sets the latch of its source and no latch clears. -/
def Obligations.Interrupts : Prop :=
  (∀ (tgt : Fin 9) (t : Nat) (s : State), s.clk.pwrCur ≠ 2 →
     let s0 := now t s
     (∀ c, claimOf s tgt = some c → irqLine s tgt = false ∧
       exec (.irqClaim tgt t) s = .next { s0 with resp := { err := false, data := BitVec.ofNat 32 c.val } }) ∧
     (claimOf s tgt = none → s.clk.crstBusy = true ∨ (∀ src < 256, srcEligible s0 tgt src = false) →
       exec (.irqClaim tgt t) s = .next { s0 with resp := { err := false, data := 0x3FF } }) ∧
     (claimOf s tgt = none → s.clk.crstBusy = false → ∀ src : Fin 256, srcEligible s0 tgt src = true → (∀ j < src.val, srcEligible s0 tgt j = false) →
       Answers (.irqClaim tgt t) s (fun u =>
         u.resp = { err := false, data := BitVec.ofNat 32 src.val } ∧ claimOf u tgt = some src ∧ irqLine u tgt = false ∧
         (∀ j < 256, u.irq.swset.getLsbD j = (s.irq.swset.getLsbD j && j != src.val)) ∧
         holdTimer u tgt (src.val / 16) =
           (let h := (vget s.irq.hold (src.val / 16)).toNat
            if h = 0 then holdTimer s tgt (src.val / 16) else some (s0.time.run + 128 * h)) ∧
         (∀ (q : Fin 9) (j : Fin 16), (q, j.val) ≠ (tgt, src.val / 16) → holdTimer u q j = holdTimer s q j) ∧
         (let s1 := setClaim s0 tgt (some src)
          u = { s1 with resp := u.resp, irq := { s1.irq with swset := u.irq.swset, timers := u.irq.timers } })))) ∧
  (∀ (p : PortNo) (g : Fin 16) (k : Fin 8) (val : Word) (t : Nat) (s : State) (c : Fin 256),
     pageOpen s = true → (portOf s p).claim = some c → s.mc.gated = false →
     let tgt : Fin 9 := p.castSucc
     (val.toNat % 2 ^ 10 = c.val →
       exec (.irqDone tgt val t) s = .next (setPort (ackWrite (now t s)) p (fun P => { P with claim := none }))) ∧
     (val.toNat % 2 ^ 10 ≠ c.val →
       exec (.irqDone tgt val t) s = .next (setPort (ackWrite (now t s)) p (fun P => { P with irqErr := true }))) ∧
     Answers (.holdoffExpire tgt g t) s (fun u => holdTimer u tgt g = none ∧
       (∀ (q : Fin 9) (j : Fin 16), (q, j) ≠ (tgt, g) → holdTimer u q j = holdTimer s q j) ∧
       u = { now t s with irq := u.irq }) ∧
     Answers (.intSwset k val t) s (fun u =>
       (∀ j < 256, u.irq.swset.getLsbD j = (s.irq.swset.getLsbD j || (j / 32 == k.val && val.getLsbD (j % 32)))) ∧
       u = { ackWrite (now t s) with irq := { s.irq with swset := u.irq.swset } }))

/-- A waiting entry is written (R293, R297, Table 14-3): the oldest completion or event of a port leaves for its ring's producer
slot with PHASE 1 in the first half of the index range and 0 in the second, and the index moves on modulo 2S. What the fabric
answers (R24, R33, R294, R342): an acknowledged ring write moves the index its interrupt source compares with the doorbell, the
acknowledgement of a command's last output makes its completion wait, either lets output that waits for room into the queue; a fabric
error disables the port's four rings, drops its unwritten entries and output, shows FABERR with the ring, and queues PORT_ERR as
contained with reason 2. -/
def Obligations.RingTraffic : Prop :=
  (∀ (p : PortNo) (t : Nat) (s : State),
     (∀ c rest, (portOf s p).cplWait = c :: rest → canWrite (now t s) p 1 = true →
       let r := ringOf (portOf s p) 1
       let S : Nat := 2 ^ r.log2.toNat
       Answers (.completionPost p t) s (fun u =>
         (∃ w, u.wq = s.wq ++ [w] ∧ w.port = p ∧ w.ring = some .cpl ∧ w.addr = r.base + BitVec.ofNat 64 (r.prod % S * 16) ∧
           w.data = leBytes 4 (c.tag.toNat + c.status.toNat * 2 ^ 16 + (if r.prod < S then 2 ^ 31 else 0)) ++
             leBytes 4 c.seq.toNat ++ leBytes 4 (if c.atWrite then epochNow (now t s) else c.epoch).toNat ++ leBytes 4 c.result.toNat) ∧
         u = { setPort (now t s) p (fun P => setRing { P with cplWait := rest, resv := P.resv - 1 } 1
           (fun x => { x with prod := (x.prod + 1) % (2 * S) })) with wq := u.wq })) ∧
     (∀ e rest, (portOf s p).evWait = e :: rest → (portOf s p).en = true → canWrite (now t s) p 2 = true →
       let r := ringOf (portOf s p) 2
       let S : Nat := 2 ^ r.log2.toNat
       Answers (.eventPost p t) s (fun u =>
         (∃ w, u.wq = s.wq ++ [w] ∧ w.port = p ∧ w.ring = some .evq ∧ w.addr = r.base + BitVec.ofNat 64 (r.prod % S * 32) ∧
           w.data = leBytes 4 (e.typ.toNat + e.dom.toNat * 2 ^ 8 + e.cls.toNat * 2 ^ 16 + (if r.prod < S then 2 ^ 31 else 0)) ++
             leBytes 4 e.epoch.toNat ++ slice e.pay 0 24) ∧
         u = { setPort (now t s) p (fun P => setRing { P with evWait := rest } 2
           (fun x => { x with prod := (x.prod + 1) % (2 * S) })) with wq := u.wq }))) ∧
  (∀ (p : PortNo) (id : RingId) (idx : BitVec 17) (t : Nat) (s : State),
     (∀ w rest, s.wq = w :: rest →
       let room := 64 - (rest.map (fun x => Nat.max 1 ((x.data.length + 63) / 64))).sum
       let fed : State := { now t s with wq := rest ++ s.outQ.take room, outQ := s.outQ.drop room }
       (w.port = p → w.ring = some id → w.cpl = [] → exec (.writeAck t) s = .next (setPort fed p
         (fun P => setRing P (ringNo id) (fun r => { r with acked := w.prod })))) ∧
       (∀ c, w.port = p → w.ring = none → w.cpl = [(c, false)] → c.isFinal = true → exec (.writeAck t) s = .next (setPort fed p
         (fun P => { P with cplWait := P.cplWait ++ [c], resv := P.resv - 1 })))) ∧
     Answers (.fabricError p id idx t) s (fun u =>
       (∀ r : Fin 4, ringOf (portOf u p) r = { ringOf (portOf s p) r with en := false }) ∧ (∀ w ∈ u.wq, w.port ≠ p) ∧
       u.wq ++ u.outQ = (s.wq ++ s.outQ).filter (fun w => decide (w.port ≠ p)) ∧
       u.ports = (setPort s p (fun P => { P with rings := (portOf u p).rings, fabErr := true,
                                                 failRing := BitVec.ofNat 2 (ringNo id) })).ports ∧
       u.safety.queue = s.safety.queue ++ [{ bits := faultWord 1 0x52 0 p.val (2 * 2 ^ 28 + ringNo id * 2 ^ 26 + idx.toNat)
                                                       (epochIn (now t s)), from_ := none, ext := 0 }] ∧
       u = { now t s with wq := u.wq, outQ := u.outQ, ports := u.ports, safety := { s.safety with queue := u.safety.queue } }))

/-- A write of RING_EN (R291, R292, R298), ring by ring: a cleared bit disables the ring; a set bit enables a disabled ring of LOG2 6 to
16, CQ only beside CPL, with P, C and the doorbell at 0, keeps an enabled one, and otherwise leaves the ring disabled with CFGERR.
An event ring enabled with fewer slots than records that wait for it sends the rest back to the backlog. Clearing CPL while a command
of the port awaits its completion changes no ring and sets CFGERR. Only this port and the ring of its
queued writes change; with no backlog waiting, only the rings, CFGERR and the expected sequence of the port. -/
def Obligations.RingEnables : Prop :=
  ∀ (p : PortNo) (val : Word) (t : Nat) (s : State), pageOpen s = true →
    let P := portOf s p
    let quiet := P.backlog = [] ∧ P.ovfDrops = 0 ∧ P.ovfOpen = false
    let inRange := fun r : Nat => 6 ≤ (ringOf P r).log2.toNat ∧ (ringOf P r).log2.toNat ≤ 16
    let cpl := val.getLsbD 1 = true ∧ ((ringOf P 1).en = true ∨ inRange 1)
    let others := fun u : State => ∀ q : Fin 8, q ≠ p → portOf u q = portOf s q
    ((ringOf P 1).en = true → val.getLsbD 1 = false → awaiting s p = true → Answers (.ringEn p val t) s (fun u =>
      (portOf u p).rings = P.rings ∧ (portOf u p).cfgErr = true ∧ others u ∧ u = { ackWrite (now t s) with ports := u.ports } ∧
      (quiet → portOf u p = { P with cfgErr := true }))) ∧
    ((ringOf P 1).en = false ∨ val.getLsbD 1 = true ∨ awaiting s p = false → Answers (.ringEn p val t) s (fun u =>
      (∀ r : Fin 4, let x := ringOf P r
        let y := ringOf (portOf u p) r
        (val.getLsbD r = false → y = { x with en := false }) ∧
        (val.getLsbD r = true → x.en = true → y = x) ∧
        (val.getLsbD r = true → x.en = false → inRange r ∧ (r = 0 → cpl) → y = { x with en := true, prod := 0, cons := 0, db := 0, acked := 0 }) ∧
        (val.getLsbD r = true → x.en = false → ¬(inRange r ∧ (r = 0 → cpl)) → y = x ∧ (portOf u p).cfgErr = true)) ∧
      (∀ w ∈ s.wq, w.port ≠ p → w ∈ u.wq) ∧ u.wq.map (fun w => w.data) = s.wq.map (fun w => w.data) ∧
      others u ∧ u = { ackWrite (now t s) with ports := u.ports, wq := u.wq } ∧
      (val.getLsbD 2 = true → (ringOf P 2).en = false → inRange 2 → 2 ^ (ringOf P 2).log2.toNat < P.evWait.length →
        (portOf u p).evWait = P.evWait.take (2 ^ (ringOf P 2).log2.toNat) ∧
        (portOf u p).backlog = P.evWait.drop (2 ^ (ringOf P 2).log2.toNat) ++ P.backlog) ∧
      (quiet → ((ringOf P 2).en = false → P.evWait.length ≤ 2 ^ (ringOf P 2).log2.toNat) → portOf u p = { P with rings := (portOf u p).rings, cfgErr := (portOf u p).cfgErr, seqExp := (portOf u p).seqExp })))

/-- A port reset is requested by 0xA5 and by clearing EN of an enabled port (R287, R300): it falls due at the first shutter at least
1,000 ns later, an earlier request keeps its time, and the target's claim ends. P0 keeps its enable whatever is written, and a port
that is disabled already only takes the new event enables. In DEEP and during a control reset neither write has an effect (R362,
R365). -/
def Obligations.PortResetRequested : Prop :=
  ∀ (p : PortNo) (val : Word) (t : Nat) (s : State),
    let g := Nat.max s.time.gtc t
    let a := ackWrite (now t s)
    let due := fun x : Nat => match (portOf s p).rstAt with
      | some y => x = y
      | none => 2000 ∣ x ∧ g + 1000 ≤ x ∧ x < g + 3000
    let events := fun P : Port => { P with evFatal := val.getLsbD 3, evCont := val.getLsbD 2, evCorr := val.getLsbD 1 }
    (pageOpen s = true → val.toNat % 256 = 0xA5 →
      ∃ x, due x ∧ exec (.portReset p val t) s = .next (setPort a p (fun P => { P with rstAt := some x, claim := none }))) ∧
    (pageOpen s = false ∨ val.toNat % 256 ≠ 0xA5 → exec (.portReset p val t) s = .next a) ∧
    (val.getLsbD 0 = false →
      (setupOpen s = true → p ≠ 0 → (portOf s p).en = true → ∃ x, due x ∧
        exec (.portDisable p val t) s = .next (setPort a p (fun P => { events P with en := false, rstAt := some x, claim := none }))) ∧
      (setupOpen s = true → p ≠ 0 → (portOf s p).en = false → exec (.portDisable p val t) s = .next (setPort a p events)) ∧
      (setupOpen s = true → p = 0 → exec (.portDisable p val t) s = .next (setPort a 0 (fun P => { events P with en := true }))) ∧
      (setupOpen s = false → exec (.portDisable p val t) s = .next a))

/-- A bad access (R30): an error response reading 0, PORT_ERR with the page or 0x08 as instance, and nothing else. The latched
reads (R415): a read of a low register answers the low word and latches the high word, which the high register then reads on the
path that read it, while the other path's high register reads as before; from reset every high register reads 0. GTC reads 0
until GTC_VLD has first risen (R420). -/
def Obligations.AccessesAndLatchedReads : Prop :=
  (∀ (page : Option PortNo) (o : BitVec 17) (w : Bool) (t : Nat) (s : State), s.safety.queue.length ≤ 768 →
     let inst := match page with | some p => p.val | none => 0x08
     exec (.badAccess page o w t) s =
       .next { now t s with
         resp := { err := true, data := 0 },
         safety := { s.safety with queue := s.safety.queue ++
           [{ bits := faultWord 0 0x52 0 inst (2 ^ 28 + o.toNat) (epochIn (now t s)), from_ := none, ext := 0 }] } }) ∧
  ((∀ path : Path, readReg State.reset 0x0020 path = 0 ∧ readReg State.reset 0x002C path = 0 ∧ readReg State.reset 0x0D14 path = 0) ∧
   ∀ (path : Path) (t : Nat) (s : State), s.clk.pwrCur ≠ 2 →
     let other : Path := match path with | .owner => .mc | .mc => .owner
     Answers (.cseqLoRead path t) s (fun u =>
       u.resp = { err := false, data := s.cseq.setWidth 32 } ∧ readReg u 0x002C path = (s.cseq >>> 32).setWidth 32 ∧
       readReg u 0x002C other = readReg s 0x002C other ∧
       u = { now t s with resp := u.resp, time := { (now t s).time with cseqHi := u.time.cseqHi } }) ∧
     Answers (.fltLastLoRead path t) s (fun u =>
       u.resp = { err := false, data := s.safety.last.setWidth 32 } ∧
       readReg u 0x0D14 path = (s.safety.last >>> 32).setWidth 32 ∧
       readReg u 0x0D14 other = readReg s 0x0D14 other ∧
       u = { now t s with resp := u.resp, time := { (now t s).time with fltHi := u.time.fltHi } }) ∧
     Answers (.gtcLoRead path t) s (fun u =>
       let g := if s.time.everVld then Nat.max s.time.gtc t else 0
       u.resp = { err := false, data := BitVec.ofNat 32 g } ∧ readReg u 0x0020 path = BitVec.ofNat 32 (g / 2 ^ 32) ∧
       readReg u 0x0020 other = readReg s 0x0020 other ∧
       u = { now t s with resp := u.resp, time := { (now t s).time with gtcHi := u.time.gtcHi } }))

/-! ### Faults, the safe state and the watchdog (chapter 16) -/

/-- What the collector does with a message it takes (R372, R373): it counts the kind, updates FLT_COUNT and FLT_LAST, sets the
latched source of the class and unit and, if not corrected, that of a named domain, and leaves every domain, configuration and
record alone. Entering the safe state (R375, R376): a fatal message, and with ESC_EN a contained one of kind ESC_KIND, which is
collected with the fatal class and even parity, sets SAFE with its kind and source, drives SAFE_STAT low in pulse mode with
LEVEL 0, marks every accepted command to complete REFUSED_STATE at the next shutter, and discharges every domain that is neither
DARK nor ABSENT and reports its DARK, a pair through its even member, unless forced clocks keep every link dark (R360). While a
control reset holds the collector nothing is taken (R365). -/
def Obligations.FaultMessages : Prop :=
  (∀ (t : Nat) (s : State) (q : FaultMsg) (rest : List FaultMsg), s.clk.crstBusy = false →
     (s.safety.escEn = false ∨ fClass q.bits ≠ 1 ∨ fKindOf q.bits ≠ s.safety.escKind.toNat) →
     s.safety.queue = q :: rest → fClass q.bits ≤ 2 →
     Answers (.faultMessage t) s (fun u =>
       (∀ k < 256, vget u.safety.kinds k = vget s.safety.kinds k + (if k = fKindOf q.bits then 1 else 0)) ∧
       u.safety.last = q.bits ∧ u.safety.nDrop.toNat ≥ s.safety.nDrop.toNat ∧
       u.safety.nFatal.toNat = (if fClass q.bits = 2 then Nat.min 0xFF (s.safety.nFatal.toNat + 1) else s.safety.nFatal.toNat) ∧
       u.safety.nCont.toNat = (if fClass q.bits = 1 then Nat.min 0xFFF (s.safety.nCont.toNat + 1) else s.safety.nCont.toNat) ∧
       u.irq.latched.getLsbD ((if fClass q.bits = 2 then 0 else if fClass q.bits = 1 then 32 else 48) + fUnit q.bits) = true ∧
       (∀ d, namedDom q.bits = some d → fClass q.bits ≠ 0 → u.irq.latched.getLsbD (128 + d) = true) ∧
       (∀ j, s.irq.latched.getLsbD j = true → u.irq.latched.getLsbD j = true) ∧
       (fClass q.bits ≠ 2 → u.safety.safe = s.safety.safe) ∧
       (fClass q.bits ≠ 2 ∨ s.safety.safe = true → u.dom = s.dom) ∧ u.cfg = s.cfg ∧ u.records = s.records ∧ u.therm = s.therm ∧ u.meter = s.meter ∧ u.time = (now t s).time)) ∧
  (∀ (t : Nat) (s : State) (q : FaultMsg) (rest : List FaultMsg), s.clk.crstBusy = false →
     s.safety.queue = q :: rest → s.safety.safe = false →
     fClass q.bits = 2 ∨ (s.safety.escEn = true ∧ fClass q.bits = 1 ∧ fKindOf q.bits = s.safety.escKind.toNat) →
     Answers (.faultMessage t) s (fun u =>
       u.safety.safe = true ∧ fClass u.safety.last = 2 ∧ u.safety.last.extractLsb' 2 60 = q.bits.extractLsb' 2 60 ∧
       (fClass q.bits = 2 → u.safety.last = q.bits) ∧
       (fClass q.bits = 1 → ((List.range 64).countP (fun i => u.safety.last.getLsbD i)) % 2 = 0) ∧ u.safety.fKind.toNat = fKindOf q.bits ∧
       u.safety.fSrc.toNat = fUnit q.bits * 256 + fInst q.bits ∧
       u.safety.hbMode = false ∧ u.safety.level = false ∧ u.safety.pin = false ∧
       (∃ till, u.safety.pulseTo = some till ∧ u.time.run + 61035 ≤ till) ∧
       (∀ c ∈ u.cmds, c.stage = .accepted → c.refuse = true ∧ c.shutter = 2000 * (u.time.gtc / 2000 + 1)) ∧
       (s.clk.lost = false ∨ s.clk.ccur = 1 → ∀ d : Dom, (vget s.dom d).state ≠ .dark → (vget s.dom d).state ≠ .absent →
         (vget s.dom d).pair ≠ .odd → (∃ x ∈ u.ints, x.dom = d ∧ x.what = .dark false ∧ x.at_ = u.time.gtc) ∧
           ((vget s.dom d).tr.ph ≠ .discharge → Discharging (domOf u d) u.time.gtc)) ∧
       (∀ d : Dom, (vget s.dom d).state = .dark ∨ (vget s.dom d).state = .absent →
         (∀ e : Dom, d.val ∈ membersOf s e → e = d) → vget u.dom d = vget s.dom d) ∧
       (s.clk.lost = true → s.clk.ccur ≠ 1 → u.dom = s.dom) ∧ u.cfg = s.cfg)) ∧
  (∀ (t : Nat) (s : State), s.clk.crstBusy = true → exec (.faultMessage t) s = .next (now t s))

/-- SAFE_STAT (R378, R379, Tables 16-13 and 16-15): a write of heartbeat mode is ignored in the safe state, heartbeat mode is left
only with KEY 0x3C, LEVEL 1 is ignored in the safe state, and while a pulse runs the pin keeps it; the pin toggles in heartbeat mode
while XB runs, and takes LEVEL after a pulse; CLR of FLT_CFG clears the counts and the last message. Only the collector's fields
change. -/
def Obligations.SafeStatPin : Prop :=
  ∀ (val : Word) (t : Nat) (s : State), s.clk.crstBusy = false →
    let s0 := ackWrite (now t s)
    let lv := if val.getLsbD 1 && s.safety.safe then s.safety.level else val.getLsbD 1
    (val.getLsbD 0 = true → s.safety.safe = true →
      exec (.safeModeWrite val t) s = .next s0) ∧
    (val.getLsbD 0 = true → s.safety.safe = false →
      exec (.safeModeWrite val t) s =
        .next { s0 with safety := { s.safety with cont := val.getLsbD 2, level := lv, hbMode := true, hb := true } }) ∧
    (val.getLsbD 0 = false → s.safety.hbMode = true → val.toNat / 256 % 256 ≠ 0x3C → exec (.safeModeWrite val t) s = .next s0) ∧
    (val.getLsbD 0 = false → s.safety.hbMode = true → val.toNat / 256 % 256 = 0x3C →
      exec (.safeModeWrite val t) s = .next { s0 with
        safety := { s.safety with cont := val.getLsbD 2, level := lv, hbMode := false, hb := false, pin := lv } }) ∧
    (val.getLsbD 0 = false → s.safety.hbMode = false → s.safety.pulseTo = none →
      exec (.safeModeWrite val t) s =
        .next { s0 with safety := { s.safety with cont := val.getLsbD 2, level := lv, pin := lv } }) ∧
    (val.getLsbD 0 = false → s.safety.hbMode = false → s.safety.pulseTo ≠ none →
      exec (.safeModeWrite val t) s = .next { s0 with safety := { s.safety with cont := val.getLsbD 2, level := lv } }) ∧
    (s.safety.hbMode = true → s.safety.safe = false → vget s.clk.run 6 = true →
      exec (.heartbeatToggle t) s = .next { now t s with safety := { s.safety with pin := !s.safety.pin } }) ∧
    (s.safety.safe = true ∨ vget s.clk.run 6 = false → exec (.heartbeatToggle t) s = .next (now t s)) ∧
    (∀ x, s.safety.pulseTo = some x →
      (x ≤ s0.time.run → s.safety.hbMode = false →
        exec (.safePulseEnd t) s = .next { now t s with safety := { s.safety with pulseTo := none, pin := s.safety.level } }) ∧
      (s0.time.run < x → exec (.safePulseEnd t) s = .next (now t s))) ∧
    (val.getLsbD 31 = true → s.clk.pwrCur ≠ 2 →
      exec (.fltCfgClr val t) s = .next { s0 with
        safety := { s.safety with jcorr := val.getLsbD 9, escEn := val.getLsbD 8, escKind := val.extractLsb' 0 8,
                                  nFatal := 0, nCont := 0, nDrop := 0, last := 0 } })

/-- Power failure (R46, R57, R365, R393, R394): PFAIL is queued as fatal from unit 0xE with the mode fields in force, and enters the safe
state at once while a control reset holds the collector; an S3 record stamped with this GTC joins the strata queue when the log is
available, suspending an erase in progress, and a page program where the device declares that and PSUSP_EN is set; a program that cannot be
suspended finishes first. The pin's rise starts the 10 ms of R377; the finished record leaves the queue and suspended work is resumed;
while DG_POR_N is low the pin is ignored. The strata writer (R389, R390, R392): a verified record leaves the queue, stands at its stratum's
head as header, payload and CRC, and moves the head, behind a block whose erase failed; the erased blocks that the head needs are made by erasing
the oldest one, whose records are retired; a first failure is retried in the next slot or on the next block, a second raises NOR_ERR as
contained for the stratum with the address and gives up, and the third within 1 s makes the log unavailable; the MC's lifetime record is
queued for S1. -/
def Obligations.PowerFailAndStrata : Prop :=
  let blk := fun k : Fin 4 => if k = 3 then 64 else 256
  let base := fun k : Fin 4 => if k = 0 then 0 else if k = 1 then 0x100000 else if k = 2 then 0x500000 else 0x3D00000
  let slots := fun k : Fin 4 => if k = 0 then 0x1000 else if k = 1 then 0x4000 else if k = 2 then 0x38000 else 0x800
  let addr := fun (k : Fin 4) (n : Nat) => base k + n % slots k * (if k = 3 then 1024 else 256)
  let passes := fun (s u : State) (k : Fin 4) => let h := vget s.strata.heads k + 1
    ((k, h) ∉ s.strata.spoiled → u.strata.heads = vset s.strata.heads k h) ∧
    ((k, h) ∈ s.strata.spoiled → (k, h + blk k) ∉ s.strata.spoiled → u.strata.heads = vset s.strata.heads k (h + blk k))
  let block := fun (s : State) (k : Fin 4) => vget s.strata.oldest k / blk k * blk k
  let needs := fun (s u : State) (k : Fin 4) =>
    block s k + slots k < (vget u.strata.heads k / blk k + Nat.max 1 s.strata.ahead.toNat) * blk k
  let renewed := fun s u : State => s.strata.spoiled = [] →
    (u.strata.erasing = none ∧ u.strata.oldest = s.strata.oldest ∧ ∀ k : Fin 4, k ≠ 0 → ¬needs s u k) ∨
    ∃ k : Fin 4, k ≠ 0 ∧ needs s u k ∧ u.strata.erasing = some (k, block s k + slots k) ∧
      u.strata.oldest = vset s.strata.oldest k (block s k + blk k)
  let erased := fun s u : State =>
    (s.strata.erasing ≠ none → u.strata.erasing = s.strata.erasing ∧ u.strata.oldest = s.strata.oldest) ∧
    (s.strata.erasing = none → s.strata.avail = true → u.strata.lbBusy = false → renewed s u)
  let programmed := fun (s u : State) (r : StrataRec) => passes s u r.stratum ∧ erased s u ∧
    u.strata.wrote = some (addr r.stratum (vget s.strata.heads r.stratum), recordPage s.strata.boots r)
  let writer := fun s u : State => { s.strata with
    queue := u.strata.queue, heads := u.strata.heads, wrote := u.strata.wrote, oldest := u.strata.oldest, erasing := u.strata.erasing,
    issued := u.strata.issued, spoiled := u.strata.spoiled }
  let norErr := fun (s : State) (k : Fin 4) (n : Nat) => s.safety.queue ++
    [{ bits := faultWord 1 0x60 0xB k (addr k n / 64 * 64) (epochIn s), from_ := none, ext := 0 }]
  (∀ (t : Nat) (s : State),
     (s.safety.porHigh = false → exec (.pfail t) s = .next (now t s)) ∧
     (s.safety.porHigh = true → s.safety.pfailLow = false →
       Answers (.pfail t) s (fun u =>
         u.safety.pfailLow = true ∧
         u.safety.queue = s.safety.queue ++
           [{ bits := faultWord 2 0x63 0xE 0 (modeShown s) (epochIn (now t s)), from_ := none, ext := 0 }] ∧
         (s.strata.avail = true → ∃ r, u.strata.queue = s.strata.queue ++ [r] ∧ r.stratum = 3 ∧ r.typ = 0x0201 ∧
           r.gtc = (if s.time.everVld then Nat.max s.time.gtc t else 0) ∧ u.strata.lbBusy = true ∧
           (s.strata.lbBusy = false → s.strata.erasing = none → s.strata.queue = [] → u.strata.lbWait = false) ∧
           (s.strata.lbBusy = false → s.strata.erasing = none → ∀ x rest, s.strata.queue = x :: rest → x.stratum ≠ 3 →
             (u.strata.lbWait = false ↔ s.strata.psuspEn = true ∧ ∃ v y, s.strata.dev = some v ∧ v.psusp = some y)) ∧
           (s.strata.lbBusy = false → s.strata.queue = [] → ∀ e v y, s.strata.erasing = some e → e.1 ≠ 3 → s.strata.dev = some v → v.esusp = some y →
             u.strata.lbWait = false ∧ u.strata.issued = [y.suspend])) ∧
         (s.strata.avail = false → u.strata = s.strata) ∧
         (s.clk.crstBusy = true → u.safety.safe = true ∧ u.safety.pin = false) ∧
         (s.clk.crstBusy = false →
           u = { now t s with safety := { s.safety with queue := u.safety.queue, pfailLow := true, pfailUp := none }, strata := u.strata }))) ∧
     (s.safety.pfailLow = true →
       exec (.pfailNRise t) s = .next { now t s with safety := { s.safety with pfailLow := false, pfailUp := some (now t s).time.run } }) ∧
     (∀ r rest, s.strata.lbBusy = true → s.strata.queue = r :: rest → r.stratum = 3 → (∀ x ∈ rest, x.stratum ≠ 3) →
       (s.strata.lbWait = true → exec (.lastBreathDone t) s = .next (now t s)) ∧
       (s.strata.lbWait = false → Answers (.lastBreathDone t) s (fun u => programmed s u r ∧ u.strata.queue = rest ∧
         (∀ e v y, rest = [] → s.strata.erasing = some e → s.strata.dev = some v → v.esusp = some y → y.resume ∈ u.strata.issued) ∧
         u = { now t s with strata := { writer s u with lbBusy := false, lbRetried := false } })) ∧
       (s.strata.lbWait = false → s.strata.avail = true →
         exec (.strataWriteDone true t) s = .next (now t s) ∧
         (s.strata.lbRetried = false → Answers (.strataWriteDone false t) s (fun u => passes s u 3 ∧ u = { now t s with
           strata := { s.strata with heads := u.strata.heads, spoiled := u.strata.spoiled, issued := u.strata.issued, lbRetried := true } })) ∧
         (s.strata.lbRetried = true → s.strata.errAt = [] → Answers (.strataWriteDone false t) s (fun u =>
           passes s u 3 ∧ u.strata.queue = rest ∧ u.strata.lbBusy = false ∧ u.strata.avail = true ∧
           u = { now t s with strata := { s.strata with queue := rest, heads := u.strata.heads, spoiled := u.strata.spoiled, lbBusy := false,
                                                        lbRetried := false, errAt := u.strata.errAt },
                              safety := { s.safety with queue := norErr (now t s) 3 (vget s.strata.heads 3) } }))))) ∧
  (∀ (t : Nat) (s : State) (payload : List Byte), s.strata.avail = true → s.strata.lbBusy = false ∨ s.strata.lbWait = true →
     (∀ r rest, s.strata.queue = r :: rest → r.stratum ≠ 3 → (∀ e, s.strata.erasing = some e → e.1 ≠ r.stratum ∧ e.1 ≠ 3) →
       Answers (.strataWriteDone true t) s (fun u => programmed s u r ∧ u.strata.queue = rest ∧
         u = { now t s with strata := { writer s u with retried := false, lbWait := false } }) ∧
       (s.strata.retried = false → Answers (.strataWriteDone false t) s (fun u => passes s u r.stratum ∧ erased s u ∧
         u.strata.queue = s.strata.queue ∧ u.strata.wrote = s.strata.wrote ∧
         u = { now t s with strata := { writer s u with retried := true, lbWait := false } })) ∧
       (s.strata.retried = true → s.strata.errAt = [] →
         Answers (.strataWriteDone false t) s (fun u =>
           passes s u r.stratum ∧ u.strata.queue = rest ∧ u.strata.avail = true ∧ u.strata.wrote = s.strata.wrote ∧
           u = { now t s with strata := { writer s u with retried := false, lbWait := false, errAt := u.strata.errAt },
                              safety := { s.safety with queue := norErr (now t s) r.stratum (vget s.strata.heads r.stratum) } })) ∧
       (∀ a b, s.strata.retried = true → s.strata.errAt = [a, b] → (now t s).time.run < a + 1000000000 → (now t s).time.run < b + 1000000000 →
         Answers (.strataWriteDone false t) s (fun u => u.strata.avail = false ∧ u.strata.queue = [] ∧
           u.safety.queue = norErr (now t s) r.stratum (vget s.strata.heads r.stratum) ∧
           u = { now t s with strata := u.strata, safety := { s.safety with queue := u.safety.queue } }))) ∧
     (∀ (k : Fin 4) (b : Nat), s.strata.erasing = some (k, b) → s.strata.queue = [] → s.strata.lbBusy = false → k ≠ 0 →
       Answers (.strataWriteDone true t) s (fun u => renewed s u ∧ u.strata.heads = s.strata.heads ∧ u = { now t s with strata := { writer s u with eraseRetried := false, lbWait := false } }) ∧
       (s.strata.eraseRetried = false → Answers (.strataWriteDone false t) s (fun u =>
         u.strata.erasing = some (k, block s k + slots k) ∧ u.strata.oldest = vset s.strata.oldest k (block s k + blk k) ∧
         u.strata.spoiled = s.strata.spoiled ++ [(k, b)] ∧ u.strata.heads = s.strata.heads ∧
         u = { now t s with strata := { writer s u with eraseRetried := true, lbWait := false } })) ∧
       (s.strata.eraseRetried = true → s.strata.errAt = [] → Answers (.strataWriteDone false t) s (fun u =>
         u.strata.spoiled = s.strata.spoiled ++ [(k, b)] ∧ u.strata.heads = s.strata.heads ∧ u.strata.avail = true ∧
         u = { now t s with strata := { writer s u with eraseRetried := false, lbWait := false, errAt := u.strata.errAt },
                            safety := { s.safety with queue := norErr (now t s) k b } }))) ∧
     (mcRunning s = true → s.strata.queue.length < 16 →
       ∃ r : StrataRec, r.stratum = 1 ∧ r.typ = 0x0103 ∧ r.seq = s.strata.nextSeq ∧ r.pay = slice payload 0 64 ∧
         exec (.lifetimeCountersRecord payload t) s = .next { now t s with
           strata := { s.strata with queue := s.strata.queue ++ [r], nextSeq := s.strata.nextSeq + 1 } }))

/-- The watchdog (R381): in 32-XB-cycle units of 976,562.5 ns, a kick no earlier than OPEN and no later than TIMEOUT units after the last restarts
the time; an early one and a missing one raise WDT as contained with cause 1 and 0, stop the MC and count a failure; a third within 1 s of the first
halts it with cause 2; 1 s after the last failure the count clears. Judging a kick by the limits before the write is the model's reading (log 19).
-/
def Obligations.Watchdog : Prop :=
  ∀ (val : Word) (t : Nat) (s : State), mcRunning s = true → 2 ≤ s.mc.timeout.toNat → s.mc.timeout.toNat ≤ 10 → s.mc.openW.toNat < s.mc.timeout.toNat → s.mc.fails = 0 →
    let r := (now t s).time.run
    let held := 2 * (r - s.mc.kickAt)
    (val.toNat / 2 ^ 24 = 0xC3 → s.mc.openW.toNat * 1953125 ≤ held → held ≤ s.mc.timeout.toNat * 1953125 →
      exec (.wdtKick val t) s = .next { now t s with
        mc := { s.mc with kickAt := r, timeout := val.extractLsb' 8 8, openW := val.extractLsb' 4 4 } }) ∧
    (val.toNat / 2 ^ 24 = 0xC3 → held < s.mc.openW.toNat * 1953125 →
      Answers (.wdtKick val t) s (fun u =>
        u.mc.run = false ∧ u.mc.fails = 1 ∧ u.clk.causes.getLsbD 3 = true ∧
        u.safety.queue = s.safety.queue ++ [{ bits := faultWord 1 0x70 0xE 0 1 (epochIn (now t s)), from_ := none, ext := 0 }] ∧
        u.dom = s.dom ∧ u.ports = s.ports)) ∧
    (s.mc.timeout.toNat * 1953125 ≤ held →
      Answers (.wdtTimeout t) s (fun u =>
        u.mc.run = false ∧ u.mc.fails = 1 ∧ u.clk.causes.getLsbD 3 = true ∧
        u.safety.queue = s.safety.queue ++ [{ bits := faultWord 1 0x70 0xE 0 0 (epochIn (now t s)), from_ := none, ext := 0 }] ∧
        u.dom = s.dom ∧ u.ports = s.ports)) ∧
    (∀ f, s.mc.timeout.toNat * 1953125 ≤ held → r ≤ f + 1000000000 →
      Answers (.wdtTimeout t) { s with mc := { s.mc with fails := 2, firstFail := f } } (fun u =>
        u.mc.run = false ∧ u.mc.fails = 3 ∧ u.mc.state = 5 ∧ u.dom = s.dom ∧ u.ports = s.ports ∧
        ∃ m, u.safety.queue = s.safety.queue ++
          [m, { bits := faultWord 1 0x70 0xE 0 2 (epochIn (now t s)), from_ := none, ext := 0 }])) ∧
    (∀ k : BitVec 2, s.mc.lastFail + 1000000000 ≤ r →
      exec (.wdtFailsClear t) { s with mc := { s.mc with fails := k } } = .next { now t s with mc := { s.mc with fails := 0 } })

/-! ### Buses (chapter 02) -/

/-- A PMBus result (R53, R54, R129, R131, R421, Table 02-8): a good READ_VOUT within 30 mV of the last command verifies its rail, the third further
off in a row unverifies it, and one of a rail without a command, or whose converter is absent, is not judged; a first PEC error or NACK keeps the
transaction for its one repetition; a second raises PMB_ERR as corrected with the converter's number, and a trim is sent again. The work of the
PMBus queue (R54, R55): a repetition starts when its time comes, a stretch beyond 25 ms gives the bus up with PMB_ERR and keeps what is no poll, a
poll of a present converter starts on a free bus, and an alert puts the Alert Response read ahead of all queued work but the OPERATION 0x00 of the
safe state (R376), except while DG_POR_N is low (R46). That a VIR waits for its VOUT_MODE exponent is the model's reading (log 86). -/
def Obligations.Pmbus : Prop :=
  (∀ (t : Nat) (s : State) (x : BusTxn) (w : BitVec 16), s.bus.cur = some x → s.bus.waitRetry = false → s.bus.queue = [] →
     (x.op = .poll .vout →
       let c := convOf s x.conv
       let e : Nat := 2 ^ c.expo.natAbs
       let judged := convPresent s x.conv = true ∧ c.expo ≠ 0 ∧ c.cmdMv ≠ 0
       let near := ((w.toNat * 1000 : Int) - c.cmdMv * e).natAbs ≤ 30 * e
       (judged → near →
         Answers (.pmbusTransactionDone (.ok w) t) s (fun u =>
           (convOf u x.conv).verified = true ∧ (convOf u x.conv).badPolls = 0 ∧ (∀ k : Fin 5, k ≠ x.conv → convOf u k = convOf s k) ∧
           u = { now t s with bus := { s.bus with cur := none, conv := u.bus.conv } })) ∧
       (judged → ¬near → c.badPolls = 2 →
         Answers (.pmbusTransactionDone (.ok w) t) s (fun u =>
           (convOf u x.conv).verified = false ∧ (∀ k : Fin 5, k ≠ x.conv → convOf u k = convOf s k) ∧
           (vget s.clk.run 0 = true → s.clk.pwrCur ≠ 2 → ∃ y, u.bus.cur = some y ∧ y.op = .statusWord ∧ y.conv = x.conv) ∧
           u = { now t s with bus := { s.bus with cur := u.bus.cur, queue := u.bus.queue, conv := u.bus.conv } })) ∧
       (¬judged → exec (.pmbusTransactionDone (.ok w) t) s = .next { now t s with bus := { s.bus with cur := none } })) ∧
     (x.retried = false →
       exec (.pmbusTransactionDone .bad t) s =
         .next { now t s with bus := { s.bus with cur := some { x with retried := true }, waitRetry := true } }) ∧
     (x.retried = true → x.op ≠ .ara → (∀ mv, x.op ≠ .trim mv) → s.safety.queue.length ≤ 768 →
       exec (.pmbusTransactionDone .bad t) s = .next { now t s with
         bus := { s.bus with cur := none },
         safety := { s.safety with queue := s.safety.queue ++
           [{ bits := faultWord 0 0x61 0xC x.conv.val 0 (epochIn (now t s)), from_ := none, ext := 0 }] } }) ∧
     (∀ mv, x.retried = true → x.op = .trim mv → convPresent s x.conv = true → (convOf s x.conv).expo ≠ 0 → vget s.clk.run 0 = true → s.clk.pwrCur ≠ 2 →
       s.safety.queue.length ≤ 768 → Answers (.pmbusTransactionDone .bad t) s (fun u =>
         (∃ y, u.bus.cur = some y ∧ y.op = .trim mv ∧ y.conv = x.conv ∧ y.retried = false) ∧
         u = { now t s with bus := { s.bus with cur := u.bus.cur },
                            safety := { s.safety with queue := s.safety.queue ++
           [{ bits := faultWord 0 0x61 0xC x.conv.val 0 (epochIn (now t s)), from_ := none, ext := 0 }] } }))) ∧
  (∀ (t : Nat) (s : State) (i : Fin 5) (kind : PollKind), vget s.clk.run 0 = true → s.clk.pwrCur ≠ 2 →
     (∀ x, s.bus.cur = some x → x.op = .ara ∨ (convPresent s x.conv = true ∧ (convOf s x.conv).expo ≠ 0) →
       exec (.pmbusRetry t) s = .next { now t s with bus := { s.bus with waitRetry := false } }) ∧
     (∀ x, s.bus.cur = some x → x.op ≠ .ara → convPresent s x.conv = false → s.bus.waitRetry = true → s.bus.queue = [] →
       exec (.pmbusRetry t) s = .next { now t s with bus := { s.bus with waitRetry := false, cur := none } }) ∧
     (∀ x, s.bus.cur = some x → x.op ≠ .ara → (∀ k, x.op ≠ .poll k) → (∃ y ∈ s.bus.queue, y.op = .offNow ∧ convPresent s y.conv = true) →
       Answers (.pmbusStretchTimeout t) s (fun u => ∃ z, u.bus.cur = some z ∧ z.op = .offNow)) ∧
     (∀ x, s.bus.cur = some x → x.op ≠ .ara → (∀ k, x.op ≠ .poll k) → (∀ y ∈ s.bus.queue, y.op ≠ .offNow) → s.safety.queue.length ≤ 768 →
       exec (.pmbusStretchTimeout t) s = .next { now t s with
         bus := { s.bus with cur := none, waitRetry := false, queue := { x with retried := false } :: s.bus.queue },
         safety := { s.safety with queue := s.safety.queue ++
           [{ bits := faultWord 0 0x61 0xC x.conv.val 0 (epochIn (now t s)), from_ := none, ext := 0 }] } }) ∧
     (s.bus.cur = none → s.bus.waitRetry = false → s.bus.queue = [] → convPresent s i = true →
       exec (.pmbusPoll kind i t) s =
         .next { now t s with bus := { s.bus with cur := some { op := .poll kind, conv := i, retried := false, data := 0 } } }) ∧
     (∀ x, s.bus.cur = some x → s.bus.alert = false → s.safety.porHigh = true →
       exec (.stage1Alert t) s = .next { now t s with
         bus := { s.bus with alert := true, queue := s.bus.queue.filter (fun y => decide (y.op = .offNow)) ++
           { op := .ara, conv := 0, retried := false, data := 0 } :: s.bus.queue.filter (fun y => decide (y.op ≠ .offNow)) } }) ∧
     (s.safety.porHigh = false → exec (.stage1Alert t) s = .next (now t s)) ∧
     exec (.pmbAlertRelease t) s = .next { now t s with bus := { s.bus with alert := false } })

/-- Bus registers and AVSBus (R56, R421, R422, Table 18-10): a cleared CONV_EN bit unverifies its converter; a reserved or taken
address is ignored with CFGREJ; a good AVSBus response completes the rail's trim, a first bad one is retried, a second raises
PMB_ERR with instance 0x10 + rail and queues the trim on PMBus. -/
def Obligations.BusRegistersAndAvs : Prop :=
  ∀ (val : Word) (t : Nat) (s : State) (i : Fin 5), setupOpen s = true →
    (val.toNat % 4 ≠ 3 → Answers (.pmbCfgWrite val t) s (fun u =>
      u.bus.convEn = val.extractLsb' 12 5 ∧ u.bus.speed = val.extractLsb' 0 2 ∧
      (∀ k : Fin 5, convOf u k = { convOf s k with verified := (convOf s k).verified && val.getLsbD (12 + k) }) ∧
      u = { ackWrite (now t s) with bus := { s.bus with convEn := u.bus.convEn, speed := u.bus.speed, conv := u.bus.conv } })) ∧
    (let a : Nat := val.toNat % 128
     let clash := ∃ k : Fin 5, k ≠ i ∧ s.bus.convEn.getLsbD k = true ∧ (convOf s k).addr.toNat = a
     (¬(a < 8 ∨ a = 0x0C ∨ 0x78 ≤ a ∨ clash) →
       exec (.pmbAddrWrite i val t) s = .next (setConv (ackWrite (now t s)) i (fun c => { c with addr := val.setWidth 7 }))) ∧
     (a < 8 ∨ a = 0x0C ∨ 0x78 ≤ a ∨ clash →
       exec (.pmbAddrWrite i val t) s = .next { ackWrite (now t s) with bus := { s.bus with cfgRej := true } })) ∧
    ((∀ k : Fin 5, k < i → (convOf s k).avsOut = false) → (convOf s i).avsOut = true → ∀ mv, (convOf s i).want = some mv →
      exec (.avsResponse true t) s = .next (setConv (now t s) i
        (fun c => { c with cmdMv := mv, want := none, avsOut := false, avsRetry := false })) ∧
      ((convOf s i).avsRetry = false →
        exec (.avsResponse false t) s = .next (setConv (now t s) i (fun c => { c with avsRetry := true }))) ∧
      ((convOf s i).avsRetry = true → s.safety.queue.length ≤ 768 → s.bus.cur ≠ none →
        Answers (.avsResponse false t) s (fun u =>
          (∃ x ∈ u.bus.queue, x.op = .trim mv ∧ x.conv = i) ∧ (convOf u i).avsOut = false ∧
          u.safety.queue = s.safety.queue ++
            [{ bits := faultWord 0 0x61 0xC (0x10 + i) 0 (epochIn (now t s)), from_ := none, ext := 0 }] ∧
          u = { now t s with bus := u.bus, safety := { s.safety with queue := u.safety.queue } })))

/-! ### Cells and stations (chapter 04) -/

/-- A cell's report (R90, R92, Table 04-2): one with an even number of ones replaces the last, any other is discarded and
counted; a cell without a handshake for 1 µs goes on at its last code and counts four silent frames; after a good report the cell
takes its band's waveform (R93). No other cell changes. Counting the hold as four silent frames is the model's reading (log 51). A
cell's overload timer (R89, R105): at 2,000 the peak limit falls to 2.5 A with OVLD set, and the first OVLD of a working cell in an epoch
queues OC as corrected with cause 0x2, a later one in the epoch queues nothing; the timer's return to 0 clears the flag and the limit; at any
other value neither row changes the cell. -/
def Obligations.CellReportsAndOverload : Prop :=
  (∀ (c : CellNo) (w : Word) (t : Nat) (s : State), isAbsent s (cellDom c) = false →
     let x := (cellDom c, cellIdx c)
     (((List.range 32).countP (fun i => w.getLsbD i)) % 2 = 0 →
       exec (.cellReport c w t) s = .next (setCellAt (now t s) x (fun C =>
         { C with rep := w, parFails := 0, autoHold := false, holdRep := true, isoRep := true, ovld := w.getLsbD 28,
                  fromCold := C.fromCold && fld w 24 22 != 0, fsw := (waveOf (domOf s x.1).band).1, dead := (waveOf (domOf s x.1).band).2,
                  drvfRun := if w.getLsbD 25 then C.drvfRun + 1 else 0, otRun := if w.getLsbD 26 then C.otRun + 1 else 0 }))) ∧
     (((List.range 32).countP (fun i => w.getLsbD i)) % 2 = 1 →
       exec (.cellReport c w t) s = .next (setCellAt (now t s) x (fun C => { C with parFails := C.parFails + 1 }))) ∧
     exec (.cellAutonomousHold c t) s =
       .next (setCellAt (now t s) x (fun C => { C with autoHold := true, silent := Nat.max C.silent 4 }))) ∧
  (∀ (c : CellNo) (t : Nat) (s : State), isAbsent s (cellDom c) = false → s.safety.queue.length ≤ 768 →
     let x := (cellDom c, cellIdx c)
     let d := leader s x.1
     (cellWorks (cellAt s x) = true → (cellAt s x).ovTimer = 2000 → (cellAt s x).ovldSeen = false →
       Answers (.cellOverload c t) s (fun u =>
         u.safety.queue = s.safety.queue ++ [{ bits := faultWord 0 0x03 0x7 d (cellDetail (workingOf s d) 2 (cellPos s x) c)
                                                         (epochIn (now t s)), from_ := none, ext := 0 }] ∧
         u = { setCellAt (now t s) x (fun C => { C with ovld := true, limLow := true, ovldSeen := true }) with
           safety := { s.safety with queue := u.safety.queue } })) ∧
     (cellWorks (cellAt s x) = true → (cellAt s x).ovTimer = 2000 → (cellAt s x).ovldSeen = true →
       exec (.cellOverload c t) s = .next (setCellAt (now t s) x (fun C => { C with ovld := true, limLow := true }))) ∧
     (cellWorks (cellAt s x) = false ∨ (cellAt s x).ovTimer ≠ 2000 → exec (.cellOverload c t) s = .next (now t s)) ∧
     ((cellAt s x).ovTimer = 0 →
       exec (.overloadTimerClear c t) s = .next (setCellAt (now t s) x (fun C => { C with ovld := false, limLow := false }))) ∧
     ((cellAt s x).ovTimer ≠ 0 → exec (.overloadTimerClear c t) s = .next (now t s)))

/-- A failed cell (R101 to R103): the lowest cause that holds isolates it, CELL_FAIL carries the working cells left, the cause and the cell,
corrected at full rating and contained below, the cell-map change is reported, and at the DARK rating the domain discharges, a soft start that still
waits too. Domains that its leader does not govern, commands, ports and configuration stay. The check 4 µs after an isolation (R102, Table 04-7): a
cell whose report since then shows more than 0.5 A, or SINK clear with DROP above 0x010, queues CELL_FAIL as fatal with cause 0x5 and is marked,
entering the safe state at once while a control reset holds the collector (R365); any other changes nothing. -/
def Obligations.CellIsolation : Prop :=
  (∀ (c : CellNo) (t : Nat) (s : State) (cause : Nat) (more : List Nat), isAbsent s (cellDom c) = false →
     s.safety.queue.length ≤ 768 → cellWorks (cellAt s (cellDom c, cellIdx c)) = true →
     cellCauses (now t s) (cellStation (now t s) (cellDom c)) (cellDom c, cellIdx c) = cause :: more →
     let x := (cellDom c, cellIdx c)
     let d := leader s x.1
     Answers (.cellFail c t) s (fun u =>
       (cellAt u x).st = .isolated ∧ (cellAt u x).failed = some (BitVec.ofNat 4 cause) ∧ (cellAt u x).acc = 0 ∧
       (∃ m, u.safety.queue = s.safety.queue ++ [m] ∧
         m.bits = faultWord (if ratingOf s d (workingOf u d) = .full then 0 else 1) 0x04 0x7 d
           (cellDetail (workingOf u d) cause (cellPos s x) c) (epochIn (now t s))) ∧
       (∃ i ∈ u.ints, ∃ n : Nat, i.dom.val = x.1 ∧ i.what = .cellMap (n + 1) ∧ i.at_ = (now t s).time.gtc) ∧
       (ratingOf s d (workingOf u d) = .derated → ∃ i ∈ u.ints, i.dom.val = d ∧ i.what = .derated) ∧
       (ratingOf s d (workingOf u d) = .dark → (domOf s d).en = true ∨ inSoftStart (domOf s d) = true →
         (∃ i ∈ u.ints, i.dom.val = d ∧ i.what = .dark false) ∧ Discharging (domOf u d) (now t s).time.gtc) ∧
       OtherDomainsSame s u x.1 ∧ u.cmds = s.cmds ∧ u.ports = s.ports ∧ u.cfg = s.cfg ∧ u.links = s.links)) ∧
  (∀ (b : Dom) (n : Fin 14) (t : Nat) (s : State) (k : BitVec 4), (cellAt s (b.val, n.val)).st = .isolated →
     (cellAt s (b.val, n.val)).failed = some k → k ≠ 5 → (cellAt s (b.val, n.val)).isoAt + 4000 ≤ t →
     let x := (b.val, n.val)
     let d := leader s x.1
     let w := (cellAt s x).rep
     let bad := n.val < (if b.val < 64 then 14 else 8) ∧ (cellAt s x).isoRep = true ∧ (256 < repI w ∨ (w.getLsbD 30 = false ∧ 0x010 < w.toNat / 2 ^ 12 % 2 ^ 10))
     (bad → Answers (.isolationCheck b n t) s (fun u =>
       (cellAt u x).failed = some 5 ∧ (cellAt u x).st = .isolated ∧
       u.safety.queue = s.safety.queue ++ [{ bits := faultWord 2 0x04 0x7 d (cellDetail (workingOf s d) 5 (cellPos s x) (cellNoOf b n))
                                                       (epochIn (now t s)), from_ := none, ext := 0 }] ∧
       (s.clk.crstBusy = true → u.safety.safe = true ∧ u.safety.pin = false) ∧
       (s.clk.crstBusy = false → u = { setCellAt (now t s) x (fun C => { C with failed := some 5 }) with
         safety := { s.safety with queue := u.safety.queue } }))) ∧
     (¬bad → exec (.isolationCheck b n t) s = .next (now t s)))

/-- Parking (R99): when the condition has held PARK_QUAL, 1 µs has passed since the last entry and no cell ramps, one ACTIVE
cell of the station, CRACK-flagged only if all are, enters RAMP; a cell that has been WARM for WARM_HOLD becomes COLD. Nothing
else changes. A derated tile above its limit for eight frames (R104): at least divider 2 is driven, and in STEADY an OC of the
station is queued as contained with the working cells, cause 0x2 and both cell fields all ones. -/
def Obligations.ParkingAndDerating : Prop :=
  ((∀ (d : Dom) (t q : Nat) (s : State), s.time.gtc ≤ t → (domOf s d).park.qual = some q →
     stationActs (now t s) d = true → parks s d = true → q + 1000 * (cfgAt s (leader s d)).lim.parkQual ≤ t →
     ((domOf s d).park.last = 0 ∨ (domOf s d).park.last + 1000 ≤ t) → cellsIn (now t s) d .ramp = [] →
     parkCond (now t s) d = true → parkMinOf s d < (activeCells (now t s) d).length →
     ∃ x ∈ activeCells (now t s) d, (cellAt s x).st = .active ∧
       ((cellAt s x).crack = true → ∀ y ∈ activeCells (now t s) d, (cellAt s y).crack = true) ∧
       exec (.cellPark d t) s = .next (setDom (setCellAt (now t s) x (fun c => { c with st := .ramp, rampFr := 0, acc := 0, strim := 0 })) d
         (fun D => { D with park := { D.park with last := t }, droop := { D.droop with parkedFire := true } }))) ∧
   ∀ (c : CellNo) (t : Nat) (s : State), (cellAt s (cellDom c, cellIdx c)).st = .warm →
     (cellAt s (cellDom c, cellIdx c)).warmAt + 10000 * (cfgAt s (leader s (cellDom c))).lim.warmHold ≤ t →
     exec (.warmHoldExpire c t) s = .next (setCellAt (now t s) (cellDom c, cellIdx c) (fun C => { C with st := .cold }))) ∧
  (∀ (d : Dom) (t : Nat) (s : State), isOdd s d = false → isTile d = true → ratingOf s d (workingOf s d) = .derated →
     (domOf s d).arb.derate = false → 8 ≤ (domOf s d).arb.derRun →
     Answers (.derateThrottle d t) s (fun u =>
       (domOf u d).arb.derate = true ∧ 1 ≤ (domOf u d).tile.thrDiv.toNat ∧
       (modeOn s 0 = true → u.safety.queue = s.safety.queue ++
         [{ bits := faultWord 1 0x03 0x6 d (cellDetail (workingOf s d) 2 0x1F 0x3FF) (epochIn (now t s)), from_ := none, ext := 0 }]) ∧
       (modeOn s 0 = false → u.safety = s.safety) ∧ OtherDomainsSame s u d ∧
       u = { now t s with dom := u.dom, safety := u.safety }))

/-- The end of a crack window (R106, R107): every cell's sums start anew, and a window of fewer than 256 frames yields no
estimate: it neither flags a cell, nor queues a message, nor breaks or extends a run of three. A cell above 1.30 × R_char in its
third estimated window (R107): it is flagged, its weight is halved with a minimum of 1, CRACK is queued as corrected with cause
0x8, and the cell-map change is reported; a station unpaired and with no other estimate. -/
def Obligations.Cracks : Prop :=
  (∀ (d : Dom) (t : Nat) (s : State), stationActs (now t s) d = true → (∀ x ∈ stationCells (now t s) d, (cellAt s x).nWin < 256) →
     Answers (.crackWindowEnd d t) s (fun u =>
       (∀ x ∈ stationCells (now t s) d, cellAt u x = { cellAt s x with sumDrop := 0, sumI := 0, nWin := 0 }) ∧
       (∀ e ∈ stationSites (now t s) d, (domOf u e).winT = (domOf s e).maxT) ∧ OtherDomainsSame s u d ∧
       u = { now t s with dom := u.dom })) ∧
  (∀ (c : CellNo) (t : Nat) (s : State) (r : CharRecord), let d := cellDom c
     let x := (d, cellIdx c)
     (domOf s d).pair = .none → stationActs (now t s) d = true → s.char = some r → s.safety.queue.length ≤ 768 →
     (∀ y ∈ stationCells (now t s) d, y ≠ x → (cellAt s y).nWin < 256) →
     256 ≤ (cellAt s x).nWin → cellWorks (cellAt s x) = true → (cellAt s x).crack = false → (cellAt s x).crackRun = 2 →
     crackOver (cellAt s x) (Max.max (domOf s d).winT (domOf s d).winT) (vget r.rChar c) 130 = true →
     Answers (.crackWindowEnd (Fin.ofNat 80 d) t) s (fun u =>
       (cellAt u x).crack = true ∧ (cellAt u x).weight.toNat = Nat.max 1 ((cellAt s x).weight.toNat / 2) ∧
       (∃ m, u.safety.queue = s.safety.queue ++ [m] ∧ fKindOf m.bits = 0x06 ∧ fClass m.bits = 0 ∧ fUnit m.bits = 0x7 ∧ fInst m.bits = d) ∧
       (∃ i ∈ u.ints, i.dom.val = d ∧ i.what = .cellMap 0) ∧ (∀ e : Dom, e.val ≠ d → vget u.dom e = vget s.dom e) ∧
       u.ports = s.ports ∧ u.cmds = s.cmds ∧ u.cfg = s.cfg))

/-! ### Domain transitions (chapters 04 and 05) -/

/-- An overvoltage crossing (R91): OV is queued as contained with cause 0x7 and the crossing's start, the cells go to low-side
hold, the bank is disarmed, the domain discharges, and DARK without a latch is reported. A short in a soft start (R122, R123):
SHORT is queued as contained with the voltage, the attempt and the current sum; the domain discharges; within SHORT_RETRY a
retry falls due SHORT_GAP later, beyond it the domain is latched off. -/
def Obligations.OvervoltageAndShort : Prop :=
  (∀ (d : Dom) (t : Nat) (s : State), isAbsent s d = false → (domOf s d).en = true → s.time.gtc ≤ t →
     let l := leader s d
     Answers (.ovCrossing d t) s (fun u =>
       u.safety.queue = s.safety.queue ++ [{ bits := faultWord 1 0x01 0x6 l (cellDetail (workingOf s l) 7 0x1F 0x3FF)
                                                       (epochIn (now t s)), from_ := some (t - 20), ext := 0 }] ∧
       (domOf u l).lowHold = true ∧ Discharging (domOf u l) t ∧
       (∃ i, u.ints = s.ints ++ [i] ∧ i.dom.val = l ∧ i.what = .dark false ∧ i.at_ = t) ∧ OtherDomainsSame s u d ∧
       u = { now t s with dom := u.dom, safety := { s.safety with queue := u.safety.queue }, ints := u.ints, sieve := u.sieve })) ∧
  (∀ (d : Dom) (t : Nat) (s : State), isOdd s d = false →
     ((domOf s d).tr.ph = .leg1 ∨ (domOf s d).tr.ph = .leg2 ∨ (domOf s d).tr.ph = .settle) →
     80 ≤ (domOf s d).tr.shortRun → s.time.gtc ≤ t →
     let lim := (cfgAt s d).lim
     let a := (domOf s d).tr.attempt
     Answers (.short d t) s (fun u =>
       (∃ m, u.safety.queue = s.safety.queue ++ [m] ∧ fKindOf m.bits = 0x05 ∧ fClass m.bits = 1 ∧ fUnit m.bits = 0x6 ∧
         fInst m.bits = d ∧ fDetail m.bits / 2 ^ 16 = (domOf s d).vmeas.toNat ∧ fDetail m.bits / 2 ^ 12 % 16 = a % 16) ∧
       Discharging (domOf u d) t ∧
       (domOf u d).tr.retryAt = (if a ≤ lim.shortRetry then some (t + 1000000 * lim.shortGap) else none) ∧
       u.ints = s.ints ++ [{ dom := d, what := .dark (decide (lim.shortRetry < a)), at_ := t }] ∧
       OtherDomainsSame s u d ∧ u.cfg = s.cfg ∧ u.cmds = s.cmds))

/-- The timers of the transitions (R117, R121, R123): SHORT_GAP after a short the requested state is reported for commit; a rail that has not
discharged in 1 ms queues OV with cause 0xA once; forced arming of a neighbour, a pair's together, ends when its 20 µs are over. The end of a soft
start or of a move from SHADE to LIT (R114, R135, R138, R140, R141): the comparators arm, the bank arms unless it failed, conducts, recharges or is
not enabled, the clock of a LIT tile that runs its committed frequency is released at a frame start unless something else stops it, else that
release waits, through HELD too (R118), and the transition is over; nothing outside the domain's members changes. -/
def Obligations.Transitions : Prop :=
  (∀ (d : Dom) (t : Nat) (s : State), isOdd s d = false → s.time.gtc ≤ t →
     (∀ due, (domOf s d).tr.retryAt = some due → due ≤ t →
       Answers (.shortRetry d t) s (fun u =>
         (domOf u d).tr.retryAt = none ∧ u.ints = s.ints ++ [{ dom := d, what := .retry (domOf s d).tr.goal, at_ := t }] ∧
         OtherDomainsSame s u d ∧ u = { now t s with dom := u.dom, ints := u.ints })) ∧
     ((domOf s d).tr.ph = .discharge → (domOf s d).tr.fed = false → (domOf s d).tr.since + 1000000 ≤ t →
       Answers (.dischargeTimeout d t) s (fun u =>
         u.safety.queue = s.safety.queue ++ [{ bits := faultWord 1 0x01 0x6 d (cellDetail (workingOf s d) 0xA 0x1F 0x3FF)
                                                         (epochIn (now t s)), from_ := none, ext := 0 }] ∧
         (domOf u d).tr.fed = true ∧ (domOf u d).tr.ph = .discharge ∧ OtherDomainsSame s u d ∧
         u = { now t s with dom := u.dom, safety := { s.safety with queue := u.safety.queue } })) ∧
     Answers (.neighbourArmEnd d t) s (fun u =>
       (∀ e ∈ (membersOf s d).flatMap neighbours1, ∀ y ∈ membersOf s (leader s e), y < 80 → (domOf s y).droop.forcedTo ≤ t →
         (domOf u y).droop.forced = false) ∧
       (∀ y : Dom, t < (domOf s y).droop.forcedTo ∨ (∀ e ∈ (membersOf s d).flatMap neighbours1, y.val ∉ membersOf s (leader s e)) →
         vget u.dom y = vget s.dom y) ∧
       u = { now t s with dom := u.dom })) ∧
  (∀ (d : Dom) (t : Nat) (s : State), isOdd s d = false → isAbsent s d = false →
     let D := domOf s d
     (if D.tr.goal = .shade then D.tr.ph = .settle
      else (D.tr.ph = .leg2 ∨ D.tr.ph = .settle ∨ D.tr.ph = .lift) ∧ 8 ≤ D.tr.within) →
     let runs := isTile d = true ∧ D.state = .lit ∧ D.held = false ∧ t % 250 = 0 ∧ freqReady s d = true
     Answers (.softStartEnd d t) s (fun u =>
       let r := (domOf u d).droop
       (domOf u d).tr.ph = .idle ∧ (domOf u d).tr.attempt = 0 ∧ (domOf u d).tr.retryAt = none ∧ r.armed = true ∧
       r.flare = (match D.droop.flare with
         | .failed => .failed
         | .conducting => .conducting
         | .recharging => .recharging
         | .armed | .disarmed => if (cfgAt s d).lim.flareEn = 0 then .disarmed else .armed) ∧
       (runs → r.relPend = false ∧ (r.uvstop = true ↔ D.droop.ownStop ≠ none ∨ D.droop.fabStops ≠ [] ∨ D.droop.uvLatched = true)) ∧
       (¬runs → (r.relPend = true ↔ D.state = .lit ∨ (D.state = .held ∧ D.heldFrom = .lit)) ∧ r.uvstop = D.droop.uvstop) ∧
       OtherDomainsSame s u d ∧ u = { now t s with dom := u.dom }))

/-! ### Droop and flare banks (chapter 06) -/

/-- A DT1 crossing of an acting comparator (R99, R136, R139, R140): it is counted, parking is aborted with every parked cell
ACTIVE again, the glint pattern acts on a tile, and an enabled armed bank whose level is DT1 fires; outside STEADY no message is
queued. DT2 and DT3 crossings (R139, R140, R142): DT2 fires an enabled armed bank whose level it is and counts a missed one;
with a failed bank the divider action of a tile applies and counts as DT3; DT3 is counted and raises the tile's divider. A floor
crossing of a tile (R138, R139): UVSTOP is set and counted, and UV is queued as contained with a window that begins 5 to 20 ns
before the detection (the delay within it is the model's free value, log 20); the third stop within 1 ms is reported as level 5. One
of a FAB or SRM stops and counts every LIT tile of its die. -/
def Obligations.DroopCrossings : Prop :=
  (∀ (d : Dom) (v : BitVec 16) (t : Nat) (s : State), levelsAct s d = true → (domOf s d).droop.in1 = false → modeOn s 0 = false →
     let D := domOf s d
     Answers (.dt1Crossing d v t) s (fun u =>
       (domOf u d).droop.in1 = true ∧ (domOf u d).droop.vlow = v ∧ (domOf u d).droop.last1 = some (now t s).time.gtc ∧
       ctrOf (domOf u d) 1 = ctrOf D 1 + 1 ∧ (clockActs s d = true → (domOf u d).droop.glint = true) ∧
       (∀ x ∈ stationCells (now t s) d, (cellAt u x).st ≠ .ramp ∧ (cellAt u x).st ≠ .warm ∧ (cellAt u x).st ≠ .cold) ∧
       (fireAtDt1 (now t s).time.gtc D = true → D.droop.flare = .armed → (cfgAt s d).lim.flareEn ≠ 0 →
         (domOf u d).droop.flare = .conducting ∧ ctrOf (domOf u d) 2 = ctrOf D 2 + 1) ∧
       (fireAtDt1 (now t s).time.gtc D = false ∨ anyBank s d (fun f => f == .armed) = false →
         (domOf u d).droop.flare = D.droop.flare ∧ ctrOf (domOf u d) 2 = ctrOf D 2) ∧
       OtherDomainsSame s u d ∧ u = { now t s with dom := u.dom })) ∧
  (∀ (d : Dom) (v : BitVec 16) (t : Nat) (s : State), levelsAct s d = true → modeOn s 0 = false →
     let D := domOf s d
     (D.droop.in2 = false → Answers (.dt2Crossing d v t) s (fun u =>
       (domOf u d).droop.in2 = true ∧ (domOf u d).droop.vlow = v ∧
       (D.droop.flare = .armed → fireAtDt1 (now t s).time.gtc D = false → (cfgAt s d).lim.flareEn ≠ 0 →
         (domOf u d).droop.flare = .conducting ∧ ctrOf (domOf u d) 2 = ctrOf D 2 + 1) ∧
       (D.droop.flare = .conducting ∨ D.droop.flare = .recharging → anyBank s d (fun f => f == .armed) = false →
         fireAtDt1 (now t s).time.gtc D = false → (cfgAt s d).lim.flareEn ≠ 0 →
         (domOf u d).droop.flare = D.droop.flare ∧ ctrOf (domOf u d) 3 = ctrOf D 3 + 1) ∧
       (D.droop.flare = .failed → clockActs s d = true → (domOf u d).droop.dt3 = true ∧ ctrOf (domOf u d) 4 = ctrOf D 4 + 1) ∧
       OtherDomainsSame s u d ∧ u = { now t s with dom := u.dom })) ∧
     (D.droop.in3 = false → Answers (.dt3Crossing d v t) s (fun u =>
       (domOf u d).droop.in3 = true ∧ (domOf u d).droop.vlow = v ∧ ctrOf (domOf u d) 4 = ctrOf D 4 + 1 ∧
       (clockActs s d = true → (domOf u d).droop.dt3 = true ∧ 1 ≤ (domOf u d).tile.thrDiv.toNat) ∧
       OtherDomainsSame s u d ∧ u = { now t s with dom := u.dom }))) ∧
  (∀ (d : Dom) (v : BitVec 16) (t : Nat) (s : State), levelsAct s d = true → (domOf s d).droop.inF = false → 64 ≤ d.val → d.val < 72 →
     Answers (.floorCrossing d v t) s (fun u =>
       (domOf u d).droop.inF = true ∧
       (∀ x : Dom, isTile x = true → dieOf x = dieOf d → (domOf s x).state = .lit → isOdd s x = false →
         (domOf u x).droop.uvstop = true ∧ (d, (now t s).time.gtc) ∈ (domOf u x).droop.fabStops ∧ ctrOf (domOf u x) 5 = ctrOf (domOf s x) 5 + 1) ∧
       (∃ m, u.safety.queue = s.safety.queue ++ [m] ∧ fKindOf m.bits = 0x02 ∧ fClass m.bits = 1 ∧ fUnit m.bits = 0x6 ∧ fInst m.bits = d ∧
         fDetail m.bits / 2 ^ 28 = 4) ∧
       u = { now t s with dom := u.dom, safety := { s.safety with queue := u.safety.queue }, sieve := u.sieve, freeIdx := u.freeIdx })) ∧
  (∀ (d : Dom) (v : BitVec 16) (t : Nat) (s : State), levelsAct s d = true → (domOf s d).droop.inF = false → clockActs s d = true →
     let g := (now t s).time.gtc
     let earlier := (domOf s d).droop.stops.filter (fun k => decide (g < k + 1000000))
     Answers (.floorCrossing d v t) s (fun u =>
       (domOf u d).droop.uvstop = true ∧ (domOf u d).droop.inF = true ∧ ctrOf (domOf u d) 5 = ctrOf (domOf s d) 5 + 1 ∧
       (2 ≤ earlier.length → (domOf u d).droop.uvLatched = true) ∧
       (∃ age, 5 ≤ age ∧ age ≤ 20 ∧ u.safety.queue = s.safety.queue ++
         [{ bits := faultWord 1 0x02 0x6 d ((if 2 ≤ earlier.length ∨ (domOf s d).droop.uvLatched = true then 5 else 4) * 2 ^ 28 + v.toNat * 2 ^ 12 + age)
                      (epochIn (now t s)), from_ := some (g - age), ext := 0 }]) ∧
       OtherDomainsSame s u d ∧
       u = { now t s with dom := u.dom, safety := { s.safety with queue := u.safety.queue }, sieve := u.sieve, freeIdx := u.freeIdx }))

/-- The ends of droop actions (R132, Table 06-2): a recovery clears its own level alone, the glint pattern goes once DT1 has
recovered, the divider after 40 latches above DT3; the outputs fall back to what the arbiter and the derating ask. Nothing outside
the domain's members changes. A flare bank's cycle (R140 to R143): conduction ends in recharging with its check due, recharging ends
armed, or disarmed with FLARE_EN = 0, a low bank in the check 1 µs after conduction
(condition 1) or armed and idle, before that check too (condition 2) raises FLARE_FAIL as contained with its voltage and is failed. -/
def Obligations.DroopEndsAndFlareBanks : Prop :=
  (∀ (d : Dom) (t : Nat) (s : State),
     exec (.crossingRecovery d .dt1 t) s = .next (setDroop (now t s) d (fun r => { r with in1 := false })) ∧
     exec (.crossingRecovery d .dt2 t) s = .next (setDroop (now t s) d (fun r => { r with in2 := false })) ∧
     exec (.crossingRecovery d .dt3 t) s = .next (setDroop (now t s) d (fun r => { r with in3 := false, dt3Good := 0 })) ∧
     exec (.crossingRecovery d .floor t) s = .next (setDroop (now t s) d (fun r => { r with inF := false })) ∧
     ((domOf s d).droop.glint = true → (domOf s d).droop.in1 = false → Answers (.glintEnd d t) s (fun u =>
       (domOf u d).droop = { (domOf s d).droop with glint := false } ∧ (isTile d = true → (domOf u d).tile.thrSkip =
         (let raw := (domOf s d).stSkip; if raw = 0xFFFF then 0xFFFE else raw)) ∧
       OtherDomainsSame s u d ∧ u = { now t s with dom := u.dom })) ∧
     ((domOf s d).droop.dt3 = true → (domOf s d).droop.in3 = false → 40 ≤ (domOf s d).droop.dt3Good →
       Answers (.dt3End d t) s (fun u =>
         (domOf u d).droop = { (domOf s d).droop with dt3 := false } ∧ (isTile d = true →
           (domOf u d).tile.thrDiv.toNat = Nat.max (domOf s d).stDiv.toNat (if (domOf s d).arb.derate then 1 else 0)) ∧
         OtherDomainsSame s u d ∧ u = { now t s with dom := u.dom }))) ∧
  (∀ (d : Dom) (mv : BitVec 12) (t : Nat) (s : State),
     ((domOf s d).droop.flare = .conducting → exec (.flareConductionEnd d t) s =
       .next (setDroop (now t s) d (fun r => { r with flare := .recharging, chkAt := some ((now t s).time.run + 1000) }))) ∧
     ((domOf s d).droop.flare = .recharging → exec (.flareRecharged d t) s =
       .next (setDroop (now t s) d (fun r => { r with flare := if (cfgAt s (leader s d)).lim.flareEn = 0 then .disarmed else .armed }))) ∧
     (let due := ∃ x, (domOf s d).droop.chkAt = some x ∧ x ≤ (now t s).time.run
      let taken := setDroop (now t s) d (fun r => { r with chkAt := none })
      let fails := fun (cond : Nat) (v : State) => { setDroop v d (fun r => { r with flare := .failed }) with
        safety := { s.safety with queue := s.safety.queue ++
          [{ bits := faultWord 1 0x07 0x6 d (cond * 2 ^ 28 + mv.toNat) (epochIn (now t s)), from_ := none, ext := 0 }] } }
      let f := (domOf s d).droop.flare
      (due → exec (.flareCheck d mv false t) s = .next taken) ∧ (¬due → exec (.flareCheck d mv false t) s = .next (now t s)) ∧
      (due → f = .recharging ∨ f = .armed → exec (.flareCheck d mv true t) s = .next (fails 1 taken)) ∧
      (due → f ≠ .recharging → f ≠ .armed → exec (.flareCheck d mv true t) s = .next taken) ∧
      (¬due → f = .armed → exec (.flareCheck d mv true t) s = .next (fails 2 (now t s))) ∧
      (¬due → f ≠ .armed → exec (.flareCheck d mv true t) s = .next (now t s))))

/-! ### Supervision and slots (chapters 07 and 08) -/

/-- The supervision checkers (R187, R189): 80 latches outside the band queue PLAUS as contained with the model voltage and
residual, from the onset, put the domain into fall-back from the next frame and report its feed-forward off; FOLLOW_T latches of
following error force the domain DARK. -/
def Obligations.Supervision : Prop :=
  ∀ (d : Dom) (t : Nat) (s : State), isOdd s d = false → supRuns (domOf s d) = true → s.time.gtc ≤ t →
    let S := (domOf s d).sup
    (S.plant = true → 80 ≤ S.cnt → Answers (.plaus d t) s (fun u =>
      u.safety.queue = s.safety.queue ++ [{ bits := faultWord 1 0x13 0x2 d
                                              ((clampInt 0 65535 (rne S.vp 11)).toNat * 2 ^ 16 + (BitVec.ofInt 16 (sat16 (rne S.resid 11))).toNat) (epochIn (now t s)), from_ := some S.onset, ext := 0 }] ∧
      (domOf u d).sup.fbPend = true ∧ u.ints = s.ints ++ [{ dom := d, what := .featOff true true, at_ := t }] ∧
      (∀ e : Dom, e ≠ d → vget u.dom e = vget s.dom e) ∧
      u = { now t s with dom := u.dom, safety := { s.safety with queue := u.safety.queue }, ints := u.ints, sieve := u.sieve })) ∧
    (S.plant = false → (cfgAt s d).lim.followT ≤ S.fcnt → Answers (.follow d t) s (fun u =>
      (∃ m, u.safety.queue = s.safety.queue ++ [m] ∧ fKindOf m.bits = 0x14 ∧ fClass m.bits = 1 ∧ fInst m.bits = d ∧
        fDetail m.bits / 2 ^ 16 = (domOf s d).vmeas.toNat ∧ m.from_ = some S.fonset) ∧
      Discharging (domOf u d) t ∧ u.ints = s.ints ++ [{ dom := d, what := .dark false, at_ := t }] ∧
      OtherDomainsSame s u d ∧ u.cfg = s.cfg ∧ u.cmds = s.cmds))

/-- A whole CLE slot (R17, R152 to R154, R156, R157, R168, R173). Whatever the program, the upsets and the corrected store errors: when
the section ends in its cycles with both lanes alike and nothing strikes later, the run of overruns ends, and the buffered words are
committed where Table 07-3 keeps them, oldest first. The program "LDC g1, 0; OUT VSET, g1; END" puts vset_code of its constant in
force, round half to even and within 0 to 1,023, at the hub, and at the station once its record arrives; it keeps every state word and
every other domain. The domain of the second part runs, its outputs are applied, in no joined pair, without fall-back or floor clamp. -/
def Obligations.SlotSetsCode : Prop :=
  (∀ (n : Nat) (pos : Fin 16) (slot : Fin 5) (ups : List Upset) (errs : List StoreErr) (s : State) (lane : Fin 17) (g : Program),
    let d := slotDom pos slot
    let s1 := errs.foldl (storeErr d) (slotLearn (now (250 * n + 50 * slot) s) d n)
    let x := slotRan s1 d n pos slot errs.length g ups
    (domOf s d).use.runs = true → s.clk.crstBusy = false → s.mism = [] → vget s.laneOf pos = some lane →
    boundProg s d = some g → g.unusable = false → errs.any errAborts = false →
    x.slot.mismatch = none → x.slot.a.ended = true → x.slot.a = x.slot.b → (∀ y ∈ ups, y.cycle < x.slot.cycle) →
    Answers (.cleSlot n pos slot ups errs) s (fun u =>
      (domOf u d).overruns = 0 ∧ (domOf u d).noLane = false ∧
      (domOf u d).sw = (if (domOf s d).use.kept then x.slot.a.buf.reverse.foldl (fun m y => m.write y.1 y.2) (domOf x d).sw
                        else (domOf x d).sw) ∧
      u.safety = x.safety ∧ u.lanes = s.lanes ∧ u.ports = s.ports ∧ u.cmds = s.cmds ∧ u.cfg = s.cfg)) ∧
  ∀ (n : Nat) (pos : Fin 16) (slot : Fin 5) (s : State) (lane : Fin 17) (g : Program) (v : Word),
    let d := slotDom pos slot
    let D := domOf s d
    let code := clampInt 0 1023 (rdiv ((v.toInt - 26214400) * 8) 327680)
    let arrives := D.downBad = false ∧ s.clk.stretch = false ∧ D.stHeld = false
    joined (now (250 * n + 50 * slot) s) d = false → D.use.runs = true → D.use.applied = true → D.fallback = false →
    floorClampActs s d = false → s.clk.crstBusy = false → s.mism = [] → 4 ≤ slotBudget s →
    vget s.laneOf pos = some lane → boundProg s d = some g → g.unusable = false →
    g.sections = [[cleWord 0x0A 1 0 0 0, cleWord 0x11 0 1 0 0, cleWord 0x02 0 0 0 0]] → g.consts = [v] →
    Answers (.cleSlot n pos slot [] []) s (fun u =>
      ((domOf u d).code : Int) = code ∧ (domOf u d).hubArm = false ∧
      (arrives → ((domOf u d).stCode : Int) = code ∧ (domOf u d).flareArm = false) ∧
      (¬arrives → (domOf u d).stCode = D.stCode ∧ (domOf u d).flareArm = D.flareArm) ∧
      (domOf u d).overruns = 0 ∧ (domOf u d).sw = D.sw ∧ (domOf u d).thrReq = 0 ∧
      (∀ e : Dom, e.val ≠ d → vget u.dom e = vget s.dom e) ∧ u.safety = s.safety ∧ u.ports = s.ports ∧ u.cmds = s.cmds)

/-- A slot that does not commit and the third overrun (R118, R150, R171, R172): without a lane DEADLINE is queued as contained with
cause 1 and instance 0x80 + position once, without a usable program with cause 2 and the lane; no state word changes and the
previous code stays; after three overruns a LIT or SHADE domain past its soft start is held with VREF at its code, fall-back
ends, and HELD is reported; one in soft start goes DARK instead. -/
def Obligations.SlotOverrun : Prop :=
  (∀ (n : Nat) (pos : Fin 16) (slot : Fin 5) (s : State), let d := slotDom pos slot
    (domOf s d).use.runs = true → s.clk.crstBusy = false → s.mism = [] → joined (now (250 * n + 50 * slot) s) d = false →
    floorClampActs s d = false →
    let kept := fun u : State => (domOf u d).code = (domOf s d).code ∧ (domOf u d).sw = (domOf s d).sw ∧
      (∀ e : Dom, e.val ≠ d → vget u.dom e = vget s.dom e) ∧ u.ports = s.ports ∧ u.cmds = s.cmds
    (vget s.laneOf pos = none → (domOf s d).noLane = false → Answers (.cleSlot n pos slot [] []) s (fun u =>
      (∃ m, u.safety.queue = s.safety.queue ++ [m] ∧ fKindOf m.bits = 0x10 ∧ fClass m.bits = 1 ∧ fInst m.bits = 0x80 + pos ∧
        fDetail m.bits / 2 ^ 28 = 1) ∧ (domOf u d).noLane = true ∧ kept u)) ∧
    (vget s.laneOf pos = none → (domOf s d).noLane = true → Answers (.cleSlot n pos slot [] []) s (fun u =>
      u.safety = s.safety ∧ (domOf u d).noLane = true ∧ kept u)) ∧
    (∀ lane : Fin 17, vget s.laneOf pos = some lane → (∀ g, boundProg s d = some g → g.unusable = true) →
      Answers (.cleSlot n pos slot [] []) s (fun u =>
        (∃ m, u.safety.queue = s.safety.queue ++ [m] ∧ fKindOf m.bits = 0x10 ∧ fClass m.bits = 1 ∧ fInst m.bits = lane ∧
          fDetail m.bits / 2 ^ 28 = 2) ∧ kept u))) ∧
  ∀ (d : Dom) (t : Nat) (s : State), 3 ≤ (domOf s d).overruns → isOdd s d = false →
    (domOf s d).state = .lit ∨ (domOf s d).state = .shade → (domOf s d).held = false → s.time.gtc ≤ t →
    (inSoftStart (domOf s d) = false → (domOf s d).tr.ph ≠ .discharge → Answers (.overrunHeld d t) s (fun u =>
      (domOf u d).held = true ∧ (domOf u d).overruns = 0 ∧ u.ints = s.ints ++ [{ dom := d, what := .held .overrun, at_ := t }] ∧
      (domOf u d).fallback = false ∧ (domOf u d).prof.vref = 26214400 + 40960 * ((domOf s d).code : Int) ∧
      (domOf u d).cells = (domOf s d).cells ∧ OtherDomainsSame s u d ∧ u = { now t s with dom := u.dom, ints := u.ints })) ∧
    (inSoftStart (domOf s d) = true → Answers (.overrunHeld d t) s (fun u =>
      Discharging (domOf u d) t ∧ (domOf u d).overruns = 0 ∧ u.ints = s.ints ++ [{ dom := d, what := .dark false, at_ := t }] ∧
      OtherDomainsSame s u d ∧ u = { now t s with dom := u.dom, ints := u.ints }))

/-! ### Lantern, RC and the tile inputs (chapters 02 and 09) -/

/-- A Lantern interval and a window's end (R191, R199 to R201, R205, R206): a domain that Lantern does not run presents zero next; one
that it runs presents its model's four predictions × 2^10 and keeps them as outstanding when the checks pass, and zero, counted, when
one fails; with every check passed no message is queued. A window's end keeps its sums as the last ones, and a second failing window
in a row switches feed-forward off. A control reset leaves all of it undone (R365). The end of an RC bin (R211, R213): with learning in order,
bin j − RC_L becomes bin − leak + learning, saturated to 16 bits, every other bin stays; the first saturated update of a step is reported,
RC_SAT as corrected (R214); an excluded bin, one below RC_L and an RC
that is not active teach nothing; the next bin starts empty, and after bin 4,095 the RC unlocks. -/
def Obligations.LanternAndRc : Prop :=
  ((∀ (m : Nat) (faults : List InfFault) (s : State), s.clk.crstBusy = false →
     let verdict := fun (d : Dom) (M : Model) => checkedInfer (upsetsOf faults d) M (normFeatures M (rawFeatures (now (1000 * m) s) d))
     let runs := fun d : Dom => lanternRuns s s.lanternFail d
     Answers (.lanternInterval m faults) s (fun u =>
       (∀ d : Dom, runs d = false → (vget u.dom d).lant.nextPred = Vector.replicate 4 0) ∧
       (∀ (d : Dom) (M : Model), runs d = true → boundModel s d = some M →
         (∀ y, verdict d M = .ok y → (∀ h : Fin 4, vget (vget u.dom d).lant.nextPred h = y.getD h 0 * 1024) ∧
           ∃ o ∈ (vget u.dom d).lant.open_, o.at_ = 1000 * m ∧ (∀ h : Fin 4, vget o.y h = y.getD h 0) ∧ o.acts = Vector.replicate 4 none) ∧
         (∀ e, verdict d M = .error e → (vget u.dom d).lant.nextPred = Vector.replicate 4 0 ∧
           (vget u.dom d).lant.open_ = (vget s.dom d).lant.open_ ∧ ctrOf (vget u.dom d) 10 = ctrOf (vget s.dom d) 10 + 1)) ∧
       ((∀ (d : Dom) (M : Model), runs d = true → boundModel s d = some M → ∃ y, verdict d M = .ok y) →
         u.safety = s.safety ∧ u.ints = s.ints ∧ u.lanternFail = s.lanternFail) ∧
       u.ports = s.ports ∧ u.cfg = s.cfg ∧ u.cmds = s.cmds)) ∧
   ∀ (w : Nat) (s : State), s.clk.crstBusy = false →
     Answers (.lanternWindowEnd w) s (fun u =>
       (∀ d : Dom, isAbsent s d = false → isOdd s d = false →
         let sums := if (vget s.dom d).lant.winStart = 1024000 * w then (vget s.dom d).lant.sums else ErrSums.zero
         (vget u.dom d).lant.last = sums ∧ (vget u.dom d).lant.lastAt = 1024000 * w ∧
         (256 ≤ vget sums.n 0 → (∃ h : Fin 4, (failsAt (cfgAt s d).lim sums h).1 = true ∨ (failsAt (cfgAt s d).lim sums h).2 = true) →
           (vget s.dom d).lant.failRun = 1 → ∃ i ∈ u.ints, i.dom = d ∧ i.what = .featOff true false)) ∧
       (∀ d : Dom, isAbsent s d = true ∨ isOdd s d = true → vget u.dom d = vget s.dom d) ∧ u.cfg = s.cfg ∧ u.ports = s.ports)) ∧
  (∀ (n : Nat) (faults : List InfFault) (d : Dom) (s : State), s.clk.crstBusy = true →
     exec (.lanternInterval n faults) s = .next (now (1000 * n) s) ∧ exec (.lanternWindowEnd n) s = .next (now (1024000 * (n + 1) + 2000) s) ∧
     exec (.rcBinEnd d n) s = .next (now n s)) ∧
  (∀ (d : Dom) (t : Nat) (s : State), let R := (domOf s d).rc
     let c := (cfgAt s d).rc
     let next := fun u : State => (domOf u d).rc.cnt = 0 ∧ (domOf u d).rc.esum = 0 ∧ (domOf u d).rc.excl = false ∧
       (if R.idx < 4095 then (domOf u d).rc.idx = R.idx + 1 ∧ (domOf u d).rc.locked = true
        else (domOf u d).rc.idx = 0 ∧ (domOf u d).rc.locked = false) ∧
       (∀ e : Dom, e ≠ d → vget u.dom e = vget s.dom e) ∧ u = { now t s with dom := u.dom, safety := u.safety, ints := u.ints }
     s.clk.crstBusy = false → isAbsent s d = false → isOdd s d = false → R.locked = true → 2 ^ c.k ≤ R.cnt →
     (R.excl = true ∨ R.idx < c.l ∨ rcActive s d = false → Answers (.rcBinEnd d t) s (fun u => (domOf u d).rc.bins = R.bins ∧ next u ∧ u.safety = s.safety ∧ u.ints = s.ints)) ∧
     (rcActive s d = true → R.excl = false → c.l ≤ R.idx →
     let bin := (R.bins.read (R.idx - c.l)).toInt
     let v := bin - (if c.f = 0 ∨ 16 ≤ c.f then (if c.f = 0 then bin else 0) else rne bin c.f) +
       (let e := if c.k = 0 then R.esum else rne R.esum c.k; if c.g = 0 then e else rne e c.g)
     R.bins.wf = true →
     Answers (.rcBinEnd d t) s (fun u =>
       ((domOf u d).rc.bins.read (R.idx - c.l)).toInt = Min.min (Max.max v (-32768)) 32767 ∧
       (-32768 ≤ v ∧ v ≤ 32767 → u.safety = s.safety ∧ u.ints = s.ints) ∧
       (v < -32768 ∨ 32767 < v → R.satStep = 0 → s.safety.queue.length ≤ 768 → ∃ m l, u.safety.queue = s.safety.queue ++ m :: l ∧
         fKindOf m.bits = 0x16 ∧ fClass m.bits = 0 ∧ fUnit m.bits = 0x4 ∧ fInst m.bits = d) ∧
       (∀ j, j ≠ R.idx - c.l → (domOf u d).rc.bins.read j = R.bins.read j) ∧ (domOf u d).rc.bins.wf = true ∧ next u)))

/-- What a present tile site delivers (R24, R40, R44, R193, R210): WAIT rises and falls, a fall that ends the waiting of its tile or pair has its
reclaim due, unless that of an earlier fall still is (R231), and aborts parking; a sample moves the last one back, counted as missed behind four
unread; a hint without HINT_VLD changes nothing, one that finds eight in its crossing is dropped and counted, another joins the table of at most
four (how long within 2 tile and 3 CCLK cycles it stays in the crossing is the model's free value, log 69); a step mark toggles and waits at the
site's own RC. The frequency handshake of a present site (R42 to R44, R147): readiness is kept once requested, the acknowledgement of a pulsed
switch waits for the next frame start, and a change that missed its time, or a deferred raise 20 µs after its switch GTC, is withdrawn: the old code
is requested again at every site of the tile or pair and CLK_SWITCH is queued as contained for the first withdrawal of a committed code. -/
def Obligations.TileBoundary : Prop :=
  (∀ (x : Site) (counts : Vector (BitVec 16) 8) (h : Hint) (t : Nat) (s : State), isAbsent s x = false →
     let T := (domOf s x).tile
     exec (.tileWait x t) s = .next (setTile (now t s) x (fun y => { y with wait := true })) ∧
     (waiting s (leader s x) = false → exec (.tileWake x t) s = .next (setTile (now t s) x (fun y => { y with wait := false }))) ∧
     (waiting s (leader s x) = true → Answers (.tileWake x t) s (fun u =>
       (domOf u x).tile.wait = false ∧ (domOf u (leader s x)).arb.wakeAt = some ((domOf s (leader s x)).arb.wakeAt.getD (now t s).time.gtc) ∧
       (domOf u (leader s x)).arb.waitRun = 0 ∧ (domOf u (leader s x)).park.abort = true ∧
       (∀ e : Dom, e.val ≠ x.val → e.val ≠ leader s x → vget u.dom e = vget s.dom e) ∧ u = { now t s with dom := u.dom })) ∧
     exec (.actSample x counts t) s = .next (setTile (now t s) x (fun y =>
       { y with act := counts, act1 := T.act, actQ := Nat.min (T.actQ + 1) 4, missed := if 4 ≤ T.actQ then T.missed + 1 else T.missed })) ∧
     (let crossing := T.hintQ.filter (fun g => decide (t < g))
      exec (.tileHint x h false t) s = .next (now t s) ∧
      (8 ≤ crossing.length → exec (.tileHint x h true t) s = .next (setTile (now t s) x (fun y => { y with hintDrop := y.hintDrop + 1 }))) ∧
      (crossing.length < 8 → Answers (.tileHint x h true t) s (fun u =>
        let L := (domOf s (leader s x)).lant.hints
        (∃ e, (domOf u (leader s x)).lant.hints = (if 4 ≤ L.length then L.drop 1 else L) ++ [e] ∧ e.cls = h.cls ∧
          e.eta = h.eta.toNat ∧ e.inten = h.inten.toNat ∧ e.dur = h.dur.toNat) ∧
        (let p := s.clk.pllC
         let n := if s.clk.ccur = 1 then 25 * p.ndiv.toNat else 180
         let q := if s.clk.ccur = 1 then p.rdiv.toNat * p.pdiv.toNat else 1
         let f := 1600 + 25 * T.freqIn
         ∃ stay, stay * (f * n) ≤ 4000 * 2 ^ T.thrDiv.toNat * n + 3000 * q * f ∧ (domOf u x).tile.hintQ = crossing ++ [t + stay]) ∧ (domOf u x).tile.hintAcc = true ∧
        (∀ e : Dom, e.val ≠ x.val → e.val ≠ leader s x → vget u.dom e = vget s.dom e) ∧
        u = { now t s with dom := u.dom, freeIdx := u.freeIdx }))) ∧
     Answers (.tileStepMark x t) s (fun u =>
       (domOf u x).tile.stepTog = !T.stepTog ∧
       (isOdd s x = false → (cfgAt s x).rc.src = 0x80 → (domOf u x).rc.mark = true) ∧
       (∀ e : Dom, e.val ≠ x.val → takesMarksOf s x e = false → vget u.dom e = vget s.dom e) ∧ u = { now t s with dom := u.dom })) ∧
  (∀ (x : Site) (t : Nat) (s : State) (c : FreqChange),
     (isAbsent s x = false → (domOf s x).tile.change = some c →
       (c.req = true → exec (.freqRdy x t) s =
         .next (setTile (now t s) x (fun y => { y with change := some { c with rdy := true } }))) ∧
       (c.go = true → exec (.freqAck x t) s = .next (setTile (now t s) x (fun y => { y with pendIn := some c.code })))) ∧
     (let d := leader s x
      (domOf s d).tile.change = some c → c.req = true →
      ∀ row : Instr, (row = .freqWithdraw x t ∧ withdrawDue (now t s) c = true) ∨ (row = .freqDeferTimeout x t ∧ deferDue (now t s) d c = true) →
      Answers row s (fun u =>
        (∀ y ∈ membersOf s d, y < 80 → let T := (domOf s y).tile
          (domOf u y).tile = { T with change := none, withdrawn := some c.code, freqCode := (domOf s d).tile.freqIn, freqReq := !T.freqReq }) ∧
        u.safety.queue = s.safety.queue ++ (if (domOf s d).tile.withdrawn = some c.code then []
          else [{ bits := faultWord 1 0x31 0xA (0x40 + d) 0 (epochIn (now t s)), from_ := none, ext := 0 }]) ∧
        (∀ e : Dom, e.val ∉ membersOf s d → vget u.dom e = vget s.dom e) ∧
        u = { now t s with dom := u.dom, safety := { s.safety with queue := u.safety.queue } })))

/-! ### Frames and links (chapters 01 and 02) -/

/-- A frame latch and a frame start (R16, R17, R38, R39, R169, R251, R354): every sampled station off a joined pair takes its voltage
and the sum of its cells' reported currents, one without a sample keeps its voltage, and the hub takes both, on stretched links those
of even frames alone; a frame start brings band and saturated maximum temperature to the CLE, makes the latched values those that the
slots read and the station's code the last whole frame's, marks the stations whose record was lost, and, with the control logic out of
reset, takes every retired lane from its position. -/
def Obligations.Frames : Prop :=
  (∀ (n : Nat) (sense : List SenseSample) (s : State), (sense.map (fun x => x.dom)).Nodup →
    Answers (.frameLatch n sense) s (fun u =>
      (∀ x ∈ sense, isAbsent s x.dom = false → Single s x.dom →
        (vget u.dom x.dom).vmeas = x.vmeas ∧ (vget u.dom x.dom).eFrame = x.energy) ∧
      (∀ d : Dom, Single s d →
        ((∀ x ∈ sense, x.dom ≠ d) → (vget u.dom d).vmeas = (vget s.dom d).vmeas ∧ (vget u.dom d).eFrame = 0) ∧
        (vget u.dom d).imeas = ((List.range (nCells d)).map (fun k => repI (cellOf (vget s.dom d) k).rep)).sum) ∧
      (∀ d : Dom, (vget u.dom d).vPrev = (vget s.dom d).vHub ∧ (vget u.dom d).iPrev = (vget s.dom d).iHub ∧
        (if s.clk.stretch = true ∧ n % 2 = 1 then (vget u.dom d).vHub = (vget s.dom d).vHub ∧ (vget u.dom d).iHub = (vget s.dom d).iHub
         else (vget u.dom d).vHub = (vget u.dom d).vmeas ∧ (vget u.dom d).iHub = (vget u.dom d).imeas)) ∧
      u.cfg = s.cfg ∧ u.ports = s.ports ∧ u.cmds = s.cmds ∧ u.records = s.records)) ∧
  ∀ (n : Nat) (s : State),
    Answers (.frameStart n) s (fun u =>
      (∀ d : Dom, (vget u.dom d).band = (vget s.dom d).bandNew ∧ (vget u.dom d).codeFrame = (vget s.dom d).stCode ∧
        (vget u.dom d).maxT = clampInt (-2048) 2047 (vget s.dom d).tempNew ∧ (vget u.dom d).vFr = (vget s.dom d).vHub ∧
        (vget u.dom d).iFr = (vget s.dom d).iHub ∧
        ((vget u.dom d).downBad = false ↔ (linkOf s (dieOf d)).trained = true ∧ (now (250 * n) s).time.gtc ∉ (linkOf s (dieOf d)).badDn ∧
          (linkOf s (dieOf d)).taken ≠ some (now (250 * n) s).time.gtc)) ∧
      (s.clk.crstBusy = false →
        (∀ (p : Fin 16) (l : Fin 17), vget u.laneOf p = some l → (vget s.lanes l).retired = false) ∧
        (s.mism = [] → (∀ p : Fin 16, ∃ l, vget s.laneOf p = some l ∧ (vget s.lanes l).retired = false) → u.laneOf = s.laneOf) ∧
        u.mism = []) ∧ u.records = s.records ∧ u.cmds = s.cmds)

/-- The station links (R37 to R39, R118, R119, R354): a good frame ends a run, and one with bits of its own brings its sums to the hub,
or its set-point, order and cell-map sequence to the stations; a bad one, and any on FOSC with a domain in use, is discarded whole: the
first of a run queues PARITY as corrected, the hub keeps the previous values and loses the frame's activity, hints and marks, a
station keeps its record; four in a row lose the link, contained, and hold its LIT and SHADE domains; a finished training keeps its
latency; 64 good frames bring the held domains back. Stations of other dies stay. A run counts per direction by the model's choice
(log 71), and what acts at a station during a bad frame is its reading (log 47). -/
def Obligations.StationLinks : Prop :=
  ∀ (e : Fin 5) (lat t : Nat) (s : State), let l := linkOf s e
    let g := (now t s).time.gtc
    let parity := fun run : Nat => s.safety.queue ++ (if run = 0 then
      [{ bits := faultWord 0 0x40 0x6 (0xF0 + e) 0 (epochIn (now t s)), from_ := none, ext := 0 }] else [])
    (l.trained = true → linkFits s = true →
      exec (.linkUpFrame e .intact t) s =
        .next (setLink (now t s) e (fun k => { k with upBad := 0, good := if l.lost then l.good + 1 else 0 })) ∧
      exec (.linkDownFrame e .intact t) s = .next (setLink (now t s) e (fun k => { k with dnBad := 0 })) ∧
      (∀ b f, readUp b = some f → Answers (.linkUpFrame e (.received b) t) s (fun u =>
        (∀ (i : Nat) (d : Nat) (r : UpRec), (domsOfDie e)[i]? = some d → f.recs[i]? = some r →
          (domOf u d).vHub = r.vmin ∧ (domOf u d).iHub = r.cur.toNat) ∧
        linkOf u e = { l with upBad := 0, good := if l.lost then l.good + 1 else 0 } ∧
        (∀ d : Dom, dieOf d ≠ e → vget u.dom d = vget s.dom d) ∧ u = { now t s with dom := u.dom, links := u.links })) ∧
      (∀ b f, readDown b = some f → Answers (.linkDownFrame e (.received b) t) s (fun u =>
        (∀ (i : Nat) (d : Nat) (r : DownRec), (domsOfDie e)[i]? = some d → f.recs[i]? = some r → Single s d → isAbsent s d = false →
          (domOf u d).stSeq = r.seq ∧ (r.order = 3 → (domOf u d).stHeld = true ∧ (domOf u d).stCode = (domOf s d).stCode) ∧
          (r.order.toNat < 3 → (domOf u d).stHeld = false ∧ (domOf u d).stOrder = r.order ∧ (domOf u d).stCode = r.code.toNat ∧
            (domOf u d).flareArm = r.arm ∧ (domOf u d).stDiv = r.div ∧ (domOf u d).stSkip = r.skip)) ∧
        linkOf u e = { l with dnBad := 0, taken := some g } ∧
        (∀ d : Dom, dieOf d ≠ e → Single s d → vget u.dom d = vget s.dom d) ∧ u = { now t s with dom := u.dom, links := u.links }))) ∧
    (l.trained = true → s.safety.queue.length ≤ 768 →
      (∀ rx : LinkRx 3200, linkFits s = false ∨ (∃ b, rx = .received b ∧ readUp b = none) → Answers (.linkUpFrame e rx t) s (fun u =>
        linkOf u e = { l with upBad := l.upBad + 1, good := 0, bad := l.bad + 1, badUp := (g :: l.badUp).take 16 } ∧
        (∀ d : Dom, dieOf d = e → (vget u.dom d).vHub = (vget s.dom d).vPrev ∧ (vget u.dom d).iHub = (vget s.dom d).iPrev ∧
          (vget u.dom d).tile = { (vget s.dom d).tile with act := (vget s.dom d).tile.act1 } ∧
          (vget u.dom d).lant.hints = (vget s.dom d).lant.hints.filter (fun h => !h.new)) ∧
        (∀ d : Dom, (∃ x : Site, dieOf x = e ∧ takesMarksOf s x d = true) → (vget u.dom d).rc = { (vget s.dom d).rc with mark := false }) ∧
        (∀ d : Dom, (∀ x : Site, dieOf x = e → takesMarksOf s x d = false) → (vget u.dom d).rc = (vget s.dom d).rc) ∧
        (∀ d : Dom, dieOf d ≠ e → (∀ x : Site, dieOf x = e → takesMarksOf s x d = false) → vget u.dom d = vget s.dom d) ∧
        u.safety.queue = parity l.upBad ∧
        u = { now t s with dom := u.dom, links := u.links, safety := { s.safety with queue := u.safety.queue } })) ∧
      (∀ rx : LinkRx 1600, linkFits s = false ∨ (∃ b, rx = .received b ∧ readDown b = none) → Answers (.linkDownFrame e rx t) s (fun u =>
        linkOf u e = { l with dnBad := l.dnBad + 1, good := 0, bad := l.bad + 1, badDn := (g :: l.badDn).take 16 } ∧
        (∀ d : Dom, vget u.dom d = if dieOf d = e then { vget s.dom d with downBad := true } else vget s.dom d) ∧
        u.safety.queue = parity l.dnBad ∧
        u = { now t s with dom := u.dom, links := u.links, safety := { s.safety with queue := u.safety.queue } }))) ∧
    (l.trained = true → 4 ≤ l.upBad ∨ 4 ≤ l.dnBad → Answers (.linkLost e t) s (fun u =>
      linkOf u e = { l with lost := true, trained := false, good := 0, upBad := 0, dnBad := 0, lostAt := g } ∧
      (∃ m ∈ u.safety.queue, m.bits = faultWord 1 0x40 0x6 (0xF0 + e) 0 (epochIn (now t s))) ∧
      (∀ d : Dom, dieOf d = e → Single s d → (vget s.dom d).state = .lit ∨ (vget s.dom d).state = .shade → (vget s.dom d).held = false →
        inSoftStart (vget s.dom d) = false → (vget s.dom d).tr.ph ≠ .discharge →
        (vget u.dom d).held = true ∧ (vget u.dom d).stHeld = true ∧ ∃ i ∈ u.ints, i.dom = d ∧ i.what = .held .linkLost) ∧
      (∀ d : Dom, dieOf d ≠ e → Single s d → vget u.dom d = vget s.dom d) ∧ u.cfg = s.cfg ∧ u.cmds = s.cmds)) ∧
    (l.trained = false → exec (.linkTrained e true lat t) s = .next (setLink (now t s) e
      (fun k => { k with trained := true, lat := lat, good := 0, upBad := 0, dnBad := 0, upAt := t }))) ∧
    exec (.linkTrained e false lat t) s = .next (now t s) ∧
    (l.lost = true → l.trained = true → 64 ≤ l.good → Answers (.linkRestored e t) s (fun u =>
      linkOf u e = { l with lost := false } ∧
      (∀ d : Dom, dieOf d = e → (vget s.dom d).held = true → isOdd s d = false → ∃ i ∈ u.ints, i.dom = d ∧ i.what = .resume) ∧
      u = { now t s with links := u.links, ints := u.ints }))

/-! ### Thermal (chapter 11) -/

/-- A thermal sample (R26, R243, R245 to R251, R264, R368): its start begins the ticks once; at its completion the written limits are in force,
a sensor that is read keeps the reading with its offset from the characterisation record, an error keeps the last one and counts, the domain
maximum is the highest reading of the domain's counted sensors, or where it has none of its die's, and its band rises at once and falls only
below the bound by the hysteresis. Only thermal state, the maxima, bands and hot flags of domains, tests and their events, and messages change. That
a hub domain takes its die's sensors only where none of its own counts is the model's reading (log 74). -/
def Obligations.ThermalSample : Prop :=
  ∀ (convs : Vector Conv 320) (t : Nat) (s : State),
    exec (.thermalSampleStart t) s =
      .next { now t s with therm := { s.therm with startAt := (now t s).time.run, tick0 := some (s.therm.tick0.getD (now t s).time.run) } } ∧
    Answers (.thermalSampleComplete convs t) s (fun u =>
      let plain := fun x : Nat => (x < 304 → (linkOf s (sensDie x)).trained = true) ∧ (sensorAt s x).live = false
      let counted := fun x : Nat => s.therm.excl.getLsbD x = false ∧ sensAbsent s x = false
      let internal := fun (x : Nat) (raw : Int) => Min.min (Max.max (raw + (match s.char with | some r => vget r.sensOff x | none => 0)) (-4096)) 4095
      let highest := fun (l : List Nat) (T : Int) => (∀ x ∈ l, counted x → (sensorAt u x).rd ≤ T) ∧ ∃ x ∈ l, counted x ∧ (sensorAt u x).rd = T
      u.therm.valid = true ∧ u.therm.act.crit = s.therm.crit.toNat ∧ u.therm.act.throt = s.therm.throt.toNat ∧
      u.therm.act.bands = s.therm.bands ∧ u.therm.act.hyst = s.therm.hyst.toNat ∧ u.therm.tripped = s.therm.tripped ∧
      (∀ (x : Fin 320) (raw : Int), plain x → vget convs x = .reading raw → -640 ≤ internal x raw →
        (sensorAt u x).rd = internal x raw ∧ (sensorAt u x).valid = true) ∧
      (∀ x : Fin 320, plain x → vget convs x = .error ∨ (∃ raw, vget convs x = .reading raw ∧ internal x raw < -640) →
        (sensorAt u x).rd = (sensorAt s x).rd ∧ (sensorAt u x).valid = false ∧ (sensorAt u x).fails = (sensorAt s x).fails + 1) ∧
      (∀ d : Dom, Single s d → isAbsent s d = false → (∀ x ∈ sensorsOf d, plain x) →
        let T := (domOf u d).tempNew
        let b := (domOf s d).bandNew
        let up := bandAt s.therm.bands T
        ((∃ x ∈ sensorsOf d, counted x) → highest (sensorsOf d) T) ∧
        ((∀ x ∈ sensorsOf d, ¬counted x) → (∀ x ∈ dieSensors (dieOf d), plain x) →
          ((∃ x ∈ dieSensors (dieOf d), counted x) → highest (dieSensors (dieOf d)) T) ∧
          ((∀ x ∈ dieSensors (dieOf d), ¬counted x) → T = (domOf s d).tempNew)) ∧
        (domOf u d).bandNew = if b < up then up else if b = 0 ∨ bandLo s.therm.bands b - s.therm.hyst.toNat ≤ T then b else up) ∧
      (∀ d : Dom, let E := vget u.dom d
        E = { vget s.dom d with tempNew := E.tempNew, bandNew := E.bandNew, throt := E.throt, hot := E.hot, riseHold := E.riseHold,
                                riseMsg := E.riseMsg }) ∧
      u = { now t s with therm := u.therm, dom := u.dom, safety := u.safety, ports := u.ports, tests := u.tests })

/-- The trip (R243, R257, R258, R261): a confirming reading within 1 °C of TH_CRIT sets the latch and drives the pin low, queues TH_CRIT as fatal
with the sensor and the reading, bit 0 set when the last trip is less than an hour old, and puts every domain into DARK at once; while a control
reset holds the collector the safe state comes at once (R365); a lower one counts as a failed conversion, an error declares the sensor failed
(R248); a die silent for 1 ms trips (R249). Thermal timers and limits (R46, R246, R254, R259, R260, R264): fast sampling ends 1 ms after the last
condition, a hot domain's 1 ms ends, the restart releases latch and pin, unverifies the rails and resets the control path, but not while XB is lost;
a limit write that keeps the order and ranges is stored, any other sets CFG_REJ, and TH_CRIT is read only once locked. -/
def Obligations.ThermalTripAndLimits : Prop :=
  (∀ (x : Fin 320) (raw : Int) (t : Nat) (s : State), s.therm.tripped = false → x ∈ s.therm.cands →
     let g := Nat.max s.time.gtc t
     let run := (now t s).time.run
     let r := Min.min (Max.max (raw + (match s.char with | some c => vget c.sensOff x | none => 0)) (-4096)) 4095
     let again := match s.therm.tripAt with | some last => if run < last + 3600000000000 then 1 else 0 | none => 0
     let detail := x.val * 2 ^ 23 + (BitVec.ofInt 13 r).toNat * 2 ^ 10 + again
     ((s.therm.act.crit : Int) - 16 ≤ r → Answers (.tripConfirm x (.reading raw) t) s (fun u =>
       u.therm.tripped = true ∧ u.therm.pinLow = true ∧ u.therm.cands = [] ∧ u.therm.tripAt = some run ∧
       (∀ last, s.therm.tripAt = some last → run < last + 3600000000000 → u.therm.noRestart = true) ∧
       u.safety.queue = s.safety.queue ++
         [{ bits := faultWord 2 0x20 0x8 (thInst (sensLeader s x)) detail (epochIn (now t s)), from_ := none, ext := 0 }] ∧
       (∀ d : Dom, Single s d → isAbsent s d = false → ((domOf s d).state ≠ .dark ∨ (domOf s d).en = true) → s.clk.crstBusy = false →
         Discharging (domOf u d) g ∧ ∃ i ∈ u.ints, i.dom = d ∧ i.what = .dark false ∧ i.at_ = g) ∧
       (s.clk.crstBusy = true → u.safety.safe = true ∧ u.safety.pin = false) ∧
       (s.clk.crstBusy = false →
         u = { now t s with therm := u.therm, dom := u.dom, safety := { s.safety with queue := u.safety.queue }, ints := u.ints }))) ∧
     (r < (s.therm.act.crit : Int) - 16 → -640 ≤ r → (sensorAt s x).fails = 0 → (sensorAt s x).critFails = 0 →
       ((sensorAt s x).valid = true → (s.therm.act.crit : Int) ≤ (sensorAt s x).rd) → Answers (.tripConfirm x (.reading raw) t) s (fun u =>
       sensorAt u x = { sensorAt s x with fails := 1 } ∧ (∀ y : Fin 320, y ≠ x → sensorAt u y = sensorAt s y) ∧
       u.therm.cands = s.therm.cands.erase x ∧
       u = { now t s with therm := { s.therm with sens := u.therm.sens, cands := u.therm.cands } })) ∧
     Answers (.tripConfirm x .error t) s (fun u =>
       u.therm.excl.getLsbD x = true ∧ u.therm.tripped = false ∧ u.therm.cands = s.therm.cands.erase x ∧
       (∀ y : Fin 320, y ≠ x → u.therm.excl.getLsbD y = s.therm.excl.getLsbD y ∧ sensorAt u y = sensorAt s y) ∧
       u = { now t s with therm := { s.therm with sens := u.therm.sens, cands := u.therm.cands, excl := u.therm.excl },
                          safety := { s.safety with queue := u.safety.queue, nDrop := u.safety.nDrop } })) ∧
  (∀ (e : Fin 5) (t : Nat) (s : State), vget s.therm.dieOut e = false → vget s.therm.dieAt e + 1000000 ≤ (now t s).time.run →
     s.clk.crstBusy = false →
     Answers (.dieSilent e t) s (fun u =>
       u.therm.tripped = true ∧ (s.therm.tripped = false → u.therm.pinLow = true) ∧ vget u.therm.dieOut e = true ∧
       ∃ m1 l, u.safety.queue = s.safety.queue ++ m1 :: l ∧ fKindOf m1.bits = 0x23 ∧ fClass m1.bits = 1 ∧ fInst m1.bits = 0xF0 + e ∧
         (s.therm.tripped = true → l = []) ∧
         (s.therm.tripped = false → ∃ m2, l = [m2] ∧ fKindOf m2.bits = 0x20 ∧ fClass m2.bits = 2 ∧ fInst m2.bits = 0xF0 + e))) ∧
  (∀ (d : Dom) (val : Word) (t : Nat) (s : State),
     let run := (now t s).time.run
     (s.therm.fastAt + 1000000 ≤ run → exec (.fastSamplingEnd t) s = .next { now t s with therm := { s.therm with fast := false } }) ∧
     (run < s.therm.fastAt + 1000000 → exec (.fastSamplingEnd t) s = .next (now t s)) ∧
     Answers (.hotHoldEnd d t) s (fun u =>
       (∀ e : Dom, vget u.dom e = if e.val ∈ membersOf s (leader s d) ∧ (vget s.dom e).riseHold ≤ run then { vget s.dom e with hot := false }
                                  else vget s.dom e) ∧
       u = { now t s with dom := u.dom }) ∧
     (∀ c, s.therm.tripped = true → s.therm.noRestart = false → s.therm.coolAt = some c → c + 100000000 * s.therm.act.hold ≤ run →
       (vget s.clk.run 6 = false → exec (.thermalRestart t) s = .next (now t s)) ∧
       (vget s.clk.run 6 = true → Answers (.thermalRestart t) s (fun u =>
         u.therm.tripped = false ∧ u.therm.pinLow = false ∧ u.therm.coolAt = none ∧ u.clk.crstBusy = true ∧ u.clk.causes.getLsbD 2 = true ∧
         (∀ i : Fin 5, (convOf u i).verified = false) ∧ u.cmds = [] ∧ u.cfg = s.cfg))) ∧
     (setupOpen s = true → let h := s.therm
       let w := val.extractLsb' 0 12
       let ok := fun k : Thermal =>
         (960 ≤ k.warn.toNat ∧ k.warn.toNat ≤ 2000) ∧ (1280 ≤ k.throt.toNat ∧ k.throt.toNat ≤ 2048) ∧
         (0x6E0 ≤ k.crit.toNat ∧ k.crit.toNat ≤ 0x820) ∧ (640 ≤ k.restart.toNat ∧ k.restart.toNat ≤ 1920) ∧
         (1 ≤ k.hold.toNat ∧ k.hold.toNat ≤ 600) ∧ (16 ≤ k.rise.toNat ∧ k.rise.toNat ≤ 480) ∧ (16 ≤ k.hyst.toNat ∧ k.hyst.toNat ≤ 160) ∧
         (∀ j < 3, k.bands.toNat / 2 ^ (8 * j) % 256 < k.bands.toNat / 2 ^ (8 * (j + 1)) % 256) ∧
         k.restart.toNat + 32 ≤ k.warn.toNat ∧ k.warn.toNat ≤ k.throt.toNat ∧ k.throt.toNat + 32 ≤ k.crit.toNat
       (∀ (off : BitVec 17) (k : Thermal),
         (off = 0x1400 ∧ k = { h with warn := w }) ∨ (off = 0x1404 ∧ k = { h with throt := w }) ∨
         (off = 0x1408 ∧ h.critLock = false ∧ k = { h with crit := w, critLock := val.getLsbD 31 }) ∨
         (off = 0x140C ∧ k = { h with restart := w, hold := val.extractLsb' 16 10 }) ∨ (off = 0x1410 ∧ k = { h with rise := w }) ∨
         (off = 0x1414 ∧ k = { h with bands := val }) ∨ (off = 0x1418 ∧ k = { h with hyst := val.extractLsb' 0 8 }) →
         (ok k → exec (.thLimitWrite off val t) s = .next { ackWrite (now t s) with therm := k }) ∧
         (¬ok k → exec (.thLimitWrite off val t) s = .next { ackWrite (now t s) with therm := { h with cfgRej := true } })) ∧
       (h.critLock = true → exec (.thLimitWrite 0x1408 val t) s = .next { ackWrite (now t s) with therm := { h with cfgRej := true } })))

/-! ### The meter (chapter 12) -/

/-- The scan (R61, R277 to R279): GO starts at the lowest masked channel, is rejected with REJ beside a calibration or with an empty mask and
changes nothing during a scan; the window's length is fixed when the input has settled, by the selection at the channel's start (Table 12-9),
and the cell energy of the window counts from the nearest frame latch (R283); at its end the channel's register takes the exact result with its
flags; a result out of range raises METER_RANGE; the next masked channel follows, or the scan ends and a continuous one begins again, or a
waiting calibration starts. An edge 15.4–22.2 ms after the last is accepted, another is counted; 40 ms without one lose the sync. -/
def Obligations.MeterScan : Prop :=
  ∀ (val : Word) (pos neg mclks t : Nat) (s : State), let m := s.meter
    let run := (now t s).time.run
    (setupOpen s = true → val.toNat / 16 % 16 = 0 → Answers (.mtrGo val t) s (fun u =>
      u.meter.cont = val.getLsbD 1 ∧ u.meter.mains.toNat = val.toNat / 4 % 4 ∧ u.meter.data = m.data ∧ u.meter.ofs = m.ofs ∧
      u.meter.gain = m.gain ∧ u.meter.calCmd = m.calCmd ∧ u.meter.calPend = m.calPend ∧
      (u.meter.mains ≠ m.mains → u.meter.syncLost = true) ∧
      (val.getLsbD 0 = true → m.phase ≠ .cal → m.go = false → m.gated = false → ∀ c : Fin 16, m.mask.getLsbD c = true →
        (∀ j < c.val, m.mask.getLsbD j = false) → u.meter.go = true ∧ u.meter.phase = .settle ∧ u.meter.ch.toNat = c ∧ u.meter.rej = m.rej) ∧
      (val.getLsbD 0 = true → m.phase = .cal ∨ (m.go = false ∧ m.mask = 0) →
        u.meter.rej = true ∧ u.meter.phase = m.phase ∧ u.meter.ch = m.ch ∧ u.meter.go = m.go) ∧
      (val.getLsbD 0 = false ∨ (m.phase ≠ .cal ∧ m.go = true) →
        u.meter.rej = m.rej ∧ u.meter.phase = m.phase ∧ u.meter.ch = m.ch ∧ u.meter.go = m.go) ∧
      ContextsOnly s u ∧ u = { ackWrite (now t s) with meter := u.meter, dom := u.dom })) ∧
    (m.phase = .settle → exec (.meterSettleEnd t) s = .next { now t s with meter := { m with
      phase := .window,
      winN := if m.chMains = 0 then 81920 else if m.chMains = 1 then 68267
              else if m.chMains = 2 then (if m.chLost = true ∧ m.syncLost = true then 81920 else m.period)
              else Nat.min 98304 (Nat.max 16384 m.win.toNat),
      eFrom := if (t + 120) % 250 ≤ 125 then m.cellE else m.eFrom,
      eOpen := decide (125 < (t + 120) % 250) } }) ∧
    (m.phase = .window →
      let c := m.ch.toNat
      let raw := rdiv (((pos : Int) - neg) * 2 ^ 23) m.winN
      let x := rne ((raw - (vget m.ofs c).toInt) * (vget m.gain c).toNat) 22
      let res := Min.min (Max.max x (-8388608)) 8388607
      Answers (.meterWindowEnd pos neg t) s (fun u =>
        (vget u.meter.data c).valid = true ∧ (vget u.meter.data c).res.toInt = res ∧ (vget u.meter.data c).scan = m.scanCnt ∧
        ((vget u.meter.data c).range = true ↔ raw < -419430 ∨ 8388607 < raw ∨ x ≠ res) ∧
        (∀ j < 16, j ≠ c → vget u.meter.data j = vget m.data j) ∧
        ((raw < -419430 ∨ 8388607 < raw ∨ x ≠ res) → s.safety.queue.length ≤ 768 →
          ∃ rest, u.safety.queue = s.safety.queue ++
            { bits := faultWord 0 0x81 0x9 c 0 (epochIn (now t s)), from_ := none, ext := 0 } :: rest) ∧
        (m.calPend = 0 → m.gated = false →
          (∀ n : Fin 16, c < n.val → m.mask.getLsbD n = true → (∀ j < n.val, c < j → m.mask.getLsbD j = false) →
            u.meter.ch.toNat = n ∧ u.meter.phase = .settle ∧ u.meter.scanCnt = m.scanCnt) ∧
          ((∀ n, c < n → n < 16 → m.mask.getLsbD n = false) → u.meter.scanCnt = m.scanCnt + 1 ∧ u.meter.done = true ∧
            (m.cont = false → u.meter.go = false ∧ u.meter.phase = .idle) ∧
            (m.cont = true → ∀ n : Fin 16, m.mask.getLsbD n = true → (∀ j < n.val, m.mask.getLsbD j = false) →
              u.meter.ch.toNat = n ∧ u.meter.phase = .settle ∧ u.meter.go = true))) ∧
        (m.calPend ≠ 0 → u.meter.phase = .cal ∧ u.meter.calCmd = m.calPend ∧ u.meter.calPend = 0) ∧
        (m.calPend = 0 → m.gated = true → u.meter.go = false ∧ u.meter.phase = .idle) ∧
        (c = 1 → ∀ c0, m.c0 = some c0 → u.meter.pIn = if c0 < 0 ∨ res < 0 then 0 else (c0 * res * 15625 / 2 ^ 38).toNat) ∧
        ContextsOnly s u ∧
        u = { now t s with meter := u.meter, dom := u.dom, safety := { s.safety with queue := u.safety.queue, nDrop := u.safety.nDrop },
                           arb := { s.arb with incorr := u.arb.incorr } })) ∧
    (m.mains = 2 → m.lastEdge = none →
      exec (.mainsSyncEdge mclks t) s = .next { now t s with meter := { m with lastEdge := some run, edges := 1 } }) ∧
    (m.mains = 2 → ∀ last, m.lastEdge = some last →
      (last + 15400000 ≤ run → run ≤ last + 22200000 → exec (.mainsSyncEdge mclks t) s =
        .next { now t s with meter := { m with lastEdge := some run, edges := 2, period := mclks, syncLost := false } }) ∧
      (run < last + 15400000 ∨ last + 22200000 < run → Answers (.mainsSyncEdge mclks t) s (fun u =>
        u.meter.edgeRej.toNat = Nat.min 0xFFFF (m.edgeRej.toNat + 1) ∧ u = { now t s with meter := { m with edgeRej := u.meter.edgeRej } })) ∧
      (last + 40000000 ≤ run → exec (.syncLost t) s =
        .next { now t s with meter := { m with syncLost := true, edges := 0, lastEdge := none } }))

/-- Calibration (R280, Table 12-10): a command of Table 12-10 starts with the meter idle and waits for the end of a conversion
otherwise, with the channel and target that its write names; beside a calibration it is ignored with REJ; at its end a system zero
writes OFS := raw, a full scale GAIN, a self-calibration both, of its channel or of all 16, a system value out of bounds sets CALERR and
writes neither, and CALDONE is set. -/
def Obligations.MeterCalibration : Prop :=
  ∀ (val : Word) (t : Nat) (s : State), let m := s.meter
    let k := val.extractLsb' 4 4
    (∀ row : Instr, (row = .calSystemZero val t ∧ k = 1) ∨ (row = .calSystemFullScale val t ∧ k = 2) ∨ (row = .calSelf val t ∧ k = 4) ∨
        (row = .calSelfAll val t ∧ k = 5) →
      let starts := val.getLsbD 0 = true ∧ m.go = false ∧ m.mask ≠ 0 ∧ m.gated = false
      (setupOpen s = false → exec row s = .next (ackWrite (now t s))) ∧
      (setupOpen s = true → Answers row s (fun u =>
        (m.phase = .idle → m.calPend = 0 → ¬starts → u.meter.phase = .cal ∧ u.meter.calCmd = k) ∧
        (m.phase = .idle → m.calPend = 0 → starts → u.meter.phase = .settle ∧ u.meter.go = true ∧ u.meter.calPend = k) ∧
        (m.phase = .settle ∨ m.phase = .window → m.calPend = 0 → u.meter.calPend = k ∧ (¬starts → u.meter.phase = m.phase)) ∧
        (m.phase ≠ .cal → m.calPend = 0 → u.meter.calOn = val.extractLsb' 8 4 ∧ u.meter.calTo = val.extractLsb' 16 16) ∧
        (m.phase = .cal ∨ m.calPend ≠ 0 → u.meter.rej = true ∧ u.meter.calCmd = m.calCmd ∧ u.meter.calPend = m.calPend ∧
          u.meter.calOn = m.calOn ∧ u.meter.calTo = m.calTo ∧ (m.phase = .cal → u.meter.phase = .cal)) ∧
        u.meter.ofs = m.ofs ∧ u.meter.gain = m.gain ∧ u.meter.data = m.data ∧
        ContextsOnly s u ∧ u = { ackWrite (now t s) with meter := u.meter, dom := u.dom }))) ∧
    (∀ res : List CalRaw, m.phase = .cal → (res.map (fun r => r.ch)).Nodup → Answers (.calibrationDone res t) s (fun u =>
      u.meter.calDone = true ∧ (m.go = false → u.meter.phase = .idle) ∧
      (∀ r ∈ res, -8388608 ≤ r.rawZ → r.rawZ ≤ 8388607 → m.calCmd = 5 ∨ r.ch.val = m.calOn.toNat →
        let y := r.rawZ - (vget m.ofs r.ch).toInt
        let g := rdiv (m.calTo.toNat * 256 * 2 ^ 22 : Nat) y
        (m.calCmd = 1 → r.rawZ.natAbs ≤ 83886 → (vget u.meter.ofs r.ch).toInt = r.rawZ ∧ vget u.meter.gain r.ch = vget m.gain r.ch ∧
          u.meter.calErr = m.calErr) ∧
        (m.calCmd = 1 → 83886 < r.rawZ.natAbs → u.meter.ofs = m.ofs ∧ u.meter.gain = m.gain ∧ u.meter.calErr = true) ∧
        (m.calCmd = 2 → 0 < y → 0x300000 ≤ g → g ≤ 0x500000 → (vget u.meter.gain r.ch).toNat = g ∧ u.meter.ofs = m.ofs) ∧
        (m.calCmd = 2 → 0 < y → g < 0x300000 ∨ 0x500000 < g → u.meter.ofs = m.ofs ∧ u.meter.gain = m.gain ∧ u.meter.calErr = true) ∧
        (m.calCmd = 4 ∨ m.calCmd = 5 → r.rawZ < r.rawR → (vget u.meter.ofs r.ch).toInt = r.rawZ ∧
          vget u.meter.gain r.ch = BitVec.ofInt 24 (rdiv (2 ^ 45) (r.rawR - r.rawZ)))) ∧
      (∀ j : Fin 16, (∀ r ∈ res, r.ch = j → m.calCmd ≠ 5 ∧ j.val ≠ m.calOn.toNat) →
        vget u.meter.ofs j = vget m.ofs j ∧ vget u.meter.gain j = vget m.gain j) ∧
      u.meter.data = m.data ∧ ContextsOnly s u ∧
      u = { now t s with meter := u.meter, dom := u.dom, strata := u.strata, freeIdx := u.freeIdx }))

/-! ### Clocks and power modes (chapter 15) -/

/-- Switching the muxes (R355 to R357): a write of a new source starts a mux's switch when the source is ready or the mode is WAITLOW,
and is refused with the field unchanged otherwise, or while that mux switches; at its end the mux has the source and SWDONE stands,
a stopped old clock completes it under CHECKED with SWASYNC and CLK_SWITCH, corrected; one begun under WAITLOW does not complete while its
old or its new clock has stopped. The PLLs (R349 to R351, R358, R360): a configuration write is ignored with CFGREJ while the PLL is selected
or when it breaks the bounds, and a change unlocks the PLL; a lock sets its bit, and at first light begins the switch of its mux under CHECKED;
MCLK runs with its PLL locked and MEN set, but while the clocks are forced it stays stopped; the loss of lock of a PLL in use queues
PLL_UNLOCK as contained. -/
def Obligations.ClocksAndPlls : Prop :=
  (∀ (val : Word) (t : Nat) (s : State), let c := s.clk
     let field := fun (new cur new' : BitVec 2) (busy busy' wait wait' ready refused : Bool) =>
       (new = cur ∨ 1 < new.toNat → new' = cur ∧ busy' = busy ∧ wait' = wait) ∧
       (new ≠ cur → new.toNat ≤ 1 → busy = false → c.swMode = true ∨ ready = true → new' = new ∧ busy' = true ∧ wait' = c.swMode) ∧
       (new ≠ cur → new.toNat ≤ 1 → busy = true ∨ (c.swMode = false ∧ ready = false) →
         new' = cur ∧ busy' = busy ∧ wait' = wait ∧ refused = true)
     let halted := fun (src : BitVec 2) (pll : PllCfg) =>
       if src = 0 then vget c.run 5 = false else pll.en = false ∨ vget c.run 0 = false
     let waits : MuxId → Bool := fun m => match m with | .cclk => c.cWait | .sclk => c.sWait
     let nc : BitVec 2 := val.extractLsb' 0 2
     let ns : BitVec 2 := val.extractLsb' 4 2
     (setupOpen s = false → exec (.clkSrcSwitch val t) s = .next (ackWrite (now t s))) ∧
     (setupOpen s = true → Answers (.clkSrcSwitch val t) s (fun u =>
       field nc c.csrc u.clk.csrc c.cBusy u.clk.cBusy c.cWait u.clk.cWait (if nc = 0 then vget c.run 5 else c.lockC && c.pllC.en && vget c.run 0) u.clk.refused ∧
       field ns c.ssrc u.clk.ssrc c.sBusy u.clk.sBusy c.sWait u.clk.sWait (if ns = 0 then vget c.run 5 else c.lockT && c.pllT.en && vget c.run 0) u.clk.refused ∧
       u.clk.men = val.getLsbD 8 ∧ (u.clk.men ≠ c.men → vget u.clk.run 3 = (u.clk.men && c.lockM && !c.lost)) ∧
       u.clk = { c with csrc := u.clk.csrc, cBusy := u.clk.cBusy, cWait := u.clk.cWait, ssrc := u.clk.ssrc, sBusy := u.clk.sBusy,
                        sWait := u.clk.sWait, refused := u.clk.refused, men := u.clk.men, run := vset c.run 3 (vget u.clk.run 3) } ∧
       ContextsOnly s u ∧ u = { ackWrite (now t s) with clk := u.clk, meter := u.meter, dom := u.dom })) ∧
     (∀ (mux : MuxId) (stopped : Bool), (match mux with | .cclk => c.cBusy | .sclk => c.sBusy) = true → c.lost = false →
       let hangs := waits mux = true ∧ (stopped = true ∨ (match mux with | .cclk => halted c.csrc c.pllC | .sclk => halted c.ssrc c.pllT))
       (¬hangs → s.safety.queue.length ≤ 768 → Answers (.muxSwitchDone mux stopped t) s (fun u =>
         (match mux with
           | .cclk => u.clk.ccur = c.csrc ∧ u.clk.cBusy = false ∧ u.clk.scur = c.scur
           | .sclk => u.clk.scur = c.ssrc ∧ u.clk.sBusy = false ∧ u.clk.ccur = c.ccur) ∧
         u.clk.swDone = true ∧ u.clk.swAsync = stopped ∧
         u.safety.queue = s.safety.queue ++ (if stopped then
           [{ bits := faultWord 0 0x31 0xA (match mux with | .cclk => 0x20 | .sclk => 0x21) 0 (epochIn (now t s)), from_ := none, ext := 0 }]
           else []) ∧
         u = { now t s with clk := u.clk, safety := { s.safety with queue := u.safety.queue } })) ∧
       (hangs → exec (.muxSwitchDone mux stopped t) s = .next (now t s)))) ∧
  (∀ (p : PllId) (val : Word) (t : Nat) (s : State),
     let x : PllCfg := { en := val.getLsbD 31, rdiv := val.extractLsb' 24 7, ndiv := val.extractLsb' 10 14, pdiv := val.extractLsb' 2 8 }
     (setupOpen s = true → pllSelected s.clk p = true ∨ pllOk p x = false →
       exec (.pllCfgWrite p val t) s = .next { ackWrite (now t s) with clk := { s.clk with cfgRej := true } }) ∧
     (setupOpen s = true → pllSelected s.clk p = false → pllOk p x = true → x ≠ pllOf s.clk p → Answers (.pllCfgWrite p val t) s (fun u =>
       pllOf u.clk p = x ∧ pllLocked u.clk p = false ∧ (∀ q, q ≠ p → pllOf u.clk q = pllOf s.clk q ∧ pllLocked u.clk q = pllLocked s.clk q) ∧
       u = { ackWrite (now t s) with clk := u.clk })) ∧
     ((pllOf s.clk p).en = true → s.clk.pwrCur ≠ 2 → Answers (.pllLock p t) s (fun u =>
       pllLocked u.clk p = true ∧ (∀ q, q ≠ p → pllLocked u.clk q = pllLocked s.clk q) ∧ (∀ q, pllOf u.clk q = pllOf s.clk q) ∧
       (p = .c → s.clk.csrc = 1 → s.clk.ccur = 0 → s.clk.lost = false → u.clk.cBusy = true ∧ u.clk.cWait = false) ∧
       (p = .t → s.clk.ssrc = 1 → s.clk.scur = 0 → s.clk.lost = false → u.clk.sBusy = true ∧ u.clk.sWait = false) ∧
       (p = .m → s.clk.men = true → s.clk.lost = false → vget u.clk.run 3 = true) ∧ (s.clk.lost = true → u.clk.run = s.clk.run) ∧
       ContextsOnly s u ∧ u = { now t s with clk := u.clk, meter := u.meter, dom := u.dom })) ∧
     (pllLocked s.clk p = true → Answers (.pllUnlock p t) s (fun u =>
       pllLocked u.clk p = false ∧ (∀ q, q ≠ p → pllLocked u.clk q = pllLocked s.clk q) ∧ u.clk.ccur = s.clk.ccur ∧ u.clk.scur = s.clk.scur ∧
       u.safety.queue = s.safety.queue ++ (if pllInUse s.clk p then
         [{ bits := faultWord 1 0x32 0xA (match p with | .c => 8 | .t => 9 | .m => 10) 0 (epochIn (now t s)), from_ := none, ext := 0 }]
         else []) ∧
       u = { now t s with clk := u.clk, safety := { s.safety with queue := u.safety.queue } })))

/-- The clock monitors (Table 15-3, R359, R360): a monitored clock that stops queues CLK_LOSS with its class and instance; the
loss of XA, CCLK or SCLK forces both muxes to FOSC, that of a FOSC in use forces them to the locked PLLs; either stops MCLK, sets LOST, ends a
switch, sets STRETCH by the forced CCLK, and holds every LIT and SHADE domain where CCLK is FOSC, so that no link runs; the loss of HCLK, XB, or
of an unselected FOSC, changes nothing else; a clock not monitored, or already declared stopped, changes nothing; a monitor that reports its clock
again shows it running, but MCLK stays stopped while the clocks are forced. A fatal loss during a control reset enters the safe state at once
(R365). -/
def Obligations.ClockMonitors : Prop :=
  ∀ (c : MonClock) (t : Nat) (s : State),
    let k := s.clk
    let loss := fun cls : Nat => s.safety.queue ++
      [{ bits := faultWord cls 0x30 0xA (clockInst c) 0 (epochIn (now t s)), from_ := none, ext := 0 }]
    let forced := fun u : State =>
      u.safety.queue = loss 2 ∧
      u.clk = { k with lost := true, forcedSince := true, cBusy := false, sBusy := false, ccur := u.clk.ccur, scur := u.clk.scur,
                       stretch := u.clk.stretch,
                       run := vset (vset (vset (vset k.run (clockInst c) false) 3 false) 1 true) 2 true } ∧
      (k.crstBusy = true → u.safety.safe = true) ∧
      (k.crstBusy = false → u.cmds = s.cmds ∧
        (u.clk.ccur = 1 → ∀ d : Dom, (domOf u d).held = (domOf s d).held) ∧
        (u.clk.ccur = 0 → ∀ d : Dom, Single s d → (domOf s d).state = .lit ∨ (domOf s d).state = .shade → (domOf s d).held = false →
          inSoftStart (domOf s d) = false → (domOf s d).tr.ph ≠ .discharge →
          (domOf u d).held = true ∧ (domOf u d).stHeld = true ∧ ∃ i ∈ u.ints, i.dom = d ∧ i.what = .held .linkLost)) ∧
      u.cfg = s.cfg ∧ u.ports = s.ports
    (monitored k c = false ∨ vget k.run (clockInst c) = false → exec (.clockMonitorFault c t) s = .next (now t s)) ∧
    (monitored k c = true → vget k.run (clockInst c) = true →
      (c = .xa ∨ c = .cclk ∨ c = .sclk → Answers (.clockMonitorFault c t) s (fun u =>
        forced u ∧ u.clk.ccur = 0 ∧ u.clk.scur = 0 ∧ u.clk.stretch = true)) ∧
      (c = .fosc → k.ccur = 0 ∨ k.scur = 0 → Answers (.clockMonitorFault c t) s (fun u =>
        forced u ∧ u.clk.ccur.toNat = (if k.lockC then 1 else 0) ∧ u.clk.scur.toNat = (if k.lockT then 1 else 0) ∧
        (u.clk.stretch = false ↔ k.lockC = true ∧ 800 * (k.pllC.rdiv.toNat * k.pllC.pdiv.toNat) ≤ 25 * k.pllC.ndiv.toNat))) ∧
      (c = .xb → k.crstBusy = true → Answers (.clockMonitorFault c t) s (fun u =>
        u.safety.safe = true ∧ u.safety.queue = loss 2 ∧ u.clk = { k with run := vset k.run 6 false })) ∧
      (c = .hclk ∨ (c = .xb ∧ k.crstBusy = false) ∨ (c = .fosc ∧ k.ccur ≠ 0 ∧ k.scur ≠ 0) → exec (.clockMonitorFault c t) s = .next { now t s with
        clk := { k with run := vset k.run (clockInst c) false }, safety := { s.safety with queue := loss (if c = .xb then 2 else 1) } }) ∧
      (c = .mclk → Answers (.clockMonitorFault c t) s (fun u =>
        u.safety.queue = loss 1 ∧ u.meter.stale = true ∧ u.clk = { k with run := vset k.run 3 false } ∧ ContextsOnly s u ∧
        u = { now t s with clk := u.clk, meter := u.meter, dom := u.dom, safety := { s.safety with queue := u.safety.queue } }))) ∧
    (c = .mclk → k.lost = true → exec (.clockReturn c t) s = .next (now t s)) ∧
    (c ≠ .mclk ∨ k.lost = false → Answers (.clockReturn c t) s (fun u => u.clk = { k with run := vset k.run (clockInst c) true } ∧ ContextsOnly s u ∧
      u = { now t s with clk := u.clk, meter := u.meter, dom := u.dom }))

/-- Power modes and the frequency counter (R361 to R363): MODE holds RUN or SLEEP as written, and DEEP only when everything is dark and idle, with
REJ otherwise; only a write of RUN leaves DEEP; a completed transition sets DONE, gates the MC outside RUN, and in DEEP unlocks the
PLLs and stops FOSC and the shutters, once no completion is owed; leaving DEEP starts FOSC and the links are trained again; GO clears the
result and counts while the counter is clocked, and a count above 2^30 − 1 reads as that with OVF. Which sources have already been seen
when SLEEP is written, and that a later write of DEEP takes back a RUN that has not been reached, are the model's readings (logs 85 and 103). -/
def Obligations.PowerModesAndCounter : Prop :=
  ∀ (val : Word) (count t : Nat) (s : State),
    let c := s.clk
    let bits : Clocks := { c with wakeT8 := val.getLsbD 4, pwrDone := c.pwrDone && !val.getLsbD 9, pwrRej := c.pwrRej && !val.getLsbD 8 }
    let s1 := ackWrite (now t s)
    (∀ row : Instr, row = .pwrmodeRun val t ∨ row = .pwrmodeSleep val t ∨ row = .pwrmodeDeep val t → c.crstBusy = true → exec row s = .next s1) ∧
    (c.crstBusy = false →
      exec (.pwrmodeRun val t) s = .next { s1 with clk := { bits with pwrMode := 0, leaveDeep := c.pwrCur == 2 } } ∧
      exec (.pwrmodeSleep val t) s = .next { s1 with clk := { bits with pwrMode := 1, t8Seen := t8Eligible s1 } } ∧
      (let ok := (∀ d : Dom, (vget s.dom d).state = .dark ∨ (vget s.dom d).state = .absent) ∧ (∀ x ∈ s.cmds, dAt x.d = false) ∧
         s.meter.phase = .idle ∧ s.strata.queue = [] ∧ s.strata.erasing = none ∧ s.strata.lbBusy = false ∧ strataRead s = false
       (ok → exec (.pwrmodeDeep val t) s = .next { s1 with clk := { bits with pwrMode := 2, leaveDeep := false } }) ∧
       (¬ok → exec (.pwrmodeDeep val t) s = .next { s1 with clk := { bits with pwrRej := true } }))) ∧
    (s.mc.gated = false ∨ c.pwrCur ≠ 1 ∨ c.wakeT8 = false →
      let goes := (if c.pwrCur = 2 then c.leaveDeep = true else c.pwrMode ≠ c.pwrCur) ∧ (c.pwrMode = 2 → ∀ p : Fin 8, awaiting s p = false)
      (goes → Answers (.pwrmodeTransitionDone t) s (fun u =>
        u.clk.pwrCur = c.pwrMode ∧ u.clk.pwrDone = true ∧ u.clk.leaveDeep = false ∧
        u.mc = { s.mc with gated := c.pwrMode != 0, kickAt := if s.mc.gated = true ∧ c.pwrMode = 0 then (now t s).time.run else s.mc.kickAt } ∧
        (c.pwrMode = 2 → u.clk.lockC = false ∧ u.clk.lockT = false ∧ u.clk.lockM = false ∧ vget u.clk.run 5 = false ∧ u.time.started = false) ∧
        (c.pwrMode ≠ 2 → c.pwrCur = 2 → vget u.clk.run 5 = true ∧ ∀ e : Fin 5, (linkOf u e).trained = false) ∧
        (c.pwrMode ≠ 2 → c.pwrCur ≠ 2 → u.time = (now t s).time ∧ u.links = s.links ∧ u.therm = s.therm) ∧ ContextsOnly s u ∧
        u = { now t s with clk := u.clk, mc := u.mc, meter := u.meter, dom := u.dom, time := u.time, links := u.links, therm := u.therm })) ∧
      (¬goes → Answers (.pwrmodeTransitionDone t) s (fun u => u = { now t s with clk := { c with t8Seen := u.clk.t8Seen } }))) ∧
    (setupOpen s = false → exec (.fmcGo val t) s = .next s1) ∧
    (setupOpen s = true →
      let c1 : Clocks := { c with fmcGate := val.extractLsb' 8 5, fmcPre := val.getLsbD 4,
                                  fmcSel := if val.toNat % 16 ≤ 8 then val.extractLsb' 0 4 else c.fmcSel }
      exec (.fmcGo val t) s = .next { s1 with clk :=
        (if val.getLsbD 31 = true ∧ gateOn s 3 = true then { c1 with fmcGo := true, fmcDone := false, fmcOvf := false, fmcCount := 0 } else c1) }) ∧
    (c.fmcGo = true → Answers (.fmcDone count t) s (fun u =>
      u.clk.fmcCount.toNat = Nat.min count (2 ^ 30 - 1) ∧ (u.clk.fmcOvf = true ↔ 2 ^ 30 ≤ count) ∧ u.clk.fmcDone = true ∧ u.clk.fmcGo = false ∧
      u = { now t s with clk := { c with fmcCount := u.clk.fmcCount, fmcOvf := u.clk.fmcOvf, fmcDone := true, fmcGo := false } })) ∧
    (c.fmcGo = false → exec (.fmcDone count t) s = .next (now t s))

/-! ### Resets and bring-up (chapter 15) -/

/-- Control and MC resets (R86, R364, R365, Table 15-5): a keyed CRST withdraws every command, ends every group and claim,
returns every port's rings and watches to disabled, zeroes INCORR, holds every LIT and SHADE domain, and keeps the
configuration, the commit sequence and the records; it ends HALTED and clears FAILS; the safe state ends when no cause stands and stays when a
repeated or present trip stands; a fatal message that waits in the collector acts at once (R377, R381). A keyed MCRST alone stops the MC and ends
its claim; without the key, or while a control reset runs or in DEEP, nothing happens; BUSY clears at the end, and the MC starts again from its
image once the reset has ended. -/
def Obligations.ControlAndMcReset : Prop :=
  ∀ (val : Word) (t : Nat) (s : State),
    (setupOpen s = false ∨ val.toNat / 256 % 256 ≠ 0x5A →
      exec (.controlReset val t) s = .next (ackWrite (now t s)) ∧ exec (.mcReset val t) s = .next (ackWrite (now t s))) ∧
    (setupOpen s = true → val.toNat / 256 % 256 = 0x5A → val.getLsbD 0 = true → Answers (.controlReset val t) s (fun u =>
      u.clk.crstBusy = true ∧ u.clk.causes.getLsbD 1 = true ∧ u.cmds = [] ∧ (∀ p : Fin 8, vget u.groups p = none) ∧ u.mc.run = false ∧
      (∀ q : Fin 9, claimOf u q = none) ∧
      (∀ (p : Fin 8) (r : Fin 4), (ringOf (portOf u p) r).en = false ∧ (ringOf (portOf u p) r).base = (ringOf (portOf s p) r).base) ∧
      (∀ (p : Fin 8) (k : Fin 32), vget (portOf u p).watches k = none) ∧ (∀ p : Fin 8, (portOf u p).rightsD = (portOf s p).rightsD) ∧
      u.arb.incorr = 0 ∧ u.time.creset = true ∧ u.mc.fails = 0 ∧ u.mc.state = (if s.mc.state = 5 then 3 else s.mc.state) ∧
      ((∀ q ∈ s.safety.queue, fClass q.bits ≠ 2) → s.safety.safe = true → (∀ m ∈ s.safety.causes, fKindOf m = 0x20) →
        s.therm.tripped = false → s.therm.noRestart = false → u.safety.safe = false ∧ u.safety.causes = []) ∧
      (s.safety.safe = true → (∃ m ∈ s.safety.causes, fKindOf m = 0x20) → s.therm.tripped = true ∨ s.therm.noRestart = true →
        u.safety.safe = true) ∧
      ((∃ q ∈ s.safety.queue, fClass q.bits = 2) → u.safety.safe = true) ∧
      (∀ d : Dom, Single s d → s.safety.safe = false → (∀ q ∈ s.safety.queue, fClass q.bits ≠ 2) → (domOf s d).state = .lit ∨ (domOf s d).state = .shade → (domOf s d).held = false →
        inSoftStart (domOf s d) = false → (domOf s d).tr.ph ≠ .discharge →
        (domOf u d).held = true ∧ ∃ i ∈ u.ints, i.dom = d ∧ i.what = .held .control) ∧
      u.cfg = s.cfg ∧ u.cseq = s.cseq ∧ u.records = s.records ∧ u.progs = s.progs ∧ u.models = s.models ∧ u.char = s.char)) ∧
    (setupOpen s = true → val.toNat / 256 % 256 = 0x5A → val.getLsbD 0 = false → val.getLsbD 1 = true →
      exec (.mcReset val t) s = .next { ackWrite (now t s) with
        mc := { s.mc with run := false, gated := false, fails := 0, state := if s.mc.state = 5 then 3 else s.mc.state },
        clk := { s.clk with causes := s.clk.causes ||| 0x10 },
        irq := { s.irq with t8Claim := none } }) ∧
    exec (.controlResetDone t) s = .next { now t s with clk := { s.clk with crstBusy := false } } ∧
    (s.mc.image = true → s.mc.run = false → s.mc.state ≠ 5 → s.clk.crstBusy = false → exec (.mcStart t) s = .next { now t s with
      mc := { s.mc with run := true, gated := s.clk.pwrCur != 0, state := 3, kickAt := (now t s).time.run } }) ∧
    (s.mc.image = false ∨ s.mc.run = true ∨ s.mc.state = 5 ∨ s.clk.crstBusy = true → exec (.mcStart t) s = .next (now t s))

/-- The MC image and the characterisation record (R9, R26, R40, R59, R367, R368, Table 15-6): GO acts in EMPTY and FAIL; a good image
starts the MC with its version; a bad length, a fabric error, a bad header or a bad signature leaves FAIL with ERR 1, 2, 3 or 4 and queues
FW_AUTH as contained; the first start installs copy 1, or else copy 2, with its absent sites, their outputs at the reset values, its trims and
meter values, keeps the targets that hosts have set, gives each channel with a system calibration in S1 the values of its last one, and raises
CHAR_BAD when both copies are bad or the log is not available. The order of the errors is the model's reading (log 57). -/
def Obligations.FirmwareAndRecord : Prop :=
  ∀ (val : Word) (img : FwImage) (t : Nat) (s : State),
    (setupOpen s = true → val.getLsbD 0 = true → (s.mc.state = 0 ∨ s.mc.state = 4) →
      exec (.fwGo val t) s = .next { ackWrite (now t s) with mc := { s.mc with go := true, state := 1, err := 0 } }) ∧
    (setupOpen s = false ∨ val.getLsbD 0 = false ∨ (s.mc.state ≠ 0 ∧ s.mc.state ≠ 4) → exec (.fwGo val t) s = .next (ackWrite (now t s))) ∧
    (s.mc.go = true → ∀ (hdr : List Byte) (signed : Bool),
      let n := s.mc.len.toNat
      let sized := 4256 ≤ n ∧ n ≤ 524448 ∧ n % 64 = 32
      let fits := leAt hdr 12 4 + 160 = n
      let good := slice hdr 0 4 = ascii "DGFW" ∧ leAt hdr 4 1 = 1 ∧ leAt hdr 16 4 % 4 = 0 ∧ leAt hdr 16 4 < leAt hdr 12 4
      (sized → fits → good → Answers (.fwLoadDone (.image hdr true) t) s (fun u =>
        u.mc.run = true ∧ u.mc.state = 3 ∧ u.mc.image = true ∧ u.mc.version.toNat = leAt hdr 8 2 ∧ u.mc.kickAt = (now t s).time.run ∧
        u = { now t s with mc := u.mc })) ∧
      (∀ e : BitVec 4, (¬sized ∧ e = 1) ∨ (sized ∧ img = .fabricError ∧ e = 2) ∨ (sized ∧ img = .image hdr signed ∧ ¬fits ∧ e = 1) ∨
        (sized ∧ img = .image hdr true ∧ fits ∧ ¬good ∧ e = 3) ∨ (sized ∧ img = .image hdr false ∧ fits ∧ e = 4) → Answers (.fwLoadDone img t) s (fun u =>
        u.mc.state = 4 ∧ u.mc.err = e ∧ u.mc.go = false ∧ u.mc.run = s.mc.run ∧
        (∃ m, u.safety.queue = s.safety.queue ++ [m] ∧ fKindOf m.bits = 0x71 ∧ fClass m.bits = 1 ∧ fUnit m.bits = 0xD) ∧
        u = { now t s with mc := u.mc, safety := { s.safety with queue := u.safety.queue }, freeIdx := u.freeIdx }))) ∧
    (∀ (c1 c2 : Option CharRecord) (cals : List SysCal),
      (mcRunning s = false ∨ s.mc.coldStart = false → exec (.charRecordInstall c1 c2 cals t) s = .next (now t s)) ∧
      (mcRunning s = true → s.mc.coldStart = true → s.strata.avail = true → ∀ r : CharRecord, c1 = some r ∨ (c1 = none ∧ c2 = some r) →
        Answers (.charRecordInstall c1 c2 cals t) s (fun u =>
          u.char = some r ∧ u.mc.coldStart = false ∧
          (∀ d : Site, (∀ x ∈ r.siteMap, x ≠ d) → (domOf u d).state = .absent ∧ (domOf u d).droop.uvstop = true ∧
            (domOf u d).tile.thrDiv = 0 ∧ (domOf u d).tile.thrSkip = 0 ∧ (domOf u d).tile.freqCode = 0) ∧
          (∀ x ∈ r.siteMap, (domOf u x).state = (domOf s x).state) ∧
          (∀ (d : Dom) (k : Fin 14), (cellOf (domOf u d) k).ctrim = vget r.ctrim (cellNoOf d k)) ∧
          (∀ l : Fin 80, (cfgOf s l).tgtSet = true → cfgOf u l = cfgOf s l) ∧
          (∀ ch : Fin 16, (∀ c ∈ cals, c.ch ≠ ch) → vget u.meter.ofs ch = vget r.mtrOfs ch ∧ vget u.meter.gain ch = vget r.mtrGain ch) ∧
          (∀ (older newer : List SysCal) (c : SysCal), cals = older ++ c :: newer → (∀ x ∈ newer, x.ch ≠ c.ch) →
            vget u.meter.ofs c.ch = c.ofs ∧ vget u.meter.gain c.ch = c.gain) ∧
          u.ports = s.ports ∧ u.cmds = s.cmds)) ∧
      (mcRunning s = true → s.mc.coldStart = true → s.strata.avail = false ∨ (c1 = none ∧ c2 = none) →
        Answers (.charRecordInstall c1 c2 cals t) s (fun u =>
          u.char = s.char ∧ u.mc.coldStart = false ∧ u.dom = s.dom ∧ u.cfg = s.cfg ∧ u.meter = s.meter ∧
          (∃ m, u.safety.queue = s.safety.queue ++ [m] ∧ fKindOf m.bits = 0x72 ∧ fClass m.bits = 1 ∧ fUnit m.bits = 0xD))))

/-- Power-on reset and GTC (R35, R36, R57 to R59, R362, R364, R365, R388, R402): POR puts every part into its reset
values; its release runs the oscillators, drives SAFE_STAT to LEVEL and opens the strata log where the NOR device answers and meets R57, with the
next sequence above the highest found and the power-on count above the last boot record's, from 1 in an empty log, and
queues NOR_ERR otherwise; a rise of GTC_VLD starts the qualification, 10 µs of it start the shutters; a sample lower than the last, or
higher by more than the limit, or a fall of GTC_VLD, while a domain is LIT or HELD raises CLK_LOSS as fatal with the
last good sample, and the new value stands; without such a domain the shutters resume; the inputs of the epoch that the jump cuts are
forgotten. Which instant the last good sample is (log 73) and that
every clock is shown running from the release on (log 57) are the model's readings. -/
def Obligations.PowerOnAndGtc : Prop :=
  ∀ (nor : NorInfo) (t prev : Nat) (fell : Bool) (s : State),
    let fit := ∃ x, nor.sfdp = some x ∧ x.revB = true ∧ 64 * 2 ^ 20 ≤ x.bytes ∧ x.page = 256 ∧ (∃ e ∈ x.erases, e.1 = 0x1000) ∧ 100 ≤ x.readMHz ∧
      x.progUs ≤ 250 ∧ ∃ y, x.esusp = some y ∧ y.us ≤ 30
    exec (.porAssert t) s = .next { now t State.reset with freeIdx := s.freeIdx, pending := s.pending } ∧
    (fit → Answers (.porRelease nor t) s (fun u =>
      (∀ i : Fin 7, i ≠ 3 → vget u.clk.run i = true) ∧ u.safety = { s.safety with pin := s.safety.level, porHigh := true } ∧
      u.strata.avail = true ∧ u.strata.dev = nor.sfdp ∧ u.strata.nextSeq = BitVec.ofNat 64 (highestSeq nor.image + 1) ∧
      (∀ b, lastBoot nor.image = some b → u.strata.boots = BitVec.ofNat 32 (leAt b.2 28 4 + 1)) ∧
      (lastBoot nor.image = none → u.strata.boots = 1) ∧ (∀ k : Fin 4, vget u.strata.heads k = (logEnds nor.image k).1) ∧
      (nor.image = [] → u.strata.nextSeq = 1 ∧ u.strata.boots = 1 ∧ u.strata.lbFound = false ∧ ∀ k : Fin 4, vget u.strata.heads k = 0) ∧
      u.strata.queue = s.strata.queue ∧ ContextsOnly s u ∧
      u = { now t s with clk := u.clk, safety := u.safety, strata := u.strata, meter := u.meter, dom := u.dom })) ∧
    (¬fit → Answers (.porRelease nor t) s (fun u =>
      u.strata = { s.strata with issued := u.strata.issued } ∧ u.safety.porHigh = true ∧
      ∃ m, u.safety.queue = s.safety.queue ++ [m] ∧ fKindOf m.bits = 0x60 ∧ fClass m.bits = 1 ∧ fUnit m.bits = 0xB)) ∧
    exec (.gtcVldRise t) s = .next (if s.time.vld = true then now t s
      else { now t s with time := { (now t s).time with vld := true, everVld := true, vldSince := t } }) ∧
    (s.time.vld = true → s.time.vldSince + 10000 ≤ t → (s.time.resume = true → s.therm.valid = true ∧ s.clk.pwrCur ≠ 2) →
      exec (.shutterStart t) s = .next { now t s with time := { (now t s).time with started := true } }) ∧
    (let last := Nat.max prev s.time.gtc
     let jumps := fell = true ∨ t < last ∨ last + (if s.clk.ccur = 1 ∧ s.clk.cBusy = false then 8 else 16) < t
     let lit := ∃ d : Dom, (vget s.dom d).state = .lit ∨ (vget s.dom d).state = .held
     (¬jumps → exec (.gtcDiscontinuity ⟨prev, t⟩ fell) s = .next (now t s)) ∧
     (jumps → lit → Answers (.gtcDiscontinuity ⟨prev, t⟩ fell) s (fun u =>
       u.time.gtc = t ∧ u.time.vld = (s.time.vld && !fell) ∧
       u.safety.queue = s.safety.queue ++ [{ bits := faultWord 2 0x30 0xA 0x10 (last % 2 ^ 32) (epochOf t), from_ := none,
                                             ext := BitVec.ofNat 32 (last / 2 ^ 32) }] ∧
       (s.clk.crstBusy = true → u.safety.safe = true) ∧ u.input = { InputBlk.empty with prev := s.input.prev } ∧
       u.cfg = s.cfg ∧ u.records = s.records)) ∧
     (jumps → ¬lit → s.cmds = [] → s.safety.queue.length ≤ 768 → Answers (.gtcDiscontinuity ⟨prev, t⟩ fell) s (fun u =>
       u.time.gtc = t ∧ u.time.resume = true ∧ u.time.vld = (s.time.vld && !fell) ∧ u.cmds = [] ∧
       (∃ m, u.safety.queue = s.safety.queue ++ [m] ∧ fKindOf m.bits = 0x31 ∧ fClass m.bits = 0 ∧ fUnit m.bits = 0xA ∧ fInst m.bits = 0x10) ∧
       u.input = { InputBlk.empty with prev := s.input.prev } ∧ u.cfg = s.cfg ∧ u.records = s.records)))

/-! ### Registers (chapter 18) -/

/-- Writes of registers (R289, R291, R308, R362, R365, R415, R416, R418, Table 18-1), over the owner's path or the MC's: the mode fields wait for
their effect points; the scratch register takes the word; a written 1 clears a latched source and no other; a port's rights are written only
while it is disabled; the base of an enabled ring stays. While a control reset runs and in DEEP nothing is written but what Table 18-1
leaves open. In SLEEP a write may wake the MC (R361). -/
def Obligations.RegisterWrites : Prop :=
  ∀ (val : Word) (path : Path) (t : Nat) (s : State),
    let a : State := match path with | .owner => ackWrite (now t s) | .mc => now t s
    let gives := fun v u : State => u = { v with clk := { s.clk with pwrMode := u.clk.pwrMode, t8Seen := u.clk.t8Seen } } ∧
      (s.mc.gated = false → u.clk = s.clk)
    (setupOpen s = false → exec (.gmodeWrite val t) s = .next (ackWrite (now t s)) ∧
      ∀ off : BitVec 17, deepWritable off.toNat = false → exec (.registerWrite off val path t) s = .next a) ∧
    (setupOpen s = true →
      exec (.gmodeWrite val t) s = .next { ackWrite (now t s) with mode := { s.mode with
        written := val.extractLsb' 0 7, hist := s.mode.hist ++ [(Nat.max s.time.gtc t, val.extractLsb' 0 7)] } } ∧
      Answers (.registerWrite 0x0030 val path t) s (gives { a with scratch := val }) ∧
      (∀ k : Fin 8, Answers (.registerWrite (0x0800 + 4 * BitVec.ofNat 17 k) val path t) s (fun u =>
        (∀ i < 256, u.irq.latched.getLsbD i = (s.irq.latched.getLsbD i && !(latchedSrc i && i / 32 == k.val && val.getLsbD (i % 32)))) ∧
        gives { a with irq := { s.irq with latched := u.irq.latched } } u)) ∧
      (∀ p : Fin 8, let off : BitVec 17 := 0x0110 + 0x20 * BitVec.ofNat 17 p
        ((portOf s p).en = true → Answers (.registerWrite off val path t) s (gives a)) ∧
        ((portOf s p).en = false → Answers (.registerWrite off val path t) s
          (gives (setPort a p (fun P => { P with rightsO := val.extractLsb' 0 11 }))))) ∧
      (∀ (p : Fin 8) (r : Fin 4), let off : BitVec 17 := 0x10040 + 0x1000 * BitVec.ofNat 17 p + 0x10 * BitVec.ofNat 17 r
        Answers (.registerWrite off val path t) s (fun u =>
          ((ringOf (portOf s p) r).en = true → ringOf (portOf u p) r = ringOf (portOf s p) r) ∧
          ((ringOf (portOf s p) r).en = false →
            (ringOf (portOf u p) r).base.toNat = (ringOf (portOf s p) r).base.toNat / 2 ^ 32 * 2 ^ 32 + val.toNat / 64 * 64) ∧
          (∀ q : Fin 4, q ≠ r → ringOf (portOf u p) q = ringOf (portOf s p) q) ∧ (∀ q : Fin 8, q ≠ p → portOf u q = portOf s q) ∧
          gives { a with ports := u.ports } u)))

/-! ### Host commands (chapters 03 and 14) -/

/-- Budgets, targets, limits and frequencies (R219, R220, R229, R234, R330, R331, R334): each command is accepted and at its
commit sets the selected values of every domain that it names, or the chip's caps, in the committed configuration, and no other
value of it; DOM_LIMITS sets the selected fields of its group of Table 14-7, PARK_MIN in a pair as the pair's value; a job's code is committed
at or below the tile's ceiling. -/
def Obligations.ConfigurationCommands : Prop :=
  ∀ (d : Desc) (s : State),
    let cfgs := fun (ls : List Nat) (f : Nat → DomCfg → DomCfg) (v w : State) =>
      ∀ l : Fin 80, cfgOf w l = if l.val ∈ ls then f l (cfgOf v l) else cfgOf v l
    let named := fun v : State => ∀ l < 64, logOf v (physOf v l) = l
    (Admits 0x11 d s → Accepts (.domTarget d) 0x11 d s (fun c => Commit c (fun v w _ =>
      cfgs (targetsOf v 0x11 d) (fun _ k => { k with target := opN d 16 2, tgtSet := true }) v w ∧ w = { v with cfg := w.cfg }))) ∧
    (Admits 0x12 d s → Accepts (.domFreq d) 0x12 d s (fun c => Commit c (fun v w r => named v →
      cfgs (presentOf v 0x12 d) (fun _ k => { k with dfreq := opB d 16, freq := opB d 16 }) v w ∧
      (presentOf v 0x12 d ≠ [] → r = opB d 16)))) ∧
    (Admits 0x13 d s → Accepts (.domLimits d) 0x13 d s (fun c => Commit c (fun v w _ =>
      let g := fun (group field off bytes old : Nat) => if d.sub.toNat = group ∧ selects d field = true then opN d off bytes else old
      cfgs (targetsOf v 0x13 d) (fun l k => let x := k.lim
        let pair := isEven v (physOf v l) = true
        { k with lim := {
          vmin := g 0 0 20 2 x.vmin, vmax := g 0 1 22 2 x.vmax, vret := g 0 2 24 2 x.vret, ssRate := g 0 3 26 1 x.ssRate,
          shortRetry := g 0 4 27 1 x.shortRetry, shortGap := g 0 5 28 1 x.shortGap,
          parkEn := g 1 0 20 1 x.parkEn, parkI := g 1 1 22 2 x.parkI, unparkI := g 1 2 24 2 x.unparkI, parkQual := g 1 3 26 1 x.parkQual,
          parkMin := if pair then x.parkMin else g 1 4 27 1 x.parkMin, parkMin2 := if pair then g 1 4 27 1 x.parkMin2 else x.parkMin2,
          warmHold := g 1 5 28 1 x.warmHold, parkHoldoff := g 1 6 29 1 x.parkHoldoff,
          dt1 := g 2 0 20 1 x.dt1, dt2 := g 2 1 21 1 x.dt2, dt3 := g 2 2 22 1 x.dt3, vfloor := g 2 3 24 2 x.vfloor,
          glintPat := g 2 4 26 2 x.glintPat, glintMin := g 2 5 28 1 x.glintMin, flareEn := g 2 6 29 1 x.flareEn,
          prfVel := g 3 0 20 1 x.prfVel, prfAcc := g 3 1 21 1 x.prfAcc, prfJerk := g 3 2 22 1 x.prfJerk, plausBand := g 3 3 23 1 x.plausBand,
          followE := g 3 4 24 1 x.followE, followT := g 3 5 26 2 x.followT, supMode := g 3 6 28 1 x.supMode,
          ffAuth := g 4 0 20 1 x.ffAuth,
          mae := #v[g 4 1 21 1 (vget x.mae 0), g 4 2 22 1 (vget x.mae 1), g 4 3 23 1 (vget x.mae 2), g 4 4 24 1 (vget x.mae 3)],
          lntBias := g 4 5 25 1 x.lntBias } }) v w))) ∧
    (Admits 0x20 d s → Accepts (.budgetSet d) 0x20 d s (fun c => Commit c (fun v w _ => named v →
      cfgs (targetsOf v 0x20 d) (fun _ k => { k with bud := { k.bud with
        floor := if selects d 0 then opN d 20 2 else k.bud.floor, idle := if selects d 1 then opN d 22 2 else k.bud.idle,
        ceil := if selects d 2 then opN d 24 2 else k.bud.ceil, cls := if selects d 3 then opN d 26 1 else k.bud.cls,
        set := k.bud.set ||| BitVec.ofNat 4 (maskOf d) } }) v w ∧ w = { v with cfg := w.cfg }))) ∧
    (Admits 0x21 d s → Accepts (.budgetCap d) 0x21 d s (fun c => Commit c (fun v w _ =>
      w = { v with arb := { v.arb with capChip := if selects d 0 then opN d 20 2 else v.arb.capChip,
                                       capIn := if selects d 1 then opN d 22 2 else v.arb.capIn, incorr := 0 } }))) ∧
    (Admits 0x22 d s → firstSlot (now d.t s) + 2000 ≤ opN d 24 8 → Accepts (.jobAlign d) 0x22 d s (fun c => Commit c (fun v w r => named v →
      cfgs (targetsOf v 0x22 d) (fun l k => { k with fjob := opB d 16, freq := Nat.min (opB d 16) (domOf v (physOf v l)).arb.fceil }) v w ∧
      r = (targetsOf v 0x22 d).length % 256))) ∧
    (Admits 0x23 d s → Accepts (.lendPolicy d) 0x23 d s (fun c => Commit c (fun v w _ =>
      cfgs (targetsOf v 0x23 d) (fun _ k => { k with bud := { k.bud with
        lend := if selects d 0 then opN d 20 1 else k.bud.lend, borrow := if selects d 1 then opN d 21 1 else k.bud.borrow,
        lendQual := if selects d 2 then opN d 22 1 else k.bud.lendQual,
        loanMax := if selects d 3 then opN d 24 2 else k.bud.loanMax } }) v w ∧ w = { v with cfg := w.cfg })))

/-- States, pairs and cells (R84, R95, R111 to R117, R125, R128, R329, R332, R333): DARK discharges a domain at the commit, SHADE or LIT
from DARK starts a soft start and locks the switch mode and TH_CRIT, as it replaces a soft start in progress; SHADE from LIT starts a
descent with the clock stopped, LIT from SHADE, or during the descent or the move to LIT, a move; a pairing joins an even site with the next one
and an unpairing separates them; a cell map sets the selected weights or takes the selected cells out of service or back. What an internal change
of the same shutter has done is not undone: the latch, a cell it took out, and a crack it marked stay. -/
def Obligations.StateCommands : Prop :=
  ∀ (d : Desc) (s : State),
    let named := fun v : State => ∀ l < 64, logOf v (physOf v l) = l
    let alone := fun (v : State) (op x : Nat) => ∀ m ∈ presentOf v op d, physOf v m + 1 ≠ x ∧ physOf v m ≠ x + 1
    let paired := fun v : State => ∀ x : Dom, isEven v x = true → isOdd v (x + 1) = true
    (Admits 0x10 d s → Accepts (.domState d) 0x10 d s (fun c => Commit c (fun v w r => w.cfg = v.cfg ∧
      (∀ l, presentOf v 0x10 d = [l] → r = stateCode (domOf v (physOf v l)).state + (if opB d 17 % 2 = 1 ∧ (domOf v (physOf v l)).latched = true ∧
        (domOf v (physOf v l)).marks.latch = false then 8 else 0)) ∧
      (named v → paired v → ∀ l ∈ presentOf v 0x10 d,
        let x := physOf v l
        let D := domOf v x
        let E := domOf w x
        isOdd v x = false →
        E.latched = (D.latched && (!decide (opB d 17 % 2 = 1) || D.marks.latch)) ∧
        (opB d 16 = 0 → (D.state ≠ .dark ∨ D.en = true → E.en = false ∧ E.tr.ph = .discharge ∧ E.droop.uvstop = true) ∧ E.state = .dark) ∧
        (opB d 16 = 1 ∨ opB d 16 = 2 → D.state = .dark → D.held = false →
          E.state = (if opB d 16 = 2 then .lit else .shade) ∧ E.tr.ph = .startWait ∧ w.clk.swLock = true ∧ w.therm.critLock = true) ∧
        (opB d 16 = 1 ∨ opB d 16 = 2 → D.state ≠ .dark → D.state ≠ .held → D.held = false → inSoftStart D = true →
          E.state = (if opB d 16 = 2 then .lit else .shade) ∧ E.tr.ph = .startWait ∧ E.tr.attempt = D.tr.attempt) ∧
        (opB d 16 = 1 → D.state = .lit → D.held = false → inSoftStart D = false → D.tr.ph ≠ .discharge →
          E.state = .lit ∧ E.tr.ph = .descent ∧ E.droop.uvstop = true) ∧
        (opB d 16 = 2 → D.state = .shade ∨ (D.state = .lit ∧ (D.tr.ph = .descent ∨ D.tr.ph = .lift)) → D.held = false → inSoftStart D = false → D.tr.ph ≠ .discharge →
          E.state = .lit ∧ E.tr.ph = .lift) ∧
        ((opB d 16 = 2 ∧ D.state = .lit) ∨ (opB d 16 = 1 ∧ D.state = .shade) → D.tr.ph = .idle → E.state = D.state ∧ E.tr = D.tr))))) ∧
    (Admits 0x14 d s → Accepts (.domPair d) 0x14 d s (fun c => Commit c (fun v w _ => named v → w.cfg = v.cfg ∧
      ∀ l ∈ presentOf v 0x14 d, let x := physOf v l
        x + 1 < 64 → alone v 0x14 x → (domOf w x).pair = .even ∧ (domOf w (x + 1)).pair = .odd))) ∧
    (Admits 0x15 d s → Accepts (.domUnpair d) 0x15 d s (fun c => Commit c (fun v w _ => named v →
      ∀ l ∈ presentOf v 0x15 d, let x := physOf v l
        x + 1 < 64 → alone v 0x15 x → (domOf w x).pair = .none ∧ (domOf w (x + 1)).pair = .none ∧ (domOf w (x + 1)).state = (domOf v x).state))) ∧
    (Admits 0x16 d s → Accepts (.domCellmap d) 0x16 d s (fun c => Commit c (fun v w _ => named v → paired v → w.cfg = v.cfg ∧
      ∀ l ∈ presentOf v 0x16 d, let x := physOf v l
        isOdd v x = false → ∀ (i : Nat), i < (if isEven v x then 2 else 1) → (i = 0 ∨ x + 1 < 64) → ∀ k < nCells x,
          let C := cellOf (domOf v (x + i)) k
          let E := cellOf (domOf w (x + i)) k
          let on := (maskOf d).testBit (nCells x * i + k)
          (opB d 20 = 0 → E.weight = (if on then weightOf d (nCells x * i + k) else C.weight) ∧ E.st = C.st) ∧
          (opB d 20 = 1 → E.st = (if on && cellWorks C then .offline else C.st) ∧ E.weight = C.weight) ∧
          let marks := (domOf v (x + i)).marks
          (opB d 20 = 2 → E.st = (if on && !cellWorks C && !marks.outs.contains k then .active else C.st) ∧ E.weight = C.weight) ∧
          (opB d 20 = 3 → E.crack = (C.crack && !(on && !marks.cracks.contains k)) ∧ E.st = C.st))))

/-- Hints, marks and the repetitive compensator (R84, R193, R208, R210, R211, R336, R340): a host hint joins the named tiles' tables as their
newest entry, of four at most, the oldest making room and counted in counter 7; a host mark
pends at an RC whose source is its own marks, the selected RC parameters are set and RC_OFF clears, unless an internal change of this shutter has
set it, a reset zeroes the bins and unlocks. -/
def Obligations.HintAndRcCommands : Prop :=
  ∀ (d : Desc) (s : State),
    let named := fun v : State => ∀ l < 64, logOf v (physOf v l) = l
    let hint : Hint := { cls := BitVec.ofNat 4 (opB d 16), eta := BitVec.ofNat 12 (opN d 18 2), inten := BitVec.ofNat 8 (opB d 20),
                         dur := BitVec.ofNat 16 (opN d 22 2) }
    (Admits 0x30 d s → Accepts (.hintPhase d) 0x30 d s (fun c => Commit c (fun v w _ => named v →
      (∀ e : Dom, (∀ l ∈ presentOf v 0x30 d, physOf v l ≠ e.val) → vget w.dom e = vget v.dom e) ∧
      (∀ e : Dom, (∃ l ∈ presentOf v 0x30 d, physOf v l = e.val) →
        let D := vget v.dom e
        let E := vget w.dom e
        let new : LiveHint := { cls := hint.cls, eta := hint.eta.toNat, inten := hint.inten.toNat, dur := hint.dur.toNat, seq := D.lant.hintSeq, new := true }
        E.lant = { D.lant with hints := (if 4 ≤ D.lant.hints.length then D.lant.hints.drop 1 else D.lant.hints) ++ [new],
                               hintSeq := D.lant.hintSeq + 1 } ∧
        ctrOf E 7 = ctrOf D 7 + (if 4 ≤ D.lant.hints.length then 1 else 0) ∧
        (∀ n : Nat, 1 ≤ n → n ≤ 13 → n ≠ 7 → ctrOf E n = ctrOf D n) ∧ E = { D with lant := E.lant, ctr := E.ctr }) ∧
      w = { v with dom := w.dom }))) ∧
    (Admits 0x31 d s → Accepts (.stepMark d) 0x31 d s (fun c => Commit c (fun v w _ =>
      (∀ l ∈ presentOf v 0x31 d, (cfgOf v l).rc.src = 0x80 → isOdd v (physOf v l) = false → (domOf w (physOf v l)).rc.mark = true) ∧
      (∀ e : Dom, (∀ l ∈ presentOf v 0x31 d, (cfgOf v l).rc.src = 0x80 → physOf v l ≠ e.val) → vget w.dom e = vget v.dom e) ∧
      w = { v with dom := w.dom }))) ∧
    (Admits 0x54 d s → Accepts (.rcConfig d) 0x54 d s (fun c => Commit c (fun v w _ => named v →
      (∀ l : Fin 80, cfgOf w l = if l.val ∈ targetsOf v 0x54 d then { cfgOf v l with rc :=
        { on := if selects d 0 then opN d 20 1 else (cfgOf v l).rc.on, k := if selects d 1 then opN d 21 1 else (cfgOf v l).rc.k,
          f := if selects d 2 then opN d 22 1 else (cfgOf v l).rc.f, g := if selects d 3 then opN d 23 1 else (cfgOf v l).rc.g,
          l := if selects d 4 then opN d 24 1 else (cfgOf v l).rc.l, auth := if selects d 5 then opN d 25 1 else (cfgOf v l).rc.auth,
          src := if selects d 6 then opN d 26 1 else (cfgOf v l).rc.src } } else cfgOf v l) ∧
      (∀ l ∈ targetsOf v 0x54 d, physOf v l < 80 → let E := domOf w (physOf v l)
        E.rcOff = (domOf v (physOf v l)).marks.rc ∧ (selects d 1 = true → opN d 21 1 ≠ (cfgOf v l).rc.k → E.rc.bins = ⟨[]⟩ ∧ E.rc.locked = false)) ∧
      w = { v with cfg := w.cfg, dom := w.dom }))) ∧
    (Admits 0x55 d s → Accepts (.rcReset d) 0x55 d s (fun c => Commit c (fun v w _ =>
      (∀ l ∈ targetsOf v 0x55 d, physOf v l < 80 → let E := domOf w (physOf v l)
        E.rc.bins = ⟨[]⟩ ∧ E.rc.locked = false ∧ E.rcOff = (domOf v (physOf v l)).marks.rc) ∧
      (∀ e : Dom, (∀ l ∈ targetsOf v 0x55 d, physOf v l ≠ e.val) → vget w.dom e = vget v.dom e) ∧
      w = { v with dom := w.dom })))

/-- Watches, traces, snapshots, log marks, rights and ports (R265, R289, R302, R342, R345 to R347): each command's effect on its
port at the commit; the other ports, the domains and the configuration stay. A snapshot's output is queued with its completion
when the record is whole. -/
def Obligations.PortCommands : Prop :=
  ∀ (d : Desc) (s : State), let others := fun (p : Nat) (v w : State) =>
      (∀ q : Fin 8, q.val ≠ p → portOf w q = portOf v q) ∧ w.dom = v.dom ∧ w.cfg = v.cfg
    (Admits 0x40 d s → opB d 16 < 32 → Accepts (.watchArm d) 0x40 d s (fun c => Commit c (fun v w r =>
      (∃ x, vget (portOf w d.port).watches (opB d 16) = some x ∧ x.sel.toNat = opB d 17 ∧ x.dom = d.dom ∧ x.thr = opN d 20 4 ∧
        x.base.toNat = r ∧ x.since = c.shutter ∧ (x.count = true ↔ opB d 18 % 2 = 1)) ∧
      (∀ k < 32, k ≠ opB d 16 → vget (portOf w d.port).watches k = vget (portOf v d.port).watches k) ∧ others d.port v w))) ∧
    (Admits 0x41 d s → opB d 16 < 32 → Accepts (.watchCancel d) 0x41 d s (fun c => Commit c (fun v w _ =>
      vget (portOf w d.port).watches (opB d 16) = none ∧
      (∀ k < 32, k ≠ opB d 16 → vget (portOf w d.port).watches k = vget (portOf v d.port).watches k) ∧ others d.port v w))) ∧
    (Admits 0x60 d s → Accepts (.traceConfig d) 0x60 d s (fun c => Commit c (fun v w _ => let x := (portOf w d.port).trace
      (x.en = true ↔ opB d 16 = 1) ∧ x.mode.toNat = opB d 17 % 4 ∧ x.qs.toNat = opB d 18 % 4 ∧ x.k = opB d 19 ∧ x.from_ = c.shutter ∧
      x.resync = true ∧ x.pred = (portOf v d.port).trace.pred ∧ others d.port v w))) ∧
    (Admits 0x61 d s → Accepts (.snapshot d) 0x61 d s (fun c => Commit c (fun v w r => w = v ∧ r = snapSize (opB d 16) ∧
      ∀ (rec : Record) (tab : Nat → (Nat → Bool) → List Byte) (n : Nat) (seq : DWord), (portOf v d.port).fabErr = false →
        ∃ x : WriteReq, emitDone rec tab (v, []) ⟨c, seq, r, n⟩ = (v, [x]) ∧ x.port = d.port ∧ x.addr.toNat = opN d 24 8 ∧
          x.data = snapOutput v rec tab ⟨c, seq, r, n⟩ ∧ x.cpl.length = 1))) ∧
    (Admits 0x81 d s → Accepts (.logMark d) 0x81 d s (fun c => Commit c (fun v w _ => v.strata.avail = true → v.strata.queue.length < 16 →
      ∃ x : StrataRec, w = { v with strata := { v.strata with queue := v.strata.queue ++ [x], nextSeq := v.strata.nextSeq + 1 } } ∧
        x.stratum = 2 ∧ x.typ = 0x0002 ∧ x.pay.take 32 = d.ops.toList.take 32))) ∧
    (Admits 0x90 d s → opB d 16 < 8 → Accepts (.rightsSet d) 0x90 d s (fun c => Commit c (fun v w _ =>
      (portOf w (opB d 16)).rightsD = BitVec.ofNat 80 (opN d 20 10) ∧ (portOf w (opB d 16)).rightsO = BitVec.ofNat 11 (opN d 32 2) ∧
      others (opB d 16) v w))) ∧
    (Admits 0x91 d s → opB d 16 < 8 → Accepts (.portQuiesce d) 0x91 d s (fun c => Commit c (fun v w _ =>
      (opB d 17 = 0 → (portOf w (opB d 16)).quiesced = true) ∧ (opB d 17 = 1 → (portOf w (opB d 16)).quiesced = false) ∧
      (opB d 17 = 2 → (portOf w (opB d 16)).rstAt.isSome = true ∧ (portOf w (opB d 16)).claim = none) ∧ others (opB d 16) v w)))

/-- Images (R65, R84, R162 to R166, R196 to R198, R338, R339): a load waits for its data; good data of a program or a model sends it on and it is
accepted, bad data completes it BAD_OPERAND, or BAD_CHECK where the checksum is wrong, with the reason and the place; at its commit the slot holds
the image; a binding names the program and with keep-state keeps the state words, or names the model and clears LANTERN_OFF, unless an internal
change of this shutter has set it. -/
def Obligations.ImageCommands : Prop :=
  ∀ (d : Desc) (s : State),
    let named := fun v : State => ∀ l < 64, logOf v (physOf v l) = l
    (Admits 0x50 d s → opB d 16 < 32 → Answers (.loadProgram d) s (fun u => Holds 0x50 d .bulkWait s u (fun c =>
      ∀ (g : Program), Commit { c with bulk := some (.program g) } (fun v w _ => w = { v with progs := vset v.progs (opB d 16) (some g) })))) ∧
    (Admits 0x52 d s → opB d 16 < 8 → Answers (.loadModel d) s (fun u => Holds 0x52 d .bulkWait s u (fun c =>
      ∀ (m : Model), Commit { c with bulk := some (.model m) } (fun v w _ => w = { v with models := vset v.models (opB d 16) (some m) })))) ∧
    (∀ (c : Cmd) (b : List Byte) (t : Nat), s.cmds = [c] → c.stage = .bulkWait → c.grp = none → (∀ p : Fin 8, vget s.groups p = none) → dAt c.d = false →
      (∀ img : BulkImg, (∃ g, c.op = 0x50 ∧ loadProgramImage b = .ok g ∧ img = .program g) ∨
          (∃ m, c.op = 0x52 ∧ loadModelImage b = .ok m ∧ img = .model m) →
        let x : Cmd := { c with stage := .waiting, bulk := some img }
        let s1 : State := { now t s with cmds := [x] }
        (c.op = 0x50 → unitsFit s1 x = true) → stateCheck s1 false x = none → Answers (.bulkFetchDone c.d.port c.d.tag (.bytes b) t) s (fun u =>
          ∃ y, u.cmds = [y] ∧ y.d = c.d ∧ y.stage = .accepted ∧ y.bulk = some img ∧ y.shutter = firstSlot (now t s) ∧
          u = { now t s with cmds := u.cmds, nextOrd := u.nextOrd, rrPort := u.rrPort })) ∧
      (∀ reason place : Nat, (∃ f, c.op = 0x50 ∧ loadProgramImage b = .error f ∧ reason = f.reason ∧ place = f.sect * 2 ^ 21 + f.word) ∨
          (∃ f, c.op = 0x52 ∧ loadModelImage b = .error f ∧ reason = f.reason ∧ place = f.off) →
        Answers (.bulkFetchDone c.d.port c.d.tag (.bytes b) t) s (fun u => u.cmds = [] ∧
          (∃ e, (portOf u c.d.port).cplWait = (portOf s c.d.port).cplWait ++ [e] ∧ e.status = (if reason = 1 then 0x13 else 0x11) ∧ e.tag = c.d.tag ∧
            e.result = BitVec.ofNat 32 (reason * 2 ^ 24 + place)) ∧
          u = { now t s with cmds := [], ports := u.ports }))) ∧
    (Admits 0x51 d s → Accepts (.bindProgram d) 0x51 d s (fun c => Commit c (fun v w r => r = (targetsOf v 0x51 d).length % 256 ∧
      (∀ l : Fin 80, cfgOf w l = if l.val ∈ targetsOf v 0x51 d then { cfgOf v l with prog := opB d 16 } else cfgOf v l) ∧
      (named v → ∀ l ∈ targetsOf v 0x51 d, physOf v l < 80 → let E := domOf w (physOf v l)
        E.fallback = false ∧ (opB d 17 % 2 = 1 → E.sw = (domOf v (physOf v l)).sw) ∧
        (opB d 17 % 2 = 0 → ∀ g, vget v.progs (opB d 16) = some g → opB d 16 < 32 → l < 80 → E.sw = memOfList g.init)) ∧
      w.progs = v.progs))) ∧
    (Admits 0x53 d s → Accepts (.bindModel d) 0x53 d s (fun c => Commit c (fun v w r => r = (targetsOf v 0x53 d).length % 256 ∧
      (∀ l : Fin 80, cfgOf w l = if l.val ∈ targetsOf v 0x53 d then
        { cfgOf v l with model := if opB d 16 = 15 then none else some (Fin.ofNat 8 (opB d 16)) } else cfgOf v l) ∧
      (∀ l ∈ targetsOf v 0x53 d, physOf v l < 80 → let E := domOf w (physOf v l)
        E.lanternOff = (domOf v (physOf v l)).marks.lant ∧ E.lant.sums = ErrSums.zero ∧ E.lant.failRun = 0) ∧ w.models = v.models)))

/-- Tests (R327, R343, R344, R407 to R410): a sieve test starts at step 1 from the effective target, and SIEVE_STOP takes it away and posts its
outcome, 1 where an event has failed it and 2 otherwise; a self-test puts its units under test, and its end takes the test away, posts its outcome
and the detail of Table 17-6, returns a passing lane, or declares a failing sensor failed. -/
def Obligations.TestCommands : Prop :=
  ∀ (d : Desc) (s : State),
    (Admits 0x70 d s → Accepts (.sieveStart d) 0x70 d s (fun c => Commit c (fun v w _ => ∀ l, targetsOf v 0x70 d = [l] → let x := physOf v l
      x < 80 → (domOf v x).gwFloor + 8 ≤ effTarget v x → ∃ y : Sieve, w = { v with sieve := some y } ∧ y.dom.val = x ∧ y.step = 1 ∧
        y.e0 = effTarget v x ∧ y.maxS = opB d 16 ∧ y.dwell = opN d 20 4 ∧ y.port = d.port ∧ y.tag = d.tag ∧ y.fail = false ∧
        y.abandon = false ∧ y.vlow = 0xFFFF))) ∧
    (Admits 0x71 d s → Accepts (.sieveStop d) 0x71 d s (fun c => Commit c (fun v w _ => w.sieve = none ∧ w.dom = v.dom ∧ w.cfg = v.cfg ∧
      ∀ y, v.sieve = some y → let P := portOf v y.port
        P.en = true → (ringOf P 2).en = true → P.fabErr = false → P.backlog = [] → P.ovfDrops = 0 → evRoom P = true →
        ∃ e, (portOf w y.port).evWait = P.evWait ++ [e] ∧ e.typ = 5 ∧ e.pay.getD 8 0 = 5 ∧ e.pay.getD 9 0 = (if y.fail then 1 else 2) ∧
          leAt e.pay 20 2 = y.vlow.toNat))) ∧
    (Admits 0x72 d s → Accepts (.selftest d) 0x72 d s (fun c => Commit c (fun v w _ =>
      w.tests = v.tests ++ (testUnits v d).map (fun x => { unit := x, by_ := some (d.port, d.tag) }) ∧ w.cfg = v.cfg ∧
      (opB d 16 = 0 → opB d 17 < 17 → (vget w.lanes (opB d 17)).testing = true) ∧
      (opB d 16 = 3 → opN d 18 2 < 320 → (sensorAt w (opN d 18 2)).live = true) ∧
      (4 ≤ opB d 16 → (v.meter.phase = .idle → w.meter.phase = .cal ∧ w.meter.calCmd = 5) ∧
        (v.meter.phase ≠ .idle → w.meter.phase = v.meter.phase ∧ w.meter.calPend = 5))))) ∧
    (∀ (r : TestRun) (res : TestResult) (t : Nat), s.cmds = [] → s.tests = [r] →
      let told := fun u : State => ∀ p tag, r.by_ = some (p, tag) → (portOf s p).en = true → (ringOf (portOf s p) 2).en = true → (portOf s p).fabErr = false →
        (portOf s p).backlog = [] → (portOf s p).ovfDrops = 0 → evRoom (portOf s p) = true →
        ∃ e, (portOf u p).evWait = (portOf s p).evWait ++ [e] ∧ e.typ = 5 ∧ e.pay.getD 9 0 = (if res.pass then 0 else 1) ∧
          (r.unit = .meter → leAt e.pay 16 8 = 0) ∧ (∀ x : Fin 17, r.unit = .lane x → leAt e.pay 16 8 = res.detail.toNat % 2 ^ 16)
      (∀ x : Fin 17, r.unit = .lane x → res.pass = true → Answers (.selftestDone r.unit res t) s (fun u =>
        vget u.lanes x = { vget s.lanes x with retired := false, passed := true, testing := false } ∧ told u ∧
        u = { now t s with lanes := u.lanes, tests := [], ports := u.ports, safety := u.safety })) ∧
      (∀ x : Fin 320, r.unit = .sensor x → s.therm.excl.getLsbD x = false → res.pass = false → Answers (.selftestDone r.unit res t) s (fun u =>
        u.tests = [] ∧ u.therm.excl.getLsbD x = true ∧ (sensorAt u x).live = false ∧ told u ∧
        (s.safety.queue.length < 768 → ∃ m ∈ u.safety.queue, fKindOf m.bits = 0x23 ∧ fUnit m.bits = 0x8))) ∧
      (r.unit = .meter → Answers (.selftestDone .meter res t) s (fun u => told u ∧
        u = { now t s with tests := [], ports := u.ports, safety := u.safety })))

/-- Immediate commands and reads of the log (R318, R345, R348, R388, R390): NOP completes at once with OK and result 0; LOG_READ and CHAR_LOAD run
until their data is there; of the slots read a LOG_READ takes the good records that are not retired, from the starting sequence on, in the order of
their sequences and as many as it asks for, of S0 the pages as they lie (log 86), and their bytes go to its destination in 64-byte writes, the
completion with the last; of S0's two copies CHAR_LOAD installs the first, or else the second, and with neither good completes BAD_CHECK and raises
CHAR_BAD. Failed checks and broken groups (R78, R296, R322, R324): a descriptor that fails one of steps 1–7 completes with the status and the result
of its first failure, without a commit; 128 µs after its first member an open group ends, and its waiting member completes GROUP_ABORT naming no
member. -/
def Obligations.ImmediateAndFailedCommands : Prop :=
  (∀ (d : Desc) (s : State),
     (Admits 0x01 d s → Answers (.nop d) s (fun u => u.cmds = [] ∧
       (∃ e, (portOf u d.port).cplWait = (portOf s d.port).cplWait ++ [e] ∧ e.status = 0 ∧ e.result = 0 ∧ e.seq = 0 ∧ e.tag = d.tag ∧ e.isFinal = true) ∧
       (portOf u d.port).resv = (portOf s d.port).resv + 1 ∧
       (ringOf (portOf u d.port) 0).cons = ((ringOf (portOf s d.port) 0).cons + 1) % (2 * 2 ^ (ringOf (portOf s d.port) 0).log2.toNat) ∧
       u = { now d.t s with ports := u.ports, nextOrd := u.nextOrd, rrPort := u.rrPort, fetchPort := d.port })) ∧
     (Admits 0x80 d s → Answers (.logRead d) s (fun u => Holds 0x80 d .running s u (fun _ => True))) ∧
     (Admits 0xA0 d s → opB d 16 = 0 → Answers (.charLoad d) s (fun u => Holds 0xA0 d .running s u (fun _ => True))) ∧
     (∀ (c : Cmd) (t : Nat), s.cmds = [c] → c.stage = .running → (portOf s c.d.port).fabErr = false →
       (∀ (slots : List (Nat × List Byte)) (rec : S0Read) (recs : List (List Byte)), c.op = 0x80 →
         (opB c.d 16 = 0 ∧ recs = (slots.map (fun e => slice e.2 0 256)).take (opN c.d 28 2)) ∨
         (opB c.d 16 ≠ 0 ∧ ∃ all : List (List Byte), recs = (all.filter (fun b => opN c.d 20 8 ≤ leAt b 8 8)).take (opN c.d 28 2) ∧
           all.Perm ((slots.filter (fun e => recordGood (opB c.d 16) e.2 && slotLive (now t s) (opB c.d 16) e.1)).map (fun e => e.2)) ∧
           all.Pairwise (fun a b => leAt a 8 8 < leAt b 8 8)) →
         Answers (.norReadDone c.d.port slots rec t) s (fun u => u.cmds = [] ∧
           (recs = [] → u = { now t s with cmds := [], ports := u.ports } ∧
             ∃ e, (portOf u c.d.port).cplWait = (portOf s c.d.port).cplWait ++ [e] ∧ e.status = 0 ∧ e.tag = c.d.tag ∧ e.result = 0) ∧
           (recs ≠ [] → ∃ (l : List WriteReq) (last : WriteReq),
             u.wq ++ u.outQ = s.wq ++ s.outQ ++ (l ++ [last]) ∧ (l ++ [last]).flatMap (fun x => x.data) = recs.flatten ∧
             (∀ x ∈ l ++ [last], x.port = c.d.port ∧ x.ring = none ∧ x.data.length ≤ 64) ∧
             (∀ (i : Nat) (x : WriteReq), (l ++ [last])[i]? = some x → x.addr = BitVec.ofNat 64 (opN c.d 32 8) + BitVec.ofNat 64 (64 * i)) ∧
             (∀ x ∈ l, x.cpl = []) ∧ (∃ e, last.cpl = [(e, false)] ∧ e.status = 0 ∧ e.tag = c.d.tag ∧ e.result = BitVec.ofNat 32 recs.length) ∧
             u = { now t s with cmds := [], wq := u.wq, outQ := u.outQ }))) ∧
       (∀ (slots : List (Nat × List Byte)) (rec : S0Read), c.op = 0xA0 →
         (∀ r : CharRecord, rec.copy1 = some r ∨ (rec.copy1 = none ∧ rec.copy2 = some r) → Answers (.norReadDone c.d.port slots rec t) s (fun u =>
           u.char = some r ∧ u.cmds = [] ∧ u.meter.ofs = (s.strata.cals.foldl (fun m k => vset m k.ch k.ofs) r.mtrOfs) ∧
           ∃ e, (portOf u c.d.port).cplWait = (portOf s c.d.port).cplWait ++ [e] ∧ e.status = 0 ∧ e.tag = c.d.tag)) ∧
         (rec.copy1 = none → rec.copy2 = none → Answers (.norReadDone c.d.port slots rec t) s (fun u =>
           u.char = s.char ∧ u.cmds = [] ∧ u.dom = s.dom ∧ u.meter = s.meter ∧
           (∃ m, u.safety.queue = s.safety.queue ++ [m] ∧ fKindOf m.bits = 0x72 ∧ fClass m.bits = 1 ∧ fUnit m.bits = 0xD) ∧
           ∃ e, (portOf u c.d.port).cplWait = (portOf s c.d.port).cplWait ++ [e] ∧ e.status = 0x13 ∧ e.tag = c.d.tag ∧ e.result = 0xFF0000FE))))) ∧
  ((∀ (d : Desc) (s : State) (st res : Nat), s.cmds = [] → (∀ p : Fin 8, vget s.groups p = none) → dGroup d = false →
     fetchOk (now d.t s) d.port = true → linkCheck (now d.t s) d = none → fetchVerdict (now d.t s) 0x10 d = some (st, res) →
     Answers (.domState d) s (fun u => u.cmds = [] ∧ u.dom = s.dom ∧ u.cfg = s.cfg ∧ u.cseq = s.cseq ∧
       (∃ e, (portOf u d.port).cplWait = (portOf s d.port).cplWait ++ [e] ∧ e.status = BitVec.ofNat 8 st ∧ e.result = BitVec.ofNat 32 res ∧ e.seq = 0 ∧
         e.tag = d.tag) ∧ u = { now d.t s with ports := u.ports, fetchPort := d.port })) ∧
   ∀ (p : PortNo) (t : Nat) (s : State) (g : OpenGroup) (c : Cmd), vget s.groups p = some g → g.since + 128000 ≤ t → s.cmds = [c] → c.grp = some g.id →
     c.d.port = p → c.stage = .waiting →
     Answers (.groupTimeout p t) s (fun u => u.cmds = [] ∧ vget u.groups p = none ∧ u.cfg = s.cfg ∧ u.dom = s.dom ∧
       ∃ e, (portOf u p).cplWait = (portOf s p).cplWait ++ [e] ∧ e.status = 0x17 ∧ e.result = 0xFFFE ∧ e.tag = c.d.tag))

/-- A shutter (R21, R35, R67, R68, R79, R81, R362, R365, R402): before the shutter unit starts and in DEEP there is none, and during a control reset
only the epoch steps and the energies go on, the inputs of an epoch that has no record being forgotten; otherwise the epoch steps; the one accepted
command whose slot it is, its stations acknowledging and its checks holding, commits: the next sequence number that has no low word of 0 is its own,
its entry is the record's commit list, its effect on configuration, programs and models stands, and its completion waits. Without a command the
record has no commit and the sequence stays. When stations acknowledge, and that energies go on during a control reset, are the model's readings
(logs 46 and 100). -/
def Obligations.ShutterCommits : Prop :=
  ∀ (k : Nat) (meas : List EpochMeas) (s : State),
    let t := 2000 * k
    let s0 := now t s
    let s1 : State := { s0 with time := { s0.time with fired := true, epoch := epochOf t } }
    let b := beforeCommits t meas s1
    let v := noteAcks t b.2
    let blank : InputBlk := { InputBlk.empty with prev := s.input.prev }
    (s.time.started = false ∨ s.clk.pwrCur = 2 → exec (.shutter k meas) s = .next { s0 with input := blank }) ∧
    (s.time.started = true → s.clk.pwrCur ≠ 2 → s.clk.crstBusy = true → Answers (.shutter k meas) s (fun u =>
      (∀ d : Dom, Single s d → isAbsent s d = false → (domOf u d).energy = (domOf s d).energy + ((meas.filter (fun m => m.dom == d)).map (fun m => m.energy)).sum) ∧
      u = { s1 with input := blank, dom := u.dom, meter := { s.meter with inEnergy := u.meter.inEnergy, inFrac := u.meter.inFrac } })) ∧
    (s.time.started = true → s.clk.pwrCur ≠ 2 → s.clk.crstBusy = false → (∀ p : Fin 8, (portOf v p).rstAt = none) →
      (v.cmds = [] → Answers (.shutter k meas) s (fun u =>
        u.time.epoch = epochOf t ∧ u.time.fired = true ∧ u.cseq = v.cseq ∧ u.cfg = v.cfg ∧ u.cmds = [] ∧
        ∃ r rest, u.records = r :: rest ∧ r.commits = [] ∧ r.gtc = BitVec.ofNat 64 t ∧ r.epoch = epochOf (t - 2000))) ∧
      (∀ c, v.cmds = [c] → c.stage = .accepted → c.refuse = false → c.moved = false → c.grp = none → c.shutter = t → dAt c.d = false → c.op ≠ 0x61 →
        acknowledged v c = true → commitCheck v c = none →
        let e := applyEffect t (withGrants t b.1 b.2) { v with cmds := [] } c
        Answers (.shutter k meas) s (fun u =>
          u.cseq = nextSeq v.cseq ∧ u.cseq.extractLsb' 0 32 ≠ 0 ∧ u.cfg = e.1.cfg ∧ u.progs = e.1.progs ∧ u.models = e.1.models ∧
          (∃ r rest, u.records = r :: rest ∧ r.commits = [entryOf c (nextSeq v.cseq)] ∧ r.gtc = BitVec.ofNat 64 t) ∧
          (e.1.cmds = [] → (∀ p : Fin 8, (portOf e.1 p).rstAt = none) → ∃ x ∈ (portOf u c.d.port).cplWait, x.tag = c.d.tag ∧ x.status = 0 ∧
            x.seq = (nextSeq v.cseq).extractLsb' 0 32 ∧ x.result = BitVec.ofNat 32 e.2 ∧ x.isFinal = true))))

/-! ### The arbiter, the trace and the stores (chapters 10, 12 and 16) -/

/-- A regrant (R22, R217, R222, R223): the tiles' shares of what is left never exceed it, a floor is breached only when it does
not hold the floors, otherwise every tile has at least its floor and no more than floor or want; the grants wait for the next
commit, those of the LIT tiles within the cap, and a DARK domain's is 0. Without a record, or while a control reset holds the arbiter, there
is no regrant (R365). -/
def Obligations.Regrant : Prop :=
  (∀ (avail : Int) (l : List Claim), let r := shareTiles avail l
    ((r.1.map (fun c => (c.g : Int))).sum ≤ Max.max avail 0) ∧ (r.2 = true ↔ avail < (l.map (fun c => (c.floor : Int))).sum) ∧
    r.1.map (fun c => c.dom) = l.map (fun c => c.dom) ∧
    (r.2 = false → ∀ c ∈ r.1, c.floor ≤ c.g ∧ c.g ≤ Nat.max c.floor c.want)) ∧
  ∀ (p : Nat) (s : State), (s.clk.crstBusy = true ∨ s.records = [] → exec (.regrant p) s = .next (now (10000 * p) s)) ∧
    (∀ (r : Record) (rest : List Record), s.clk.crstBusy = false → s.records = r :: rest →
    Answers (.regrant p) s (fun u =>
      (∃ l, u.arb.pend = some l ∧ ((l.filter (fun x => inT s x.dom)).map (fun x => x.g)).sum ≤ capNew s ∧ ∀ x ∈ l, hasGrant s x.dom = true ∨ (domOf s x.dom).state = .dark ∧ x.g = 0) ∧
      (∀ d : Dom, (vget u.dom d).arb.uMax = 0) ∧ u.cfg = s.cfg ∧ u.cmds = s.cmds ∧ u.ports = s.ports ∧ u.records = s.records))

/-- A chunk's hand-off (R24, R274, R275, R299): with room in the ring, and for all of it in the write queue's 64 entries, the chunk is queued with
its first unit last, and the stream's drop state clears; without room in the ring, or in the queue, it is dropped whole, counted, and the stream
starts afresh; a stream that is off, or without a chunk due, and a hand-off of a shutter that is not the last are left as they are. That a chunk
needs its room in the queue at once is the model's reading (log 72). -/
def Obligations.TraceHandoff : Prop :=
  ∀ (p : PortNo) (k t : Nat) (s : State) (r : Record) (rest : List Record), s.records = r :: rest →
    let P := portOf s p
    let x := P.trace
    let runs := modeOn s 6 = true ∧ gateOn s 2 = true ∧ P.en = true ∧ (ringOf P 3).en = true ∧ P.fabErr = false ∧ x.lastAt ≠ r.gtc.toNat ∧
      r.gtc.toNat = 2000 * k ∧ Nat.max s.time.gtc t < r.gtc.toNat + 2000
    (¬runs ∨ chunkPar x r.gtc.toNat = none → exec (.traceChunkHandoff p k t) s = .next (now t s)) ∧
    (∀ q : ChunkPar, runs → chunkPar x r.gtc.toNat = some q →
      let c := buildChunk (now t s) p r.gtc.toNat q
      let fits := chunkFits (ringOf P 3) (c.bytes.length / 64)
      let queued := (chunkWrites p (ringOf P 3) c).2
      let room := (s.wq.map writeUnits).sum + (queued.map writeUnits).sum ≤ 64
      let others := fun u : State => ∀ e : Fin 8, e ≠ p → portOf u e = portOf s e
      (fits = true → room → Answers (.traceChunkHandoff p k t) s (fun u =>
        let y := (portOf u p).trace
        y.dropped = false ∧ y.dropRing = 0 ∧ y.dropQueue = 0 ∧ y.lastAt = r.gtc.toNat ∧ y.ctrRing = x.ctrRing ∧ y.ctrQueue = x.ctrQueue ∧
        u.wq = s.wq ++ queued ∧
        (∃ l w, queued = l ++ [w] ∧ w.port = p ∧ w.ring = some .trq ∧ w.data = c.bytes.take 64 ∧ w.prod = (ringOf (portOf u p) 3).prod) ∧
        others u ∧ u = { now t s with ports := u.ports, wq := u.wq })) ∧
      (fits = false → Answers (.traceChunkHandoff p k t) s (fun u => let y := (portOf u p).trace
        y.dropped = true ∧ y.resync = true ∧ y.dropRing = x.dropRing + 1 ∧ y.ctrRing = x.ctrRing + 1 ∧ y.ctrQueue = x.ctrQueue ∧ others u ∧
        u = { now t s with ports := u.ports })) ∧
      (fits = true → ¬room → Answers (.traceChunkHandoff p k t) s (fun u => let y := (portOf u p).trace
        y.dropped = true ∧ y.resync = true ∧ y.dropQueue = x.dropQueue + 1 ∧ y.ctrQueue = x.ctrQueue + 1 ∧ y.ctrRing = x.ctrRing ∧ others u ∧
        u = { now t s with ports := u.ports })))

/-- Protected stores (R173, R383, Table 16-5): a word without an error changes nothing, a corrected one queues ECC_CORR with its
unit, store and address, a parity error of a station's table queues PARITY and keeps the table from use until it is reloaded, an uncorrectable
program word marks its program unusable, a model word its model, whose domains lose
Lantern, an uncorrectable record is marked bad, a lost AT entry completes its command BAD_CHECK, a bin with a parity error becomes 0. -/
def Obligations.ScrubFinds : Prop :=
  ∀ (a : BitVec 14) (w : Word) (g : Fin 32) (e : Word) (d : Dom) (bin : BitVec 12) (m : Fin 8) (t : Nat) (s : State), s.safety.queue.length ≤ 768 →
    let msg := fun cls kind unit inst detail : Nat => s.safety.queue ++
      [{ bits := faultWord cls kind unit inst detail (epochIn (now t s)), from_ := none, ext := 0 }]
    let corr := fun (hit : ScrubHit) (unit inst addr : Nat) =>
      exec (.scrub hit t) s = .next { now t s with safety := { s.safety with queue := msg 0 0x41 unit inst addr } }
    exec (.scrub .clean t) s = .next (now t s) ∧
    corr (.progCorr a) 2 0x20 a.toNat ∧ corr (.stateCorr a) 2 0x21 a.toNat ∧ corr (.hubCorr w) 1 0x22 w.toNat ∧ corr (.recordCorr w) 1 0x22 w.toNat ∧
    corr (.atCorr w) 1 0x23 w.toNat ∧
    corr (.modelCorr m w) 3 m w.toNat ∧
    exec (.scrub (.stationPar d) t) s = .next { now t s with
      dom := vset s.dom d { vget s.dom d with tblBad := true }, safety := { s.safety with queue := msg 0 0x40 0x6 d 0 } } ∧
    (∀ x, vget s.progs g = some x → exec (.scrub (.progUnc g a) t) s = .next { now t s with
      progs := vset s.progs g (some { x with unusable := true }), safety := { s.safety with queue := msg 1 0x42 2 0x20 a.toNat } }) ∧
    Answers (.scrub (.hubUnc d w) t) s (fun u => ∃ l, u.safety.queue = msg 1 0x42 1 0x22 w.toNat ++ l ∧ u.cfg = s.cfg ∧ u.cmds = s.cmds) ∧
    (∀ c, s.cmds = [c] → c.stage = .accepted → dAt c.d = true → c.grp = none → (∀ p : Fin 8, vget s.groups p = none) →
      Answers (.scrub (.atUnc c.d.port c.d.tag) t) s (fun u =>
        u.cmds = [] ∧ (∃ x, (portOf u c.d.port).cplWait = (portOf s c.d.port).cplWait ++ [x] ∧ x.status = 0x13 ∧ x.seq = 0 ∧ x.tag = c.d.tag) ∧
        ∃ y, u.safety.queue = s.safety.queue ++ [y] ∧ fKindOf y.bits = 0x42 ∧ fClass y.bits = 1 ∧ fUnit y.bits = 1 ∧ fInst y.bits = 0x23)) ∧
    Answers (.scrub (.recordUnc e) t) s (fun u =>
      (∀ r ∈ u.records, r.epoch = e → r.bad = true) ∧ u.records.map (fun r => r.commits) = s.records.map (fun r => r.commits) ∧
      ∃ y, u.safety.queue = s.safety.queue ++ [y] ∧ fKindOf y.bits = 0x42 ∧ fClass y.bits = 1 ∧ fUnit y.bits = 1 ∧ fInst y.bits = 0x22) ∧
    (∀ x, vget s.models m = some x → Answers (.scrub (.modelUnc m w) t) s (fun u =>
      u.models = vset s.models m (some { x with unusable := true }) ∧ u.safety.queue = msg 1 0x42 3 m w.toNat ∧
      (∀ y : Dom, isAbsent s y = false → isOdd s y = false → (cfgAt s y).model = some m → ∃ i ∈ u.ints, i.dom = y ∧ i.what = .featOff true false) ∧
      u = { now t s with models := u.models, ints := u.ints, safety := { s.safety with queue := u.safety.queue } })) ∧
    ((domOf s d).rc.bins.wf = true → Answers (.scrub (.rcParity d bin) t) s (fun u =>
      (domOf u d).rc.bins.read bin.toNat = 0 ∧ (∀ j, j ≠ bin.toNat → (domOf u d).rc.bins.read j = (domOf s d).rc.bins.read j) ∧
      (∀ x : Dom, x ≠ d → vget u.dom x = vget s.dom x) ∧ u.safety.queue = msg 0 0x41 4 d bin.toNat ∧
      u = { now t s with dom := u.dom, safety := { s.safety with queue := u.safety.queue } }))
end

