-- ==== Sys2Proof/Laws/Bytes.lean ====
section
/-! SUPPORT. What a field of a byte string reads back as, and that a record of Strata as it is programmed passes the readers' checks. -/

namespace Sys2Proof.Machine

@[simp] theorem leBytes_length (n x : Nat) : (leBytes n x).length = n := by
  induction n generalizing x with
  | zero => rfl
  | succ n ih => simp [leBytes, ih]

/-- The number in the low bytes of a number (R2). -/
@[simp] theorem leNat_leBytes (n x : Nat) : leNat (leBytes n x) = x % 256 ^ n := by
  induction n generalizing x with
  | zero => simp [leBytes, leNat, Nat.mod_one]
  | succ n ih => rw [leBytes, leNat, ih, pow_succ', Nat.mod_mul]; simp

theorem slice_append (a b c : List Byte) : slice (a ++ (b ++ c)) a.length b.length = b := by simp [slice]

@[simp] theorem slice_length (bs : List Byte) (off n : Nat) : (slice bs off n).length = n := by simp [slice]

/-- A field beyond an offset is a field of the rest. -/
theorem leAt_drop (bs : List Byte) (a b n : Nat) : leAt bs (a + b) n = leAt (bs.drop a) b n := by simp [leAt, slice]

/-- A field reads as the number that was put there. -/
theorem leAt_append (a c : List Byte) (n x : Nat) : leAt (a ++ (leBytes n x ++ c)) a.length n = x % 256 ^ n := by
  have h := slice_append a (leBytes n x) c
  rw [leBytes_length] at h
  rw [leAt, h, leNat_leBytes]

/-- A checksum field reads as the checksum. -/
theorem crc_append (a c : List Byte) (w : Word) : leAt (a ++ (leBytes 4 w.toNat ++ c)) a.length 4 = w.toNat := by
  rw [leAt_append]; exact Nat.mod_eq_of_lt w.isLt

/-- The header of a record: everything before its payload (Table 16-8). -/
def recordHead (boots : Word) (r : StrataRec) : List Byte :=
  magicOf r.stratum ++ leBytes 2 r.typ.toNat ++ leBytes 2 r.pay.length ++ leBytes 8 r.seq.toNat ++ leBytes 8 r.gtc ++
    leBytes 4 (epochOf r.gtc).toNat ++ leBytes 4 boots.toNat

theorem magicOf_length (k : Nat) : (magicOf k).length = 4 := by unfold magicOf; split <;> decide

theorem recordHead_length (boots : Word) (r : StrataRec) : (recordHead boots r).length = 32 := by
  simp [recordHead, magicOf_length]

theorem recordPage_eq (boots : Word) (r : StrataRec) :
    recordPage boots r = (recordHead boots r ++ slice r.pay 0 ((stratumOf r.stratum).2.2 - 36)) ++
      (leBytes 4 (crc32c (recordHead boots r ++ slice r.pay 0 ((stratumOf r.stratum).2.2 - 36))).toNat ++ []) := by
  simp [recordPage, recordHead]

/-- Every reader takes a record as it was programmed (R388). -/
theorem recordPage_good (boots : Word) (r : StrataRec) : recordGood r.stratum (recordPage boots r) = true := by
  have hs : 36 ≤ (stratumOf r.stratum).2.2 := by unfold stratumOf; split <;> decide
  have hl : (recordHead boots r ++ slice r.pay 0 ((stratumOf r.stratum).2.2 - 36)).length = (stratumOf r.stratum).2.2 - 4 := by
    simp [recordHead_length]; omega
  have hm : (recordHead boots r).take 4 = magicOf r.stratum := by
    simp only [recordHead, List.append_assoc]; exact List.take_left' (magicOf_length _)
  rw [recordPage_eq]
  generalize hb : recordHead boots r ++ slice r.pay 0 ((stratumOf r.stratum).2.2 - 36) = body at *
  have ht : body.take 4 = magicOf r.stratum := by rw [← hb, List.take_append_of_le_length (by simp [recordHead_length]), hm]
  have hc := crc_append body [] (crc32c body)
  rw [hl] at hc
  have ht4 : (body ++ (leBytes 4 (crc32c body).toNat ++ [])).take 4 = magicOf r.stratum := by
    rw [List.take_append_of_le_length (by omega), ht]
  have htk : (body ++ (leBytes 4 (crc32c body).toNat ++ [])).take ((stratumOf r.stratum).2.2 - 4) = body := List.take_left' hl
  have hll : (body ++ (leBytes 4 (crc32c body).toNat ++ [])).length = (stratumOf r.stratum).2.2 := by
    rw [List.length_append, hl, List.append_nil, leBytes_length]; omega
  simp only [recordGood, hc, htk, ht4, hll, beq_self_eq_true, Bool.and_self]

/-- The checksum of an image whose field at byte 60 was built from its other bytes. -/
theorem image_crc (a z : List Byte) (h : a.length = 60) :
    crc32c ((a ++ (leBytes 4 (crc32c (a ++ z)).toNat ++ z)).take 60 ++ (a ++ (leBytes 4 (crc32c (a ++ z)).toNat ++ z)).drop 64) =
      BitVec.ofNat 32 (leAt (a ++ (leBytes 4 (crc32c (a ++ z)).toNat ++ z)) 60 4) := by
  have hc := crc_append a z (crc32c (a ++ z))
  rw [h] at hc
  have h1 : (a ++ (leBytes 4 (crc32c (a ++ z)).toNat ++ z)).take 60 = a := by simp [← h]
  have h2 : (a ++ (leBytes 4 (crc32c (a ++ z)).toNat ++ z)).drop 64 = z := by
    rw [← List.append_assoc, show 64 = (a ++ leBytes 4 (crc32c (a ++ z)).toNat).length by simp [h]]; simp
  rw [hc, h1, h2, BitVec.ofNat_toNat, BitVec.setWidth_eq]

/-- A model image whose checksum was built from its other bytes passes the checksum test, and the loader goes on to the other checks (Table 09-4). -/
theorem loadModelImage_built (a z : List Byte) (h : a.length = 60) (hz : z.length = 6240) :
    let bs := a ++ (leBytes 4 (crc32c (a ++ z)).toNat ++ z)
    loadModelImage bs = if slice bs 0 4 ≠ ascii "DGLM" ∨ leAt bs 4 1 ≠ 1 then .error ⟨0x02, 0xFFFF⟩
      else match (modelChecks bs).findSome? id with
        | some f => .error f
        | none => .ok (modelOf bs) := by
  intro bs
  have hl : bs.length = 6304 := by simp [bs, h, hz]
  rw [loadModelImage, if_neg (by simpa [bs] using image_crc a z h), if_neg (c := bs.length ≠ 6304) (by simpa using hl)] <;> rfl

end Sys2Proof.Machine
end

