-- ==== Sys2Proof/Laws/Encoding.lean ====
section
/-! SUPPORT. The fields of a CLE instruction word: each accessor reads back what the word was made from. -/

namespace Sys2Proof.Laws
open Sys2Proof

/-- The opcode field of a word made from fields. -/
@[simp] theorem wordOp_cleWord (op : BitVec 6) (d a b : BitVec 4) (imm : BitVec 14) :
    wordOp (cleWord op d a b imm) = op := by
  apply BitVec.eq_of_getLsbD_eq
  intro i hi
  simp only [wordOp, cleWord, BitVec.getLsbD_extractLsb', BitVec.getLsbD_append, hi, decide_true, Bool.true_and]
  repeat' split
  all_goals first | omega | (congr 1; omega)

/-- Field d of a word made from fields. -/
@[simp] theorem wordD_cleWord (op : BitVec 6) (d a b : BitVec 4) (imm : BitVec 14) :
    wordD (cleWord op d a b imm) = d := by
  apply BitVec.eq_of_getLsbD_eq
  intro i hi
  simp only [wordD, cleWord, BitVec.getLsbD_extractLsb', BitVec.getLsbD_append, hi, decide_true, Bool.true_and]
  repeat' split
  all_goals first | omega | (congr 1; omega)

/-- Field a of a word made from fields. -/
@[simp] theorem wordA_cleWord (op : BitVec 6) (d a b : BitVec 4) (imm : BitVec 14) :
    wordA (cleWord op d a b imm) = a := by
  apply BitVec.eq_of_getLsbD_eq
  intro i hi
  simp only [wordA, cleWord, BitVec.getLsbD_extractLsb', BitVec.getLsbD_append, hi, decide_true, Bool.true_and]
  repeat' split
  all_goals first | omega | (congr 1; omega)

/-- Field b of a word made from fields. -/
@[simp] theorem wordB_cleWord (op : BitVec 6) (d a b : BitVec 4) (imm : BitVec 14) :
    wordB (cleWord op d a b imm) = b := by
  apply BitVec.eq_of_getLsbD_eq
  intro i hi
  simp only [wordB, cleWord, BitVec.getLsbD_extractLsb', BitVec.getLsbD_append, hi, decide_true, Bool.true_and]
  repeat' split
  all_goals first | omega | (congr 1; omega)

/-- Field imm of a word made from fields. -/
@[simp] theorem wordImm_cleWord (op : BitVec 6) (d a b : BitVec 4) (imm : BitVec 14) :
    wordImm (cleWord op d a b imm) = imm := by
  apply BitVec.eq_of_getLsbD_eq
  intro i hi
  simp only [wordImm, cleWord, BitVec.getLsbD_extractLsb', BitVec.getLsbD_append, hi, decide_true, Bool.true_and]
  repeat' split
  all_goals first | omega | (congr 1; omega)

/-- The high part of three concatenated fields. -/
theorem imm_high {m k n : Nat} (x : BitVec m) (y : BitVec k) (z : BitVec n) :
    (x ++ y ++ z).extractLsb' (k + n) m = x := by
  apply BitVec.eq_of_getLsbD_eq
  intro i hi
  simp only [BitVec.getLsbD_extractLsb', BitVec.getLsbD_append, hi, decide_true, Bool.true_and]
  repeat' split
  all_goals first | omega | (congr 1; omega)

/-- The low part of concatenated fields. -/
theorem imm_low {m n : Nat} (x : BitVec m) (z : BitVec n) : (x ++ z).extractLsb' 0 n = z := by
  apply BitVec.eq_of_getLsbD_eq
  intro i hi
  simp only [BitVec.getLsbD_extractLsb', BitVec.getLsbD_append, hi, decide_true, Bool.true_and]
  repeat' split
  all_goals first | omega | (congr 1; omega)

end Sys2Proof.Laws
end

