-- ==== Sys2Proof/Laws/State.lean ====
section
/-! SUPPORT. Each named update of the state, field by field: one lemma per field, true by definition. -/

namespace Sys2Proof.Laws
open Sys2Proof Sys2Proof.Machine
set_option Elab.async false

/-! ### `now` -/

@[simp] theorem now_time (s : State) (t : Nat) : (now t s).time = { s.time with gtc := Nat.max s.time.gtc t, run := s.time.run + (t - s.time.gtc) } := rfl
@[simp] theorem now_mode (s : State) (t : Nat) : (now t s).mode = s.mode := rfl
@[simp] theorem now_scratch (s : State) (t : Nat) : (now t s).scratch = s.scratch := rfl
@[simp] theorem now_resp (s : State) (t : Nat) : (now t s).resp = s.resp := rfl
@[simp] theorem now_cseq (s : State) (t : Nat) : (now t s).cseq = s.cseq := rfl
@[simp] theorem now_cmds (s : State) (t : Nat) : (now t s).cmds = s.cmds := rfl
@[simp] theorem now_groups (s : State) (t : Nat) : (now t s).groups = s.groups := rfl
@[simp] theorem now_rrPort (s : State) (t : Nat) : (now t s).rrPort = s.rrPort := rfl
@[simp] theorem now_fetchPort (s : State) (t : Nat) : (now t s).fetchPort = s.fetchPort := rfl
@[simp] theorem now_nextOrd (s : State) (t : Nat) : (now t s).nextOrd = s.nextOrd := rfl
@[simp] theorem now_nextGrp (s : State) (t : Nat) : (now t s).nextGrp = s.nextGrp := rfl
@[simp] theorem now_records (s : State) (t : Nat) : (now t s).records = s.records := rfl
@[simp] theorem now_ints (s : State) (t : Nat) : (now t s).ints = s.ints := rfl
@[simp] theorem now_input (s : State) (t : Nat) : (now t s).input = s.input := rfl
@[simp] theorem now_cfg (s : State) (t : Nat) : (now t s).cfg = s.cfg := rfl
@[simp] theorem now_dom (s : State) (t : Nat) : (now t s).dom = s.dom := rfl
@[simp] theorem now_char (s : State) (t : Nat) : (now t s).char = s.char := rfl
@[simp] theorem now_laneOf (s : State) (t : Nat) : (now t s).laneOf = s.laneOf := rfl
@[simp] theorem now_lanes (s : State) (t : Nat) : (now t s).lanes = s.lanes := rfl
@[simp] theorem now_slot (s : State) (t : Nat) : (now t s).slot = s.slot := rfl
@[simp] theorem now_mism (s : State) (t : Nat) : (now t s).mism = s.mism := rfl
@[simp] theorem now_progs (s : State) (t : Nat) : (now t s).progs = s.progs := rfl
@[simp] theorem now_models (s : State) (t : Nat) : (now t s).models = s.models := rfl
@[simp] theorem now_lanternFail (s : State) (t : Nat) : (now t s).lanternFail = s.lanternFail := rfl
@[simp] theorem now_lantErrs (s : State) (t : Nat) : (now t s).lantErrs = s.lantErrs := rfl
@[simp] theorem now_arb (s : State) (t : Nat) : (now t s).arb = s.arb := rfl
@[simp] theorem now_links (s : State) (t : Nat) : (now t s).links = s.links := rfl
@[simp] theorem now_ports (s : State) (t : Nat) : (now t s).ports = s.ports := rfl
@[simp] theorem now_wq (s : State) (t : Nat) : (now t s).wq = s.wq := rfl
@[simp] theorem now_outQ (s : State) (t : Nat) : (now t s).outQ = s.outQ := rfl
@[simp] theorem now_irq (s : State) (t : Nat) : (now t s).irq = s.irq := rfl
@[simp] theorem now_clk (s : State) (t : Nat) : (now t s).clk = s.clk := rfl
@[simp] theorem now_mc (s : State) (t : Nat) : (now t s).mc = s.mc := rfl
@[simp] theorem now_safety (s : State) (t : Nat) : (now t s).safety = s.safety := rfl
@[simp] theorem now_strata (s : State) (t : Nat) : (now t s).strata = s.strata := rfl
@[simp] theorem now_therm (s : State) (t : Nat) : (now t s).therm = s.therm := rfl
@[simp] theorem now_meter (s : State) (t : Nat) : (now t s).meter = s.meter := rfl
@[simp] theorem now_bus (s : State) (t : Nat) : (now t s).bus = s.bus := rfl
@[simp] theorem now_sieve (s : State) (t : Nat) : (now t s).sieve = s.sieve := rfl
@[simp] theorem now_tests (s : State) (t : Nat) : (now t s).tests = s.tests := rfl
@[simp] theorem now_freeIdx (s : State) (t : Nat) : (now t s).freeIdx = s.freeIdx := rfl
@[simp] theorem now_pending (s : State) (t : Nat) : (now t s).pending = s.pending := rfl
@[simp] theorem domOf_now (s : State) (t : Nat) (i : Nat) : domOf (now t s) i = domOf s i := rfl
@[simp] theorem cfgOf_now (s : State) (t : Nat) (i : Nat) : cfgOf (now t s) i = cfgOf s i := rfl
@[simp] theorem portOf_now (s : State) (t : Nat) (i : Nat) : portOf (now t s) i = portOf s i := rfl

/-! ### `setDom` -/

@[simp] theorem setDom_time (s : State) (d : Nat) (f : Domain → Domain) : (setDom s d f).time = s.time := rfl
@[simp] theorem setDom_mode (s : State) (d : Nat) (f : Domain → Domain) : (setDom s d f).mode = s.mode := rfl
@[simp] theorem setDom_scratch (s : State) (d : Nat) (f : Domain → Domain) : (setDom s d f).scratch = s.scratch := rfl
@[simp] theorem setDom_resp (s : State) (d : Nat) (f : Domain → Domain) : (setDom s d f).resp = s.resp := rfl
@[simp] theorem setDom_cseq (s : State) (d : Nat) (f : Domain → Domain) : (setDom s d f).cseq = s.cseq := rfl
@[simp] theorem setDom_cmds (s : State) (d : Nat) (f : Domain → Domain) : (setDom s d f).cmds = s.cmds := rfl
@[simp] theorem setDom_groups (s : State) (d : Nat) (f : Domain → Domain) : (setDom s d f).groups = s.groups := rfl
@[simp] theorem setDom_rrPort (s : State) (d : Nat) (f : Domain → Domain) : (setDom s d f).rrPort = s.rrPort := rfl
@[simp] theorem setDom_fetchPort (s : State) (d : Nat) (f : Domain → Domain) : (setDom s d f).fetchPort = s.fetchPort := rfl
@[simp] theorem setDom_nextOrd (s : State) (d : Nat) (f : Domain → Domain) : (setDom s d f).nextOrd = s.nextOrd := rfl
@[simp] theorem setDom_nextGrp (s : State) (d : Nat) (f : Domain → Domain) : (setDom s d f).nextGrp = s.nextGrp := rfl
@[simp] theorem setDom_records (s : State) (d : Nat) (f : Domain → Domain) : (setDom s d f).records = s.records := rfl
@[simp] theorem setDom_ints (s : State) (d : Nat) (f : Domain → Domain) : (setDom s d f).ints = s.ints := rfl
@[simp] theorem setDom_input (s : State) (d : Nat) (f : Domain → Domain) : (setDom s d f).input = s.input := rfl
@[simp] theorem setDom_cfg (s : State) (d : Nat) (f : Domain → Domain) : (setDom s d f).cfg = s.cfg := rfl
@[simp] theorem setDom_dom (s : State) (d : Nat) (f : Domain → Domain) : (setDom s d f).dom = vupd s.dom d f := rfl
@[simp] theorem setDom_char (s : State) (d : Nat) (f : Domain → Domain) : (setDom s d f).char = s.char := rfl
@[simp] theorem setDom_laneOf (s : State) (d : Nat) (f : Domain → Domain) : (setDom s d f).laneOf = s.laneOf := rfl
@[simp] theorem setDom_lanes (s : State) (d : Nat) (f : Domain → Domain) : (setDom s d f).lanes = s.lanes := rfl
@[simp] theorem setDom_slot (s : State) (d : Nat) (f : Domain → Domain) : (setDom s d f).slot = s.slot := rfl
@[simp] theorem setDom_mism (s : State) (d : Nat) (f : Domain → Domain) : (setDom s d f).mism = s.mism := rfl
@[simp] theorem setDom_progs (s : State) (d : Nat) (f : Domain → Domain) : (setDom s d f).progs = s.progs := rfl
@[simp] theorem setDom_models (s : State) (d : Nat) (f : Domain → Domain) : (setDom s d f).models = s.models := rfl
@[simp] theorem setDom_lanternFail (s : State) (d : Nat) (f : Domain → Domain) : (setDom s d f).lanternFail = s.lanternFail := rfl
@[simp] theorem setDom_lantErrs (s : State) (d : Nat) (f : Domain → Domain) : (setDom s d f).lantErrs = s.lantErrs := rfl
@[simp] theorem setDom_arb (s : State) (d : Nat) (f : Domain → Domain) : (setDom s d f).arb = s.arb := rfl
@[simp] theorem setDom_links (s : State) (d : Nat) (f : Domain → Domain) : (setDom s d f).links = s.links := rfl
@[simp] theorem setDom_ports (s : State) (d : Nat) (f : Domain → Domain) : (setDom s d f).ports = s.ports := rfl
@[simp] theorem setDom_wq (s : State) (d : Nat) (f : Domain → Domain) : (setDom s d f).wq = s.wq := rfl
@[simp] theorem setDom_outQ (s : State) (d : Nat) (f : Domain → Domain) : (setDom s d f).outQ = s.outQ := rfl
@[simp] theorem setDom_irq (s : State) (d : Nat) (f : Domain → Domain) : (setDom s d f).irq = s.irq := rfl
@[simp] theorem setDom_clk (s : State) (d : Nat) (f : Domain → Domain) : (setDom s d f).clk = s.clk := rfl
@[simp] theorem setDom_mc (s : State) (d : Nat) (f : Domain → Domain) : (setDom s d f).mc = s.mc := rfl
@[simp] theorem setDom_safety (s : State) (d : Nat) (f : Domain → Domain) : (setDom s d f).safety = s.safety := rfl
@[simp] theorem setDom_strata (s : State) (d : Nat) (f : Domain → Domain) : (setDom s d f).strata = s.strata := rfl
@[simp] theorem setDom_therm (s : State) (d : Nat) (f : Domain → Domain) : (setDom s d f).therm = s.therm := rfl
@[simp] theorem setDom_meter (s : State) (d : Nat) (f : Domain → Domain) : (setDom s d f).meter = s.meter := rfl
@[simp] theorem setDom_bus (s : State) (d : Nat) (f : Domain → Domain) : (setDom s d f).bus = s.bus := rfl
@[simp] theorem setDom_sieve (s : State) (d : Nat) (f : Domain → Domain) : (setDom s d f).sieve = s.sieve := rfl
@[simp] theorem setDom_tests (s : State) (d : Nat) (f : Domain → Domain) : (setDom s d f).tests = s.tests := rfl
@[simp] theorem setDom_freeIdx (s : State) (d : Nat) (f : Domain → Domain) : (setDom s d f).freeIdx = s.freeIdx := rfl
@[simp] theorem setDom_pending (s : State) (d : Nat) (f : Domain → Domain) : (setDom s d f).pending = s.pending := rfl
@[simp] theorem cfgOf_setDom (s : State) (d : Nat) (f : Domain → Domain) (i : Nat) : cfgOf (setDom s d f) i = cfgOf s i := rfl
@[simp] theorem portOf_setDom (s : State) (d : Nat) (f : Domain → Domain) (i : Nat) : portOf (setDom s d f) i = portOf s i := rfl

/-! ### `setDoms` -/

@[simp] theorem setDoms_time (s : State) (f : Nat → Domain → Domain) : (setDoms s f).time = s.time := by simp only [setDoms]
@[simp] theorem setDoms_mode (s : State) (f : Nat → Domain → Domain) : (setDoms s f).mode = s.mode := by simp only [setDoms]
@[simp] theorem setDoms_scratch (s : State) (f : Nat → Domain → Domain) : (setDoms s f).scratch = s.scratch := by simp only [setDoms]
@[simp] theorem setDoms_resp (s : State) (f : Nat → Domain → Domain) : (setDoms s f).resp = s.resp := by simp only [setDoms]
@[simp] theorem setDoms_cseq (s : State) (f : Nat → Domain → Domain) : (setDoms s f).cseq = s.cseq := by simp only [setDoms]
@[simp] theorem setDoms_cmds (s : State) (f : Nat → Domain → Domain) : (setDoms s f).cmds = s.cmds := by simp only [setDoms]
@[simp] theorem setDoms_groups (s : State) (f : Nat → Domain → Domain) : (setDoms s f).groups = s.groups := by simp only [setDoms]
@[simp] theorem setDoms_rrPort (s : State) (f : Nat → Domain → Domain) : (setDoms s f).rrPort = s.rrPort := by simp only [setDoms]
@[simp] theorem setDoms_fetchPort (s : State) (f : Nat → Domain → Domain) : (setDoms s f).fetchPort = s.fetchPort := by simp only [setDoms]
@[simp] theorem setDoms_nextOrd (s : State) (f : Nat → Domain → Domain) : (setDoms s f).nextOrd = s.nextOrd := by simp only [setDoms]
@[simp] theorem setDoms_nextGrp (s : State) (f : Nat → Domain → Domain) : (setDoms s f).nextGrp = s.nextGrp := by simp only [setDoms]
@[simp] theorem setDoms_records (s : State) (f : Nat → Domain → Domain) : (setDoms s f).records = s.records := by simp only [setDoms]
@[simp] theorem setDoms_ints (s : State) (f : Nat → Domain → Domain) : (setDoms s f).ints = s.ints := by simp only [setDoms]
@[simp] theorem setDoms_input (s : State) (f : Nat → Domain → Domain) : (setDoms s f).input = s.input := by simp only [setDoms]
@[simp] theorem setDoms_cfg (s : State) (f : Nat → Domain → Domain) : (setDoms s f).cfg = s.cfg := by simp only [setDoms]
@[simp] theorem setDoms_dom (s : State) (f : Nat → Domain → Domain) : (setDoms s f).dom = vmapIdx s.dom f := by simp only [setDoms]
@[simp] theorem setDoms_char (s : State) (f : Nat → Domain → Domain) : (setDoms s f).char = s.char := by simp only [setDoms]
@[simp] theorem setDoms_laneOf (s : State) (f : Nat → Domain → Domain) : (setDoms s f).laneOf = s.laneOf := by simp only [setDoms]
@[simp] theorem setDoms_lanes (s : State) (f : Nat → Domain → Domain) : (setDoms s f).lanes = s.lanes := by simp only [setDoms]
@[simp] theorem setDoms_slot (s : State) (f : Nat → Domain → Domain) : (setDoms s f).slot = s.slot := by simp only [setDoms]
@[simp] theorem setDoms_mism (s : State) (f : Nat → Domain → Domain) : (setDoms s f).mism = s.mism := by simp only [setDoms]
@[simp] theorem setDoms_progs (s : State) (f : Nat → Domain → Domain) : (setDoms s f).progs = s.progs := by simp only [setDoms]
@[simp] theorem setDoms_models (s : State) (f : Nat → Domain → Domain) : (setDoms s f).models = s.models := by simp only [setDoms]
@[simp] theorem setDoms_lanternFail (s : State) (f : Nat → Domain → Domain) : (setDoms s f).lanternFail = s.lanternFail := by simp only [setDoms]
@[simp] theorem setDoms_lantErrs (s : State) (f : Nat → Domain → Domain) : (setDoms s f).lantErrs = s.lantErrs := by simp only [setDoms]
@[simp] theorem setDoms_arb (s : State) (f : Nat → Domain → Domain) : (setDoms s f).arb = s.arb := by simp only [setDoms]
@[simp] theorem setDoms_links (s : State) (f : Nat → Domain → Domain) : (setDoms s f).links = s.links := by simp only [setDoms]
@[simp] theorem setDoms_ports (s : State) (f : Nat → Domain → Domain) : (setDoms s f).ports = s.ports := by simp only [setDoms]
@[simp] theorem setDoms_wq (s : State) (f : Nat → Domain → Domain) : (setDoms s f).wq = s.wq := by simp only [setDoms]
@[simp] theorem setDoms_outQ (s : State) (f : Nat → Domain → Domain) : (setDoms s f).outQ = s.outQ := by simp only [setDoms]
@[simp] theorem setDoms_irq (s : State) (f : Nat → Domain → Domain) : (setDoms s f).irq = s.irq := by simp only [setDoms]
@[simp] theorem setDoms_clk (s : State) (f : Nat → Domain → Domain) : (setDoms s f).clk = s.clk := by simp only [setDoms]
@[simp] theorem setDoms_mc (s : State) (f : Nat → Domain → Domain) : (setDoms s f).mc = s.mc := by simp only [setDoms]
@[simp] theorem setDoms_safety (s : State) (f : Nat → Domain → Domain) : (setDoms s f).safety = s.safety := by simp only [setDoms]
@[simp] theorem setDoms_strata (s : State) (f : Nat → Domain → Domain) : (setDoms s f).strata = s.strata := by simp only [setDoms]
@[simp] theorem setDoms_therm (s : State) (f : Nat → Domain → Domain) : (setDoms s f).therm = s.therm := by simp only [setDoms]
@[simp] theorem setDoms_meter (s : State) (f : Nat → Domain → Domain) : (setDoms s f).meter = s.meter := by simp only [setDoms]
@[simp] theorem setDoms_bus (s : State) (f : Nat → Domain → Domain) : (setDoms s f).bus = s.bus := by simp only [setDoms]
@[simp] theorem setDoms_sieve (s : State) (f : Nat → Domain → Domain) : (setDoms s f).sieve = s.sieve := by simp only [setDoms]
@[simp] theorem setDoms_tests (s : State) (f : Nat → Domain → Domain) : (setDoms s f).tests = s.tests := by simp only [setDoms]
@[simp] theorem setDoms_freeIdx (s : State) (f : Nat → Domain → Domain) : (setDoms s f).freeIdx = s.freeIdx := by simp only [setDoms]
@[simp] theorem setDoms_pending (s : State) (f : Nat → Domain → Domain) : (setDoms s f).pending = s.pending := by simp only [setDoms]
@[simp] theorem cfgOf_setDoms (s : State) (f : Nat → Domain → Domain) (i : Nat) : cfgOf (setDoms s f) i = cfgOf s i := by simp only [setDoms, cfgOf]
@[simp] theorem portOf_setDoms (s : State) (f : Nat → Domain → Domain) (i : Nat) : portOf (setDoms s f) i = portOf s i := by simp only [setDoms, portOf]

/-! ### `setCfg` -/

@[simp] theorem setCfg_time (s : State) (l : Nat) (f : DomCfg → DomCfg) : (setCfg s l f).time = s.time := rfl
@[simp] theorem setCfg_mode (s : State) (l : Nat) (f : DomCfg → DomCfg) : (setCfg s l f).mode = s.mode := rfl
@[simp] theorem setCfg_scratch (s : State) (l : Nat) (f : DomCfg → DomCfg) : (setCfg s l f).scratch = s.scratch := rfl
@[simp] theorem setCfg_resp (s : State) (l : Nat) (f : DomCfg → DomCfg) : (setCfg s l f).resp = s.resp := rfl
@[simp] theorem setCfg_cseq (s : State) (l : Nat) (f : DomCfg → DomCfg) : (setCfg s l f).cseq = s.cseq := rfl
@[simp] theorem setCfg_cmds (s : State) (l : Nat) (f : DomCfg → DomCfg) : (setCfg s l f).cmds = s.cmds := rfl
@[simp] theorem setCfg_groups (s : State) (l : Nat) (f : DomCfg → DomCfg) : (setCfg s l f).groups = s.groups := rfl
@[simp] theorem setCfg_rrPort (s : State) (l : Nat) (f : DomCfg → DomCfg) : (setCfg s l f).rrPort = s.rrPort := rfl
@[simp] theorem setCfg_fetchPort (s : State) (l : Nat) (f : DomCfg → DomCfg) : (setCfg s l f).fetchPort = s.fetchPort := rfl
@[simp] theorem setCfg_nextOrd (s : State) (l : Nat) (f : DomCfg → DomCfg) : (setCfg s l f).nextOrd = s.nextOrd := rfl
@[simp] theorem setCfg_nextGrp (s : State) (l : Nat) (f : DomCfg → DomCfg) : (setCfg s l f).nextGrp = s.nextGrp := rfl
@[simp] theorem setCfg_records (s : State) (l : Nat) (f : DomCfg → DomCfg) : (setCfg s l f).records = s.records := rfl
@[simp] theorem setCfg_ints (s : State) (l : Nat) (f : DomCfg → DomCfg) : (setCfg s l f).ints = s.ints := rfl
@[simp] theorem setCfg_input (s : State) (l : Nat) (f : DomCfg → DomCfg) : (setCfg s l f).input = s.input := rfl
@[simp] theorem setCfg_cfg (s : State) (l : Nat) (f : DomCfg → DomCfg) : (setCfg s l f).cfg = vupd s.cfg l f := rfl
@[simp] theorem setCfg_dom (s : State) (l : Nat) (f : DomCfg → DomCfg) : (setCfg s l f).dom = s.dom := rfl
@[simp] theorem setCfg_char (s : State) (l : Nat) (f : DomCfg → DomCfg) : (setCfg s l f).char = s.char := rfl
@[simp] theorem setCfg_laneOf (s : State) (l : Nat) (f : DomCfg → DomCfg) : (setCfg s l f).laneOf = s.laneOf := rfl
@[simp] theorem setCfg_lanes (s : State) (l : Nat) (f : DomCfg → DomCfg) : (setCfg s l f).lanes = s.lanes := rfl
@[simp] theorem setCfg_slot (s : State) (l : Nat) (f : DomCfg → DomCfg) : (setCfg s l f).slot = s.slot := rfl
@[simp] theorem setCfg_mism (s : State) (l : Nat) (f : DomCfg → DomCfg) : (setCfg s l f).mism = s.mism := rfl
@[simp] theorem setCfg_progs (s : State) (l : Nat) (f : DomCfg → DomCfg) : (setCfg s l f).progs = s.progs := rfl
@[simp] theorem setCfg_models (s : State) (l : Nat) (f : DomCfg → DomCfg) : (setCfg s l f).models = s.models := rfl
@[simp] theorem setCfg_lanternFail (s : State) (l : Nat) (f : DomCfg → DomCfg) : (setCfg s l f).lanternFail = s.lanternFail := rfl
@[simp] theorem setCfg_lantErrs (s : State) (l : Nat) (f : DomCfg → DomCfg) : (setCfg s l f).lantErrs = s.lantErrs := rfl
@[simp] theorem setCfg_arb (s : State) (l : Nat) (f : DomCfg → DomCfg) : (setCfg s l f).arb = s.arb := rfl
@[simp] theorem setCfg_links (s : State) (l : Nat) (f : DomCfg → DomCfg) : (setCfg s l f).links = s.links := rfl
@[simp] theorem setCfg_ports (s : State) (l : Nat) (f : DomCfg → DomCfg) : (setCfg s l f).ports = s.ports := rfl
@[simp] theorem setCfg_wq (s : State) (l : Nat) (f : DomCfg → DomCfg) : (setCfg s l f).wq = s.wq := rfl
@[simp] theorem setCfg_outQ (s : State) (l : Nat) (f : DomCfg → DomCfg) : (setCfg s l f).outQ = s.outQ := rfl
@[simp] theorem setCfg_irq (s : State) (l : Nat) (f : DomCfg → DomCfg) : (setCfg s l f).irq = s.irq := rfl
@[simp] theorem setCfg_clk (s : State) (l : Nat) (f : DomCfg → DomCfg) : (setCfg s l f).clk = s.clk := rfl
@[simp] theorem setCfg_mc (s : State) (l : Nat) (f : DomCfg → DomCfg) : (setCfg s l f).mc = s.mc := rfl
@[simp] theorem setCfg_safety (s : State) (l : Nat) (f : DomCfg → DomCfg) : (setCfg s l f).safety = s.safety := rfl
@[simp] theorem setCfg_strata (s : State) (l : Nat) (f : DomCfg → DomCfg) : (setCfg s l f).strata = s.strata := rfl
@[simp] theorem setCfg_therm (s : State) (l : Nat) (f : DomCfg → DomCfg) : (setCfg s l f).therm = s.therm := rfl
@[simp] theorem setCfg_meter (s : State) (l : Nat) (f : DomCfg → DomCfg) : (setCfg s l f).meter = s.meter := rfl
@[simp] theorem setCfg_bus (s : State) (l : Nat) (f : DomCfg → DomCfg) : (setCfg s l f).bus = s.bus := rfl
@[simp] theorem setCfg_sieve (s : State) (l : Nat) (f : DomCfg → DomCfg) : (setCfg s l f).sieve = s.sieve := rfl
@[simp] theorem setCfg_tests (s : State) (l : Nat) (f : DomCfg → DomCfg) : (setCfg s l f).tests = s.tests := rfl
@[simp] theorem setCfg_freeIdx (s : State) (l : Nat) (f : DomCfg → DomCfg) : (setCfg s l f).freeIdx = s.freeIdx := rfl
@[simp] theorem setCfg_pending (s : State) (l : Nat) (f : DomCfg → DomCfg) : (setCfg s l f).pending = s.pending := rfl
@[simp] theorem domOf_setCfg (s : State) (l : Nat) (f : DomCfg → DomCfg) (i : Nat) : domOf (setCfg s l f) i = domOf s i := rfl
@[simp] theorem portOf_setCfg (s : State) (l : Nat) (f : DomCfg → DomCfg) (i : Nat) : portOf (setCfg s l f) i = portOf s i := rfl

/-! ### `setPort` -/

@[simp] theorem setPort_time (s : State) (p : Nat) (f : Port → Port) : (setPort s p f).time = s.time := rfl
@[simp] theorem setPort_mode (s : State) (p : Nat) (f : Port → Port) : (setPort s p f).mode = s.mode := rfl
@[simp] theorem setPort_scratch (s : State) (p : Nat) (f : Port → Port) : (setPort s p f).scratch = s.scratch := rfl
@[simp] theorem setPort_resp (s : State) (p : Nat) (f : Port → Port) : (setPort s p f).resp = s.resp := rfl
@[simp] theorem setPort_cseq (s : State) (p : Nat) (f : Port → Port) : (setPort s p f).cseq = s.cseq := rfl
@[simp] theorem setPort_cmds (s : State) (p : Nat) (f : Port → Port) : (setPort s p f).cmds = s.cmds := rfl
@[simp] theorem setPort_groups (s : State) (p : Nat) (f : Port → Port) : (setPort s p f).groups = s.groups := rfl
@[simp] theorem setPort_rrPort (s : State) (p : Nat) (f : Port → Port) : (setPort s p f).rrPort = s.rrPort := rfl
@[simp] theorem setPort_fetchPort (s : State) (p : Nat) (f : Port → Port) : (setPort s p f).fetchPort = s.fetchPort := rfl
@[simp] theorem setPort_nextOrd (s : State) (p : Nat) (f : Port → Port) : (setPort s p f).nextOrd = s.nextOrd := rfl
@[simp] theorem setPort_nextGrp (s : State) (p : Nat) (f : Port → Port) : (setPort s p f).nextGrp = s.nextGrp := rfl
@[simp] theorem setPort_records (s : State) (p : Nat) (f : Port → Port) : (setPort s p f).records = s.records := rfl
@[simp] theorem setPort_ints (s : State) (p : Nat) (f : Port → Port) : (setPort s p f).ints = s.ints := rfl
@[simp] theorem setPort_input (s : State) (p : Nat) (f : Port → Port) : (setPort s p f).input = s.input := rfl
@[simp] theorem setPort_cfg (s : State) (p : Nat) (f : Port → Port) : (setPort s p f).cfg = s.cfg := rfl
@[simp] theorem setPort_dom (s : State) (p : Nat) (f : Port → Port) : (setPort s p f).dom = s.dom := rfl
@[simp] theorem setPort_char (s : State) (p : Nat) (f : Port → Port) : (setPort s p f).char = s.char := rfl
@[simp] theorem setPort_laneOf (s : State) (p : Nat) (f : Port → Port) : (setPort s p f).laneOf = s.laneOf := rfl
@[simp] theorem setPort_lanes (s : State) (p : Nat) (f : Port → Port) : (setPort s p f).lanes = s.lanes := rfl
@[simp] theorem setPort_slot (s : State) (p : Nat) (f : Port → Port) : (setPort s p f).slot = s.slot := rfl
@[simp] theorem setPort_mism (s : State) (p : Nat) (f : Port → Port) : (setPort s p f).mism = s.mism := rfl
@[simp] theorem setPort_progs (s : State) (p : Nat) (f : Port → Port) : (setPort s p f).progs = s.progs := rfl
@[simp] theorem setPort_models (s : State) (p : Nat) (f : Port → Port) : (setPort s p f).models = s.models := rfl
@[simp] theorem setPort_lanternFail (s : State) (p : Nat) (f : Port → Port) : (setPort s p f).lanternFail = s.lanternFail := rfl
@[simp] theorem setPort_lantErrs (s : State) (p : Nat) (f : Port → Port) : (setPort s p f).lantErrs = s.lantErrs := rfl
@[simp] theorem setPort_arb (s : State) (p : Nat) (f : Port → Port) : (setPort s p f).arb = s.arb := rfl
@[simp] theorem setPort_links (s : State) (p : Nat) (f : Port → Port) : (setPort s p f).links = s.links := rfl
@[simp] theorem setPort_ports (s : State) (p : Nat) (f : Port → Port) : (setPort s p f).ports = vupd s.ports p f := rfl
@[simp] theorem setPort_wq (s : State) (p : Nat) (f : Port → Port) : (setPort s p f).wq = s.wq := rfl
@[simp] theorem setPort_outQ (s : State) (p : Nat) (f : Port → Port) : (setPort s p f).outQ = s.outQ := rfl
@[simp] theorem setPort_irq (s : State) (p : Nat) (f : Port → Port) : (setPort s p f).irq = s.irq := rfl
@[simp] theorem setPort_clk (s : State) (p : Nat) (f : Port → Port) : (setPort s p f).clk = s.clk := rfl
@[simp] theorem setPort_mc (s : State) (p : Nat) (f : Port → Port) : (setPort s p f).mc = s.mc := rfl
@[simp] theorem setPort_safety (s : State) (p : Nat) (f : Port → Port) : (setPort s p f).safety = s.safety := rfl
@[simp] theorem setPort_strata (s : State) (p : Nat) (f : Port → Port) : (setPort s p f).strata = s.strata := rfl
@[simp] theorem setPort_therm (s : State) (p : Nat) (f : Port → Port) : (setPort s p f).therm = s.therm := rfl
@[simp] theorem setPort_meter (s : State) (p : Nat) (f : Port → Port) : (setPort s p f).meter = s.meter := rfl
@[simp] theorem setPort_bus (s : State) (p : Nat) (f : Port → Port) : (setPort s p f).bus = s.bus := rfl
@[simp] theorem setPort_sieve (s : State) (p : Nat) (f : Port → Port) : (setPort s p f).sieve = s.sieve := rfl
@[simp] theorem setPort_tests (s : State) (p : Nat) (f : Port → Port) : (setPort s p f).tests = s.tests := rfl
@[simp] theorem setPort_freeIdx (s : State) (p : Nat) (f : Port → Port) : (setPort s p f).freeIdx = s.freeIdx := rfl
@[simp] theorem setPort_pending (s : State) (p : Nat) (f : Port → Port) : (setPort s p f).pending = s.pending := rfl
@[simp] theorem domOf_setPort (s : State) (p : Nat) (f : Port → Port) (i : Nat) : domOf (setPort s p f) i = domOf s i := rfl
@[simp] theorem cfgOf_setPort (s : State) (p : Nat) (f : Port → Port) (i : Nat) : cfgOf (setPort s p f) i = cfgOf s i := rfl

/-! ### `ackWrite` -/

@[simp] theorem ackWrite_time (s : State) : (ackWrite s).time = s.time := rfl
@[simp] theorem ackWrite_mode (s : State) : (ackWrite s).mode = s.mode := rfl
@[simp] theorem ackWrite_scratch (s : State) : (ackWrite s).scratch = s.scratch := rfl
@[simp] theorem ackWrite_resp (s : State) : (ackWrite s).resp = { err := false, data := 0 } := rfl
@[simp] theorem ackWrite_cseq (s : State) : (ackWrite s).cseq = s.cseq := rfl
@[simp] theorem ackWrite_cmds (s : State) : (ackWrite s).cmds = s.cmds := rfl
@[simp] theorem ackWrite_groups (s : State) : (ackWrite s).groups = s.groups := rfl
@[simp] theorem ackWrite_rrPort (s : State) : (ackWrite s).rrPort = s.rrPort := rfl
@[simp] theorem ackWrite_fetchPort (s : State) : (ackWrite s).fetchPort = s.fetchPort := rfl
@[simp] theorem ackWrite_nextOrd (s : State) : (ackWrite s).nextOrd = s.nextOrd := rfl
@[simp] theorem ackWrite_nextGrp (s : State) : (ackWrite s).nextGrp = s.nextGrp := rfl
@[simp] theorem ackWrite_records (s : State) : (ackWrite s).records = s.records := rfl
@[simp] theorem ackWrite_ints (s : State) : (ackWrite s).ints = s.ints := rfl
@[simp] theorem ackWrite_input (s : State) : (ackWrite s).input = s.input := rfl
@[simp] theorem ackWrite_cfg (s : State) : (ackWrite s).cfg = s.cfg := rfl
@[simp] theorem ackWrite_dom (s : State) : (ackWrite s).dom = s.dom := rfl
@[simp] theorem ackWrite_char (s : State) : (ackWrite s).char = s.char := rfl
@[simp] theorem ackWrite_laneOf (s : State) : (ackWrite s).laneOf = s.laneOf := rfl
@[simp] theorem ackWrite_lanes (s : State) : (ackWrite s).lanes = s.lanes := rfl
@[simp] theorem ackWrite_slot (s : State) : (ackWrite s).slot = s.slot := rfl
@[simp] theorem ackWrite_mism (s : State) : (ackWrite s).mism = s.mism := rfl
@[simp] theorem ackWrite_progs (s : State) : (ackWrite s).progs = s.progs := rfl
@[simp] theorem ackWrite_models (s : State) : (ackWrite s).models = s.models := rfl
@[simp] theorem ackWrite_lanternFail (s : State) : (ackWrite s).lanternFail = s.lanternFail := rfl
@[simp] theorem ackWrite_lantErrs (s : State) : (ackWrite s).lantErrs = s.lantErrs := rfl
@[simp] theorem ackWrite_arb (s : State) : (ackWrite s).arb = s.arb := rfl
@[simp] theorem ackWrite_links (s : State) : (ackWrite s).links = s.links := rfl
@[simp] theorem ackWrite_ports (s : State) : (ackWrite s).ports = s.ports := rfl
@[simp] theorem ackWrite_wq (s : State) : (ackWrite s).wq = s.wq := rfl
@[simp] theorem ackWrite_outQ (s : State) : (ackWrite s).outQ = s.outQ := rfl
@[simp] theorem ackWrite_irq (s : State) : (ackWrite s).irq = s.irq := rfl
@[simp] theorem ackWrite_clk (s : State) : (ackWrite s).clk = s.clk := rfl
@[simp] theorem ackWrite_mc (s : State) : (ackWrite s).mc = s.mc := rfl
@[simp] theorem ackWrite_safety (s : State) : (ackWrite s).safety = s.safety := rfl
@[simp] theorem ackWrite_strata (s : State) : (ackWrite s).strata = s.strata := rfl
@[simp] theorem ackWrite_therm (s : State) : (ackWrite s).therm = s.therm := rfl
@[simp] theorem ackWrite_meter (s : State) : (ackWrite s).meter = s.meter := rfl
@[simp] theorem ackWrite_bus (s : State) : (ackWrite s).bus = s.bus := rfl
@[simp] theorem ackWrite_sieve (s : State) : (ackWrite s).sieve = s.sieve := rfl
@[simp] theorem ackWrite_tests (s : State) : (ackWrite s).tests = s.tests := rfl
@[simp] theorem ackWrite_freeIdx (s : State) : (ackWrite s).freeIdx = s.freeIdx := rfl
@[simp] theorem ackWrite_pending (s : State) : (ackWrite s).pending = s.pending := rfl
@[simp] theorem domOf_ackWrite (s : State)  (i : Nat) : domOf (ackWrite s) i = domOf s i := rfl
@[simp] theorem cfgOf_ackWrite (s : State)  (i : Nat) : cfgOf (ackWrite s) i = cfgOf s i := rfl
@[simp] theorem portOf_ackWrite (s : State)  (i : Nat) : portOf (ackWrite s) i = portOf s i := rfl

/-! ### `ackRead` -/

@[simp] theorem ackRead_time (s : State) (w : Word) : (ackRead s w).time = s.time := rfl
@[simp] theorem ackRead_mode (s : State) (w : Word) : (ackRead s w).mode = s.mode := rfl
@[simp] theorem ackRead_scratch (s : State) (w : Word) : (ackRead s w).scratch = s.scratch := rfl
@[simp] theorem ackRead_resp (s : State) (w : Word) : (ackRead s w).resp = { err := false, data := w } := rfl
@[simp] theorem ackRead_cseq (s : State) (w : Word) : (ackRead s w).cseq = s.cseq := rfl
@[simp] theorem ackRead_cmds (s : State) (w : Word) : (ackRead s w).cmds = s.cmds := rfl
@[simp] theorem ackRead_groups (s : State) (w : Word) : (ackRead s w).groups = s.groups := rfl
@[simp] theorem ackRead_rrPort (s : State) (w : Word) : (ackRead s w).rrPort = s.rrPort := rfl
@[simp] theorem ackRead_fetchPort (s : State) (w : Word) : (ackRead s w).fetchPort = s.fetchPort := rfl
@[simp] theorem ackRead_nextOrd (s : State) (w : Word) : (ackRead s w).nextOrd = s.nextOrd := rfl
@[simp] theorem ackRead_nextGrp (s : State) (w : Word) : (ackRead s w).nextGrp = s.nextGrp := rfl
@[simp] theorem ackRead_records (s : State) (w : Word) : (ackRead s w).records = s.records := rfl
@[simp] theorem ackRead_ints (s : State) (w : Word) : (ackRead s w).ints = s.ints := rfl
@[simp] theorem ackRead_input (s : State) (w : Word) : (ackRead s w).input = s.input := rfl
@[simp] theorem ackRead_cfg (s : State) (w : Word) : (ackRead s w).cfg = s.cfg := rfl
@[simp] theorem ackRead_dom (s : State) (w : Word) : (ackRead s w).dom = s.dom := rfl
@[simp] theorem ackRead_char (s : State) (w : Word) : (ackRead s w).char = s.char := rfl
@[simp] theorem ackRead_laneOf (s : State) (w : Word) : (ackRead s w).laneOf = s.laneOf := rfl
@[simp] theorem ackRead_lanes (s : State) (w : Word) : (ackRead s w).lanes = s.lanes := rfl
@[simp] theorem ackRead_slot (s : State) (w : Word) : (ackRead s w).slot = s.slot := rfl
@[simp] theorem ackRead_mism (s : State) (w : Word) : (ackRead s w).mism = s.mism := rfl
@[simp] theorem ackRead_progs (s : State) (w : Word) : (ackRead s w).progs = s.progs := rfl
@[simp] theorem ackRead_models (s : State) (w : Word) : (ackRead s w).models = s.models := rfl
@[simp] theorem ackRead_lanternFail (s : State) (w : Word) : (ackRead s w).lanternFail = s.lanternFail := rfl
@[simp] theorem ackRead_lantErrs (s : State) (w : Word) : (ackRead s w).lantErrs = s.lantErrs := rfl
@[simp] theorem ackRead_arb (s : State) (w : Word) : (ackRead s w).arb = s.arb := rfl
@[simp] theorem ackRead_links (s : State) (w : Word) : (ackRead s w).links = s.links := rfl
@[simp] theorem ackRead_ports (s : State) (w : Word) : (ackRead s w).ports = s.ports := rfl
@[simp] theorem ackRead_wq (s : State) (w : Word) : (ackRead s w).wq = s.wq := rfl
@[simp] theorem ackRead_outQ (s : State) (w : Word) : (ackRead s w).outQ = s.outQ := rfl
@[simp] theorem ackRead_irq (s : State) (w : Word) : (ackRead s w).irq = s.irq := rfl
@[simp] theorem ackRead_clk (s : State) (w : Word) : (ackRead s w).clk = s.clk := rfl
@[simp] theorem ackRead_mc (s : State) (w : Word) : (ackRead s w).mc = s.mc := rfl
@[simp] theorem ackRead_safety (s : State) (w : Word) : (ackRead s w).safety = s.safety := rfl
@[simp] theorem ackRead_strata (s : State) (w : Word) : (ackRead s w).strata = s.strata := rfl
@[simp] theorem ackRead_therm (s : State) (w : Word) : (ackRead s w).therm = s.therm := rfl
@[simp] theorem ackRead_meter (s : State) (w : Word) : (ackRead s w).meter = s.meter := rfl
@[simp] theorem ackRead_bus (s : State) (w : Word) : (ackRead s w).bus = s.bus := rfl
@[simp] theorem ackRead_sieve (s : State) (w : Word) : (ackRead s w).sieve = s.sieve := rfl
@[simp] theorem ackRead_tests (s : State) (w : Word) : (ackRead s w).tests = s.tests := rfl
@[simp] theorem ackRead_freeIdx (s : State) (w : Word) : (ackRead s w).freeIdx = s.freeIdx := rfl
@[simp] theorem ackRead_pending (s : State) (w : Word) : (ackRead s w).pending = s.pending := rfl
@[simp] theorem domOf_ackRead (s : State) (w : Word) (i : Nat) : domOf (ackRead s w) i = domOf s i := rfl
@[simp] theorem cfgOf_ackRead (s : State) (w : Word) (i : Nat) : cfgOf (ackRead s w) i = cfgOf s i := rfl
@[simp] theorem portOf_ackRead (s : State) (w : Word) (i : Nat) : portOf (ackRead s w) i = portOf s i := rfl

/-! ### `setLink` -/

@[simp] theorem setLink_time (s : State) (e : Nat) (f : Link → Link) : (setLink s e f).time = s.time := rfl
@[simp] theorem setLink_mode (s : State) (e : Nat) (f : Link → Link) : (setLink s e f).mode = s.mode := rfl
@[simp] theorem setLink_scratch (s : State) (e : Nat) (f : Link → Link) : (setLink s e f).scratch = s.scratch := rfl
@[simp] theorem setLink_resp (s : State) (e : Nat) (f : Link → Link) : (setLink s e f).resp = s.resp := rfl
@[simp] theorem setLink_cseq (s : State) (e : Nat) (f : Link → Link) : (setLink s e f).cseq = s.cseq := rfl
@[simp] theorem setLink_cmds (s : State) (e : Nat) (f : Link → Link) : (setLink s e f).cmds = s.cmds := rfl
@[simp] theorem setLink_groups (s : State) (e : Nat) (f : Link → Link) : (setLink s e f).groups = s.groups := rfl
@[simp] theorem setLink_rrPort (s : State) (e : Nat) (f : Link → Link) : (setLink s e f).rrPort = s.rrPort := rfl
@[simp] theorem setLink_fetchPort (s : State) (e : Nat) (f : Link → Link) : (setLink s e f).fetchPort = s.fetchPort := rfl
@[simp] theorem setLink_nextOrd (s : State) (e : Nat) (f : Link → Link) : (setLink s e f).nextOrd = s.nextOrd := rfl
@[simp] theorem setLink_nextGrp (s : State) (e : Nat) (f : Link → Link) : (setLink s e f).nextGrp = s.nextGrp := rfl
@[simp] theorem setLink_records (s : State) (e : Nat) (f : Link → Link) : (setLink s e f).records = s.records := rfl
@[simp] theorem setLink_ints (s : State) (e : Nat) (f : Link → Link) : (setLink s e f).ints = s.ints := rfl
@[simp] theorem setLink_input (s : State) (e : Nat) (f : Link → Link) : (setLink s e f).input = s.input := rfl
@[simp] theorem setLink_cfg (s : State) (e : Nat) (f : Link → Link) : (setLink s e f).cfg = s.cfg := rfl
@[simp] theorem setLink_dom (s : State) (e : Nat) (f : Link → Link) : (setLink s e f).dom = s.dom := rfl
@[simp] theorem setLink_char (s : State) (e : Nat) (f : Link → Link) : (setLink s e f).char = s.char := rfl
@[simp] theorem setLink_laneOf (s : State) (e : Nat) (f : Link → Link) : (setLink s e f).laneOf = s.laneOf := rfl
@[simp] theorem setLink_lanes (s : State) (e : Nat) (f : Link → Link) : (setLink s e f).lanes = s.lanes := rfl
@[simp] theorem setLink_slot (s : State) (e : Nat) (f : Link → Link) : (setLink s e f).slot = s.slot := rfl
@[simp] theorem setLink_mism (s : State) (e : Nat) (f : Link → Link) : (setLink s e f).mism = s.mism := rfl
@[simp] theorem setLink_progs (s : State) (e : Nat) (f : Link → Link) : (setLink s e f).progs = s.progs := rfl
@[simp] theorem setLink_models (s : State) (e : Nat) (f : Link → Link) : (setLink s e f).models = s.models := rfl
@[simp] theorem setLink_lanternFail (s : State) (e : Nat) (f : Link → Link) : (setLink s e f).lanternFail = s.lanternFail := rfl
@[simp] theorem setLink_lantErrs (s : State) (e : Nat) (f : Link → Link) : (setLink s e f).lantErrs = s.lantErrs := rfl
@[simp] theorem setLink_arb (s : State) (e : Nat) (f : Link → Link) : (setLink s e f).arb = s.arb := rfl
@[simp] theorem setLink_links (s : State) (e : Nat) (f : Link → Link) : (setLink s e f).links = vupd s.links e f := rfl
@[simp] theorem setLink_ports (s : State) (e : Nat) (f : Link → Link) : (setLink s e f).ports = s.ports := rfl
@[simp] theorem setLink_wq (s : State) (e : Nat) (f : Link → Link) : (setLink s e f).wq = s.wq := rfl
@[simp] theorem setLink_outQ (s : State) (e : Nat) (f : Link → Link) : (setLink s e f).outQ = s.outQ := rfl
@[simp] theorem setLink_irq (s : State) (e : Nat) (f : Link → Link) : (setLink s e f).irq = s.irq := rfl
@[simp] theorem setLink_clk (s : State) (e : Nat) (f : Link → Link) : (setLink s e f).clk = s.clk := rfl
@[simp] theorem setLink_mc (s : State) (e : Nat) (f : Link → Link) : (setLink s e f).mc = s.mc := rfl
@[simp] theorem setLink_safety (s : State) (e : Nat) (f : Link → Link) : (setLink s e f).safety = s.safety := rfl
@[simp] theorem setLink_strata (s : State) (e : Nat) (f : Link → Link) : (setLink s e f).strata = s.strata := rfl
@[simp] theorem setLink_therm (s : State) (e : Nat) (f : Link → Link) : (setLink s e f).therm = s.therm := rfl
@[simp] theorem setLink_meter (s : State) (e : Nat) (f : Link → Link) : (setLink s e f).meter = s.meter := rfl
@[simp] theorem setLink_bus (s : State) (e : Nat) (f : Link → Link) : (setLink s e f).bus = s.bus := rfl
@[simp] theorem setLink_sieve (s : State) (e : Nat) (f : Link → Link) : (setLink s e f).sieve = s.sieve := rfl
@[simp] theorem setLink_tests (s : State) (e : Nat) (f : Link → Link) : (setLink s e f).tests = s.tests := rfl
@[simp] theorem setLink_freeIdx (s : State) (e : Nat) (f : Link → Link) : (setLink s e f).freeIdx = s.freeIdx := rfl
@[simp] theorem setLink_pending (s : State) (e : Nat) (f : Link → Link) : (setLink s e f).pending = s.pending := rfl
@[simp] theorem domOf_setLink (s : State) (e : Nat) (f : Link → Link) (i : Nat) : domOf (setLink s e f) i = domOf s i := rfl
@[simp] theorem cfgOf_setLink (s : State) (e : Nat) (f : Link → Link) (i : Nat) : cfgOf (setLink s e f) i = cfgOf s i := rfl
@[simp] theorem portOf_setLink (s : State) (e : Nat) (f : Link → Link) (i : Nat) : portOf (setLink s e f) i = portOf s i := rfl

/-! ### `setConv` -/

@[simp] theorem setConv_time (s : State) (i : Nat) (f : Conv5 → Conv5) : (setConv s i f).time = s.time := rfl
@[simp] theorem setConv_mode (s : State) (i : Nat) (f : Conv5 → Conv5) : (setConv s i f).mode = s.mode := rfl
@[simp] theorem setConv_scratch (s : State) (i : Nat) (f : Conv5 → Conv5) : (setConv s i f).scratch = s.scratch := rfl
@[simp] theorem setConv_resp (s : State) (i : Nat) (f : Conv5 → Conv5) : (setConv s i f).resp = s.resp := rfl
@[simp] theorem setConv_cseq (s : State) (i : Nat) (f : Conv5 → Conv5) : (setConv s i f).cseq = s.cseq := rfl
@[simp] theorem setConv_cmds (s : State) (i : Nat) (f : Conv5 → Conv5) : (setConv s i f).cmds = s.cmds := rfl
@[simp] theorem setConv_groups (s : State) (i : Nat) (f : Conv5 → Conv5) : (setConv s i f).groups = s.groups := rfl
@[simp] theorem setConv_rrPort (s : State) (i : Nat) (f : Conv5 → Conv5) : (setConv s i f).rrPort = s.rrPort := rfl
@[simp] theorem setConv_fetchPort (s : State) (i : Nat) (f : Conv5 → Conv5) : (setConv s i f).fetchPort = s.fetchPort := rfl
@[simp] theorem setConv_nextOrd (s : State) (i : Nat) (f : Conv5 → Conv5) : (setConv s i f).nextOrd = s.nextOrd := rfl
@[simp] theorem setConv_nextGrp (s : State) (i : Nat) (f : Conv5 → Conv5) : (setConv s i f).nextGrp = s.nextGrp := rfl
@[simp] theorem setConv_records (s : State) (i : Nat) (f : Conv5 → Conv5) : (setConv s i f).records = s.records := rfl
@[simp] theorem setConv_ints (s : State) (i : Nat) (f : Conv5 → Conv5) : (setConv s i f).ints = s.ints := rfl
@[simp] theorem setConv_input (s : State) (i : Nat) (f : Conv5 → Conv5) : (setConv s i f).input = s.input := rfl
@[simp] theorem setConv_cfg (s : State) (i : Nat) (f : Conv5 → Conv5) : (setConv s i f).cfg = s.cfg := rfl
@[simp] theorem setConv_dom (s : State) (i : Nat) (f : Conv5 → Conv5) : (setConv s i f).dom = s.dom := rfl
@[simp] theorem setConv_char (s : State) (i : Nat) (f : Conv5 → Conv5) : (setConv s i f).char = s.char := rfl
@[simp] theorem setConv_laneOf (s : State) (i : Nat) (f : Conv5 → Conv5) : (setConv s i f).laneOf = s.laneOf := rfl
@[simp] theorem setConv_lanes (s : State) (i : Nat) (f : Conv5 → Conv5) : (setConv s i f).lanes = s.lanes := rfl
@[simp] theorem setConv_slot (s : State) (i : Nat) (f : Conv5 → Conv5) : (setConv s i f).slot = s.slot := rfl
@[simp] theorem setConv_mism (s : State) (i : Nat) (f : Conv5 → Conv5) : (setConv s i f).mism = s.mism := rfl
@[simp] theorem setConv_progs (s : State) (i : Nat) (f : Conv5 → Conv5) : (setConv s i f).progs = s.progs := rfl
@[simp] theorem setConv_models (s : State) (i : Nat) (f : Conv5 → Conv5) : (setConv s i f).models = s.models := rfl
@[simp] theorem setConv_lanternFail (s : State) (i : Nat) (f : Conv5 → Conv5) : (setConv s i f).lanternFail = s.lanternFail := rfl
@[simp] theorem setConv_lantErrs (s : State) (i : Nat) (f : Conv5 → Conv5) : (setConv s i f).lantErrs = s.lantErrs := rfl
@[simp] theorem setConv_arb (s : State) (i : Nat) (f : Conv5 → Conv5) : (setConv s i f).arb = s.arb := rfl
@[simp] theorem setConv_links (s : State) (i : Nat) (f : Conv5 → Conv5) : (setConv s i f).links = s.links := rfl
@[simp] theorem setConv_ports (s : State) (i : Nat) (f : Conv5 → Conv5) : (setConv s i f).ports = s.ports := rfl
@[simp] theorem setConv_wq (s : State) (i : Nat) (f : Conv5 → Conv5) : (setConv s i f).wq = s.wq := rfl
@[simp] theorem setConv_outQ (s : State) (i : Nat) (f : Conv5 → Conv5) : (setConv s i f).outQ = s.outQ := rfl
@[simp] theorem setConv_irq (s : State) (i : Nat) (f : Conv5 → Conv5) : (setConv s i f).irq = s.irq := rfl
@[simp] theorem setConv_clk (s : State) (i : Nat) (f : Conv5 → Conv5) : (setConv s i f).clk = s.clk := rfl
@[simp] theorem setConv_mc (s : State) (i : Nat) (f : Conv5 → Conv5) : (setConv s i f).mc = s.mc := rfl
@[simp] theorem setConv_safety (s : State) (i : Nat) (f : Conv5 → Conv5) : (setConv s i f).safety = s.safety := rfl
@[simp] theorem setConv_strata (s : State) (i : Nat) (f : Conv5 → Conv5) : (setConv s i f).strata = s.strata := rfl
@[simp] theorem setConv_therm (s : State) (i : Nat) (f : Conv5 → Conv5) : (setConv s i f).therm = s.therm := rfl
@[simp] theorem setConv_meter (s : State) (i : Nat) (f : Conv5 → Conv5) : (setConv s i f).meter = s.meter := rfl
@[simp] theorem setConv_bus (s : State) (i : Nat) (f : Conv5 → Conv5) : (setConv s i f).bus = { s.bus with conv := vupd s.bus.conv i f } := rfl
@[simp] theorem setConv_sieve (s : State) (i : Nat) (f : Conv5 → Conv5) : (setConv s i f).sieve = s.sieve := rfl
@[simp] theorem setConv_tests (s : State) (i : Nat) (f : Conv5 → Conv5) : (setConv s i f).tests = s.tests := rfl
@[simp] theorem setConv_freeIdx (s : State) (i : Nat) (f : Conv5 → Conv5) : (setConv s i f).freeIdx = s.freeIdx := rfl
@[simp] theorem setConv_pending (s : State) (i : Nat) (f : Conv5 → Conv5) : (setConv s i f).pending = s.pending := rfl
@[simp] theorem domOf_setConv (s : State) (i : Nat) (f : Conv5 → Conv5) (j : Nat) : domOf (setConv s i f) j = domOf s j := rfl
@[simp] theorem cfgOf_setConv (s : State) (i : Nat) (f : Conv5 → Conv5) (j : Nat) : cfgOf (setConv s i f) j = cfgOf s j := rfl
@[simp] theorem portOf_setConv (s : State) (i : Nat) (f : Conv5 → Conv5) (j : Nat) : portOf (setConv s i f) j = portOf s j := rfl

/-! ### `setClk` -/

@[simp] theorem setClk_time (s : State) (f : Clocks → Clocks) : (setClk s f).time = s.time := rfl
@[simp] theorem setClk_mode (s : State) (f : Clocks → Clocks) : (setClk s f).mode = s.mode := rfl
@[simp] theorem setClk_scratch (s : State) (f : Clocks → Clocks) : (setClk s f).scratch = s.scratch := rfl
@[simp] theorem setClk_resp (s : State) (f : Clocks → Clocks) : (setClk s f).resp = s.resp := rfl
@[simp] theorem setClk_cseq (s : State) (f : Clocks → Clocks) : (setClk s f).cseq = s.cseq := rfl
@[simp] theorem setClk_cmds (s : State) (f : Clocks → Clocks) : (setClk s f).cmds = s.cmds := rfl
@[simp] theorem setClk_groups (s : State) (f : Clocks → Clocks) : (setClk s f).groups = s.groups := rfl
@[simp] theorem setClk_rrPort (s : State) (f : Clocks → Clocks) : (setClk s f).rrPort = s.rrPort := rfl
@[simp] theorem setClk_fetchPort (s : State) (f : Clocks → Clocks) : (setClk s f).fetchPort = s.fetchPort := rfl
@[simp] theorem setClk_nextOrd (s : State) (f : Clocks → Clocks) : (setClk s f).nextOrd = s.nextOrd := rfl
@[simp] theorem setClk_nextGrp (s : State) (f : Clocks → Clocks) : (setClk s f).nextGrp = s.nextGrp := rfl
@[simp] theorem setClk_records (s : State) (f : Clocks → Clocks) : (setClk s f).records = s.records := rfl
@[simp] theorem setClk_ints (s : State) (f : Clocks → Clocks) : (setClk s f).ints = s.ints := rfl
@[simp] theorem setClk_input (s : State) (f : Clocks → Clocks) : (setClk s f).input = s.input := rfl
@[simp] theorem setClk_cfg (s : State) (f : Clocks → Clocks) : (setClk s f).cfg = s.cfg := rfl
@[simp] theorem setClk_dom (s : State) (f : Clocks → Clocks) : (setClk s f).dom = s.dom := rfl
@[simp] theorem setClk_char (s : State) (f : Clocks → Clocks) : (setClk s f).char = s.char := rfl
@[simp] theorem setClk_laneOf (s : State) (f : Clocks → Clocks) : (setClk s f).laneOf = s.laneOf := rfl
@[simp] theorem setClk_lanes (s : State) (f : Clocks → Clocks) : (setClk s f).lanes = s.lanes := rfl
@[simp] theorem setClk_slot (s : State) (f : Clocks → Clocks) : (setClk s f).slot = s.slot := rfl
@[simp] theorem setClk_mism (s : State) (f : Clocks → Clocks) : (setClk s f).mism = s.mism := rfl
@[simp] theorem setClk_progs (s : State) (f : Clocks → Clocks) : (setClk s f).progs = s.progs := rfl
@[simp] theorem setClk_models (s : State) (f : Clocks → Clocks) : (setClk s f).models = s.models := rfl
@[simp] theorem setClk_lanternFail (s : State) (f : Clocks → Clocks) : (setClk s f).lanternFail = s.lanternFail := rfl
@[simp] theorem setClk_lantErrs (s : State) (f : Clocks → Clocks) : (setClk s f).lantErrs = s.lantErrs := rfl
@[simp] theorem setClk_arb (s : State) (f : Clocks → Clocks) : (setClk s f).arb = s.arb := rfl
@[simp] theorem setClk_links (s : State) (f : Clocks → Clocks) : (setClk s f).links = s.links := rfl
@[simp] theorem setClk_ports (s : State) (f : Clocks → Clocks) : (setClk s f).ports = s.ports := rfl
@[simp] theorem setClk_wq (s : State) (f : Clocks → Clocks) : (setClk s f).wq = s.wq := rfl
@[simp] theorem setClk_outQ (s : State) (f : Clocks → Clocks) : (setClk s f).outQ = s.outQ := rfl
@[simp] theorem setClk_irq (s : State) (f : Clocks → Clocks) : (setClk s f).irq = s.irq := rfl
@[simp] theorem setClk_clk (s : State) (f : Clocks → Clocks) : (setClk s f).clk = f s.clk := rfl
@[simp] theorem setClk_mc (s : State) (f : Clocks → Clocks) : (setClk s f).mc = s.mc := rfl
@[simp] theorem setClk_safety (s : State) (f : Clocks → Clocks) : (setClk s f).safety = s.safety := rfl
@[simp] theorem setClk_strata (s : State) (f : Clocks → Clocks) : (setClk s f).strata = s.strata := rfl
@[simp] theorem setClk_therm (s : State) (f : Clocks → Clocks) : (setClk s f).therm = s.therm := rfl
@[simp] theorem setClk_meter (s : State) (f : Clocks → Clocks) : (setClk s f).meter = s.meter := rfl
@[simp] theorem setClk_bus (s : State) (f : Clocks → Clocks) : (setClk s f).bus = s.bus := rfl
@[simp] theorem setClk_sieve (s : State) (f : Clocks → Clocks) : (setClk s f).sieve = s.sieve := rfl
@[simp] theorem setClk_tests (s : State) (f : Clocks → Clocks) : (setClk s f).tests = s.tests := rfl
@[simp] theorem setClk_freeIdx (s : State) (f : Clocks → Clocks) : (setClk s f).freeIdx = s.freeIdx := rfl
@[simp] theorem setClk_pending (s : State) (f : Clocks → Clocks) : (setClk s f).pending = s.pending := rfl
@[simp] theorem domOf_setClk (s : State) (f : Clocks → Clocks) (i : Nat) : domOf (setClk s f) i = domOf s i := rfl
@[simp] theorem cfgOf_setClk (s : State) (f : Clocks → Clocks) (i : Nat) : cfgOf (setClk s f) i = cfgOf s i := rfl
@[simp] theorem portOf_setClk (s : State) (f : Clocks → Clocks) (i : Nat) : portOf (setClk s f) i = portOf s i := rfl

/-! ### `setArbChip` -/

@[simp] theorem setArbChip_time (s : State) (f : ArbChip → ArbChip) : (setArbChip s f).time = s.time := rfl
@[simp] theorem setArbChip_mode (s : State) (f : ArbChip → ArbChip) : (setArbChip s f).mode = s.mode := rfl
@[simp] theorem setArbChip_scratch (s : State) (f : ArbChip → ArbChip) : (setArbChip s f).scratch = s.scratch := rfl
@[simp] theorem setArbChip_resp (s : State) (f : ArbChip → ArbChip) : (setArbChip s f).resp = s.resp := rfl
@[simp] theorem setArbChip_cseq (s : State) (f : ArbChip → ArbChip) : (setArbChip s f).cseq = s.cseq := rfl
@[simp] theorem setArbChip_cmds (s : State) (f : ArbChip → ArbChip) : (setArbChip s f).cmds = s.cmds := rfl
@[simp] theorem setArbChip_groups (s : State) (f : ArbChip → ArbChip) : (setArbChip s f).groups = s.groups := rfl
@[simp] theorem setArbChip_rrPort (s : State) (f : ArbChip → ArbChip) : (setArbChip s f).rrPort = s.rrPort := rfl
@[simp] theorem setArbChip_fetchPort (s : State) (f : ArbChip → ArbChip) : (setArbChip s f).fetchPort = s.fetchPort := rfl
@[simp] theorem setArbChip_nextOrd (s : State) (f : ArbChip → ArbChip) : (setArbChip s f).nextOrd = s.nextOrd := rfl
@[simp] theorem setArbChip_nextGrp (s : State) (f : ArbChip → ArbChip) : (setArbChip s f).nextGrp = s.nextGrp := rfl
@[simp] theorem setArbChip_records (s : State) (f : ArbChip → ArbChip) : (setArbChip s f).records = s.records := rfl
@[simp] theorem setArbChip_ints (s : State) (f : ArbChip → ArbChip) : (setArbChip s f).ints = s.ints := rfl
@[simp] theorem setArbChip_input (s : State) (f : ArbChip → ArbChip) : (setArbChip s f).input = s.input := rfl
@[simp] theorem setArbChip_cfg (s : State) (f : ArbChip → ArbChip) : (setArbChip s f).cfg = s.cfg := rfl
@[simp] theorem setArbChip_dom (s : State) (f : ArbChip → ArbChip) : (setArbChip s f).dom = s.dom := rfl
@[simp] theorem setArbChip_char (s : State) (f : ArbChip → ArbChip) : (setArbChip s f).char = s.char := rfl
@[simp] theorem setArbChip_laneOf (s : State) (f : ArbChip → ArbChip) : (setArbChip s f).laneOf = s.laneOf := rfl
@[simp] theorem setArbChip_lanes (s : State) (f : ArbChip → ArbChip) : (setArbChip s f).lanes = s.lanes := rfl
@[simp] theorem setArbChip_slot (s : State) (f : ArbChip → ArbChip) : (setArbChip s f).slot = s.slot := rfl
@[simp] theorem setArbChip_mism (s : State) (f : ArbChip → ArbChip) : (setArbChip s f).mism = s.mism := rfl
@[simp] theorem setArbChip_progs (s : State) (f : ArbChip → ArbChip) : (setArbChip s f).progs = s.progs := rfl
@[simp] theorem setArbChip_models (s : State) (f : ArbChip → ArbChip) : (setArbChip s f).models = s.models := rfl
@[simp] theorem setArbChip_lanternFail (s : State) (f : ArbChip → ArbChip) : (setArbChip s f).lanternFail = s.lanternFail := rfl
@[simp] theorem setArbChip_lantErrs (s : State) (f : ArbChip → ArbChip) : (setArbChip s f).lantErrs = s.lantErrs := rfl
@[simp] theorem setArbChip_arb (s : State) (f : ArbChip → ArbChip) : (setArbChip s f).arb = f s.arb := rfl
@[simp] theorem setArbChip_links (s : State) (f : ArbChip → ArbChip) : (setArbChip s f).links = s.links := rfl
@[simp] theorem setArbChip_ports (s : State) (f : ArbChip → ArbChip) : (setArbChip s f).ports = s.ports := rfl
@[simp] theorem setArbChip_wq (s : State) (f : ArbChip → ArbChip) : (setArbChip s f).wq = s.wq := rfl
@[simp] theorem setArbChip_outQ (s : State) (f : ArbChip → ArbChip) : (setArbChip s f).outQ = s.outQ := rfl
@[simp] theorem setArbChip_irq (s : State) (f : ArbChip → ArbChip) : (setArbChip s f).irq = s.irq := rfl
@[simp] theorem setArbChip_clk (s : State) (f : ArbChip → ArbChip) : (setArbChip s f).clk = s.clk := rfl
@[simp] theorem setArbChip_mc (s : State) (f : ArbChip → ArbChip) : (setArbChip s f).mc = s.mc := rfl
@[simp] theorem setArbChip_safety (s : State) (f : ArbChip → ArbChip) : (setArbChip s f).safety = s.safety := rfl
@[simp] theorem setArbChip_strata (s : State) (f : ArbChip → ArbChip) : (setArbChip s f).strata = s.strata := rfl
@[simp] theorem setArbChip_therm (s : State) (f : ArbChip → ArbChip) : (setArbChip s f).therm = s.therm := rfl
@[simp] theorem setArbChip_meter (s : State) (f : ArbChip → ArbChip) : (setArbChip s f).meter = s.meter := rfl
@[simp] theorem setArbChip_bus (s : State) (f : ArbChip → ArbChip) : (setArbChip s f).bus = s.bus := rfl
@[simp] theorem setArbChip_sieve (s : State) (f : ArbChip → ArbChip) : (setArbChip s f).sieve = s.sieve := rfl
@[simp] theorem setArbChip_tests (s : State) (f : ArbChip → ArbChip) : (setArbChip s f).tests = s.tests := rfl
@[simp] theorem setArbChip_freeIdx (s : State) (f : ArbChip → ArbChip) : (setArbChip s f).freeIdx = s.freeIdx := rfl
@[simp] theorem setArbChip_pending (s : State) (f : ArbChip → ArbChip) : (setArbChip s f).pending = s.pending := rfl
@[simp] theorem domOf_setArbChip (s : State) (f : ArbChip → ArbChip) (i : Nat) : domOf (setArbChip s f) i = domOf s i := rfl
@[simp] theorem cfgOf_setArbChip (s : State) (f : ArbChip → ArbChip) (i : Nat) : cfgOf (setArbChip s f) i = cfgOf s i := rfl
@[simp] theorem portOf_setArbChip (s : State) (f : ArbChip → ArbChip) (i : Nat) : portOf (setArbChip s f) i = portOf s i := rfl

/-! ### `setMeter` -/

@[simp] theorem setMeter_time (s : State) (f : Meter → Meter) : (setMeter s f).time = s.time := rfl
@[simp] theorem setMeter_mode (s : State) (f : Meter → Meter) : (setMeter s f).mode = s.mode := rfl
@[simp] theorem setMeter_scratch (s : State) (f : Meter → Meter) : (setMeter s f).scratch = s.scratch := rfl
@[simp] theorem setMeter_resp (s : State) (f : Meter → Meter) : (setMeter s f).resp = s.resp := rfl
@[simp] theorem setMeter_cseq (s : State) (f : Meter → Meter) : (setMeter s f).cseq = s.cseq := rfl
@[simp] theorem setMeter_cmds (s : State) (f : Meter → Meter) : (setMeter s f).cmds = s.cmds := rfl
@[simp] theorem setMeter_groups (s : State) (f : Meter → Meter) : (setMeter s f).groups = s.groups := rfl
@[simp] theorem setMeter_rrPort (s : State) (f : Meter → Meter) : (setMeter s f).rrPort = s.rrPort := rfl
@[simp] theorem setMeter_fetchPort (s : State) (f : Meter → Meter) : (setMeter s f).fetchPort = s.fetchPort := rfl
@[simp] theorem setMeter_nextOrd (s : State) (f : Meter → Meter) : (setMeter s f).nextOrd = s.nextOrd := rfl
@[simp] theorem setMeter_nextGrp (s : State) (f : Meter → Meter) : (setMeter s f).nextGrp = s.nextGrp := rfl
@[simp] theorem setMeter_records (s : State) (f : Meter → Meter) : (setMeter s f).records = s.records := rfl
@[simp] theorem setMeter_ints (s : State) (f : Meter → Meter) : (setMeter s f).ints = s.ints := rfl
@[simp] theorem setMeter_input (s : State) (f : Meter → Meter) : (setMeter s f).input = s.input := rfl
@[simp] theorem setMeter_cfg (s : State) (f : Meter → Meter) : (setMeter s f).cfg = s.cfg := rfl
@[simp] theorem setMeter_dom (s : State) (f : Meter → Meter) : (setMeter s f).dom = s.dom := rfl
@[simp] theorem setMeter_char (s : State) (f : Meter → Meter) : (setMeter s f).char = s.char := rfl
@[simp] theorem setMeter_laneOf (s : State) (f : Meter → Meter) : (setMeter s f).laneOf = s.laneOf := rfl
@[simp] theorem setMeter_lanes (s : State) (f : Meter → Meter) : (setMeter s f).lanes = s.lanes := rfl
@[simp] theorem setMeter_slot (s : State) (f : Meter → Meter) : (setMeter s f).slot = s.slot := rfl
@[simp] theorem setMeter_mism (s : State) (f : Meter → Meter) : (setMeter s f).mism = s.mism := rfl
@[simp] theorem setMeter_progs (s : State) (f : Meter → Meter) : (setMeter s f).progs = s.progs := rfl
@[simp] theorem setMeter_models (s : State) (f : Meter → Meter) : (setMeter s f).models = s.models := rfl
@[simp] theorem setMeter_lanternFail (s : State) (f : Meter → Meter) : (setMeter s f).lanternFail = s.lanternFail := rfl
@[simp] theorem setMeter_lantErrs (s : State) (f : Meter → Meter) : (setMeter s f).lantErrs = s.lantErrs := rfl
@[simp] theorem setMeter_arb (s : State) (f : Meter → Meter) : (setMeter s f).arb = s.arb := rfl
@[simp] theorem setMeter_links (s : State) (f : Meter → Meter) : (setMeter s f).links = s.links := rfl
@[simp] theorem setMeter_ports (s : State) (f : Meter → Meter) : (setMeter s f).ports = s.ports := rfl
@[simp] theorem setMeter_wq (s : State) (f : Meter → Meter) : (setMeter s f).wq = s.wq := rfl
@[simp] theorem setMeter_outQ (s : State) (f : Meter → Meter) : (setMeter s f).outQ = s.outQ := rfl
@[simp] theorem setMeter_irq (s : State) (f : Meter → Meter) : (setMeter s f).irq = s.irq := rfl
@[simp] theorem setMeter_clk (s : State) (f : Meter → Meter) : (setMeter s f).clk = s.clk := rfl
@[simp] theorem setMeter_mc (s : State) (f : Meter → Meter) : (setMeter s f).mc = s.mc := rfl
@[simp] theorem setMeter_safety (s : State) (f : Meter → Meter) : (setMeter s f).safety = s.safety := rfl
@[simp] theorem setMeter_strata (s : State) (f : Meter → Meter) : (setMeter s f).strata = s.strata := rfl
@[simp] theorem setMeter_therm (s : State) (f : Meter → Meter) : (setMeter s f).therm = s.therm := rfl
@[simp] theorem setMeter_meter (s : State) (f : Meter → Meter) : (setMeter s f).meter = f s.meter := rfl
@[simp] theorem setMeter_bus (s : State) (f : Meter → Meter) : (setMeter s f).bus = s.bus := rfl
@[simp] theorem setMeter_sieve (s : State) (f : Meter → Meter) : (setMeter s f).sieve = s.sieve := rfl
@[simp] theorem setMeter_tests (s : State) (f : Meter → Meter) : (setMeter s f).tests = s.tests := rfl
@[simp] theorem setMeter_freeIdx (s : State) (f : Meter → Meter) : (setMeter s f).freeIdx = s.freeIdx := rfl
@[simp] theorem setMeter_pending (s : State) (f : Meter → Meter) : (setMeter s f).pending = s.pending := rfl
@[simp] theorem domOf_setMeter (s : State) (f : Meter → Meter) (i : Nat) : domOf (setMeter s f) i = domOf s i := rfl
@[simp] theorem cfgOf_setMeter (s : State) (f : Meter → Meter) (i : Nat) : cfgOf (setMeter s f) i = cfgOf s i := rfl
@[simp] theorem portOf_setMeter (s : State) (f : Meter → Meter) (i : Nat) : portOf (setMeter s f) i = portOf s i := rfl

end Sys2Proof.Laws
end

