-- ==== Sys2Proof/Laws/Ops.lean ====
section
/-! SUPPORT. What the shared operations do: vectors, stores, domains, ports, rings, fault messages and reports. -/

namespace Sys2Proof.Laws
open Sys2Proof Sys2Proof.Machine

/-! ### Vectors -/

theorem vget_lt {α : Type} [Inhabited α] {n : Nat} (v : Vector α n) {i : Nat} (h : i < n) : vget v i = v[i] := by
  simp [vget, h]

theorem vget_ge {α : Type} [Inhabited α] {n : Nat} (v : Vector α n) {i : Nat} (h : n ≤ i) : vget v i = default := by
  simp [vget, Nat.not_lt.mpr h]

theorem vupd_ge {α : Type} {n : Nat} (v : Vector α n) {i : Nat} (f : α → α) (h : n ≤ i) : vupd v i f = v := by
  simp [vupd, Nat.not_lt.mpr h]

theorem vget_vupd_same {α : Type} [Inhabited α] {n : Nat} (v : Vector α n) {i : Nat} (f : α → α) (h : i < n) :
    vget (vupd v i f) i = f (vget v i) := by
  simp [vget, vupd, h]

@[simp] theorem vget_vupd_fin {α : Type} [Inhabited α] {n : Nat} (v : Vector α n) (i : Fin n) (f : α → α) :
    vget (vupd v i.val f) i.val = f (vget v i.val) := vget_vupd_same v f i.isLt

theorem vget_vupd_ne {α : Type} [Inhabited α] {n : Nat} (v : Vector α n) {i j : Nat} (f : α → α) (h : i ≠ j) :
    vget (vupd v i f) j = vget v j := by
  unfold vget vupd
  by_cases hi : i < n
  · by_cases hj : j < n
    · simp [hi, hj, Vector.getElem_set_ne _ _ h]
    · simp [hj]
  · simp [hi]

theorem vget_vset_same {α : Type} [Inhabited α] {n : Nat} (v : Vector α n) {i : Nat} (a : α) (h : i < n) :
    vget (vset v i a) i = a := vget_vupd_same v _ h

theorem vget_vset_ne {α : Type} [Inhabited α] {n : Nat} (v : Vector α n) {i j : Nat} (a : α) (h : i ≠ j) :
    vget (vset v i a) j = vget v j := vget_vupd_ne v _ h

theorem vget_vmapIdx {α β : Type} [Inhabited α] [Inhabited β] {n : Nat} (v : Vector α n) (f : Nat → α → β) {i : Nat}
    (h : i < n) : vget (vmapIdx v f) i = f i (vget v i) := by
  simp [vget, vmapIdx, h]

theorem vupd_vupd {α : Type} {n : Nat} (v : Vector α n) (i : Nat) (f g : α → α) :
    vupd (vupd v i f) i g = vupd v i (fun x => g (f x)) := by
  unfold vupd
  split <;> simp

/-- Two vectors of one length with the same elements are equal. -/
theorem vector_ext {α : Type} [Inhabited α] {n : Nat} {v w : Vector α n} (h : ∀ i < n, vget v i = vget w i) : v = w := by
  apply Vector.ext
  intro i hi
  simpa [vget, hi] using h i hi

/-! ### Stores: every operation keeps the canonical form (R154, R208) -/

theorem cellsWf_mono {w : Nat} : ∀ (l : List (Nat × BitVec w)) {a b : Nat}, a ≤ b → cellsWf b l = true → cellsWf a l = true
  | [], _, _, _, _ => rfl
  | (k, x) :: rest, a, b, h, hw => by
    simp only [cellsWf, Bool.and_eq_true, decide_eq_true_eq] at hw ⊢
    exact ⟨⟨Nat.le_trans h hw.1.1, hw.1.2⟩, hw.2⟩

/-- Below the bound of a canonical list every word reads 0. -/
theorem cellsGet_below {w : Nat} : ∀ (l : List (Nat × BitVec w)) {lo a : Nat}, cellsWf lo l = true → a < lo → cellsGet l a = 0
  | [], _, _, _, _ => rfl
  | (k, x) :: rest, lo, a, hw, h => by
    simp only [cellsWf, Bool.and_eq_true, decide_eq_true_eq] at hw
    have hk : k ≠ a := by omega
    simp only [cellsGet, if_neg hk]
    exact cellsGet_below rest hw.2 (by omega)

theorem cellsSet_wf {w : Nat} : ∀ (l : List (Nat × BitVec w)) {lo a : Nat} (v : BitVec w), cellsWf lo l = true → lo ≤ a →
    cellsWf lo (cellsSet l a v) = true
  | [], lo, a, v, _, h => by
    unfold cellsSet; split <;> simp_all [cellsWf]
  | (k, x) :: rest, lo, a, v, hw, h => by
    have hw' := hw
    simp only [cellsWf, Bool.and_eq_true, decide_eq_true_eq] at hw'
    obtain ⟨⟨h1, h2⟩, h3⟩ := hw'
    unfold cellsSet
    split_ifs with c1 c2 c3 c4
    · exact hw
    · simp only [cellsWf, Bool.and_eq_true, decide_eq_true_eq]
      exact ⟨⟨h, by simpa using c2⟩, ⟨by omega, h2⟩, h3⟩
    · exact cellsWf_mono rest (by omega) h3
    · subst c3
      simp only [cellsWf, Bool.and_eq_true, decide_eq_true_eq]
      exact ⟨⟨h, by simpa using c4⟩, h3⟩
    · simp only [cellsWf, Bool.and_eq_true, decide_eq_true_eq]
      exact ⟨⟨h1, h2⟩, cellsSet_wf rest v h3 (by omega)⟩

theorem cellsGet_set_same {w : Nat} : ∀ (l : List (Nat × BitVec w)) {lo a : Nat} (v : BitVec w), cellsWf lo l = true →
    cellsGet (cellsSet l a v) a = v
  | [], lo, a, v, _ => by
    unfold cellsSet; split <;> simp_all [cellsGet]
  | (k, x) :: rest, lo, a, v, hw => by
    simp only [cellsWf, Bool.and_eq_true, decide_eq_true_eq] at hw
    obtain ⟨⟨h1, h2⟩, h3⟩ := hw
    unfold cellsSet
    split_ifs with c1 c2 c3 c4
    · have hk : k ≠ a := by omega
      simp only [cellsGet, if_neg hk]
      rw [c2]; exact cellsGet_below rest h3 (by omega)
    · simp [cellsGet]
    · rw [c4]; exact cellsGet_below rest h3 (by omega)
    · simp [cellsGet]
    · have hk : k ≠ a := fun e => c3 e.symm
      simp only [cellsGet, if_neg hk]
      exact cellsGet_set_same rest v h3

theorem cellsGet_set_ne {w : Nat} : ∀ (l : List (Nat × BitVec w)) {a b : Nat} (v : BitVec w), a ≠ b →
    cellsGet (cellsSet l a v) b = cellsGet l b
  | [], a, b, v, h => by
    unfold cellsSet; split <;> simp [cellsGet, h]
  | (k, x) :: rest, a, b, v, h => by
    unfold cellsSet
    split_ifs with c1 c2 c3 c4
    · rfl
    · simp [cellsGet, h]
    · subst c3; simp [cellsGet, h]
    · subst c3; simp [cellsGet, h]
    · simp only [cellsGet]
      split
      · rfl
      · exact cellsGet_set_ne rest v h

/-- A write keeps the canonical form. -/
theorem Mem_write_wf {w : Nat} (m : Mem w) (a : Nat) (v : BitVec w) (h : m.wf = true) : (m.write a v).wf = true :=
  cellsSet_wf m.cells v h (Nat.zero_le a)

/-- A read after a write to the same address gives the word written. -/
theorem Mem_read_write_same {w : Nat} (m : Mem w) (a : Nat) (v : BitVec w) (h : m.wf = true) : (m.write a v).read a = v :=
  cellsGet_set_same m.cells v h

/-- A write leaves every other address alone. -/
theorem Mem_read_write_ne {w : Nat} (m : Mem w) {a b : Nat} (v : BitVec w) (h : a ≠ b) : (m.write a v).read b = m.read b :=
  cellsGet_set_ne m.cells v h

/-- The empty store is canonical and reads 0. -/
@[simp] theorem Mem_empty_wf {w : Nat} : (⟨[]⟩ : Mem w).wf = true := rfl
@[simp] theorem Mem_empty_read {w : Nat} (a : Nat) : (⟨[]⟩ : Mem w).read a = 0 := rfl

/-- A store made from an image is canonical. -/
theorem memOfList_wf {w : Nat} (l : List (BitVec w)) : (memOfList l).wf = true := by
  unfold memOfList
  generalize l.zipIdx = z
  have : ∀ (z : List (BitVec w × Nat)) (m : Mem w), m.wf = true →
      (z.foldl (fun m x => m.write x.2 x.1) m).wf = true := by
    intro z
    induction z with
    | nil => intro m h; exact h
    | cons x xs ih => intro m h; exact ih _ (Mem_write_wf m x.2 x.1 h)
  exact this z _ rfl

/-! ### Domains, configurations, ports, rings and cells -/

theorem domOf_setDom_same (s : State) {d : Nat} (f : Domain → Domain) (h : d < 80) : domOf (setDom s d f) d = f (domOf s d) :=
  vget_vupd_same s.dom f h

@[simp] theorem domOf_setDom_fin (s : State) (d : Dom) (f : Domain → Domain) : domOf (setDom s d f) d = f (domOf s d) :=
  vget_vupd_same s.dom f d.isLt

theorem domOf_setDom_ne (s : State) {d e : Nat} (f : Domain → Domain) (h : d ≠ e) : domOf (setDom s d f) e = domOf s e :=
  vget_vupd_ne s.dom f h

theorem cfgOf_setCfg_same (s : State) {l : Nat} (f : DomCfg → DomCfg) (h : l < 80) : cfgOf (setCfg s l f) l = f (cfgOf s l) :=
  vget_vupd_same s.cfg f h

theorem cfgOf_setCfg_ne (s : State) {l k : Nat} (f : DomCfg → DomCfg) (h : l ≠ k) : cfgOf (setCfg s l f) k = cfgOf s k :=
  vget_vupd_ne s.cfg f h

theorem portOf_setPort_same (s : State) {p : Nat} (f : Port → Port) (h : p < 8) : portOf (setPort s p f) p = f (portOf s p) :=
  vget_vupd_same s.ports f h

@[simp] theorem portOf_setPort_fin (s : State) (p : PortNo) (f : Port → Port) : portOf (setPort s p f) p = f (portOf s p) :=
  vget_vupd_same s.ports f p.isLt

theorem portOf_setPort_ne (s : State) {p q : Nat} (f : Port → Port) (h : p ≠ q) : portOf (setPort s p f) q = portOf s q :=
  vget_vupd_ne s.ports f h

theorem ringOf_setRing_same (P : Port) {r : Nat} (f : Ring → Ring) (h : r < 4) : ringOf (setRing P r f) r = f (ringOf P r) :=
  vget_vupd_same P.rings f h

theorem ringOf_setRing_ne (P : Port) {r q : Nat} (f : Ring → Ring) (h : r ≠ q) : ringOf (setRing P r f) q = ringOf P q :=
  vget_vupd_ne P.rings f h

theorem cellOf_setCell_same (D : Domain) {k : Nat} (f : Cell → Cell) (h : k < 14) : cellOf (setCell D k f) k = f (cellOf D k) :=
  vget_vupd_same D.cells f h

theorem cellOf_setCell_ne (D : Domain) {k j : Nat} (f : Cell → Cell) (h : k ≠ j) : cellOf (setCell D k f) j = cellOf D j :=
  vget_vupd_ne D.cells f h

/-! ### Pairs -/

theorem leader_of_not_odd {s : State} {d : Nat} (h : isOdd s d = false) : leader s d = d := by simp [leader, h]

theorem membersOf_of_not_even {s : State} {d : Nat} (h : isEven s d = false) : membersOf s d = [d] := by simp [membersOf, h]

theorem not_even_of_none {s : State} {d : Nat} (h : (domOf s d).pair = .none) : isEven s d = false := by simp [isEven, h]

theorem not_odd_of_none {s : State} {d : Nat} (h : (domOf s d).pair = .none) : isOdd s d = false := by simp [isOdd, h]

/-! ### Fault messages (R371, R372) -/

/-- A message enters the queue of the collector and nothing else changes, while the queue has room or the class is not corrected. -/
theorem enqueueFault_eq (s : State) (m : FaultMsg) (h : fClass m.bits = 0 → s.safety.queue.length ≤ 768) :
    enqueueFault s m = { s with safety := { s.safety with queue := s.safety.queue ++ [m] } } := by
  unfold enqueueFault
  split
  · rename_i hc; exact absurd (h hc.1) (by omega)
  · rfl

/-- Everything outside the collector stays when a message is raised. -/
theorem enqueueFault_frame (s : State) (m : FaultMsg) : enqueueFault s m = { s with safety := (enqueueFault s m).safety } := by
  unfold enqueueFault; split <;> rfl

theorem raise_frame (s : State) (cls kind unit inst detail : Nat) :
    raise s cls kind unit inst detail = { s with safety := (raise s cls kind unit inst detail).safety } :=
  enqueueFault_frame s _

theorem raiseFrom_frame (s : State) (cls kind unit inst detail start : Nat) :
    raiseFrom s cls kind unit inst detail start = { s with safety := (raiseFrom s cls kind unit inst detail start).safety } :=
  enqueueFault_frame s _

theorem raiseExt_frame (s : State) (cls kind unit inst detail : Nat) (ext : Word) :
    raiseExt s cls kind unit inst detail ext = { s with safety := (raiseExt s cls kind unit inst detail ext).safety } :=
  enqueueFault_frame s _

/-- The bits of a message but its parity. -/
theorem faultWord_bit (cls kind unit inst detail : Nat) (epoch : Word) {i : Nat} (h : 0 < i) :
    (faultWord cls kind unit inst detail epoch).getLsbD i =
      (BitVec.ofNat 2 cls ++ BitVec.ofNat 8 kind ++ BitVec.ofNat 4 unit ++ BitVec.ofNat 8 inst ++
        BitVec.ofNat 32 detail ++ epoch.extractLsb' 0 8 ++ 0#2 : BitVec 64).getLsbD i := by
  have hp : ∀ x : DWord, (parityOf x).getLsbD i = false := by
    intro x; unfold parityOf; split
    · have : (1 : DWord) = 1#64 := rfl
      rw [this, BitVec.getLsbD_one]; simp; omega
    · exact BitVec.getLsbD_zero
  simp only [faultWord, BitVec.getLsbD_or, hp, Bool.or_false]

theorem fClass_faultWord (cls kind unit inst detail : Nat) (epoch : Word) :
    fClass (faultWord cls kind unit inst detail epoch) = cls % 4 := by
  have : (faultWord cls kind unit inst detail epoch).extractLsb' 62 2 = BitVec.ofNat 2 cls := by
    apply BitVec.eq_of_getLsbD_eq
    intro i hi
    rw [BitVec.getLsbD_extractLsb', faultWord_bit _ _ _ _ _ _ (by omega)]
    simp only [BitVec.getLsbD_append, hi, decide_true, Bool.true_and]
    repeat' split
    all_goals first | omega | (congr 1; omega)
  simp [fClass, this]

theorem fKindOf_faultWord (cls kind unit inst detail : Nat) (epoch : Word) :
    fKindOf (faultWord cls kind unit inst detail epoch) = kind % 256 := by
  have : (faultWord cls kind unit inst detail epoch).extractLsb' 54 8 = BitVec.ofNat 8 kind := by
    apply BitVec.eq_of_getLsbD_eq
    intro i hi
    rw [BitVec.getLsbD_extractLsb', faultWord_bit _ _ _ _ _ _ (by omega)]
    simp only [BitVec.getLsbD_append, hi, decide_true, Bool.true_and]
    repeat' split
    all_goals first | omega | (congr 1; omega)
  simp [fKindOf, this]

theorem fUnit_faultWord (cls kind unit inst detail : Nat) (epoch : Word) :
    fUnit (faultWord cls kind unit inst detail epoch) = unit % 16 := by
  have : (faultWord cls kind unit inst detail epoch).extractLsb' 50 4 = BitVec.ofNat 4 unit := by
    apply BitVec.eq_of_getLsbD_eq
    intro i hi
    rw [BitVec.getLsbD_extractLsb', faultWord_bit _ _ _ _ _ _ (by omega)]
    simp only [BitVec.getLsbD_append, hi, decide_true, Bool.true_and]
    repeat' split
    all_goals first | omega | (congr 1; omega)
  simp [fUnit, this]

theorem fInst_faultWord (cls kind unit inst detail : Nat) (epoch : Word) :
    fInst (faultWord cls kind unit inst detail epoch) = inst % 256 := by
  have : (faultWord cls kind unit inst detail epoch).extractLsb' 42 8 = BitVec.ofNat 8 inst := by
    apply BitVec.eq_of_getLsbD_eq
    intro i hi
    rw [BitVec.getLsbD_extractLsb', faultWord_bit _ _ _ _ _ _ (by omega)]
    simp only [BitVec.getLsbD_append, hi, decide_true, Bool.true_and]
    repeat' split
    all_goals first | omega | (congr 1; omega)
  simp [fInst, this]

theorem fDetail_faultWord (cls kind unit inst detail : Nat) (epoch : Word) :
    fDetail (faultWord cls kind unit inst detail epoch) = detail % 2 ^ 32 := by
  have : (faultWord cls kind unit inst detail epoch).extractLsb' 10 32 = BitVec.ofNat 32 detail := by
    apply BitVec.eq_of_getLsbD_eq
    intro i hi
    rw [BitVec.getLsbD_extractLsb', faultWord_bit _ _ _ _ _ _ (by omega)]
    simp only [BitVec.getLsbD_append, hi, decide_true, Bool.true_and]
    repeat' split
    all_goals first | omega | (congr 1; omega)
  simp [fDetail, this]

/-- A message that is not corrected always enters the queue. -/
theorem raise_eq (s : State) (cls kind unit inst detail : Nat) (h : cls % 4 = 0 → s.safety.queue.length ≤ 768) :
    raise s cls kind unit inst detail = { s with safety := { s.safety with queue := s.safety.queue ++
      [{ bits := faultWord cls kind unit inst detail (epochIn s), from_ := none, ext := 0 }] } } :=
  enqueueFault_eq s _ (by simpa only [fClass_faultWord] using h)

theorem raiseFrom_eq (s : State) (cls kind unit inst detail start : Nat) (h : cls % 4 = 0 → s.safety.queue.length ≤ 768) :
    raiseFrom s cls kind unit inst detail start = { s with safety := { s.safety with queue := s.safety.queue ++
      [{ bits := faultWord cls kind unit inst detail (epochIn s), from_ := some start, ext := 0 }] } } :=
  enqueueFault_eq s _ (by simpa only [fClass_faultWord] using h)

/-! ### Reports, completions and the commit sequence -/

/-- A station's report waits with the GTC of its making (R83). -/
theorem report_eq (s : State) (d : Dom) (w : IntWhat) :
    report s d w = { s with ints := s.ints ++ [{ dom := d, what := w, at_ := s.time.gtc }] } := by
  simp [report, d.isLt]

theorem report_frame (s : State) (d : Nat) (w : IntWhat) : report s d w = { s with ints := (report s d w).ints } := by
  unfold report; split <;> rfl

/-- A completion waits at its port and nothing outside the port changes (R297). -/
theorem postCompletion_frame (s : State) (p : Nat) (c : Completion) (h : Bool) :
    postCompletion s p c h = { s with ports := (postCompletion s p c h).ports } := rfl

/-- No number of a commit has a low word of 0 (R79). -/
theorem nextSeq_low (q : DWord) : (nextSeq q).extractLsb' 0 32 ≠ 0 := by
  unfold nextSeq
  intro hc
  dsimp only at hc
  split at hc
  · rename_i h
    have h1 := congrArg BitVec.toNat h
    have h2 := congrArg BitVec.toNat hc
    simp at h1 h2
    omega
  · rename_i h; exact h hc

end Sys2Proof.Laws
end

