-- ==== Sys2Proof/Laws/Kept.lean ====
section
/-! SUPPORT. What every change of the machine keeps but a commit and a power-on reset: the commit sequence (R79) and the queue of the
waiting commands. One lemma for each operation. -/

namespace Sys2Proof.Laws
open Sys2Proof Sys2Proof.Machine
set_option Elab.async false
set_option linter.unusedSimpArgs false
set_option linter.unusedTactic false
set_option linter.unreachableTactic false
set_option linter.unnecessarySeqFocus false

/-- The commit sequence and the waiting commands of a state. -/
def kept (s : State) : DWord × List Instr := (s.cseq, s.pending)

theorem kept_iff {s u : State} : kept u = kept s ↔ u.cseq = s.cseq ∧ u.pending = s.pending := by simp [kept]

theorem kept_eta (s : State) : (s.cseq, s.pending) = kept s := rfl

theorem kept_mk (x0 : Time) (x1 : Mode) (x2 : Word) (x3 : Resp) (cseq : DWord) (x5 : List Cmd) (x6 : Vector (Option OpenGroup) 8) (x7 : PortNo) (x8 : PortNo) (x9 : Nat) (x10 : Nat) (x11 : List Record) (x12 : List IntChange) (x13 : InputBlk) (x14 : Vector DomCfg 80) (x15 : Vector Domain 80) (x16 : Option CharRecord) (x17 : Vector (Option (Fin 17)) 16) (x18 : Vector LaneSt 17) (x19 : SlotCtx) (x20 : List Mismatch) (x21 : Vector (Option Program) 32) (x22 : Vector (Option Model) 8) (x23 : Bool) (x24 : List Nat) (x25 : ArbChip) (x26 : Vector Link 5) (x27 : Vector Port 8) (x28 : List WriteReq) (x29 : List WriteReq) (x30 : Irq) (x31 : Clocks) (x32 : Mc) (x33 : Safety) (x34 : Strata) (x35 : Thermal) (x36 : Meter) (x37 : Bus) (x38 : Option Sieve) (x39 : List TestRun) (x40 : Nat) (pending : List Instr) :
    kept (State.mk x0 x1 x2 x3 cseq x5 x6 x7 x8 x9 x10 x11 x12 x13 x14 x15 x16 x17 x18 x19 x20 x21 x22 x23 x24 x25 x26 x27 x28 x29 x30 x31 x32 x33 x34 x35 x36 x37 x38 x39 x40 pending) = (cseq, pending) := rfl

theorem foldl_kept {α : Type} (f : State → α → State) (l : List α) (s : State) (h : ∀ s x, kept (f s x) = kept s) :
    kept (l.foldl f s) = kept s := by
  induction l generalizing s with
  | nil => rfl
  | cons x xs ih => rw [List.foldl_cons, ih, h]

theorem foldl1_kept {α β : Type} (f : State × β → α → State × β) (l : List α) (a : State × β)
    (h : ∀ a x, kept (f a x).1 = kept a.1) : kept (l.foldl f a).1 = kept a.1 := by
  induction l generalizing a with
  | nil => rfl
  | cons x xs ih => rw [List.foldl_cons, ih, h]

theorem foldDoms_kept (s : State) (f : State → Nat → State) (h : ∀ s x, kept (f s x) = kept s) : kept (foldDoms s f) = kept s :=
  foldl_kept f _ s h

theorem onEach_kept (s : State) (ls : List Nat) (f : State → Nat → State × Nat) (h : ∀ s l, kept (f s l).1 = kept s) :
    kept (onEach s ls f).1 = kept s :=
  foldl1_kept _ ls (s, none) (fun a x => h a.1 x)

@[simp] theorem kept_laneTested (s : State) (x1 : TestUnit) :
    kept (laneTested s x1) = kept s := by
  unfold laneTested
  first
  | (simp only [kept_mk, kept_eta, apply_ite kept, ite_self, foldl_kept, foldDoms_kept]; done)
  | ((try dsimp only) <;> (repeat' split) <;> simp only [kept_mk, kept_eta, apply_ite kept, ite_self, foldl_kept, foldDoms_kept]; done)
  | ((try dsimp only) <;> (repeat' split) <;> simp [kept_mk, kept_eta, apply_ite kept, ite_self, foldl_kept, foldDoms_kept])
@[simp] theorem kept_enqueueFault (s : State) (x1 : FaultMsg) :
    kept (enqueueFault s x1) = kept s := by
  unfold enqueueFault
  first
  | (simp only [kept_mk, kept_eta, apply_ite kept, ite_self, foldl_kept, foldDoms_kept]; done)
  | ((try dsimp only) <;> (repeat' split) <;> simp only [kept_mk, kept_eta, apply_ite kept, ite_self, foldl_kept, foldDoms_kept]; done)
  | ((try dsimp only) <;> (repeat' split) <;> simp [kept_mk, kept_eta, apply_ite kept, ite_self, foldl_kept, foldDoms_kept])
@[simp] theorem kept_raise (s : State) (x1 : Nat) (x2 : Nat) (x3 : Nat) (x4 : Nat) (x5 : Nat) :
    kept (raise s x1 x2 x3 x4 x5) = kept s := by
  unfold raise
  first
  | (simp only [kept_mk, kept_eta, apply_ite kept, ite_self, foldl_kept, foldDoms_kept, kept_enqueueFault]; done)
  | ((try dsimp only) <;> (repeat' split) <;> simp only [kept_mk, kept_eta, apply_ite kept, ite_self, foldl_kept, foldDoms_kept, kept_enqueueFault]; done)
  | ((try dsimp only) <;> (repeat' split) <;> simp [kept_mk, kept_eta, apply_ite kept, ite_self, foldl_kept, foldDoms_kept, kept_enqueueFault])
@[simp] theorem kept_setPort (s : State) (x1 : Nat) (x2 : Port → Port) :
    kept (setPort s x1 x2) = kept s := by
  unfold setPort
  first
  | (simp only [kept_mk, kept_eta, apply_ite kept, ite_self, foldl_kept, foldDoms_kept]; done)
  | ((try dsimp only) <;> (repeat' split) <;> simp only [kept_mk, kept_eta, apply_ite kept, ite_self, foldl_kept, foldDoms_kept]; done)
  | ((try dsimp only) <;> (repeat' split) <;> simp [kept_mk, kept_eta, apply_ite kept, ite_self, foldl_kept, foldDoms_kept])
@[simp] theorem kept_postEvent (s : State) (x1 : Nat) (x2 : Event) :
    kept (postEvent s x1 x2) = kept s := by
  unfold postEvent
  first
  | (simp only [kept_mk, kept_eta, apply_ite kept, ite_self, foldl_kept, foldDoms_kept, kept_raise, kept_setPort]; done)
  | ((try dsimp only) <;> (repeat' split) <;> simp only [kept_mk, kept_eta, apply_ite kept, ite_self, foldl_kept, foldDoms_kept, kept_raise, kept_setPort]; done)
  | ((try dsimp only) <;> (repeat' split) <;> simp [kept_mk, kept_eta, apply_ite kept, ite_self, foldl_kept, foldDoms_kept, kept_raise, kept_setPort])
@[simp] theorem kept_postTest (s : State) (x1 : PortNo) (x2 : Nat) (x3 : Nat) (x4 : Nat) (x5 : Nat) (x6 : Nat) (x7 : List Byte) :
    kept (postTest s x1 x2 x3 x4 x5 x6 x7) = kept s := by
  unfold postTest
  first
  | (simp only [kept_mk, kept_eta, apply_ite kept, ite_self, foldl_kept, foldDoms_kept, kept_postEvent]; done)
  | ((try dsimp only) <;> (repeat' split) <;> simp only [kept_mk, kept_eta, apply_ite kept, ite_self, foldl_kept, foldDoms_kept, kept_postEvent]; done)
  | ((try dsimp only) <;> (repeat' split) <;> simp [kept_mk, kept_eta, apply_ite kept, ite_self, foldl_kept, foldDoms_kept, kept_postEvent])
@[simp] theorem kept_endTest (s : State) (x1 : TestRun) (x2 : Nat) (x3 : List Byte) :
    kept (endTest s x1 x2 x3) = kept s := by
  unfold endTest
  first
  | (simp only [kept_mk, kept_eta, apply_ite kept, ite_self, foldl_kept, foldDoms_kept, kept_laneTested, kept_postTest]; done)
  | ((try dsimp only) <;> (repeat' split) <;> simp only [kept_mk, kept_eta, apply_ite kept, ite_self, foldl_kept, foldDoms_kept, kept_laneTested, kept_postTest]; done)
  | ((try dsimp only) <;> (repeat' split) <;> simp [kept_mk, kept_eta, apply_ite kept, ite_self, foldl_kept, foldDoms_kept, kept_laneTested, kept_postTest])
@[simp] theorem kept_abandonTests (s : State) (x1 : TestUnit → Bool) :
    kept (abandonTests s x1) = kept s := by
  unfold abandonTests
  first
  | (simp only [kept_mk, kept_eta, apply_ite kept, ite_self, foldl_kept, foldDoms_kept, kept_endTest]; done)
  | ((try dsimp only) <;> (repeat' split) <;> simp only [kept_mk, kept_eta, apply_ite kept, ite_self, foldl_kept, foldDoms_kept, kept_endTest]; done)
  | ((try dsimp only) <;> (repeat' split) <;> simp [kept_mk, kept_eta, apply_ite kept, ite_self, foldl_kept, foldDoms_kept, kept_endTest])
@[simp] theorem kept_abandonBist (s : State) (x1 : Nat) :
    kept (abandonBist s x1) = kept s := by
  unfold abandonBist
  first
  | (simp only [kept_mk, kept_eta, apply_ite kept, ite_self, foldl_kept, foldDoms_kept, kept_abandonTests]; done)
  | ((try dsimp only) <;> (repeat' split) <;> simp only [kept_mk, kept_eta, apply_ite kept, ite_self, foldl_kept, foldDoms_kept, kept_abandonTests]; done)
  | ((try dsimp only) <;> (repeat' split) <;> simp [kept_mk, kept_eta, apply_ite kept, ite_self, foldl_kept, foldDoms_kept, kept_abandonTests])
@[simp] theorem kept_setDom (s : State) (x1 : Nat) (x2 : Domain → Domain) :
    kept (setDom s x1 x2) = kept s := by
  unfold setDom
  first
  | (simp only [kept_mk, kept_eta, apply_ite kept, ite_self, foldl_kept, foldDoms_kept]; done)
  | ((try dsimp only) <;> (repeat' split) <;> simp only [kept_mk, kept_eta, apply_ite kept, ite_self, foldl_kept, foldDoms_kept]; done)
  | ((try dsimp only) <;> (repeat' split) <;> simp [kept_mk, kept_eta, apply_ite kept, ite_self, foldl_kept, foldDoms_kept])
@[simp] theorem kept_setCellAt (s : State) (x1 : Nat × Nat) (x2 : Cell → Cell) :
    kept (setCellAt s x1 x2) = kept s := by
  unfold setCellAt
  first
  | (simp only [kept_mk, kept_eta, apply_ite kept, ite_self, foldl_kept, foldDoms_kept, kept_setDom]; done)
  | ((try dsimp only) <;> (repeat' split) <;> simp only [kept_mk, kept_eta, apply_ite kept, ite_self, foldl_kept, foldDoms_kept, kept_setDom]; done)
  | ((try dsimp only) <;> (repeat' split) <;> simp [kept_mk, kept_eta, apply_ite kept, ite_self, foldl_kept, foldDoms_kept, kept_setDom])
@[simp] theorem kept_unparkAll (s : State) (x1 : Nat) :
    kept (unparkAll s x1) = kept s := by
  unfold unparkAll
  first
  | (simp only [kept_mk, kept_eta, apply_ite kept, ite_self, foldl_kept, foldDoms_kept, kept_setCellAt]; done)
  | ((try dsimp only) <;> (repeat' split) <;> simp only [kept_mk, kept_eta, apply_ite kept, ite_self, foldl_kept, foldDoms_kept, kept_setCellAt]; done)
  | ((try dsimp only) <;> (repeat' split) <;> simp [kept_mk, kept_eta, apply_ite kept, ite_self, foldl_kept, foldDoms_kept, kept_setCellAt])
@[simp] theorem kept_abortPark (s : State) (x1 : Nat) :
    kept (abortPark s x1) = kept s := by
  unfold abortPark
  first
  | (simp only [kept_mk, kept_eta, apply_ite kept, ite_self, foldl_kept, foldDoms_kept, kept_unparkAll, kept_setDom]; done)
  | ((try dsimp only) <;> (repeat' split) <;> simp only [kept_mk, kept_eta, apply_ite kept, ite_self, foldl_kept, foldDoms_kept, kept_unparkAll, kept_setDom]; done)
  | ((try dsimp only) <;> (repeat' split) <;> simp [kept_mk, kept_eta, apply_ite kept, ite_self, foldl_kept, foldDoms_kept, kept_unparkAll, kept_setDom])
@[simp] theorem kept_setDoms (s : State) (x1 : Nat → Domain → Domain) :
    kept (setDoms s x1) = kept s := by
  unfold setDoms
  first
  | (simp only [kept_mk, kept_eta, apply_ite kept, ite_self, foldl_kept, foldDoms_kept]; done)
  | ((try dsimp only) <;> (repeat' split) <;> simp only [kept_mk, kept_eta, apply_ite kept, ite_self, foldl_kept, foldDoms_kept]; done)
  | ((try dsimp only) <;> (repeat' split) <;> simp [kept_mk, kept_eta, apply_ite kept, ite_self, foldl_kept, foldDoms_kept])
@[simp] theorem kept_absentSites (x0 : CharRecord) (s : State) :
    kept (absentSites x0 s) = kept s := by
  unfold absentSites
  first
  | (simp only [kept_mk, kept_eta, apply_ite kept, ite_self, foldl_kept, foldDoms_kept, kept_setDoms]; done)
  | ((try dsimp only) <;> (repeat' split) <;> simp only [kept_mk, kept_eta, apply_ite kept, ite_self, foldl_kept, foldDoms_kept, kept_setDoms]; done)
  | ((try dsimp only) <;> (repeat' split) <;> simp [kept_mk, kept_eta, apply_ite kept, ite_self, foldl_kept, foldDoms_kept, kept_setDoms])
@[simp] theorem kept_setTherm (s : State) (x1 : Thermal → Thermal) :
    kept (setTherm s x1) = kept s := by
  unfold setTherm
  first
  | (simp only [kept_mk, kept_eta, apply_ite kept, ite_self, foldl_kept, foldDoms_kept]; done)
  | ((try dsimp only) <;> (repeat' split) <;> simp only [kept_mk, kept_eta, apply_ite kept, ite_self, foldl_kept, foldDoms_kept]; done)
  | ((try dsimp only) <;> (repeat' split) <;> simp [kept_mk, kept_eta, apply_ite kept, ite_self, foldl_kept, foldDoms_kept])
@[simp] theorem kept_setMeter (s : State) (x1 : Meter → Meter) :
    kept (setMeter s x1) = kept s := by
  unfold setMeter
  first
  | (simp only [kept_mk, kept_eta, apply_ite kept, ite_self, foldl_kept, foldDoms_kept]; done)
  | ((try dsimp only) <;> (repeat' split) <;> simp only [kept_mk, kept_eta, apply_ite kept, ite_self, foldl_kept, foldDoms_kept]; done)
  | ((try dsimp only) <;> (repeat' split) <;> simp [kept_mk, kept_eta, apply_ite kept, ite_self, foldl_kept, foldDoms_kept])
@[simp] theorem kept_flushWindow (s : State) :
    kept (flushWindow s) = kept s := by
  unfold flushWindow
  first
  | (simp only [kept_mk, kept_eta, apply_ite kept, ite_self, foldl_kept, foldDoms_kept, kept_setDoms, kept_setMeter]; done)
  | ((try dsimp only) <;> (repeat' split) <;> simp only [kept_mk, kept_eta, apply_ite kept, ite_self, foldl_kept, foldDoms_kept, kept_setDoms, kept_setMeter]; done)
  | ((try dsimp only) <;> (repeat' split) <;> simp [kept_mk, kept_eta, apply_ite kept, ite_self, foldl_kept, foldDoms_kept, kept_setDoms, kept_setMeter])
@[simp] theorem kept_staleUpdate (s : State) :
    kept (staleUpdate s) = kept s := by
  unfold staleUpdate
  first
  | (simp only [kept_mk, kept_eta, apply_ite kept, ite_self, foldl_kept, foldDoms_kept, kept_setMeter, kept_flushWindow]; done)
  | ((try dsimp only) <;> (repeat' split) <;> simp only [kept_mk, kept_eta, apply_ite kept, ite_self, foldl_kept, foldDoms_kept, kept_setMeter, kept_flushWindow]; done)
  | ((try dsimp only) <;> (repeat' split) <;> simp [kept_mk, kept_eta, apply_ite kept, ite_self, foldl_kept, foldDoms_kept, kept_setMeter, kept_flushWindow])
@[simp] theorem kept_setMembers (s : State) (x1 : Nat) (x2 : Domain → Domain) :
    kept (setMembers s x1 x2) = kept s := by
  unfold setMembers
  exact foldl_kept _ _ _ (fun s x => by simp only [kept_mk, kept_eta, apply_ite kept, ite_self, foldl_kept, foldDoms_kept, kept_setDom])
@[simp] theorem kept_startTest (s : State) (x1 : Option (PortNo × BitVec 16)) (x2 : TestUnit) :
    kept (startTest s x1 x2) = kept s := by
  unfold startTest
  first
  | (simp only [kept_mk, kept_eta, apply_ite kept, ite_self, foldl_kept, foldDoms_kept, kept_setTherm, kept_staleUpdate, kept_setMeter, kept_setMembers]; done)
  | ((try dsimp only) <;> (repeat' split) <;> simp only [kept_mk, kept_eta, apply_ite kept, ite_self, foldl_kept, foldDoms_kept, kept_setTherm, kept_staleUpdate, kept_setMeter, kept_setMembers]; done)
  | ((try dsimp only) <;> (repeat' split) <;> simp [kept_mk, kept_eta, apply_ite kept, ite_self, foldl_kept, foldDoms_kept, kept_setTherm, kept_staleUpdate, kept_setMeter, kept_setMembers])
@[simp] theorem kept_editUnit (s : State) (x1 : List Cmd) (x2 : Cmd → Cmd) :
    kept (editUnit s x1 x2) = kept s := by
  unfold editUnit
  first
  | (simp only [kept_mk, kept_eta, apply_ite kept, ite_self, foldl_kept, foldDoms_kept]; done)
  | ((try dsimp only) <;> (repeat' split) <;> simp only [kept_mk, kept_eta, apply_ite kept, ite_self, foldl_kept, foldDoms_kept]; done)
  | ((try dsimp only) <;> (repeat' split) <;> simp [kept_mk, kept_eta, apply_ite kept, ite_self, foldl_kept, foldDoms_kept])
@[simp] theorem kept_postCompletion (s : State) (x1 : Nat) (x2 : Completion) (x3 : Bool) :
    kept (postCompletion s x1 x2 x3) = kept s := by
  unfold postCompletion
  first
  | (simp only [kept_mk, kept_eta, apply_ite kept, ite_self, foldl_kept, foldDoms_kept, kept_setPort]; done)
  | ((try dsimp only) <;> (repeat' split) <;> simp only [kept_mk, kept_eta, apply_ite kept, ite_self, foldl_kept, foldDoms_kept, kept_setPort]; done)
  | ((try dsimp only) <;> (repeat' split) <;> simp [kept_mk, kept_eta, apply_ite kept, ite_self, foldl_kept, foldDoms_kept, kept_setPort])
@[simp] theorem kept_acceptUnit (s : State) (x1 : List Cmd) (x2 : Nat) :
    kept (acceptUnit s x1 x2) = kept s := by
  unfold acceptUnit
  first
  | (simp only [kept_mk, kept_eta, apply_ite kept, ite_self, foldl_kept, foldDoms_kept, kept_editUnit, kept_postCompletion]; done)
  | ((try dsimp only) <;> (repeat' split) <;> simp only [kept_mk, kept_eta, apply_ite kept, ite_self, foldl_kept, foldDoms_kept, kept_editUnit, kept_postCompletion]; done)
  | ((try dsimp only) <;> (repeat' split) <;> simp [kept_mk, kept_eta, apply_ite kept, ite_self, foldl_kept, foldDoms_kept, kept_editUnit, kept_postCompletion])
@[simp] theorem kept_finish (s : State) (x1 : Cmd) (x2 : Nat) (x3 : Word) (x4 : Word) (x5 : Bool) (x6 : Nat) :
    kept (finish s x1 x2 x3 x4 x5 x6) = kept s := by
  unfold finish
  first
  | (simp only [kept_mk, kept_eta, apply_ite kept, ite_self, foldl_kept, foldDoms_kept, kept_postCompletion]; done)
  | ((try dsimp only) <;> (repeat' split) <;> simp only [kept_mk, kept_eta, apply_ite kept, ite_self, foldl_kept, foldDoms_kept, kept_postCompletion]; done)
  | ((try dsimp only) <;> (repeat' split) <;> simp [kept_mk, kept_eta, apply_ite kept, ite_self, foldl_kept, foldDoms_kept, kept_postCompletion])
@[simp] theorem kept_dropUnit (s : State) (x1 : List Cmd) :
    kept (dropUnit s x1) = kept s := by
  unfold dropUnit
  first
  | (simp only [kept_mk, kept_eta, apply_ite kept, ite_self, foldl_kept, foldDoms_kept]; done)
  | ((try dsimp only) <;> (repeat' split) <;> simp only [kept_mk, kept_eta, apply_ite kept, ite_self, foldl_kept, foldDoms_kept]; done)
  | ((try dsimp only) <;> (repeat' split) <;> simp [kept_mk, kept_eta, apply_ite kept, ite_self, foldl_kept, foldDoms_kept])
@[simp] theorem kept_failUnit (s : State) (x1 : List Cmd) (x2 : List Verdict) (x3 : Option Word) :
    kept (failUnit s x1 x2 x3) = kept s := by
  unfold failUnit
  first
  | (simp only [kept_mk, kept_eta, apply_ite kept, ite_self, foldl_kept, foldDoms_kept, kept_finish, kept_dropUnit]; done)
  | ((try dsimp only) <;> (repeat' split) <;> simp only [kept_mk, kept_eta, apply_ite kept, ite_self, foldl_kept, foldDoms_kept, kept_finish, kept_dropUnit]; done)
  | ((try dsimp only) <;> (repeat' split) <;> simp [kept_mk, kept_eta, apply_ite kept, ite_self, foldl_kept, foldDoms_kept, kept_finish, kept_dropUnit])
@[simp] theorem kept_displaceTo (s : State) (x1 : List Cmd) (x2 : Nat) :
    kept (displaceTo s x1 x2) = kept s := by
  unfold displaceTo
  dsimp only
  split
  · rfl
  · exact (foldl1_kept _ _ _ (fun a x => by split <;> simp only [kept_mk, kept_eta, apply_ite kept, ite_self, foldl_kept, foldDoms_kept, kept_editUnit, kept_dropUnit])).trans (by simp only [kept_mk, kept_eta, apply_ite kept, ite_self, foldl_kept, foldDoms_kept, kept_editUnit, kept_dropUnit])
@[simp] theorem kept_makeRoom (x0 : Nat) (x1 : Nat) (x2 : Nat) (s : State) :
    kept (makeRoom x0 x1 x2 s) = kept s := by
  induction x2 generalizing s with
  | zero => rfl
  | succ n ih =>
    unfold makeRoom
    (repeat' split) <;> simp only [kept_mk, kept_eta, apply_ite kept, ite_self, foldl_kept, foldDoms_kept, kept_displaceTo, ih]
@[simp] theorem kept_prepareMembers (s : State) (x1 : List Cmd) :
    kept ((prepareMembers s x1).1) = kept s := by
  induction x1 generalizing s with
  | nil => rfl
  | cons c rest ih =>
    unfold prepareMembers
    (repeat' split) <;> simp only [kept_mk, kept_eta, apply_ite kept, ite_self, foldl_kept, foldDoms_kept, kept_editUnit, ih]
@[simp] theorem kept_runImmediate (s : State) (x1 : Cmd) :
    kept (runImmediate s x1) = kept s := by
  unfold runImmediate
  first
  | (simp only [kept_mk, kept_eta, apply_ite kept, ite_self, foldl_kept, foldDoms_kept, kept_finish, kept_editUnit, kept_dropUnit]; done)
  | ((try dsimp only) <;> (repeat' split) <;> simp only [kept_mk, kept_eta, apply_ite kept, ite_self, foldl_kept, foldDoms_kept, kept_finish, kept_editUnit, kept_dropUnit]; done)
  | ((try dsimp only) <;> (repeat' split) <;> simp [kept_mk, kept_eta, apply_ite kept, ite_self, foldl_kept, foldDoms_kept, kept_finish, kept_editUnit, kept_dropUnit])
@[simp] theorem kept_lateFault (s : State) (x1 : Nat) :
    kept (lateFault s x1) = kept s := by
  unfold lateFault
  first
  | (simp only [kept_mk, kept_eta, apply_ite kept, ite_self, foldl_kept, foldDoms_kept, kept_raise]; done)
  | ((try dsimp only) <;> (repeat' split) <;> simp only [kept_mk, kept_eta, apply_ite kept, ite_self, foldl_kept, foldDoms_kept, kept_raise]; done)
  | ((try dsimp only) <;> (repeat' split) <;> simp [kept_mk, kept_eta, apply_ite kept, ite_self, foldl_kept, foldDoms_kept, kept_raise])
@[simp] theorem kept_turn (s : State) (x1 : Nat) (x2 : List Cmd) :
    kept ((turn s x1 x2).1) = kept s := by
  unfold turn
  first
  | (simp only [kept_mk, kept_eta, apply_ite kept, ite_self, foldl_kept, foldDoms_kept, kept_startTest, kept_acceptUnit, kept_failUnit, kept_makeRoom, kept_prepareMembers, kept_runImmediate, kept_editUnit, kept_lateFault]; done)
  | ((try dsimp only) <;> (repeat' split) <;> simp only [kept_mk, kept_eta, apply_ite kept, ite_self, foldl_kept, foldDoms_kept, kept_startTest, kept_acceptUnit, kept_failUnit, kept_makeRoom, kept_prepareMembers, kept_runImmediate, kept_editUnit, kept_lateFault]; done)
  | ((try dsimp only) <;> (repeat' split) <;> simp [kept_mk, kept_eta, apply_ite kept, ite_self, foldl_kept, foldDoms_kept, kept_startTest, kept_acceptUnit, kept_failUnit, kept_makeRoom, kept_prepareMembers, kept_runImmediate, kept_editUnit, kept_lateFault])
@[simp] theorem kept_tryPorts (s : State) (x1 : List Nat) :
    kept ((tryPorts s x1).1) = kept s := by
  induction x1 generalizing s with
  | nil => rfl
  | cons c rest ih =>
    unfold tryPorts
    dsimp only
    (repeat' split) <;> simp only [kept_mk, kept_eta, apply_ite kept, ite_self, foldl_kept, foldDoms_kept, kept_turn, ih]
@[simp] theorem kept_memberFails (s : State) (x1 : Cmd) (x2 : Nat) (x3 : Nat) :
    kept (memberFails s x1 x2 x3) = kept s := by
  unfold memberFails
  first
  | (simp only [kept_mk, kept_eta, apply_ite kept, ite_self, foldl_kept, foldDoms_kept, kept_failUnit]; done)
  | ((try dsimp only) <;> (repeat' split) <;> simp only [kept_mk, kept_eta, apply_ite kept, ite_self, foldl_kept, foldDoms_kept, kept_failUnit]; done)
  | ((try dsimp only) <;> (repeat' split) <;> simp [kept_mk, kept_eta, apply_ite kept, ite_self, foldl_kept, foldDoms_kept, kept_failUnit])
@[simp] theorem kept_acceptLoop (x0 : Nat) (s : State) :
    kept (acceptLoop x0 s) = kept s := by
  induction x0 generalizing s with
  | zero => rfl
  | succ n ih =>
    unfold acceptLoop
    dsimp only
    (repeat' split) <;> simp only [kept_mk, kept_eta, apply_ite kept, ite_self, foldl_kept, foldDoms_kept, kept_tryPorts, kept_memberFails, ih]
@[simp] theorem kept_acceptAll (s : State) :
    kept (acceptAll s) = kept s := by
  unfold acceptAll
  first
  | (simp only [kept_mk, kept_eta, apply_ite kept, ite_self, foldl_kept, foldDoms_kept, kept_acceptLoop]; done)
  | ((try dsimp only) <;> (repeat' split) <;> simp only [kept_mk, kept_eta, apply_ite kept, ite_self, foldl_kept, foldDoms_kept, kept_acceptLoop]; done)
  | ((try dsimp only) <;> (repeat' split) <;> simp [kept_mk, kept_eta, apply_ite kept, ite_self, foldl_kept, foldDoms_kept, kept_acceptLoop])
@[simp] theorem kept_ackRead (s : State) (x1 : Word) :
    kept (ackRead s x1) = kept s := by
  unfold ackRead
  first
  | (simp only [kept_mk, kept_eta, apply_ite kept, ite_self, foldl_kept, foldDoms_kept]; done)
  | ((try dsimp only) <;> (repeat' split) <;> simp only [kept_mk, kept_eta, apply_ite kept, ite_self, foldl_kept, foldDoms_kept]; done)
  | ((try dsimp only) <;> (repeat' split) <;> simp [kept_mk, kept_eta, apply_ite kept, ite_self, foldl_kept, foldDoms_kept])
@[simp] theorem kept_ackWrite (s : State) :
    kept (ackWrite s) = kept s := by
  unfold ackWrite
  first
  | (simp only [kept_mk, kept_eta, apply_ite kept, ite_self, foldl_kept, foldDoms_kept]; done)
  | ((try dsimp only) <;> (repeat' split) <;> simp only [kept_mk, kept_eta, apply_ite kept, ite_self, foldl_kept, foldDoms_kept]; done)
  | ((try dsimp only) <;> (repeat' split) <;> simp [kept_mk, kept_eta, apply_ite kept, ite_self, foldl_kept, foldDoms_kept])
@[simp] theorem kept_addEnergy (x0 : List EpochMeas) (s : State) :
    kept (addEnergy x0 s) = kept s := by
  unfold addEnergy
  first
  | (simp only [kept_mk, kept_eta, apply_ite kept, ite_self, foldl_kept, foldDoms_kept, kept_setDom]; done)
  | ((try dsimp only) <;> (repeat' split) <;> simp only [kept_mk, kept_eta, apply_ite kept, ite_self, foldl_kept, foldDoms_kept, kept_setDom]; done)
  | ((try dsimp only) <;> (repeat' split) <;> simp [kept_mk, kept_eta, apply_ite kept, ite_self, foldl_kept, foldDoms_kept, kept_setDom])
@[simp] theorem kept_addInputEnergy (x0 : Nat) (s : State) :
    kept (addInputEnergy x0 s) = kept s := by
  unfold addInputEnergy
  first
  | (simp only [kept_mk, kept_eta, apply_ite kept, ite_self, foldl_kept, foldDoms_kept]; done)
  | ((try dsimp only) <;> (repeat' split) <;> simp only [kept_mk, kept_eta, apply_ite kept, ite_self, foldl_kept, foldDoms_kept]; done)
  | ((try dsimp only) <;> (repeat' split) <;> simp [kept_mk, kept_eta, apply_ite kept, ite_self, foldl_kept, foldDoms_kept])
@[simp] theorem kept_applyArm (s : State) (x1 : Nat) (x2 : Latch) (x3 : Desc) :
    kept ((applyArm s x1 x2 x3).1) = kept s := by
  unfold applyArm
  first
  | (simp only [kept_mk, kept_eta, apply_ite kept, ite_self, foldl_kept, foldDoms_kept, kept_setPort]; done)
  | ((try dsimp only) <;> (repeat' split) <;> simp only [kept_mk, kept_eta, apply_ite kept, ite_self, foldl_kept, foldDoms_kept, kept_setPort]; done)
  | ((try dsimp only) <;> (repeat' split) <;> simp [kept_mk, kept_eta, apply_ite kept, ite_self, foldl_kept, foldDoms_kept, kept_setPort])
@[simp] theorem kept_setCfg (s : State) (x1 : Nat) (x2 : DomCfg → DomCfg) :
    kept (setCfg s x1 x2) = kept s := by
  unfold setCfg
  first
  | (simp only [kept_mk, kept_eta, apply_ite kept, ite_self, foldl_kept, foldDoms_kept]; done)
  | ((try dsimp only) <;> (repeat' split) <;> simp only [kept_mk, kept_eta, apply_ite kept, ite_self, foldl_kept, foldDoms_kept]; done)
  | ((try dsimp only) <;> (repeat' split) <;> simp [kept_mk, kept_eta, apply_ite kept, ite_self, foldl_kept, foldDoms_kept])
@[simp] theorem kept_sieveAlter (s : State) (x1 : Nat) :
    kept (sieveAlter s x1) = kept s := by
  unfold sieveAlter
  first
  | (simp only [kept_mk, kept_eta, apply_ite kept, ite_self, foldl_kept, foldDoms_kept]; done)
  | ((try dsimp only) <;> (repeat' split) <;> simp only [kept_mk, kept_eta, apply_ite kept, ite_self, foldl_kept, foldDoms_kept]; done)
  | ((try dsimp only) <;> (repeat' split) <;> simp [kept_mk, kept_eta, apply_ite kept, ite_self, foldl_kept, foldDoms_kept])
@[simp] theorem kept_loadInit (s : State) (x1 : Nat) :
    kept (loadInit s x1) = kept s := by
  unfold loadInit
  first
  | (simp only [kept_mk, kept_eta, apply_ite kept, ite_self, foldl_kept, foldDoms_kept, kept_setDom]; done)
  | ((try dsimp only) <;> (repeat' split) <;> simp only [kept_mk, kept_eta, apply_ite kept, ite_self, foldl_kept, foldDoms_kept, kept_setDom]; done)
  | ((try dsimp only) <;> (repeat' split) <;> simp [kept_mk, kept_eta, apply_ite kept, ite_self, foldl_kept, foldDoms_kept, kept_setDom])
@[simp] theorem kept_applyBind (s : State) (x1 : Desc) (x2 : Nat) :
    kept (applyBind s x1 x2) = kept s := by
  unfold applyBind
  first
  | (simp only [kept_mk, kept_eta, apply_ite kept, ite_self, foldl_kept, foldDoms_kept, kept_setCfg, kept_sieveAlter, kept_loadInit, kept_setMembers]; done)
  | ((try dsimp only) <;> (repeat' split) <;> simp only [kept_mk, kept_eta, apply_ite kept, ite_self, foldl_kept, foldDoms_kept, kept_setCfg, kept_sieveAlter, kept_loadInit, kept_setMembers]; done)
  | ((try dsimp only) <;> (repeat' split) <;> simp [kept_mk, kept_eta, apply_ite kept, ite_self, foldl_kept, foldDoms_kept, kept_setCfg, kept_sieveAlter, kept_loadInit, kept_setMembers])
@[simp] theorem kept_setArb (s : State) (x1 : Nat) (x2 : Arb → Arb) :
    kept (setArb s x1 x2) = kept s := by
  unfold setArb
  first
  | (simp only [kept_mk, kept_eta, apply_ite kept, ite_self, foldl_kept, foldDoms_kept, kept_setDom]; done)
  | ((try dsimp only) <;> (repeat' split) <;> simp only [kept_mk, kept_eta, apply_ite kept, ite_self, foldl_kept, foldDoms_kept, kept_setDom]; done)
  | ((try dsimp only) <;> (repeat' split) <;> simp [kept_mk, kept_eta, apply_ite kept, ite_self, foldl_kept, foldDoms_kept, kept_setDom])
@[simp] theorem kept_ceilingAt (s : State) (x1 : Nat) :
    kept (ceilingAt s x1) = kept s := by
  unfold ceilingAt
  first
  | (simp only [kept_mk, kept_eta, apply_ite kept, ite_self, foldl_kept, foldDoms_kept, kept_setArb]; done)
  | ((try dsimp only) <;> (repeat' split) <;> simp only [kept_mk, kept_eta, apply_ite kept, ite_self, foldl_kept, foldDoms_kept, kept_setArb]; done)
  | ((try dsimp only) <;> (repeat' split) <;> simp [kept_mk, kept_eta, apply_ite kept, ite_self, foldl_kept, foldDoms_kept, kept_setArb])
@[simp] theorem kept_applyBindModel (s : State) (x1 : Desc) (x2 : Nat) :
    kept (applyBindModel s x1 x2) = kept s := by
  unfold applyBindModel
  first
  | (simp only [kept_mk, kept_eta, apply_ite kept, ite_self, foldl_kept, foldDoms_kept, kept_ceilingAt, kept_setCfg, kept_sieveAlter, kept_setDom]; done)
  | ((try dsimp only) <;> (repeat' split) <;> simp only [kept_mk, kept_eta, apply_ite kept, ite_self, foldl_kept, foldDoms_kept, kept_ceilingAt, kept_setCfg, kept_sieveAlter, kept_setDom]; done)
  | ((try dsimp only) <;> (repeat' split) <;> simp [kept_mk, kept_eta, apply_ite kept, ite_self, foldl_kept, foldDoms_kept, kept_ceilingAt, kept_setCfg, kept_sieveAlter, kept_setDom])
@[simp] theorem kept_setArbChip (s : State) (x1 : ArbChip → ArbChip) :
    kept (setArbChip s x1) = kept s := by
  unfold setArbChip
  first
  | (simp only [kept_mk, kept_eta, apply_ite kept, ite_self, foldl_kept, foldDoms_kept]; done)
  | ((try dsimp only) <;> (repeat' split) <;> simp only [kept_mk, kept_eta, apply_ite kept, ite_self, foldl_kept, foldDoms_kept]; done)
  | ((try dsimp only) <;> (repeat' split) <;> simp [kept_mk, kept_eta, apply_ite kept, ite_self, foldl_kept, foldDoms_kept])
@[simp] theorem kept_applyCap (s : State) (x1 : Desc) :
    kept (applyCap s x1) = kept s := by
  unfold applyCap
  first
  | (simp only [kept_mk, kept_eta, apply_ite kept, ite_self, foldl_kept, foldDoms_kept, kept_setArbChip]; done)
  | ((try dsimp only) <;> (repeat' split) <;> simp only [kept_mk, kept_eta, apply_ite kept, ite_self, foldl_kept, foldDoms_kept, kept_setArbChip]; done)
  | ((try dsimp only) <;> (repeat' split) <;> simp [kept_mk, kept_eta, apply_ite kept, ite_self, foldl_kept, foldDoms_kept, kept_setArbChip])
@[simp] theorem kept_commitMap (s : State) (x1 : Nat) :
    kept (commitMap s x1) = kept s := by
  unfold commitMap
  exact foldl_kept _ _ _ (fun s x => by simp only [kept_mk, kept_eta, apply_ite kept, ite_self, foldl_kept, foldDoms_kept, kept_setDom])
@[simp] theorem kept_applyCellmap (s : State) (x1 : Desc) (x2 : Nat) :
    kept ((applyCellmap s x1 x2).1) = kept s := by
  unfold applyCellmap
  first
  | (simp only [kept_mk, kept_eta, apply_ite kept, ite_self, foldl_kept, foldDoms_kept, kept_commitMap, kept_setCellAt, kept_setDom]; done)
  | ((try dsimp only) <;> (repeat' split) <;> simp only [kept_mk, kept_eta, apply_ite kept, ite_self, foldl_kept, foldDoms_kept, kept_commitMap, kept_setCellAt, kept_setDom]; done)
  | ((try dsimp only) <;> (repeat' split) <;> simp [kept_mk, kept_eta, apply_ite kept, ite_self, foldl_kept, foldDoms_kept, kept_commitMap, kept_setCellAt, kept_setDom])
@[simp] theorem kept_applyRcConfig (s : State) (x1 : Desc) (x2 : Nat) :
    kept (applyRcConfig s x1 x2) = kept s := by
  unfold applyRcConfig
  first
  | (simp only [kept_mk, kept_eta, apply_ite kept, ite_self, foldl_kept, foldDoms_kept, kept_setCfg, kept_setDom]; done)
  | ((try dsimp only) <;> (repeat' split) <;> simp only [kept_mk, kept_eta, apply_ite kept, ite_self, foldl_kept, foldDoms_kept, kept_setCfg, kept_setDom]; done)
  | ((try dsimp only) <;> (repeat' split) <;> simp [kept_mk, kept_eta, apply_ite kept, ite_self, foldl_kept, foldDoms_kept, kept_setCfg, kept_setDom])
@[simp] theorem kept_setBudget (s : State) (x1 : Desc) (x2 : Nat) :
    kept (setBudget s x1 x2) = kept s := by
  unfold setBudget
  first
  | (simp only [kept_mk, kept_eta, apply_ite kept, ite_self, foldl_kept, foldDoms_kept, kept_setCfg]; done)
  | ((try dsimp only) <;> (repeat' split) <;> simp only [kept_mk, kept_eta, apply_ite kept, ite_self, foldl_kept, foldDoms_kept, kept_setCfg]; done)
  | ((try dsimp only) <;> (repeat' split) <;> simp [kept_mk, kept_eta, apply_ite kept, ite_self, foldl_kept, foldDoms_kept, kept_setCfg])
@[simp] theorem kept_queueRecord (s : State) (x1 : Fin 4) (x2 : Nat) (x3 : Nat) (x4 : List Byte) :
    kept ((queueRecord s x1 x2 x3 x4).1) = kept s := by
  unfold queueRecord
  first
  | (simp only [kept_mk, kept_eta, apply_ite kept, ite_self, foldl_kept, foldDoms_kept]; done)
  | ((try dsimp only) <;> (repeat' split) <;> simp only [kept_mk, kept_eta, apply_ite kept, ite_self, foldl_kept, foldDoms_kept]; done)
  | ((try dsimp only) <;> (repeat' split) <;> simp [kept_mk, kept_eta, apply_ite kept, ite_self, foldl_kept, foldDoms_kept])
@[simp] theorem kept_applyMarkLog (s : State) (x1 : Nat) (x2 : Desc) :
    kept ((applyMarkLog s x1 x2).1) = kept s := by
  unfold applyMarkLog
  first
  | (simp only [kept_mk, kept_eta, apply_ite kept, ite_self, foldl_kept, foldDoms_kept, kept_queueRecord]; done)
  | ((try dsimp only) <;> (repeat' split) <;> simp only [kept_mk, kept_eta, apply_ite kept, ite_self, foldl_kept, foldDoms_kept, kept_queueRecord]; done)
  | ((try dsimp only) <;> (repeat' split) <;> simp [kept_mk, kept_eta, apply_ite kept, ite_self, foldl_kept, foldDoms_kept, kept_queueRecord])
@[simp] theorem kept_parkAbort (s : State) (x1 : Nat) :
    kept (parkAbort s x1) = kept s := by
  unfold parkAbort
  first
  | (simp only [kept_mk, kept_eta, apply_ite kept, ite_self, foldl_kept, foldDoms_kept, kept_setMembers]; done)
  | ((try dsimp only) <;> (repeat' split) <;> simp only [kept_mk, kept_eta, apply_ite kept, ite_self, foldl_kept, foldDoms_kept, kept_setMembers]; done)
  | ((try dsimp only) <;> (repeat' split) <;> simp [kept_mk, kept_eta, apply_ite kept, ite_self, foldl_kept, foldDoms_kept, kept_setMembers])
@[simp] theorem kept_setTiles (s : State) (x1 : Nat) (x2 : Tile → Tile) :
    kept (setTiles s x1 x2) = kept s := by
  unfold setTiles
  first
  | (simp only [kept_mk, kept_eta, apply_ite kept, ite_self, foldl_kept, foldDoms_kept, kept_setMembers]; done)
  | ((try dsimp only) <;> (repeat' split) <;> simp only [kept_mk, kept_eta, apply_ite kept, ite_self, foldl_kept, foldDoms_kept, kept_setMembers]; done)
  | ((try dsimp only) <;> (repeat' split) <;> simp [kept_mk, kept_eta, apply_ite kept, ite_self, foldl_kept, foldDoms_kept, kept_setMembers])
@[simp] theorem kept_pairFreq (s : State) (x1 : Nat) (x2 : Bool) :
    kept (pairFreq s x1 x2) = kept s := by
  unfold pairFreq
  first
  | (simp only [kept_mk, kept_eta, apply_ite kept, ite_self, foldl_kept, foldDoms_kept, kept_setTiles]; done)
  | ((try dsimp only) <;> (repeat' split) <;> simp only [kept_mk, kept_eta, apply_ite kept, ite_self, foldl_kept, foldDoms_kept, kept_setTiles]; done)
  | ((try dsimp only) <;> (repeat' split) <;> simp [kept_mk, kept_eta, apply_ite kept, ite_self, foldl_kept, foldDoms_kept, kept_setTiles])
@[simp] theorem kept_driveThr (s : State) (x1 : Nat) :
    kept (driveThr s x1) = kept s := by
  unfold driveThr
  first
  | (simp only [kept_mk, kept_eta, apply_ite kept, ite_self, foldl_kept, foldDoms_kept, kept_setMembers]; done)
  | ((try dsimp only) <;> (repeat' split) <;> simp only [kept_mk, kept_eta, apply_ite kept, ite_self, foldl_kept, foldDoms_kept, kept_setMembers]; done)
  | ((try dsimp only) <;> (repeat' split) <;> simp [kept_mk, kept_eta, apply_ite kept, ite_self, foldl_kept, foldDoms_kept, kept_setMembers])
@[simp] theorem kept_setStops (s : State) (x1 : Nat) (x2 : Droop → Droop) :
    kept (setStops s x1 x2) = kept s := by
  unfold setStops
  first
  | (simp only [kept_mk, kept_eta, apply_ite kept, ite_self, foldl_kept, foldDoms_kept, kept_setMembers, kept_driveThr]; done)
  | ((try dsimp only) <;> (repeat' split) <;> simp only [kept_mk, kept_eta, apply_ite kept, ite_self, foldl_kept, foldDoms_kept, kept_setMembers, kept_driveThr]; done)
  | ((try dsimp only) <;> (repeat' split) <;> simp [kept_mk, kept_eta, apply_ite kept, ite_self, foldl_kept, foldDoms_kept, kept_setMembers, kept_driveThr])
@[simp] theorem kept_setLevel (s : State) (x1 : Nat) (x2 : Nat) :
    kept (setLevel s x1 x2) = kept s := by
  unfold setLevel
  first
  | (simp only [kept_mk, kept_eta, apply_ite kept, ite_self, foldl_kept, foldDoms_kept, kept_setDom]; done)
  | ((try dsimp only) <;> (repeat' split) <;> simp only [kept_mk, kept_eta, apply_ite kept, ite_self, foldl_kept, foldDoms_kept, kept_setDom]; done)
  | ((try dsimp only) <;> (repeat' split) <;> simp [kept_mk, kept_eta, apply_ite kept, ite_self, foldl_kept, foldDoms_kept, kept_setDom])
@[simp] theorem kept_cancelFor (s : State) (x1 : Loan → Bool) :
    kept (cancelFor s x1) = kept s := by
  unfold cancelFor
  first
  | (simp only [kept_mk, kept_eta, apply_ite kept, ite_self, foldl_kept, foldDoms_kept, kept_setLevel, kept_setArbChip, kept_setArb]; done)
  | ((try dsimp only) <;> (repeat' split) <;> simp only [kept_mk, kept_eta, apply_ite kept, ite_self, foldl_kept, foldDoms_kept, kept_setLevel, kept_setArbChip, kept_setArb]; done)
  | ((try dsimp only) <;> (repeat' split) <;> simp [kept_mk, kept_eta, apply_ite kept, ite_self, foldl_kept, foldDoms_kept, kept_setLevel, kept_setArbChip, kept_setArb])
@[simp] theorem kept_applyPair (s : State) (x1 : Nat) :
    kept ((applyPair s x1).1) = kept s := by
  unfold applyPair
  first
  | (simp only [kept_mk, kept_eta, apply_ite kept, ite_self, foldl_kept, foldDoms_kept, kept_parkAbort, kept_pairFreq, kept_unparkAll, kept_setStops, kept_sieveAlter, kept_setMembers, kept_cancelFor, kept_setDom]; done)
  | ((try dsimp only) <;> (repeat' split) <;> simp only [kept_mk, kept_eta, apply_ite kept, ite_self, foldl_kept, foldDoms_kept, kept_parkAbort, kept_pairFreq, kept_unparkAll, kept_setStops, kept_sieveAlter, kept_setMembers, kept_cancelFor, kept_setDom]; done)
  | ((try dsimp only) <;> (repeat' split) <;> simp [kept_mk, kept_eta, apply_ite kept, ite_self, foldl_kept, foldDoms_kept, kept_parkAbort, kept_pairFreq, kept_unparkAll, kept_setStops, kept_sieveAlter, kept_setMembers, kept_cancelFor, kept_setDom])
@[simp] theorem kept_setRc (s : State) (x1 : Nat) (x2 : RcSt → RcSt) :
    kept (setRc s x1 x2) = kept s := by
  unfold setRc
  first
  | (simp only [kept_mk, kept_eta, apply_ite kept, ite_self, foldl_kept, foldDoms_kept, kept_setDom]; done)
  | ((try dsimp only) <;> (repeat' split) <;> simp only [kept_mk, kept_eta, apply_ite kept, ite_self, foldl_kept, foldDoms_kept, kept_setDom]; done)
  | ((try dsimp only) <;> (repeat' split) <;> simp [kept_mk, kept_eta, apply_ite kept, ite_self, foldl_kept, foldDoms_kept, kept_setDom])
@[simp] theorem kept_pendMark (s : State) (x1 : Nat) :
    kept (pendMark s x1) = kept s := by
  unfold pendMark
  first
  | (simp only [kept_mk, kept_eta, apply_ite kept, ite_self, foldl_kept, foldDoms_kept, kept_setRc, kept_setDom]; done)
  | ((try dsimp only) <;> (repeat' split) <;> simp only [kept_mk, kept_eta, apply_ite kept, ite_self, foldl_kept, foldDoms_kept, kept_setRc, kept_setDom]; done)
  | ((try dsimp only) <;> (repeat' split) <;> simp [kept_mk, kept_eta, apply_ite kept, ite_self, foldl_kept, foldDoms_kept, kept_setRc, kept_setDom])
@[simp] theorem kept_applyMark (s : State) (x1 : List Nat) :
    kept ((applyMark s x1).1) = kept s := by
  unfold applyMark
  exact foldl1_kept _ _ _ (fun a x => by dsimp only; split <;> simp only [kept_mk, kept_eta, apply_ite kept, ite_self, foldl_kept, foldDoms_kept, kept_pendMark])
@[simp] theorem kept_supStart (s : State) (x1 : Nat) :
    kept (supStart s x1) = kept s := by
  unfold supStart
  first
  | (simp only [kept_mk, kept_eta, apply_ite kept, ite_self, foldl_kept, foldDoms_kept, kept_setDom]; done)
  | ((try dsimp only) <;> (repeat' split) <;> simp only [kept_mk, kept_eta, apply_ite kept, ite_self, foldl_kept, foldDoms_kept, kept_setDom]; done)
  | ((try dsimp only) <;> (repeat' split) <;> simp [kept_mk, kept_eta, apply_ite kept, ite_self, foldl_kept, foldDoms_kept, kept_setDom])
@[simp] theorem kept_supAgain (s : State) (x1 : Nat) :
    kept (supAgain s x1) = kept s := by
  unfold supAgain
  first
  | (simp only [kept_mk, kept_eta, apply_ite kept, ite_self, foldl_kept, foldDoms_kept, kept_supStart]; done)
  | ((try dsimp only) <;> (repeat' split) <;> simp only [kept_mk, kept_eta, apply_ite kept, ite_self, foldl_kept, foldDoms_kept, kept_supStart]; done)
  | ((try dsimp only) <;> (repeat' split) <;> simp [kept_mk, kept_eta, apply_ite kept, ite_self, foldl_kept, foldDoms_kept, kept_supStart])
@[simp] theorem kept_applyUnpair (s : State) (x1 : Nat) :
    kept ((applyUnpair s x1).1) = kept s := by
  unfold applyUnpair
  first
  | (simp only [kept_mk, kept_eta, apply_ite kept, ite_self, foldl_kept, foldDoms_kept, kept_parkAbort, kept_unparkAll, kept_setDoms, kept_setCfg, kept_sieveAlter, kept_supAgain, kept_supStart, kept_driveThr, kept_cancelFor, kept_setDom]; done)
  | ((try dsimp only) <;> (repeat' split) <;> simp only [kept_mk, kept_eta, apply_ite kept, ite_self, foldl_kept, foldDoms_kept, kept_parkAbort, kept_unparkAll, kept_setDoms, kept_setCfg, kept_sieveAlter, kept_supAgain, kept_supStart, kept_driveThr, kept_cancelFor, kept_setDom]; done)
  | ((try dsimp only) <;> (repeat' split) <;> simp [kept_mk, kept_eta, apply_ite kept, ite_self, foldl_kept, foldDoms_kept, kept_parkAbort, kept_unparkAll, kept_setDoms, kept_setCfg, kept_sieveAlter, kept_supAgain, kept_supStart, kept_driveThr, kept_cancelFor, kept_setDom])
@[simp] theorem kept_cancelRetry (s : State) (x1 : Nat) :
    kept (cancelRetry s x1) = kept s := by
  unfold cancelRetry
  first
  | (simp only [kept_mk, kept_eta, apply_ite kept, ite_self, foldl_kept, foldDoms_kept, kept_setMembers]; done)
  | ((try dsimp only) <;> (repeat' split) <;> simp only [kept_mk, kept_eta, apply_ite kept, ite_self, foldl_kept, foldDoms_kept, kept_setMembers]; done)
  | ((try dsimp only) <;> (repeat' split) <;> simp [kept_mk, kept_eta, apply_ite kept, ite_self, foldl_kept, foldDoms_kept, kept_setMembers])
@[simp] theorem kept_holdClock (s : State) (x1 : Nat) (x2 : Bool) :
    kept (holdClock s x1 x2) = kept s := by
  unfold holdClock
  first
  | (simp only [kept_mk, kept_eta, apply_ite kept, ite_self, foldl_kept, foldDoms_kept, kept_setStops]; done)
  | ((try dsimp only) <;> (repeat' split) <;> simp only [kept_mk, kept_eta, apply_ite kept, ite_self, foldl_kept, foldDoms_kept, kept_setStops]; done)
  | ((try dsimp only) <;> (repeat' split) <;> simp [kept_mk, kept_eta, apply_ite kept, ite_self, foldl_kept, foldDoms_kept, kept_setStops])
@[simp] theorem kept_discharge (s : State) (x1 : Nat) :
    kept (discharge s x1) = kept s := by
  unfold discharge
  first
  | (simp only [kept_mk, kept_eta, apply_ite kept, ite_self, foldl_kept, foldDoms_kept, kept_setMembers, kept_holdClock]; done)
  | ((try dsimp only) <;> (repeat' split) <;> simp only [kept_mk, kept_eta, apply_ite kept, ite_self, foldl_kept, foldDoms_kept, kept_setMembers, kept_holdClock]; done)
  | ((try dsimp only) <;> (repeat' split) <;> simp [kept_mk, kept_eta, apply_ite kept, ite_self, foldl_kept, foldDoms_kept, kept_setMembers, kept_holdClock])
@[simp] theorem kept_hostDark (s : State) (x1 : Nat) :
    kept (hostDark s x1) = kept s := by
  unfold hostDark
  first
  | (simp only [kept_mk, kept_eta, apply_ite kept, ite_self, foldl_kept, foldDoms_kept, kept_setMembers, kept_abandonBist, kept_cancelRetry, kept_discharge]; done)
  | ((try dsimp only) <;> (repeat' split) <;> simp only [kept_mk, kept_eta, apply_ite kept, ite_self, foldl_kept, foldDoms_kept, kept_setMembers, kept_abandonBist, kept_cancelRetry, kept_discharge]; done)
  | ((try dsimp only) <;> (repeat' split) <;> simp [kept_mk, kept_eta, apply_ite kept, ite_self, foldl_kept, foldDoms_kept, kept_setMembers, kept_abandonBist, kept_cancelRetry, kept_discharge])
@[simp] theorem kept_startSoft (s : State) (x1 : Nat) (x2 : DState) (x3 : Nat) :
    kept (startSoft s x1 x2 x3) = kept s := by
  unfold startSoft
  first
  | (simp only [kept_mk, kept_eta, apply_ite kept, ite_self, foldl_kept, foldDoms_kept, kept_setMembers]; done)
  | ((try dsimp only) <;> (repeat' split) <;> simp only [kept_mk, kept_eta, apply_ite kept, ite_self, foldl_kept, foldDoms_kept, kept_setMembers]; done)
  | ((try dsimp only) <;> (repeat' split) <;> simp [kept_mk, kept_eta, apply_ite kept, ite_self, foldl_kept, foldDoms_kept, kept_setMembers])
@[simp] theorem kept_cutGrants (x0 : Nat) (s : State) :
    kept (cutGrants x0 s) = kept s := by
  unfold cutGrants
  exact foldl1_kept _ _ _ (fun a x => by simp only [kept_mk, kept_eta, apply_ite kept, ite_self, foldl_kept, foldDoms_kept, kept_setArb])
@[simp] theorem kept_cancelLoans (x0 : Nat) (x1 : Nat) (s : State) :
    kept ((cancelLoans x0 x1 s).1) = kept s := by
  induction x0 generalizing x1 s with
  | zero => rfl
  | succ n ih =>
    unfold cancelLoans
    dsimp only
    (repeat' split) <;> simp only [kept_mk, kept_eta, apply_ite kept, ite_self, foldl_kept, foldDoms_kept, kept_setArbChip, kept_setArb, ih]
@[simp] theorem kept_reserveInrush (s : State) (x1 : Nat) :
    kept (reserveInrush s x1) = kept s := by
  unfold reserveInrush
  first
  | (simp only [kept_mk, kept_eta, apply_ite kept, ite_self, foldl_kept, foldDoms_kept, kept_cutGrants, kept_setLevel, kept_cancelLoans, kept_setArbChip, kept_setArb]; done)
  | ((try dsimp only) <;> (repeat' split) <;> simp only [kept_mk, kept_eta, apply_ite kept, ite_self, foldl_kept, foldDoms_kept, kept_cutGrants, kept_setLevel, kept_cancelLoans, kept_setArbChip, kept_setArb]; done)
  | ((try dsimp only) <;> (repeat' split) <;> simp [kept_mk, kept_eta, apply_ite kept, ite_self, foldl_kept, foldDoms_kept, kept_cutGrants, kept_setLevel, kept_cancelLoans, kept_setArbChip, kept_setArb])
@[simp] theorem kept_loadWindow (s : State) (x1 : Nat) :
    kept (loadWindow s x1) = kept s := by
  unfold loadWindow
  first
  | (simp only [kept_mk, kept_eta, apply_ite kept, ite_self, foldl_kept, foldDoms_kept, kept_setMembers]; done)
  | ((try dsimp only) <;> (repeat' split) <;> simp only [kept_mk, kept_eta, apply_ite kept, ite_self, foldl_kept, foldDoms_kept, kept_setMembers]; done)
  | ((try dsimp only) <;> (repeat' split) <;> simp [kept_mk, kept_eta, apply_ite kept, ite_self, foldl_kept, foldDoms_kept, kept_setMembers])
@[simp] theorem kept_setClk (s : State) (x1 : Clocks → Clocks) :
    kept (setClk s x1) = kept s := by
  unfold setClk
  first
  | (simp only [kept_mk, kept_eta, apply_ite kept, ite_self, foldl_kept, foldDoms_kept]; done)
  | ((try dsimp only) <;> (repeat' split) <;> simp only [kept_mk, kept_eta, apply_ite kept, ite_self, foldl_kept, foldDoms_kept]; done)
  | ((try dsimp only) <;> (repeat' split) <;> simp [kept_mk, kept_eta, apply_ite kept, ite_self, foldl_kept, foldDoms_kept])
@[simp] theorem kept_firstLight (s : State) :
    kept (firstLight s) = kept s := by
  unfold firstLight
  first
  | (simp only [kept_mk, kept_eta, apply_ite kept, ite_self, foldl_kept, foldDoms_kept, kept_setTherm, kept_setClk]; done)
  | ((try dsimp only) <;> (repeat' split) <;> simp only [kept_mk, kept_eta, apply_ite kept, ite_self, foldl_kept, foldDoms_kept, kept_setTherm, kept_setClk]; done)
  | ((try dsimp only) <;> (repeat' split) <;> simp [kept_mk, kept_eta, apply_ite kept, ite_self, foldl_kept, foldDoms_kept, kept_setTherm, kept_setClk])
@[simp] theorem kept_startFromDark (s : State) (x1 : Nat) (x2 : DState) (x3 : Nat) :
    kept (startFromDark s x1 x2 x3) = kept s := by
  unfold startFromDark
  first
  | (simp only [kept_mk, kept_eta, apply_ite kept, ite_self, foldl_kept, foldDoms_kept, kept_reserveInrush, kept_startSoft, kept_setMembers, kept_loadWindow, kept_firstLight]; done)
  | ((try dsimp only) <;> (repeat' split) <;> simp only [kept_mk, kept_eta, apply_ite kept, ite_self, foldl_kept, foldDoms_kept, kept_reserveInrush, kept_startSoft, kept_setMembers, kept_loadWindow, kept_firstLight]; done)
  | ((try dsimp only) <;> (repeat' split) <;> simp [kept_mk, kept_eta, apply_ite kept, ite_self, foldl_kept, foldDoms_kept, kept_reserveInrush, kept_startSoft, kept_setMembers, kept_loadWindow, kept_firstLight])
@[simp] theorem kept_editChange (s : State) (x1 : Nat) (x2 : FreqChange → FreqChange) :
    kept (editChange s x1 x2) = kept s := by
  unfold editChange
  first
  | (simp only [kept_mk, kept_eta, apply_ite kept, ite_self, foldl_kept, foldDoms_kept, kept_setTiles]; done)
  | ((try dsimp only) <;> (repeat' split) <;> simp only [kept_mk, kept_eta, apply_ite kept, ite_self, foldl_kept, foldDoms_kept, kept_setTiles]; done)
  | ((try dsimp only) <;> (repeat' split) <;> simp [kept_mk, kept_eta, apply_ite kept, ite_self, foldl_kept, foldDoms_kept, kept_setTiles])
@[simp] theorem kept_freqUnheld (s : State) (x1 : Nat) :
    kept (freqUnheld s x1) = kept s := by
  unfold freqUnheld
  first
  | (simp only [kept_mk, kept_eta, apply_ite kept, ite_self, foldl_kept, foldDoms_kept, kept_editChange]; done)
  | ((try dsimp only) <;> (repeat' split) <;> simp only [kept_mk, kept_eta, apply_ite kept, ite_self, foldl_kept, foldDoms_kept, kept_editChange]; done)
  | ((try dsimp only) <;> (repeat' split) <;> simp [kept_mk, kept_eta, apply_ite kept, ite_self, foldl_kept, foldDoms_kept, kept_editChange])
@[simp] theorem kept_leaveHeld (s : State) (x1 : Nat) :
    kept (leaveHeld s x1) = kept s := by
  unfold leaveHeld
  first
  | (simp only [kept_mk, kept_eta, apply_ite kept, ite_self, foldl_kept, foldDoms_kept, kept_freqUnheld, kept_supStart, kept_setMembers, kept_loadWindow]; done)
  | ((try dsimp only) <;> (repeat' split) <;> simp only [kept_mk, kept_eta, apply_ite kept, ite_self, foldl_kept, foldDoms_kept, kept_freqUnheld, kept_supStart, kept_setMembers, kept_loadWindow]; done)
  | ((try dsimp only) <;> (repeat' split) <;> simp [kept_mk, kept_eta, apply_ite kept, ite_self, foldl_kept, foldDoms_kept, kept_freqUnheld, kept_supStart, kept_setMembers, kept_loadWindow])
@[simp] theorem kept_startDescent (s : State) (x1 : Nat) :
    kept (startDescent s x1) = kept s := by
  unfold startDescent
  first
  | (simp only [kept_mk, kept_eta, apply_ite kept, ite_self, foldl_kept, foldDoms_kept, kept_setMembers, kept_holdClock]; done)
  | ((try dsimp only) <;> (repeat' split) <;> simp only [kept_mk, kept_eta, apply_ite kept, ite_self, foldl_kept, foldDoms_kept, kept_setMembers, kept_holdClock]; done)
  | ((try dsimp only) <;> (repeat' split) <;> simp [kept_mk, kept_eta, apply_ite kept, ite_self, foldl_kept, foldDoms_kept, kept_setMembers, kept_holdClock])
@[simp] theorem kept_startLift (s : State) (x1 : Nat) :
    kept (startLift s x1) = kept s := by
  unfold startLift
  first
  | (simp only [kept_mk, kept_eta, apply_ite kept, ite_self, foldl_kept, foldDoms_kept, kept_setMembers, kept_loadWindow]; done)
  | ((try dsimp only) <;> (repeat' split) <;> simp only [kept_mk, kept_eta, apply_ite kept, ite_self, foldl_kept, foldDoms_kept, kept_setMembers, kept_loadWindow]; done)
  | ((try dsimp only) <;> (repeat' split) <;> simp [kept_mk, kept_eta, apply_ite kept, ite_self, foldl_kept, foldDoms_kept, kept_setMembers, kept_loadWindow])
@[simp] theorem kept_hostLight (s : State) (x1 : Nat) (x2 : DState) :
    kept (hostLight s x1 x2) = kept s := by
  unfold hostLight
  first
  | (simp only [kept_mk, kept_eta, apply_ite kept, ite_self, foldl_kept, foldDoms_kept, kept_startSoft, kept_startFromDark, kept_leaveHeld, kept_setMembers, kept_startDescent, kept_cancelRetry, kept_loadWindow, kept_startLift]; done)
  | ((try dsimp only) <;> (repeat' split) <;> simp only [kept_mk, kept_eta, apply_ite kept, ite_self, foldl_kept, foldDoms_kept, kept_startSoft, kept_startFromDark, kept_leaveHeld, kept_setMembers, kept_startDescent, kept_cancelRetry, kept_loadWindow, kept_startLift]; done)
  | ((try dsimp only) <;> (repeat' split) <;> simp [kept_mk, kept_eta, apply_ite kept, ite_self, foldl_kept, foldDoms_kept, kept_startSoft, kept_startFromDark, kept_leaveHeld, kept_setMembers, kept_startDescent, kept_cancelRetry, kept_loadWindow, kept_startLift])
@[simp] theorem kept_applyState (s : State) (x1 : Desc) (x2 : Nat) :
    kept ((applyState s x1 x2).1) = kept s := by
  unfold applyState
  first
  | (simp only [kept_mk, kept_eta, apply_ite kept, ite_self, foldl_kept, foldDoms_kept, kept_parkAbort, kept_hostDark, kept_hostLight, kept_sieveAlter, kept_setMembers]; done)
  | ((try dsimp only) <;> (repeat' split) <;> simp only [kept_mk, kept_eta, apply_ite kept, ite_self, foldl_kept, foldDoms_kept, kept_parkAbort, kept_hostDark, kept_hostLight, kept_sieveAlter, kept_setMembers]; done)
  | ((try dsimp only) <;> (repeat' split) <;> simp [kept_mk, kept_eta, apply_ite kept, ite_self, foldl_kept, foldDoms_kept, kept_parkAbort, kept_hostDark, kept_hostLight, kept_sieveAlter, kept_setMembers])
@[simp] theorem kept_applyLend (s : State) (x1 : Desc) (x2 : Nat) :
    kept (applyLend s x1 x2) = kept s := by
  unfold applyLend
  first
  | (simp only [kept_mk, kept_eta, apply_ite kept, ite_self, foldl_kept, foldDoms_kept, kept_setCfg]; done)
  | ((try dsimp only) <;> (repeat' split) <;> simp only [kept_mk, kept_eta, apply_ite kept, ite_self, foldl_kept, foldDoms_kept, kept_setCfg]; done)
  | ((try dsimp only) <;> (repeat' split) <;> simp [kept_mk, kept_eta, apply_ite kept, ite_self, foldl_kept, foldDoms_kept, kept_setCfg])
@[simp] theorem kept_driveReq (s : State) (x1 : Nat) (x2 : Nat) :
    kept (driveReq s x1 x2) = kept s := by
  unfold driveReq
  first
  | (simp only [kept_mk, kept_eta, apply_ite kept, ite_self, foldl_kept, foldDoms_kept, kept_setTiles]; done)
  | ((try dsimp only) <;> (repeat' split) <;> simp only [kept_mk, kept_eta, apply_ite kept, ite_self, foldl_kept, foldDoms_kept, kept_setTiles]; done)
  | ((try dsimp only) <;> (repeat' split) <;> simp [kept_mk, kept_eta, apply_ite kept, ite_self, foldl_kept, foldDoms_kept, kept_setTiles])
@[simp] theorem kept_dropChange (s : State) (x1 : Nat) :
    kept (dropChange s x1) = kept s := by
  unfold dropChange
  first
  | (simp only [kept_mk, kept_eta, apply_ite kept, ite_self, foldl_kept, foldDoms_kept, kept_setTiles, kept_driveReq]; done)
  | ((try dsimp only) <;> (repeat' split) <;> simp only [kept_mk, kept_eta, apply_ite kept, ite_self, foldl_kept, foldDoms_kept, kept_setTiles, kept_driveReq]; done)
  | ((try dsimp only) <;> (repeat' split) <;> simp [kept_mk, kept_eta, apply_ite kept, ite_self, foldl_kept, foldDoms_kept, kept_setTiles, kept_driveReq])
@[simp] theorem kept_planChange (s : State) (x1 : Nat) (x2 : Nat) (x3 : Nat) (x4 : Bool) (x5 : Nat) :
    kept (planChange s x1 x2 x3 x4 x5) = kept s := by
  unfold planChange
  first
  | (simp only [kept_mk, kept_eta, apply_ite kept, ite_self, foldl_kept, foldDoms_kept, kept_setTiles, kept_dropChange]; done)
  | ((try dsimp only) <;> (repeat' split) <;> simp only [kept_mk, kept_eta, apply_ite kept, ite_self, foldl_kept, foldDoms_kept, kept_setTiles, kept_dropChange]; done)
  | ((try dsimp only) <;> (repeat' split) <;> simp [kept_mk, kept_eta, apply_ite kept, ite_self, foldl_kept, foldDoms_kept, kept_setTiles, kept_dropChange])
@[simp] theorem kept_commitFreq (s : State) (x1 : Nat) (x2 : Nat) (x3 : Nat) (x4 : Bool) :
    kept (commitFreq s x1 x2 x3 x4) = kept s := by
  unfold commitFreq
  first
  | (simp only [kept_mk, kept_eta, apply_ite kept, ite_self, foldl_kept, foldDoms_kept, kept_setCfg, kept_planChange]; done)
  | ((try dsimp only) <;> (repeat' split) <;> simp only [kept_mk, kept_eta, apply_ite kept, ite_self, foldl_kept, foldDoms_kept, kept_setCfg, kept_planChange]; done)
  | ((try dsimp only) <;> (repeat' split) <;> simp [kept_mk, kept_eta, apply_ite kept, ite_self, foldl_kept, foldDoms_kept, kept_setCfg, kept_planChange])
@[simp] theorem kept_applyJob (s : State) (x1 : Desc) (x2 : Nat) :
    kept (applyJob s x1 x2) = kept s := by
  unfold applyJob
  first
  | (simp only [kept_mk, kept_eta, apply_ite kept, ite_self, foldl_kept, foldDoms_kept, kept_setCfg, kept_commitFreq]; done)
  | ((try dsimp only) <;> (repeat' split) <;> simp only [kept_mk, kept_eta, apply_ite kept, ite_self, foldl_kept, foldDoms_kept, kept_setCfg, kept_commitFreq]; done)
  | ((try dsimp only) <;> (repeat' split) <;> simp [kept_mk, kept_eta, apply_ite kept, ite_self, foldl_kept, foldDoms_kept, kept_setCfg, kept_commitFreq])
@[simp] theorem kept_cancelLost (s : State) (x1 : Nat) (x2 : Latch) (x3 : Nat) :
    kept (cancelLost s x1 x2 x3) = kept s := by
  unfold cancelLost
  exact foldl_kept _ _ _ (fun s x => by split <;> (try split) <;> simp only [kept_mk, kept_eta, apply_ite kept, ite_self, foldl_kept, foldDoms_kept, kept_postEvent, kept_setPort])
@[simp] theorem kept_applyRights (s : State) (x1 : Nat) (x2 : Latch) (x3 : Desc) :
    kept (applyRights s x1 x2 x3) = kept s := by
  unfold applyRights
  first
  | (simp only [kept_mk, kept_eta, apply_ite kept, ite_self, foldl_kept, foldDoms_kept, kept_cancelLost, kept_setPort]; done)
  | ((try dsimp only) <;> (repeat' split) <;> simp only [kept_mk, kept_eta, apply_ite kept, ite_self, foldl_kept, foldDoms_kept, kept_cancelLost, kept_setPort]; done)
  | ((try dsimp only) <;> (repeat' split) <;> simp [kept_mk, kept_eta, apply_ite kept, ite_self, foldl_kept, foldDoms_kept, kept_cancelLost, kept_setPort])
@[simp] theorem kept_sievePost (s : State) (x1 : Sieve) (x2 : Nat) :
    kept (sievePost s x1 x2) = kept s := by
  unfold sievePost
  first
  | (simp only [kept_mk, kept_eta, apply_ite kept, ite_self, foldl_kept, foldDoms_kept, kept_postTest]; done)
  | ((try dsimp only) <;> (repeat' split) <;> simp only [kept_mk, kept_eta, apply_ite kept, ite_self, foldl_kept, foldDoms_kept, kept_postTest]; done)
  | ((try dsimp only) <;> (repeat' split) <;> simp [kept_mk, kept_eta, apply_ite kept, ite_self, foldl_kept, foldDoms_kept, kept_postTest])
@[simp] theorem kept_sieveEnd (s : State) (x1 : Sieve) (x2 : Nat) :
    kept (sieveEnd s x1 x2) = kept s := by
  unfold sieveEnd
  first
  | (simp only [kept_mk, kept_eta, apply_ite kept, ite_self, foldl_kept, foldDoms_kept, kept_sievePost]; done)
  | ((try dsimp only) <;> (repeat' split) <;> simp only [kept_mk, kept_eta, apply_ite kept, ite_self, foldl_kept, foldDoms_kept, kept_sievePost]; done)
  | ((try dsimp only) <;> (repeat' split) <;> simp [kept_mk, kept_eta, apply_ite kept, ite_self, foldl_kept, foldDoms_kept, kept_sievePost])
@[simp] theorem kept_requestReset (s : State) (x1 : Nat) :
    kept (requestReset s x1) = kept s := by
  unfold requestReset
  first
  | (simp only [kept_mk, kept_eta, apply_ite kept, ite_self, foldl_kept, foldDoms_kept, kept_setPort]; done)
  | ((try dsimp only) <;> (repeat' split) <;> simp only [kept_mk, kept_eta, apply_ite kept, ite_self, foldl_kept, foldDoms_kept, kept_setPort]; done)
  | ((try dsimp only) <;> (repeat' split) <;> simp [kept_mk, kept_eta, apply_ite kept, ite_self, foldl_kept, foldDoms_kept, kept_setPort])
@[simp] theorem kept_applyQuiesce (s : State) (x1 : Desc) :
    kept ((applyQuiesce s x1).1) = kept s := by
  unfold applyQuiesce
  first
  | (simp only [kept_mk, kept_eta, apply_ite kept, ite_self, foldl_kept, foldDoms_kept, kept_requestReset, kept_setPort]; done)
  | ((try dsimp only) <;> (repeat' split) <;> simp only [kept_mk, kept_eta, apply_ite kept, ite_self, foldl_kept, foldDoms_kept, kept_requestReset, kept_setPort]; done)
  | ((try dsimp only) <;> (repeat' split) <;> simp [kept_mk, kept_eta, apply_ite kept, ite_self, foldl_kept, foldDoms_kept, kept_requestReset, kept_setPort])
@[simp] theorem kept_applyLimits (s : State) (x1 : Desc) (x2 : Nat) :
    kept (applyLimits s x1 x2) = kept s := by
  unfold applyLimits
  first
  | (simp only [kept_mk, kept_eta, apply_ite kept, ite_self, foldl_kept, foldDoms_kept, kept_unparkAll, kept_setCfg, kept_setMembers, kept_loadWindow]; done)
  | ((try dsimp only) <;> (repeat' split) <;> simp only [kept_mk, kept_eta, apply_ite kept, ite_self, foldl_kept, foldDoms_kept, kept_unparkAll, kept_setCfg, kept_setMembers, kept_loadWindow]; done)
  | ((try dsimp only) <;> (repeat' split) <;> simp [kept_mk, kept_eta, apply_ite kept, ite_self, foldl_kept, foldDoms_kept, kept_unparkAll, kept_setCfg, kept_setMembers, kept_loadWindow])
@[simp] theorem kept_applySieve (s : State) (x1 : Desc) (x2 : Nat) :
    kept (applySieve s x1 x2) = kept s := by
  unfold applySieve
  first
  | (simp only [kept_mk, kept_eta, apply_ite kept, ite_self, foldl_kept, foldDoms_kept, kept_postTest]; done)
  | ((try dsimp only) <;> (repeat' split) <;> simp only [kept_mk, kept_eta, apply_ite kept, ite_self, foldl_kept, foldDoms_kept, kept_postTest]; done)
  | ((try dsimp only) <;> (repeat' split) <;> simp [kept_mk, kept_eta, apply_ite kept, ite_self, foldl_kept, foldDoms_kept, kept_postTest])
@[simp] theorem kept_applyEffect (x0 : Nat) (x1 : Latch) (s : State) (x3 : Cmd) :
    kept ((applyEffect x0 x1 s x3).1) = kept s := by
  unfold applyEffect
  dsimp only
  (repeat' split) <;>
    first
    | rfl
    | (simp only [kept_mk, kept_eta, apply_ite kept, ite_self, foldl_kept, foldDoms_kept, kept_applyRcConfig, kept_startTest, kept_setBudget, kept_applyMarkLog, kept_applyPair, kept_applyMark, kept_applyUnpair, kept_setCfg, kept_applyState, kept_applyBindModel, kept_applyBind, kept_applyLend, kept_applyJob, kept_applyRights, kept_applyCellmap, kept_sieveEnd, kept_applyQuiesce, kept_applyCap, kept_applyLimits, kept_setDom, kept_applyArm, kept_commitFreq, kept_setPort, kept_applySieve]; done)
    | exact onEach_kept _ _ _ (fun s l => by simp only [kept_mk, kept_eta, apply_ite kept, ite_self, foldl_kept, foldDoms_kept, kept_applyRcConfig, kept_startTest, kept_setBudget, kept_applyMarkLog, kept_applyPair, kept_applyMark, kept_applyUnpair, kept_setCfg, kept_applyState, kept_applyBindModel, kept_applyBind, kept_applyLend, kept_applyJob, kept_applyRights, kept_applyCellmap, kept_sieveEnd, kept_applyQuiesce, kept_applyCap, kept_applyLimits, kept_setDom, kept_applyArm, kept_commitFreq, kept_setPort, kept_applySieve])
    | exact foldl_kept _ _ _ (fun s l => by simp only [kept_mk, kept_eta, apply_ite kept, ite_self, foldl_kept, foldDoms_kept, kept_applyRcConfig, kept_startTest, kept_setBudget, kept_applyMarkLog, kept_applyPair, kept_applyMark, kept_applyUnpair, kept_setCfg, kept_applyState, kept_applyBindModel, kept_applyBind, kept_applyLend, kept_applyJob, kept_applyRights, kept_applyCellmap, kept_sieveEnd, kept_applyQuiesce, kept_applyCap, kept_applyLimits, kept_setDom, kept_applyArm, kept_commitFreq, kept_setPort, kept_applySieve])
@[simp] theorem kept_sendCode (s : State) (x1 : Nat) (x2 : Nat) (x3 : Bool) :
    kept (sendCode s x1 x2 x3) = kept s := by
  unfold sendCode
  first
  | (simp only [kept_mk, kept_eta, apply_ite kept, ite_self, foldl_kept, foldDoms_kept, kept_setDom]; done)
  | ((try dsimp only) <;> (repeat' split) <;> simp only [kept_mk, kept_eta, apply_ite kept, ite_self, foldl_kept, foldDoms_kept, kept_setDom]; done)
  | ((try dsimp only) <;> (repeat' split) <;> simp [kept_mk, kept_eta, apply_ite kept, ite_self, foldl_kept, foldDoms_kept, kept_setDom])
@[simp] theorem kept_applyOutputs (s : State) (x1 : Nat) (x2 : Vector (Option Word) 4) :
    kept (applyOutputs s x1 x2) = kept s := by
  unfold applyOutputs
  first
  | (simp only [kept_mk, kept_eta, apply_ite kept, ite_self, foldl_kept, foldDoms_kept, kept_sendCode, kept_setDom]; done)
  | ((try dsimp only) <;> (repeat' split) <;> simp only [kept_mk, kept_eta, apply_ite kept, ite_self, foldl_kept, foldDoms_kept, kept_sendCode, kept_setDom]; done)
  | ((try dsimp only) <;> (repeat' split) <;> simp [kept_mk, kept_eta, apply_ite kept, ite_self, foldl_kept, foldDoms_kept, kept_sendCode, kept_setDom])
@[simp] theorem kept_arbCount (s : State) (x1 : Nat) :
    kept (arbCount s x1) = kept s := by
  unfold arbCount
  first
  | (simp only [kept_mk, kept_eta, apply_ite kept, ite_self, foldl_kept, foldDoms_kept, kept_setArb]; done)
  | ((try dsimp only) <;> (repeat' split) <;> simp only [kept_mk, kept_eta, apply_ite kept, ite_self, foldl_kept, foldDoms_kept, kept_setArb]; done)
  | ((try dsimp only) <;> (repeat' split) <;> simp [kept_mk, kept_eta, apply_ite kept, ite_self, foldl_kept, foldDoms_kept, kept_setArb])
@[simp] theorem kept_endOffer (s : State) (x1 : Nat) :
    kept (endOffer s x1) = kept s := by
  unfold endOffer
  first
  | (simp only [kept_mk, kept_eta, apply_ite kept, ite_self, foldl_kept, foldDoms_kept, kept_setArbChip, kept_setArb]; done)
  | ((try dsimp only) <;> (repeat' split) <;> simp only [kept_mk, kept_eta, apply_ite kept, ite_self, foldl_kept, foldDoms_kept, kept_setArbChip, kept_setArb]; done)
  | ((try dsimp only) <;> (repeat' split) <;> simp [kept_mk, kept_eta, apply_ite kept, ite_self, foldl_kept, foldDoms_kept, kept_setArbChip, kept_setArb])
@[simp] theorem kept_reclaim (s : State) (x1 : Nat) :
    kept (reclaim s x1) = kept s := by
  unfold reclaim
  first
  | (simp only [kept_mk, kept_eta, apply_ite kept, ite_self, foldl_kept, foldDoms_kept, kept_endOffer, kept_setLevel, kept_cancelFor, kept_setArb]; done)
  | ((try dsimp only) <;> (repeat' split) <;> simp only [kept_mk, kept_eta, apply_ite kept, ite_self, foldl_kept, foldDoms_kept, kept_endOffer, kept_setLevel, kept_cancelFor, kept_setArb]; done)
  | ((try dsimp only) <;> (repeat' split) <;> simp [kept_mk, kept_eta, apply_ite kept, ite_self, foldl_kept, foldDoms_kept, kept_endOffer, kept_setLevel, kept_cancelFor, kept_setArb])
@[simp] theorem kept_arbFrame (s : State) (x1 : Nat) :
    kept (arbFrame s x1) = kept s := by
  unfold arbFrame
  first
  | (simp only [kept_mk, kept_eta, apply_ite kept, ite_self, foldl_kept, foldDoms_kept, kept_endOffer, kept_reclaim, kept_cancelFor, kept_setArb]; done)
  | ((try dsimp only) <;> (repeat' split) <;> simp only [kept_mk, kept_eta, apply_ite kept, ite_self, foldl_kept, foldDoms_kept, kept_endOffer, kept_reclaim, kept_cancelFor, kept_setArb]; done)
  | ((try dsimp only) <;> (repeat' split) <;> simp [kept_mk, kept_eta, apply_ite kept, ite_self, foldl_kept, foldDoms_kept, kept_endOffer, kept_reclaim, kept_cancelFor, kept_setArb])
@[simp] theorem kept_report (s : State) (x1 : Nat) (x2 : IntWhat) :
    kept (report s x1 x2) = kept s := by
  unfold report
  first
  | (simp only [kept_mk, kept_eta, apply_ite kept, ite_self, foldl_kept, foldDoms_kept]; done)
  | ((try dsimp only) <;> (repeat' split) <;> simp only [kept_mk, kept_eta, apply_ite kept, ite_self, foldl_kept, foldDoms_kept]; done)
  | ((try dsimp only) <;> (repeat' split) <;> simp [kept_mk, kept_eta, apply_ite kept, ite_self, foldl_kept, foldDoms_kept])
@[simp] theorem kept_lanternOffAll (s : State) :
    kept (lanternOffAll s) = kept s := by
  unfold lanternOffAll
  first
  | (simp only [kept_mk, kept_eta, apply_ite kept, ite_self, foldl_kept, foldDoms_kept, kept_report]; done)
  | ((try dsimp only) <;> (repeat' split) <;> simp only [kept_mk, kept_eta, apply_ite kept, ite_self, foldl_kept, foldDoms_kept, kept_report]; done)
  | ((try dsimp only) <;> (repeat' split) <;> simp [kept_mk, kept_eta, apply_ite kept, ite_self, foldl_kept, foldDoms_kept, kept_report])
@[simp] theorem kept_arrayTestEnd (s : State) (x1 : TestResult) :
    kept (arrayTestEnd s x1) = kept s := by
  unfold arrayTestEnd
  first
  | (simp only [kept_mk, kept_eta, apply_ite kept, ite_self, foldl_kept, foldDoms_kept, kept_lanternOffAll, kept_raise]; done)
  | ((try dsimp only) <;> (repeat' split) <;> simp only [kept_mk, kept_eta, apply_ite kept, ite_self, foldl_kept, foldDoms_kept, kept_lanternOffAll, kept_raise]; done)
  | ((try dsimp only) <;> (repeat' split) <;> simp [kept_mk, kept_eta, apply_ite kept, ite_self, foldl_kept, foldDoms_kept, kept_lanternOffAll, kept_raise])
@[simp] theorem kept_enqueueCmd (s : State) (x1 : Nat) (x2 : Desc) (x3 : Nat) (x4 : Option Nat) (x5 : Nat) :
    kept (enqueueCmd s x1 x2 x3 x4 x5) = kept s := by
  unfold enqueueCmd
  first
  | (simp only [kept_mk, kept_eta, apply_ite kept, ite_self, foldl_kept, foldDoms_kept]; done)
  | ((try dsimp only) <;> (repeat' split) <;> simp only [kept_mk, kept_eta, apply_ite kept, ite_self, foldl_kept, foldDoms_kept]; done)
  | ((try dsimp only) <;> (repeat' split) <;> simp [kept_mk, kept_eta, apply_ite kept, ite_self, foldl_kept, foldDoms_kept])
@[simp] theorem kept_completeNow (s : State) (x1 : Nat) (x2 : BitVec 16) (x3 : Nat) (x4 : Nat) (x5 : Bool) :
    kept (completeNow s x1 x2 x3 x4 x5) = kept s := by
  unfold completeNow
  first
  | (simp only [kept_mk, kept_eta, apply_ite kept, ite_self, foldl_kept, foldDoms_kept, kept_postCompletion]; done)
  | ((try dsimp only) <;> (repeat' split) <;> simp only [kept_mk, kept_eta, apply_ite kept, ite_self, foldl_kept, foldDoms_kept, kept_postCompletion]; done)
  | ((try dsimp only) <;> (repeat' split) <;> simp [kept_mk, kept_eta, apply_ite kept, ite_self, foldl_kept, foldDoms_kept, kept_postCompletion])
@[simp] theorem kept_cutGroup (s : State) (x1 : Nat) :
    kept (cutGroup s x1) = kept s := by
  unfold cutGroup
  first
  | (simp only [kept_mk, kept_eta, apply_ite kept, ite_self, foldl_kept, foldDoms_kept, kept_failUnit]; done)
  | ((try dsimp only) <;> (repeat' split) <;> simp only [kept_mk, kept_eta, apply_ite kept, ite_self, foldl_kept, foldDoms_kept, kept_failUnit]; done)
  | ((try dsimp only) <;> (repeat' split) <;> simp [kept_mk, kept_eta, apply_ite kept, ite_self, foldl_kept, foldDoms_kept, kept_failUnit])
@[simp] theorem kept_joinedGroup (s : State) (x1 : Desc) :
    kept ((joinedGroup s x1).1) = kept s := by
  unfold joinedGroup
  first
  | (simp only [kept_mk, kept_eta, apply_ite kept, ite_self, foldl_kept, foldDoms_kept]; done)
  | ((try dsimp only) <;> (repeat' split) <;> simp only [kept_mk, kept_eta, apply_ite kept, ite_self, foldl_kept, foldDoms_kept]; done)
  | ((try dsimp only) <;> (repeat' split) <;> simp [kept_mk, kept_eta, apply_ite kept, ite_self, foldl_kept, foldDoms_kept])
@[simp] theorem kept_joinGroup (s : State) (x1 : Nat) (x2 : Desc) (x3 : Nat) (x4 : Option (Nat × Nat)) :
    kept (joinGroup s x1 x2 x3 x4) = kept s := by
  unfold joinGroup
  first
  | (simp only [kept_mk, kept_eta, apply_ite kept, ite_self, foldl_kept, foldDoms_kept, kept_failUnit, kept_finish, kept_joinedGroup, kept_enqueueCmd, kept_completeNow, kept_dropUnit]; done)
  | ((try dsimp only) <;> (repeat' split) <;> simp only [kept_mk, kept_eta, apply_ite kept, ite_self, foldl_kept, foldDoms_kept, kept_failUnit, kept_finish, kept_joinedGroup, kept_enqueueCmd, kept_completeNow, kept_dropUnit]; done)
  | ((try dsimp only) <;> (repeat' split) <;> simp [kept_mk, kept_eta, apply_ite kept, ite_self, foldl_kept, foldDoms_kept, kept_failUnit, kept_finish, kept_joinedGroup, kept_enqueueCmd, kept_completeNow, kept_dropUnit])
@[simp] theorem kept_arrive (s : State) (x1 : Nat) (x2 : Desc) (x3 : Nat) (x4 : Option (Nat × Nat)) :
    kept (arrive s x1 x2 x3 x4) = kept s := by
  unfold arrive
  first
  | (simp only [kept_mk, kept_eta, apply_ite kept, ite_self, foldl_kept, foldDoms_kept, kept_enqueueCmd, kept_completeNow, kept_cutGroup, kept_joinGroup]; done)
  | ((try dsimp only) <;> (repeat' split) <;> simp only [kept_mk, kept_eta, apply_ite kept, ite_self, foldl_kept, foldDoms_kept, kept_enqueueCmd, kept_completeNow, kept_cutGroup, kept_joinGroup]; done)
  | ((try dsimp only) <;> (repeat' split) <;> simp [kept_mk, kept_eta, apply_ite kept, ite_self, foldl_kept, foldDoms_kept, kept_enqueueCmd, kept_completeNow, kept_cutGroup, kept_joinGroup])
@[simp] theorem kept_asPair (s : State) (x1 : Nat) :
    kept (asPair s x1) = kept s := by
  unfold asPair
  first
  | (simp only [kept_mk, kept_eta, apply_ite kept, ite_self, foldl_kept, foldDoms_kept, kept_setDom]; done)
  | ((try dsimp only) <;> (repeat' split) <;> simp only [kept_mk, kept_eta, apply_ite kept, ite_self, foldl_kept, foldDoms_kept, kept_setDom]; done)
  | ((try dsimp only) <;> (repeat' split) <;> simp [kept_mk, kept_eta, apply_ite kept, ite_self, foldl_kept, foldDoms_kept, kept_setDom])
@[simp] theorem kept_atLost (s : State) (x1 : PortNo) (x2 : BitVec 16) :
    kept (atLost s x1 x2) = kept s := by
  unfold atLost
  first
  | (simp only [kept_mk, kept_eta, apply_ite kept, ite_self, foldl_kept, foldDoms_kept, kept_failUnit]; done)
  | ((try dsimp only) <;> (repeat' split) <;> simp only [kept_mk, kept_eta, apply_ite kept, ite_self, foldl_kept, foldDoms_kept, kept_failUnit]; done)
  | ((try dsimp only) <;> (repeat' split) <;> simp [kept_mk, kept_eta, apply_ite kept, ite_self, foldl_kept, foldDoms_kept, kept_failUnit])
@[simp] theorem kept_pulse (s : State) :
    kept (pulse s) = kept s := by
  unfold pulse
  first
  | (simp only [kept_mk, kept_eta, apply_ite kept, ite_self, foldl_kept, foldDoms_kept]; done)
  | ((try dsimp only) <;> (repeat' split) <;> simp only [kept_mk, kept_eta, apply_ite kept, ite_self, foldl_kept, foldDoms_kept]; done)
  | ((try dsimp only) <;> (repeat' split) <;> simp [kept_mk, kept_eta, apply_ite kept, ite_self, foldl_kept, foldDoms_kept])
@[simp] theorem kept_busStart (s : State) :
    kept (busStart s) = kept s := by
  unfold busStart
  first
  | (simp only [kept_mk, kept_eta, apply_ite kept, ite_self, foldl_kept, foldDoms_kept]; done)
  | ((try dsimp only) <;> (repeat' split) <;> simp only [kept_mk, kept_eta, apply_ite kept, ite_self, foldl_kept, foldDoms_kept]; done)
  | ((try dsimp only) <;> (repeat' split) <;> simp [kept_mk, kept_eta, apply_ite kept, ite_self, foldl_kept, foldDoms_kept])
@[simp] theorem kept_busFront (s : State) (x1 : List BusTxn) :
    kept (busFront s x1) = kept s := by
  unfold busFront
  first
  | (simp only [kept_mk, kept_eta, apply_ite kept, ite_self, foldl_kept, foldDoms_kept, kept_busStart]; done)
  | ((try dsimp only) <;> (repeat' split) <;> simp only [kept_mk, kept_eta, apply_ite kept, ite_self, foldl_kept, foldDoms_kept, kept_busStart]; done)
  | ((try dsimp only) <;> (repeat' split) <;> simp [kept_mk, kept_eta, apply_ite kept, ite_self, foldl_kept, foldDoms_kept, kept_busStart])
@[simp] theorem kept_busOff (s : State) :
    kept (busOff s) = kept s := by
  unfold busOff
  first
  | (simp only [kept_mk, kept_eta, apply_ite kept, ite_self, foldl_kept, foldDoms_kept, kept_busFront]; done)
  | ((try dsimp only) <;> (repeat' split) <;> simp only [kept_mk, kept_eta, apply_ite kept, ite_self, foldl_kept, foldDoms_kept, kept_busFront]; done)
  | ((try dsimp only) <;> (repeat' split) <;> simp [kept_mk, kept_eta, apply_ite kept, ite_self, foldl_kept, foldDoms_kept, kept_busFront])
@[simp] theorem kept_forceDark (s : State) (x1 : Nat) (x2 : Bool) :
    kept (forceDark s x1 x2) = kept s := by
  unfold forceDark
  first
  | (simp only [kept_mk, kept_eta, apply_ite kept, ite_self, foldl_kept, foldDoms_kept, kept_report, kept_discharge]; done)
  | ((try dsimp only) <;> (repeat' split) <;> simp only [kept_mk, kept_eta, apply_ite kept, ite_self, foldl_kept, foldDoms_kept, kept_report, kept_discharge]; done)
  | ((try dsimp only) <;> (repeat' split) <;> simp [kept_mk, kept_eta, apply_ite kept, ite_self, foldl_kept, foldDoms_kept, kept_report, kept_discharge])
@[simp] theorem kept_darkAll (s : State) :
    kept (darkAll s) = kept s := by
  unfold darkAll
  first
  | (simp only [kept_mk, kept_eta, apply_ite kept, ite_self, foldl_kept, foldDoms_kept, kept_report, kept_forceDark]; done)
  | ((try dsimp only) <;> (repeat' split) <;> simp only [kept_mk, kept_eta, apply_ite kept, ite_self, foldl_kept, foldDoms_kept, kept_report, kept_forceDark]; done)
  | ((try dsimp only) <;> (repeat' split) <;> simp [kept_mk, kept_eta, apply_ite kept, ite_self, foldl_kept, foldDoms_kept, kept_report, kept_forceDark])
@[simp] theorem kept_refuseAccepted (s : State) :
    kept (refuseAccepted s) = kept s := by
  unfold refuseAccepted
  first
  | (simp only [kept_mk, kept_eta, apply_ite kept, ite_self, foldl_kept, foldDoms_kept]; done)
  | ((try dsimp only) <;> (repeat' split) <;> simp only [kept_mk, kept_eta, apply_ite kept, ite_self, foldl_kept, foldDoms_kept]; done)
  | ((try dsimp only) <;> (repeat' split) <;> simp [kept_mk, kept_eta, apply_ite kept, ite_self, foldl_kept, foldDoms_kept])
@[simp] theorem kept_enterSafe (s : State) (x1 : DWord) :
    kept (enterSafe s x1) = kept s := by
  unfold enterSafe
  first
  | (simp only [kept_mk, kept_eta, apply_ite kept, ite_self, foldl_kept, foldDoms_kept, kept_busOff, kept_darkAll, kept_refuseAccepted]; done)
  | ((try dsimp only) <;> (repeat' split) <;> simp only [kept_mk, kept_eta, apply_ite kept, ite_self, foldl_kept, foldDoms_kept, kept_busOff, kept_darkAll, kept_refuseAccepted]; done)
  | ((try dsimp only) <;> (repeat' split) <;> simp [kept_mk, kept_eta, apply_ite kept, ite_self, foldl_kept, foldDoms_kept, kept_busOff, kept_darkAll, kept_refuseAccepted])
@[simp] theorem kept_atOnce (s : State) (x1 : DWord) :
    kept (atOnce s x1) = kept s := by
  unfold atOnce
  first
  | (simp only [kept_mk, kept_eta, apply_ite kept, ite_self, foldl_kept, foldDoms_kept, kept_pulse, kept_enterSafe]; done)
  | ((try dsimp only) <;> (repeat' split) <;> simp only [kept_mk, kept_eta, apply_ite kept, ite_self, foldl_kept, foldDoms_kept, kept_pulse, kept_enterSafe]; done)
  | ((try dsimp only) <;> (repeat' split) <;> simp [kept_mk, kept_eta, apply_ite kept, ite_self, foldl_kept, foldDoms_kept, kept_pulse, kept_enterSafe])
@[simp] theorem kept_attributeShared (s : State) :
    kept (attributeShared s) = kept s := by
  unfold attributeShared
  first
  | (simp only [kept_mk, kept_eta, apply_ite kept, ite_self, foldl_kept, foldDoms_kept]; done)
  | ((try dsimp only) <;> (repeat' split) <;> simp only [kept_mk, kept_eta, apply_ite kept, ite_self, foldl_kept, foldDoms_kept]; done)
  | ((try dsimp only) <;> (repeat' split) <;> simp [kept_mk, kept_eta, apply_ite kept, ite_self, foldl_kept, foldDoms_kept])
@[simp] theorem kept_setTile (s : State) (x1 : Nat) (x2 : Tile → Tile) :
    kept (setTile s x1 x2) = kept s := by
  unfold setTile
  first
  | (simp only [kept_mk, kept_eta, apply_ite kept, ite_self, foldl_kept, foldDoms_kept, kept_setDom]; done)
  | ((try dsimp only) <;> (repeat' split) <;> simp only [kept_mk, kept_eta, apply_ite kept, ite_self, foldl_kept, foldDoms_kept, kept_setDom]; done)
  | ((try dsimp only) <;> (repeat' split) <;> simp [kept_mk, kept_eta, apply_ite kept, ite_self, foldl_kept, foldDoms_kept, kept_setDom])
@[simp] theorem kept_attributeDom (s : State) (x1 : Nat) :
    kept (attributeDom s x1) = kept s := by
  unfold attributeDom
  first
  | (simp only [kept_mk, kept_eta, apply_ite kept, ite_self, foldl_kept, foldDoms_kept, kept_setTile]; done)
  | ((try dsimp only) <;> (repeat' split) <;> simp only [kept_mk, kept_eta, apply_ite kept, ite_self, foldl_kept, foldDoms_kept, kept_setTile]; done)
  | ((try dsimp only) <;> (repeat' split) <;> simp [kept_mk, kept_eta, apply_ite kept, ite_self, foldl_kept, foldDoms_kept, kept_setTile])
@[simp] theorem kept_attributeAll (s : State) :
    kept (attributeAll s) = kept s := by
  unfold attributeAll
  first
  | (simp only [kept_mk, kept_eta, apply_ite kept, ite_self, foldl_kept, foldDoms_kept, kept_attributeShared, kept_setDoms, kept_attributeDom]; done)
  | ((try dsimp only) <;> (repeat' split) <;> simp only [kept_mk, kept_eta, apply_ite kept, ite_self, foldl_kept, foldDoms_kept, kept_attributeShared, kept_setDoms, kept_attributeDom]; done)
  | ((try dsimp only) <;> (repeat' split) <;> simp [kept_mk, kept_eta, apply_ite kept, ite_self, foldl_kept, foldDoms_kept, kept_attributeShared, kept_setDoms, kept_attributeDom])
@[simp] theorem kept_avsInForce (s : State) :
    kept (avsInForce s) = kept s := by
  unfold avsInForce
  first
  | (simp only [kept_mk, kept_eta, apply_ite kept, ite_self, foldl_kept, foldDoms_kept]; done)
  | ((try dsimp only) <;> (repeat' split) <;> simp only [kept_mk, kept_eta, apply_ite kept, ite_self, foldl_kept, foldDoms_kept]; done)
  | ((try dsimp only) <;> (repeat' split) <;> simp [kept_mk, kept_eta, apply_ite kept, ite_self, foldl_kept, foldDoms_kept])
@[simp] theorem kept_badBell (s : State) (x1 : Nat) (x2 : Nat) (x3 : Nat) :
    kept (badBell s x1 x2 x3) = kept s := by
  unfold badBell
  first
  | (simp only [kept_mk, kept_eta, apply_ite kept, ite_self, foldl_kept, foldDoms_kept, kept_raise, kept_setPort]; done)
  | ((try dsimp only) <;> (repeat' split) <;> simp only [kept_mk, kept_eta, apply_ite kept, ite_self, foldl_kept, foldDoms_kept, kept_raise, kept_setPort]; done)
  | ((try dsimp only) <;> (repeat' split) <;> simp [kept_mk, kept_eta, apply_ite kept, ite_self, foldl_kept, foldDoms_kept, kept_raise, kept_setPort])
@[simp] theorem kept_linkFault (s : State) (x1 : Nat) (x2 : Nat) :
    kept (linkFault s x1 x2) = kept s := by
  unfold linkFault
  first
  | (simp only [kept_mk, kept_eta, apply_ite kept, ite_self, foldl_kept, foldDoms_kept, kept_raise]; done)
  | ((try dsimp only) <;> (repeat' split) <;> simp only [kept_mk, kept_eta, apply_ite kept, ite_self, foldl_kept, foldDoms_kept, kept_raise]; done)
  | ((try dsimp only) <;> (repeat' split) <;> simp [kept_mk, kept_eta, apply_ite kept, ite_self, foldl_kept, foldDoms_kept, kept_raise])
@[simp] theorem kept_setLink (s : State) (x1 : Nat) (x2 : Link → Link) :
    kept (setLink s x1 x2) = kept s := by
  unfold setLink
  first
  | (simp only [kept_mk, kept_eta, apply_ite kept, ite_self, foldl_kept, foldDoms_kept]; done)
  | ((try dsimp only) <;> (repeat' split) <;> simp only [kept_mk, kept_eta, apply_ite kept, ite_self, foldl_kept, foldDoms_kept]; done)
  | ((try dsimp only) <;> (repeat' split) <;> simp [kept_mk, kept_eta, apply_ite kept, ite_self, foldl_kept, foldDoms_kept])
@[simp] theorem kept_badFrame (s : State) (x1 : Nat) (x2 : Nat) :
    kept (badFrame s x1 x2) = kept s := by
  unfold badFrame
  first
  | (simp only [kept_mk, kept_eta, apply_ite kept, ite_self, foldl_kept, foldDoms_kept, kept_linkFault, kept_setLink]; done)
  | ((try dsimp only) <;> (repeat' split) <;> simp only [kept_mk, kept_eta, apply_ite kept, ite_self, foldl_kept, foldDoms_kept, kept_linkFault, kept_setLink]; done)
  | ((try dsimp only) <;> (repeat' split) <;> simp [kept_mk, kept_eta, apply_ite kept, ite_self, foldl_kept, foldDoms_kept, kept_linkFault, kept_setLink])
@[simp] theorem kept_bandDom (s : State) (x1 : Nat) :
    kept (bandDom s x1) = kept s := by
  unfold bandDom
  first
  | (simp only [kept_mk, kept_eta, apply_ite kept, ite_self, foldl_kept, foldDoms_kept, kept_setMembers, kept_setDom]; done)
  | ((try dsimp only) <;> (repeat' split) <;> simp only [kept_mk, kept_eta, apply_ite kept, ite_self, foldl_kept, foldDoms_kept, kept_setMembers, kept_setDom]; done)
  | ((try dsimp only) <;> (repeat' split) <;> simp [kept_mk, kept_eta, apply_ite kept, ite_self, foldl_kept, foldDoms_kept, kept_setMembers, kept_setDom])
@[simp] theorem kept_setDroop (s : State) (x1 : Nat) (x2 : Droop → Droop) :
    kept (setDroop s x1 x2) = kept s := by
  unfold setDroop
  first
  | (simp only [kept_mk, kept_eta, apply_ite kept, ite_self, foldl_kept, foldDoms_kept, kept_setDom]; done)
  | ((try dsimp only) <;> (repeat' split) <;> simp only [kept_mk, kept_eta, apply_ite kept, ite_self, foldl_kept, foldDoms_kept, kept_setDom]; done)
  | ((try dsimp only) <;> (repeat' split) <;> simp [kept_mk, kept_eta, apply_ite kept, ite_self, foldl_kept, foldDoms_kept, kept_setDom])
@[simp] theorem kept_freshBelow (s : State) (x1 : Nat) :
    kept ((freshBelow s x1).2) = kept s := by
  unfold freshBelow
  first
  | (simp only [kept_mk, kept_eta, apply_ite kept, ite_self, foldl_kept, foldDoms_kept]; done)
  | ((try dsimp only) <;> (repeat' split) <;> simp only [kept_mk, kept_eta, apply_ite kept, ite_self, foldl_kept, foldDoms_kept]; done)
  | ((try dsimp only) <;> (repeat' split) <;> simp [kept_mk, kept_eta, apply_ite kept, ite_self, foldl_kept, foldDoms_kept])
@[simp] theorem kept_bankTestEnd (s : State) (x1 : Nat) (x2 : TestResult) :
    kept (bankTestEnd s x1 x2) = kept s := by
  unfold bankTestEnd
  first
  | (simp only [kept_mk, kept_eta, apply_ite kept, ite_self, foldl_kept, foldDoms_kept, kept_setDroop, kept_freshBelow, kept_setMembers, kept_raise]; done)
  | ((try dsimp only) <;> (repeat' split) <;> simp only [kept_mk, kept_eta, apply_ite kept, ite_self, foldl_kept, foldDoms_kept, kept_setDroop, kept_freshBelow, kept_setMembers, kept_raise]; done)
  | ((try dsimp only) <;> (repeat' split) <;> simp [kept_mk, kept_eta, apply_ite kept, ite_self, foldl_kept, foldDoms_kept, kept_setDroop, kept_freshBelow, kept_setMembers, kept_raise])
@[simp] theorem kept_sieveFold (x0 : Record) (s : State) :
    kept (sieveFold x0 s) = kept s := by
  unfold sieveFold
  first
  | (simp only [kept_mk, kept_eta, apply_ite kept, ite_self, foldl_kept, foldDoms_kept]; done)
  | ((try dsimp only) <;> (repeat' split) <;> simp only [kept_mk, kept_eta, apply_ite kept, ite_self, foldl_kept, foldDoms_kept]; done)
  | ((try dsimp only) <;> (repeat' split) <;> simp [kept_mk, kept_eta, apply_ite kept, ite_self, foldl_kept, foldDoms_kept])
@[simp] theorem kept_commitRetry (s : State) (x1 : IntChange) (x2 : Nat) (x3 : DState) :
    kept (commitRetry s x1 x2 x3) = kept s := by
  unfold commitRetry
  first
  | (simp only [kept_mk, kept_eta, apply_ite kept, ite_self, foldl_kept, foldDoms_kept, kept_startFromDark]; done)
  | ((try dsimp only) <;> (repeat' split) <;> simp only [kept_mk, kept_eta, apply_ite kept, ite_self, foldl_kept, foldDoms_kept, kept_startFromDark]; done)
  | ((try dsimp only) <;> (repeat' split) <;> simp [kept_mk, kept_eta, apply_ite kept, ite_self, foldl_kept, foldDoms_kept, kept_startFromDark])
@[simp] theorem kept_commitDark (s : State) (x1 : Nat) (x2 : Bool) :
    kept (commitDark s x1 x2) = kept s := by
  unfold commitDark
  first
  | (simp only [kept_mk, kept_eta, apply_ite kept, ite_self, foldl_kept, foldDoms_kept, kept_setMembers, kept_abandonBist, kept_discharge]; done)
  | ((try dsimp only) <;> (repeat' split) <;> simp only [kept_mk, kept_eta, apply_ite kept, ite_self, foldl_kept, foldDoms_kept, kept_setMembers, kept_abandonBist, kept_discharge]; done)
  | ((try dsimp only) <;> (repeat' split) <;> simp [kept_mk, kept_eta, apply_ite kept, ite_self, foldl_kept, foldDoms_kept, kept_setMembers, kept_abandonBist, kept_discharge])
@[simp] theorem kept_commitHeld (s : State) (x1 : Nat) (x2 : HeldWhy) :
    kept (commitHeld s x1 x2) = kept s := by
  unfold commitHeld
  first
  | (simp only [kept_mk, kept_eta, apply_ite kept, ite_self, foldl_kept, foldDoms_kept, kept_parkAbort, kept_setMembers, kept_abandonBist]; done)
  | ((try dsimp only) <;> (repeat' split) <;> simp only [kept_mk, kept_eta, apply_ite kept, ite_self, foldl_kept, foldDoms_kept, kept_parkAbort, kept_setMembers, kept_abandonBist]; done)
  | ((try dsimp only) <;> (repeat' split) <;> simp [kept_mk, kept_eta, apply_ite kept, ite_self, foldl_kept, foldDoms_kept, kept_parkAbort, kept_setMembers, kept_abandonBist])
@[simp] theorem kept_markCells (x0 : State) (s : State) (x2 : Nat) :
    kept (markCells x0 s x2) = kept s := by
  unfold markCells
  first
  | (simp only [kept_mk, kept_eta, apply_ite kept, ite_self, foldl_kept, foldDoms_kept, kept_setDom]; done)
  | ((try dsimp only) <;> (repeat' split) <;> simp only [kept_mk, kept_eta, apply_ite kept, ite_self, foldl_kept, foldDoms_kept, kept_setDom]; done)
  | ((try dsimp only) <;> (repeat' split) <;> simp [kept_mk, kept_eta, apply_ite kept, ite_self, foldl_kept, foldDoms_kept, kept_setDom])
@[simp] theorem kept_sieveEvent (s : State) (x1 : Nat) :
    kept (sieveEvent s x1) = kept s := by
  unfold sieveEvent
  first
  | (simp only [kept_mk, kept_eta, apply_ite kept, ite_self, foldl_kept, foldDoms_kept]; done)
  | ((try dsimp only) <;> (repeat' split) <;> simp only [kept_mk, kept_eta, apply_ite kept, ite_self, foldl_kept, foldDoms_kept]; done)
  | ((try dsimp only) <;> (repeat' split) <;> simp [kept_mk, kept_eta, apply_ite kept, ite_self, foldl_kept, foldDoms_kept])
@[simp] theorem kept_sieveLeft (x0 : DState) (s : State) (x2 : Nat) :
    kept (sieveLeft x0 s x2) = kept s := by
  unfold sieveLeft
  first
  | (simp only [kept_mk, kept_eta, apply_ite kept, ite_self, foldl_kept, foldDoms_kept, kept_sieveEvent]; done)
  | ((try dsimp only) <;> (repeat' split) <;> simp only [kept_mk, kept_eta, apply_ite kept, ite_self, foldl_kept, foldDoms_kept, kept_sieveEvent]; done)
  | ((try dsimp only) <;> (repeat' split) <;> simp [kept_mk, kept_eta, apply_ite kept, ite_self, foldl_kept, foldDoms_kept, kept_sieveEvent])
@[simp] theorem kept_commitInt (s : State) (x1 : IntChange) :
    kept (commitInt s x1) = kept s := by
  unfold commitInt
  first
  | (simp only [kept_mk, kept_eta, apply_ite kept, ite_self, foldl_kept, foldDoms_kept, kept_parkAbort, kept_ceilingAt, kept_commitRetry, kept_commitDark, kept_commitHeld, kept_markCells, kept_sieveAlter, kept_leaveHeld, kept_setMembers, kept_sieveLeft, kept_commitMap, kept_loadWindow, kept_setDom]; done)
  | ((try dsimp only) <;> (repeat' split) <;> simp only [kept_mk, kept_eta, apply_ite kept, ite_self, foldl_kept, foldDoms_kept, kept_parkAbort, kept_ceilingAt, kept_commitRetry, kept_commitDark, kept_commitHeld, kept_markCells, kept_sieveAlter, kept_leaveHeld, kept_setMembers, kept_sieveLeft, kept_commitMap, kept_loadWindow, kept_setDom]; done)
  | ((try dsimp only) <;> (repeat' split) <;> simp [kept_mk, kept_eta, apply_ite kept, ite_self, foldl_kept, foldDoms_kept, kept_parkAbort, kept_ceilingAt, kept_commitRetry, kept_commitDark, kept_commitHeld, kept_markCells, kept_sieveAlter, kept_leaveHeld, kept_setMembers, kept_sieveLeft, kept_commitMap, kept_loadWindow, kept_setDom])
@[simp] theorem kept_internalChanges (x0 : Nat) (s : State) :
    kept (internalChanges x0 s) = kept s := by
  unfold internalChanges
  first
  | (simp only [kept_mk, kept_eta, apply_ite kept, ite_self, foldl_kept, foldDoms_kept, kept_commitInt]; done)
  | ((try dsimp only) <;> (repeat' split) <;> simp only [kept_mk, kept_eta, apply_ite kept, ite_self, foldl_kept, foldDoms_kept, kept_commitInt]; done)
  | ((try dsimp only) <;> (repeat' split) <;> simp [kept_mk, kept_eta, apply_ite kept, ite_self, foldl_kept, foldDoms_kept, kept_commitInt])
@[simp] theorem kept_ceilingMove (s : State) (x1 : Nat) :
    kept (ceilingMove s x1) = kept s := by
  unfold ceilingMove
  first
  | (simp only [kept_mk, kept_eta, apply_ite kept, ite_self, foldl_kept, foldDoms_kept, kept_commitFreq]; done)
  | ((try dsimp only) <;> (repeat' split) <;> simp only [kept_mk, kept_eta, apply_ite kept, ite_self, foldl_kept, foldDoms_kept, kept_commitFreq]; done)
  | ((try dsimp only) <;> (repeat' split) <;> simp [kept_mk, kept_eta, apply_ite kept, ite_self, foldl_kept, foldDoms_kept, kept_commitFreq])
@[simp] theorem kept_commitGrant (s : State) (x1 : Grant) :
    kept (commitGrant s x1) = kept s := by
  unfold commitGrant
  first
  | (simp only [kept_mk, kept_eta, apply_ite kept, ite_self, foldl_kept, foldDoms_kept, kept_commitFreq, kept_setArb]; done)
  | ((try dsimp only) <;> (repeat' split) <;> simp only [kept_mk, kept_eta, apply_ite kept, ite_self, foldl_kept, foldDoms_kept, kept_commitFreq, kept_setArb]; done)
  | ((try dsimp only) <;> (repeat' split) <;> simp [kept_mk, kept_eta, apply_ite kept, ite_self, foldl_kept, foldDoms_kept, kept_commitFreq, kept_setArb])
@[simp] theorem kept_setCeilings (s : State) :
    kept (setCeilings s) = kept s := by
  unfold setCeilings
  first
  | (simp only [kept_mk, kept_eta, apply_ite kept, ite_self, foldl_kept, foldDoms_kept, kept_setArb]; done)
  | ((try dsimp only) <;> (repeat' split) <;> simp only [kept_mk, kept_eta, apply_ite kept, ite_self, foldl_kept, foldDoms_kept, kept_setArb]; done)
  | ((try dsimp only) <;> (repeat' split) <;> simp [kept_mk, kept_eta, apply_ite kept, ite_self, foldl_kept, foldDoms_kept, kept_setArb])
@[simp] theorem kept_freqRetry (s : State) (x1 : Nat) :
    kept (freqRetry s x1) = kept s := by
  unfold freqRetry
  first
  | (simp only [kept_mk, kept_eta, apply_ite kept, ite_self, foldl_kept, foldDoms_kept, kept_planChange]; done)
  | ((try dsimp only) <;> (repeat' split) <;> simp only [kept_mk, kept_eta, apply_ite kept, ite_self, foldl_kept, foldDoms_kept, kept_planChange]; done)
  | ((try dsimp only) <;> (repeat' split) <;> simp [kept_mk, kept_eta, apply_ite kept, ite_self, foldl_kept, foldDoms_kept, kept_planChange])
@[simp] theorem kept_commitRegrant (s : State) :
    kept (commitRegrant s) = kept s := by
  unfold commitRegrant
  first
  | (simp only [kept_mk, kept_eta, apply_ite kept, ite_self, foldl_kept, foldDoms_kept, kept_ceilingMove, kept_commitGrant, kept_setCeilings, kept_setArbChip, kept_freqRetry]; done)
  | ((try dsimp only) <;> (repeat' split) <;> simp only [kept_mk, kept_eta, apply_ite kept, ite_self, foldl_kept, foldDoms_kept, kept_ceilingMove, kept_commitGrant, kept_setCeilings, kept_setArbChip, kept_freqRetry]; done)
  | ((try dsimp only) <;> (repeat' split) <;> simp [kept_mk, kept_eta, apply_ite kept, ite_self, foldl_kept, foldDoms_kept, kept_ceilingMove, kept_commitGrant, kept_setCeilings, kept_setArbChip, kept_freqRetry])
@[simp] theorem kept_modeChanges (x0 : Nat) (s : State) :
    kept (modeChanges x0 s) = kept s := by
  unfold modeChanges
  first
  | (simp only [kept_mk, kept_eta, apply_ite kept, ite_self, foldl_kept, foldDoms_kept, kept_setCeilings, kept_setArbChip]; done)
  | ((try dsimp only) <;> (repeat' split) <;> simp only [kept_mk, kept_eta, apply_ite kept, ite_self, foldl_kept, foldDoms_kept, kept_setCeilings, kept_setArbChip]; done)
  | ((try dsimp only) <;> (repeat' split) <;> simp [kept_mk, kept_eta, apply_ite kept, ite_self, foldl_kept, foldDoms_kept, kept_setCeilings, kept_setArbChip])
@[simp] theorem kept_shutterInternal (x0 : Nat) (s : State) :
    kept (shutterInternal x0 s) = kept s := by
  unfold shutterInternal
  first
  | (simp only [kept_mk, kept_eta, apply_ite kept, ite_self, foldl_kept, foldDoms_kept, kept_internalChanges, kept_commitRegrant, kept_modeChanges]; done)
  | ((try dsimp only) <;> (repeat' split) <;> simp only [kept_mk, kept_eta, apply_ite kept, ite_self, foldl_kept, foldDoms_kept, kept_internalChanges, kept_commitRegrant, kept_modeChanges]; done)
  | ((try dsimp only) <;> (repeat' split) <;> simp [kept_mk, kept_eta, apply_ite kept, ite_self, foldl_kept, foldDoms_kept, kept_internalChanges, kept_commitRegrant, kept_modeChanges])
@[simp] theorem kept_minimaStep (x0 : Nat) (x1 : List EpochMeas) (s : State) (x3 : Nat) :
    kept (minimaStep x0 x1 s x3) = kept s := by
  unfold minimaStep
  first
  | (simp only [kept_mk, kept_eta, apply_ite kept, ite_self, foldl_kept, foldDoms_kept, kept_queueRecord, kept_setDom]; done)
  | ((try dsimp only) <;> (repeat' split) <;> simp only [kept_mk, kept_eta, apply_ite kept, ite_self, foldl_kept, foldDoms_kept, kept_queueRecord, kept_setDom]; done)
  | ((try dsimp only) <;> (repeat' split) <;> simp [kept_mk, kept_eta, apply_ite kept, ite_self, foldl_kept, foldDoms_kept, kept_queueRecord, kept_setDom])
@[simp] theorem kept_measure (s : State) (x1 : Record) :
    kept (Sys2Proof.Machine.measure s x1) = kept s := by
  unfold Sys2Proof.Machine.measure
  exact foldl_kept _ _ _ (fun s x => by simp only [kept_mk, kept_eta, apply_ite kept, ite_self, foldl_kept, foldDoms_kept, kept_setArb])
@[simp] theorem kept_waveCapture (x0 : Nat) (s : State) :
    kept (waveCapture x0 s) = kept s := by
  unfold waveCapture
  first
  | (simp only [kept_mk, kept_eta, apply_ite kept, ite_self, foldl_kept, foldDoms_kept, kept_setDoms]; done)
  | ((try dsimp only) <;> (repeat' split) <;> simp only [kept_mk, kept_eta, apply_ite kept, ite_self, foldl_kept, foldDoms_kept, kept_setDoms]; done)
  | ((try dsimp only) <;> (repeat' split) <;> simp [kept_mk, kept_eta, apply_ite kept, ite_self, foldl_kept, foldDoms_kept, kept_setDoms])
@[simp] theorem kept_beforeCommits (x0 : Nat) (x1 : List EpochMeas) (s : State) :
    kept ((beforeCommits x0 x1 s).2) = kept s := by
  unfold beforeCommits
  first
  | (simp only [kept_mk, kept_eta, apply_ite kept, ite_self, foldl_kept, foldDoms_kept, kept_sieveFold, kept_shutterInternal, kept_addInputEnergy, kept_minimaStep, kept_addEnergy, kept_measure, kept_waveCapture]; done)
  | ((try dsimp only) <;> (repeat' split) <;> simp only [kept_mk, kept_eta, apply_ite kept, ite_self, foldl_kept, foldDoms_kept, kept_sieveFold, kept_shutterInternal, kept_addInputEnergy, kept_minimaStep, kept_addEnergy, kept_measure, kept_waveCapture]; done)
  | ((try dsimp only) <;> (repeat' split) <;> simp [kept_mk, kept_eta, apply_ite kept, ite_self, foldl_kept, foldDoms_kept, kept_sieveFold, kept_shutterInternal, kept_addInputEnergy, kept_minimaStep, kept_addEnergy, kept_measure, kept_waveCapture])
@[simp] theorem kept_beginLeg1 (s : State) (x1 : Nat) (x2 : Bool) :
    kept (beginLeg1 s x1 x2) = kept s := by
  unfold beginLeg1
  dsimp only
  split
  · simp only [kept_mk, kept_eta, apply_ite kept, ite_self, foldl_kept, foldDoms_kept, kept_setMembers]
  · exact (foldl_kept _ _ _ (fun s x => by simp only [kept_mk, kept_eta, apply_ite kept, ite_self, foldl_kept, foldDoms_kept, kept_setMembers])).trans (by simp only [kept_mk, kept_eta, apply_ite kept, ite_self, foldl_kept, foldDoms_kept, kept_setMembers])
@[simp] theorem kept_beginLeg2 (s : State) (x1 : Nat) :
    kept (beginLeg2 s x1) = kept s := by
  unfold beginLeg2
  first
  | (simp only [kept_mk, kept_eta, apply_ite kept, ite_self, foldl_kept, foldDoms_kept, kept_setMembers]; done)
  | ((try dsimp only) <;> (repeat' split) <;> simp only [kept_mk, kept_eta, apply_ite kept, ite_self, foldl_kept, foldDoms_kept, kept_setMembers]; done)
  | ((try dsimp only) <;> (repeat' split) <;> simp [kept_mk, kept_eta, apply_ite kept, ite_self, foldl_kept, foldDoms_kept, kept_setMembers])
@[simp] theorem kept_bootRecord (s : State) :
    kept (bootRecord s) = kept s := by
  unfold bootRecord
  first
  | (simp only [kept_mk, kept_eta, apply_ite kept, ite_self, foldl_kept, foldDoms_kept, kept_queueRecord]; done)
  | ((try dsimp only) <;> (repeat' split) <;> simp only [kept_mk, kept_eta, apply_ite kept, ite_self, foldl_kept, foldDoms_kept, kept_queueRecord]; done)
  | ((try dsimp only) <;> (repeat' split) <;> simp [kept_mk, kept_eta, apply_ite kept, ite_self, foldl_kept, foldDoms_kept, kept_queueRecord])
@[simp] theorem kept_passSlot (s : State) (x1 : Nat) :
    kept (passSlot s x1) = kept s := by
  unfold passSlot
  first
  | (simp only [kept_mk, kept_eta, apply_ite kept, ite_self, foldl_kept, foldDoms_kept]; done)
  | ((try dsimp only) <;> (repeat' split) <;> simp only [kept_mk, kept_eta, apply_ite kept, ite_self, foldl_kept, foldDoms_kept]; done)
  | ((try dsimp only) <;> (repeat' split) <;> simp [kept_mk, kept_eta, apply_ite kept, ite_self, foldl_kept, foldDoms_kept])
@[simp] theorem kept_issue (x0 : List Byte) (s : State) :
    kept (issue x0 s) = kept s := by
  unfold issue
  first
  | (simp only [kept_mk, kept_eta, apply_ite kept, ite_self, foldl_kept, foldDoms_kept]; done)
  | ((try dsimp only) <;> (repeat' split) <;> simp only [kept_mk, kept_eta, apply_ite kept, ite_self, foldl_kept, foldDoms_kept]; done)
  | ((try dsimp only) <;> (repeat' split) <;> simp [kept_mk, kept_eta, apply_ite kept, ite_self, foldl_kept, foldDoms_kept])
@[simp] theorem kept_norError (s : State) (x1 : Nat) (x2 : Nat) :
    kept (norError s x1 x2) = kept s := by
  unfold norError
  first
  | (simp only [kept_mk, kept_eta, apply_ite kept, ite_self, foldl_kept, foldDoms_kept, kept_raise]; done)
  | ((try dsimp only) <;> (repeat' split) <;> simp only [kept_mk, kept_eta, apply_ite kept, ite_self, foldl_kept, foldDoms_kept, kept_raise]; done)
  | ((try dsimp only) <;> (repeat' split) <;> simp [kept_mk, kept_eta, apply_ite kept, ite_self, foldl_kept, foldDoms_kept, kept_raise])
@[simp] theorem kept_breathGone (s : State) (x1 : StrataRec) :
    kept (breathGone s x1) = kept s := by
  unfold breathGone
  first
  | (simp only [kept_mk, kept_eta, apply_ite kept, ite_self, foldl_kept, foldDoms_kept]; done)
  | ((try dsimp only) <;> (repeat' split) <;> simp only [kept_mk, kept_eta, apply_ite kept, ite_self, foldl_kept, foldDoms_kept]; done)
  | ((try dsimp only) <;> (repeat' split) <;> simp [kept_mk, kept_eta, apply_ite kept, ite_self, foldl_kept, foldDoms_kept])
@[simp] theorem kept_breathFails (s : State) :
    kept (breathFails s) = kept s := by
  unfold breathFails
  first
  | (simp only [kept_mk, kept_eta, apply_ite kept, ite_self, foldl_kept, foldDoms_kept, kept_passSlot, kept_issue, kept_norError, kept_breathGone]; done)
  | ((try dsimp only) <;> (repeat' split) <;> simp only [kept_mk, kept_eta, apply_ite kept, ite_self, foldl_kept, foldDoms_kept, kept_passSlot, kept_issue, kept_norError, kept_breathGone]; done)
  | ((try dsimp only) <;> (repeat' split) <;> simp [kept_mk, kept_eta, apply_ite kept, ite_self, foldl_kept, foldDoms_kept, kept_passSlot, kept_issue, kept_norError, kept_breathGone])
@[simp] theorem kept_bulkCheck (s : State) (x1 : Cmd) (x2 : List Byte) :
    kept (bulkCheck s x1 x2) = kept s := by
  unfold bulkCheck
  first
  | (simp only [kept_mk, kept_eta, apply_ite kept, ite_self, foldl_kept, foldDoms_kept, kept_editUnit, kept_memberFails]; done)
  | ((try dsimp only) <;> (repeat' split) <;> simp only [kept_mk, kept_eta, apply_ite kept, ite_self, foldl_kept, foldDoms_kept, kept_editUnit, kept_memberFails]; done)
  | ((try dsimp only) <;> (repeat' split) <;> simp [kept_mk, kept_eta, apply_ite kept, ite_self, foldl_kept, foldDoms_kept, kept_editUnit, kept_memberFails])
@[simp] theorem kept_feedWrites (s : State) :
    kept (feedWrites s) = kept s := by
  unfold feedWrites
  first
  | (simp only [kept_mk, kept_eta, apply_ite kept, ite_self, foldl_kept, foldDoms_kept]; done)
  | ((try dsimp only) <;> (repeat' split) <;> simp only [kept_mk, kept_eta, apply_ite kept, ite_self, foldl_kept, foldDoms_kept]; done)
  | ((try dsimp only) <;> (repeat' split) <;> simp [kept_mk, kept_eta, apply_ite kept, ite_self, foldl_kept, foldDoms_kept])
@[simp] theorem kept_fabricStop (s : State) (x1 : Nat) (x2 : Nat) (x3 : Nat) :
    kept (fabricStop s x1 x2 x3) = kept s := by
  unfold fabricStop
  first
  | (simp only [kept_mk, kept_eta, apply_ite kept, ite_self, foldl_kept, foldDoms_kept, kept_feedWrites, kept_raise, kept_setPort]; done)
  | ((try dsimp only) <;> (repeat' split) <;> simp only [kept_mk, kept_eta, apply_ite kept, ite_self, foldl_kept, foldDoms_kept, kept_feedWrites, kept_raise, kept_setPort]; done)
  | ((try dsimp only) <;> (repeat' split) <;> simp [kept_mk, kept_eta, apply_ite kept, ite_self, foldl_kept, foldDoms_kept, kept_feedWrites, kept_raise, kept_setPort])
@[simp] theorem kept_bulkError (s : State) (x1 : Cmd) :
    kept (bulkError s x1) = kept s := by
  unfold bulkError
  first
  | (simp only [kept_mk, kept_eta, apply_ite kept, ite_self, foldl_kept, foldDoms_kept, kept_finish, kept_fabricStop, kept_dropUnit]; done)
  | ((try dsimp only) <;> (repeat' split) <;> simp only [kept_mk, kept_eta, apply_ite kept, ite_self, foldl_kept, foldDoms_kept, kept_finish, kept_fabricStop, kept_dropUnit]; done)
  | ((try dsimp only) <;> (repeat' split) <;> simp [kept_mk, kept_eta, apply_ite kept, ite_self, foldl_kept, foldDoms_kept, kept_finish, kept_fabricStop, kept_dropUnit])
@[simp] theorem kept_busBack (s : State) (x1 : List BusTxn) :
    kept (busBack s x1) = kept s := by
  unfold busBack
  first
  | (simp only [kept_mk, kept_eta, apply_ite kept, ite_self, foldl_kept, foldDoms_kept, kept_busStart]; done)
  | ((try dsimp only) <;> (repeat' split) <;> simp only [kept_mk, kept_eta, apply_ite kept, ite_self, foldl_kept, foldDoms_kept, kept_busStart]; done)
  | ((try dsimp only) <;> (repeat' split) <;> simp [kept_mk, kept_eta, apply_ite kept, ite_self, foldl_kept, foldDoms_kept, kept_busStart])
@[simp] theorem kept_busInit (s : State) :
    kept (busInit s) = kept s := by
  unfold busInit
  first
  | (simp only [kept_mk, kept_eta, apply_ite kept, ite_self, foldl_kept, foldDoms_kept, kept_busBack]; done)
  | ((try dsimp only) <;> (repeat' split) <;> simp only [kept_mk, kept_eta, apply_ite kept, ite_self, foldl_kept, foldDoms_kept, kept_busBack]; done)
  | ((try dsimp only) <;> (repeat' split) <;> simp [kept_mk, kept_eta, apply_ite kept, ite_self, foldl_kept, foldDoms_kept, kept_busBack])
@[simp] theorem kept_busTrim (s : State) (x1 : BusTxn) :
    kept (busTrim s x1) = kept s := by
  unfold busTrim
  first
  | (simp only [kept_mk, kept_eta, apply_ite kept, ite_self, foldl_kept, foldDoms_kept, kept_busStart]; done)
  | ((try dsimp only) <;> (repeat' split) <;> simp only [kept_mk, kept_eta, apply_ite kept, ite_self, foldl_kept, foldDoms_kept, kept_busStart]; done)
  | ((try dsimp only) <;> (repeat' split) <;> simp [kept_mk, kept_eta, apply_ite kept, ite_self, foldl_kept, foldDoms_kept, kept_busStart])
@[simp] theorem kept_clearInput (s : State) :
    kept (clearInput s) = kept s := by
  unfold clearInput
  first
  | (simp only [kept_mk, kept_eta, apply_ite kept, ite_self, foldl_kept, foldDoms_kept]; done)
  | ((try dsimp only) <;> (repeat' split) <;> simp only [kept_mk, kept_eta, apply_ite kept, ite_self, foldl_kept, foldDoms_kept]; done)
  | ((try dsimp only) <;> (repeat' split) <;> simp [kept_mk, kept_eta, apply_ite kept, ite_self, foldl_kept, foldDoms_kept])
@[simp] theorem kept_busyEpoch (x0 : List EpochMeas) (s : State) :
    kept (busyEpoch x0 s) = kept s := by
  unfold busyEpoch
  first
  | (simp only [kept_mk, kept_eta, apply_ite kept, ite_self, foldl_kept, foldDoms_kept, kept_setDoms, kept_addInputEnergy, kept_addEnergy, kept_clearInput]; done)
  | ((try dsimp only) <;> (repeat' split) <;> simp only [kept_mk, kept_eta, apply_ite kept, ite_self, foldl_kept, foldDoms_kept, kept_setDoms, kept_addInputEnergy, kept_addEnergy, kept_clearInput]; done)
  | ((try dsimp only) <;> (repeat' split) <;> simp [kept_mk, kept_eta, apply_ite kept, ite_self, foldl_kept, foldDoms_kept, kept_setDoms, kept_addInputEnergy, kept_addEnergy, kept_clearInput])
@[simp] theorem kept_sysCal (s : State) (x1 : Bool) (x2 : Nat) (x3 : Int) (x4 : Int) :
    kept (sysCal s x1 x2 x3 x4) = kept s := by
  unfold sysCal
  first
  | (simp only [kept_mk, kept_eta, apply_ite kept, ite_self, foldl_kept, foldDoms_kept, kept_queueRecord, kept_setMeter]; done)
  | ((try dsimp only) <;> (repeat' split) <;> simp only [kept_mk, kept_eta, apply_ite kept, ite_self, foldl_kept, foldDoms_kept, kept_queueRecord, kept_setMeter]; done)
  | ((try dsimp only) <;> (repeat' split) <;> simp [kept_mk, kept_eta, apply_ite kept, ite_self, foldl_kept, foldDoms_kept, kept_queueRecord, kept_setMeter])
@[simp] theorem kept_calChannel (x0 : Nat) (s : State) (x2 : CalRaw) :
    kept (calChannel x0 s x2) = kept s := by
  unfold calChannel
  first
  | (simp only [kept_mk, kept_eta, apply_ite kept, ite_self, foldl_kept, foldDoms_kept, kept_setMeter, kept_sysCal, kept_freshBelow]; done)
  | ((try dsimp only) <;> (repeat' split) <;> simp only [kept_mk, kept_eta, apply_ite kept, ite_self, foldl_kept, foldDoms_kept, kept_setMeter, kept_sysCal, kept_freshBelow]; done)
  | ((try dsimp only) <;> (repeat' split) <;> simp [kept_mk, kept_eta, apply_ite kept, ite_self, foldl_kept, foldDoms_kept, kept_setMeter, kept_sysCal, kept_freshBelow])
@[simp] theorem kept_carryTimes (x0 : Nat) (x1 : Nat) (s : State) :
    kept (carryTimes x0 x1 s) = kept s := by
  unfold carryTimes
  first
  | (simp only [kept_mk, kept_eta, apply_ite kept, ite_self, foldl_kept, foldDoms_kept, kept_setDoms, kept_clearInput, kept_setArbChip]; done)
  | ((try dsimp only) <;> (repeat' split) <;> simp only [kept_mk, kept_eta, apply_ite kept, ite_self, foldl_kept, foldDoms_kept, kept_setDoms, kept_clearInput, kept_setArbChip]; done)
  | ((try dsimp only) <;> (repeat' split) <;> simp [kept_mk, kept_eta, apply_ite kept, ite_self, foldl_kept, foldDoms_kept, kept_setDoms, kept_clearInput, kept_setArbChip])
@[simp] theorem kept_reportIsolation (s : State) (x1 : Nat) :
    kept (reportIsolation s x1) = kept s := by
  unfold reportIsolation
  first
  | (simp only [kept_mk, kept_eta, apply_ite kept, ite_self, foldl_kept, foldDoms_kept, kept_report]; done)
  | ((try dsimp only) <;> (repeat' split) <;> simp only [kept_mk, kept_eta, apply_ite kept, ite_self, foldl_kept, foldDoms_kept, kept_report]; done)
  | ((try dsimp only) <;> (repeat' split) <;> simp [kept_mk, kept_eta, apply_ite kept, ite_self, foldl_kept, foldDoms_kept, kept_report])
@[simp] theorem kept_failCell (s : State) (x1 : Nat × Nat) (x2 : Nat) :
    kept (failCell s x1 x2) = kept s := by
  unfold failCell
  first
  | (simp only [kept_mk, kept_eta, apply_ite kept, ite_self, foldl_kept, foldDoms_kept, kept_unparkAll, kept_report, kept_forceDark, kept_reportIsolation, kept_raise, kept_sieveEvent, kept_setCellAt, kept_setDom]; done)
  | ((try dsimp only) <;> (repeat' split) <;> simp only [kept_mk, kept_eta, apply_ite kept, ite_self, foldl_kept, foldDoms_kept, kept_unparkAll, kept_report, kept_forceDark, kept_reportIsolation, kept_raise, kept_sieveEvent, kept_setCellAt, kept_setDom]; done)
  | ((try dsimp only) <;> (repeat' split) <;> simp [kept_mk, kept_eta, apply_ite kept, ite_self, foldl_kept, foldDoms_kept, kept_unparkAll, kept_report, kept_forceDark, kept_reportIsolation, kept_raise, kept_sieveEvent, kept_setCellAt, kept_setDom])
@[simp] theorem kept_cellTestEnd (s : State) (x1 : Nat) (x2 : TestResult) :
    kept (cellTestEnd s x1 x2) = kept s := by
  unfold cellTestEnd
  first
  | (simp only [kept_mk, kept_eta, apply_ite kept, ite_self, foldl_kept, foldDoms_kept, kept_failCell]; done)
  | ((try dsimp only) <;> (repeat' split) <;> simp only [kept_mk, kept_eta, apply_ite kept, ite_self, foldl_kept, foldDoms_kept, kept_failCell]; done)
  | ((try dsimp only) <;> (repeat' split) <;> simp [kept_mk, kept_eta, apply_ite kept, ite_self, foldl_kept, foldDoms_kept, kept_failCell])
@[simp] theorem kept_cellmapChecked (s : State) (x1 : Nat) (x2 : Bool) :
    kept (cellmapChecked s x1 x2) = kept s := by
  unfold cellmapChecked
  first
  | (simp only [kept_mk, kept_eta, apply_ite kept, ite_self, foldl_kept, foldDoms_kept, kept_editUnit, kept_memberFails]; done)
  | ((try dsimp only) <;> (repeat' split) <;> simp only [kept_mk, kept_eta, apply_ite kept, ite_self, foldl_kept, foldDoms_kept, kept_editUnit, kept_memberFails]; done)
  | ((try dsimp only) <;> (repeat' split) <;> simp [kept_mk, kept_eta, apply_ite kept, ite_self, foldl_kept, foldDoms_kept, kept_editUnit, kept_memberFails])
@[simp] theorem kept_charBad (s : State) :
    kept (charBad s) = kept s := by
  unfold charBad
  first
  | (simp only [kept_mk, kept_eta, apply_ite kept, ite_self, foldl_kept, foldDoms_kept, kept_freshBelow, kept_raise]; done)
  | ((try dsimp only) <;> (repeat' split) <;> simp only [kept_mk, kept_eta, apply_ite kept, ite_self, foldl_kept, foldDoms_kept, kept_freshBelow, kept_raise]; done)
  | ((try dsimp only) <;> (repeat' split) <;> simp [kept_mk, kept_eta, apply_ite kept, ite_self, foldl_kept, foldDoms_kept, kept_freshBelow, kept_raise])
@[simp] theorem kept_checkMembers (x0 : Nat) (x1 : Latch) (s : State) (x3 : List Cmd) :
    kept ((checkMembers x0 x1 s x3).1) = kept s := by
  induction x3 generalizing s with
  | nil => rfl
  | cons c rest ih =>
    unfold checkMembers
    dsimp only
    (repeat' split) <;> simp only [kept_mk, kept_eta, apply_ite kept, ite_self, foldl_kept, foldDoms_kept, kept_applyEffect, kept_dropUnit, ih]
@[simp] theorem kept_classReaction (s : State) (x1 : DWord) :
    kept (classReaction s x1) = kept s := by
  unfold classReaction
  first
  | (simp only [kept_mk, kept_eta, apply_ite kept, ite_self, foldl_kept, foldDoms_kept, kept_pulse, kept_enterSafe]; done)
  | ((try dsimp only) <;> (repeat' split) <;> simp only [kept_mk, kept_eta, apply_ite kept, ite_self, foldl_kept, foldDoms_kept, kept_pulse, kept_enterSafe]; done)
  | ((try dsimp only) <;> (repeat' split) <;> simp [kept_mk, kept_eta, apply_ite kept, ite_self, foldl_kept, foldDoms_kept, kept_pulse, kept_enterSafe])
@[simp] theorem kept_mismatchFound (s : State) (x1 : Nat) :
    kept (mismatchFound s x1) = kept s := by
  unfold mismatchFound
  extract_lets c D laneNo old det m0 best first wins src s0 cls m s1 src2
  have h : kept s0 = kept s := by
    show kept (match best with | some b => _ | none => _) = _
    cases best with
    | none => rfl
    | some b => dsimp only; split <;> rfl
  have h1 : kept s1 = kept s := (kept_raise s0 cls 0x11 0x2 laneNo det).trans h
  exact h1
@[simp] theorem kept_cleWordStep (x0 : ClEnv → LaneCtx → ClEff) (s : State) :
    kept (cleWordStep x0 s) = kept s := by
  unfold cleWordStep
  first
  | (simp only [kept_mk, kept_eta, apply_ite kept, ite_self, foldl_kept, foldDoms_kept, kept_mismatchFound]; done)
  | ((try dsimp only) <;> (repeat' split) <;> simp only [kept_mk, kept_eta, apply_ite kept, ite_self, foldl_kept, foldDoms_kept, kept_mismatchFound]; done)
  | ((try dsimp only) <;> (repeat' split) <;> simp [kept_mk, kept_eta, apply_ite kept, ite_self, foldl_kept, foldDoms_kept, kept_mismatchFound])
@[simp] theorem kept_clearLatched (s : State) (x1 : Nat) (x2 : Word) :
    kept (clearLatched s x1 x2) = kept s := by
  unfold clearLatched
  extract_lets
  rfl
@[simp] theorem kept_commitWords (s : State) (x1 : Nat) (x2 : List (Nat × Word)) :
    kept (commitWords s x1 x2) = kept s := by
  unfold commitWords
  first
  | (simp only [kept_mk, kept_eta, apply_ite kept, ite_self, foldl_kept, foldDoms_kept, kept_setDom]; done)
  | ((try dsimp only) <;> (repeat' split) <;> simp only [kept_mk, kept_eta, apply_ite kept, ite_self, foldl_kept, foldDoms_kept, kept_setDom]; done)
  | ((try dsimp only) <;> (repeat' split) <;> simp [kept_mk, kept_eta, apply_ite kept, ite_self, foldl_kept, foldDoms_kept, kept_setDom])
@[simp] theorem kept_consumerBell (s : State) (x1 : Nat) (x2 : Nat) (x3 : Word) :
    kept (consumerBell s x1 x2 x3) = kept s := by
  unfold consumerBell
  first
  | (simp only [kept_mk, kept_eta, apply_ite kept, ite_self, foldl_kept, foldDoms_kept, kept_badBell, kept_setPort]; done)
  | ((try dsimp only) <;> (repeat' split) <;> simp only [kept_mk, kept_eta, apply_ite kept, ite_self, foldl_kept, foldDoms_kept, kept_badBell, kept_setPort]; done)
  | ((try dsimp only) <;> (repeat' split) <;> simp [kept_mk, kept_eta, apply_ite kept, ite_self, foldl_kept, foldDoms_kept, kept_badBell, kept_setPort])
@[simp] theorem kept_withdrawPort (s : State) (x1 : Nat) :
    kept (withdrawPort s x1) = kept s := by
  unfold withdrawPort
  first
  | (simp only [kept_mk, kept_eta, apply_ite kept, ite_self, foldl_kept, foldDoms_kept]; done)
  | ((try dsimp only) <;> (repeat' split) <;> simp only [kept_mk, kept_eta, apply_ite kept, ite_self, foldl_kept, foldDoms_kept]; done)
  | ((try dsimp only) <;> (repeat' split) <;> simp [kept_mk, kept_eta, apply_ite kept, ite_self, foldl_kept, foldDoms_kept])
@[simp] theorem kept_portResetEffect (s : State) (x1 : Nat) :
    kept (portResetEffect s x1) = kept s := by
  unfold portResetEffect
  first
  | (simp only [kept_mk, kept_eta, apply_ite kept, ite_self, foldl_kept, foldDoms_kept, kept_withdrawPort, kept_feedWrites, kept_setPort]; done)
  | ((try dsimp only) <;> (repeat' split) <;> simp only [kept_mk, kept_eta, apply_ite kept, ite_self, foldl_kept, foldDoms_kept, kept_withdrawPort, kept_feedWrites, kept_setPort]; done)
  | ((try dsimp only) <;> (repeat' split) <;> simp [kept_mk, kept_eta, apply_ite kept, ite_self, foldl_kept, foldDoms_kept, kept_withdrawPort, kept_feedWrites, kept_setPort])
@[simp] theorem kept_setClaim (s : State) (x1 : Nat) (x2 : Option (Fin 256)) :
    kept (setClaim s x1 x2) = kept s := by
  unfold setClaim
  first
  | (simp only [kept_mk, kept_eta, apply_ite kept, ite_self, foldl_kept, foldDoms_kept, kept_setPort]; done)
  | ((try dsimp only) <;> (repeat' split) <;> simp only [kept_mk, kept_eta, apply_ite kept, ite_self, foldl_kept, foldDoms_kept, kept_setPort]; done)
  | ((try dsimp only) <;> (repeat' split) <;> simp [kept_mk, kept_eta, apply_ite kept, ite_self, foldl_kept, foldDoms_kept, kept_setPort])
@[simp] theorem kept_resetMc (s : State) :
    kept (resetMc s) = kept s := by
  unfold resetMc
  first
  | (simp only [kept_mk, kept_eta, apply_ite kept, ite_self, foldl_kept, foldDoms_kept, kept_setClaim]; done)
  | ((try dsimp only) <;> (repeat' split) <;> simp only [kept_mk, kept_eta, apply_ite kept, ite_self, foldl_kept, foldDoms_kept, kept_setClaim]; done)
  | ((try dsimp only) <;> (repeat' split) <;> simp [kept_mk, kept_eta, apply_ite kept, ite_self, foldl_kept, foldDoms_kept, kept_setClaim])
@[simp] theorem kept_stretchUpdate (s : State) :
    kept (stretchUpdate s) = kept s := by
  unfold stretchUpdate
  first
  | (simp only [kept_mk, kept_eta, apply_ite kept, ite_self, foldl_kept, foldDoms_kept, kept_setClk]; done)
  | ((try dsimp only) <;> (repeat' split) <;> simp only [kept_mk, kept_eta, apply_ite kept, ite_self, foldl_kept, foldDoms_kept, kept_setClk]; done)
  | ((try dsimp only) <;> (repeat' split) <;> simp [kept_mk, kept_eta, apply_ite kept, ite_self, foldl_kept, foldDoms_kept, kept_setClk])
@[simp] theorem kept_endForce (s : State) :
    kept (endForce s) = kept s := by
  unfold endForce
  first
  | (simp only [kept_mk, kept_eta, apply_ite kept, ite_self, foldl_kept, foldDoms_kept, kept_stretchUpdate, kept_staleUpdate, kept_setClk]; done)
  | ((try dsimp only) <;> (repeat' split) <;> simp only [kept_mk, kept_eta, apply_ite kept, ite_self, foldl_kept, foldDoms_kept, kept_stretchUpdate, kept_staleUpdate, kept_setClk]; done)
  | ((try dsimp only) <;> (repeat' split) <;> simp [kept_mk, kept_eta, apply_ite kept, ite_self, foldl_kept, foldDoms_kept, kept_stretchUpdate, kept_staleUpdate, kept_setClk])
@[simp] theorem kept_endSafe (s : State) :
    kept (endSafe s) = kept s := by
  unfold endSafe
  first
  | (simp only [kept_mk, kept_eta, apply_ite kept, ite_self, foldl_kept, foldDoms_kept, kept_darkAll]; done)
  | ((try dsimp only) <;> (repeat' split) <;> simp only [kept_mk, kept_eta, apply_ite kept, ite_self, foldl_kept, foldDoms_kept, kept_darkAll]; done)
  | ((try dsimp only) <;> (repeat' split) <;> simp [kept_mk, kept_eta, apply_ite kept, ite_self, foldl_kept, foldDoms_kept, kept_darkAll])
@[simp] theorem kept_holdDomain (s : State) (x1 : Nat) (x2 : HeldWhy) :
    kept (holdDomain s x1 x2) = kept s := by
  unfold holdDomain
  first
  | (simp only [kept_mk, kept_eta, apply_ite kept, ite_self, foldl_kept, foldDoms_kept, kept_report, kept_forceDark, kept_setMembers]; done)
  | ((try dsimp only) <;> (repeat' split) <;> simp only [kept_mk, kept_eta, apply_ite kept, ite_self, foldl_kept, foldDoms_kept, kept_report, kept_forceDark, kept_setMembers]; done)
  | ((try dsimp only) <;> (repeat' split) <;> simp [kept_mk, kept_eta, apply_ite kept, ite_self, foldl_kept, foldDoms_kept, kept_report, kept_forceDark, kept_setMembers])
@[simp] theorem kept_controlResetNow (x0 : BitVec 6) (x1 : Bool) (s : State) :
    kept (controlResetNow x0 x1 s) = kept s := by
  unfold controlResetNow
  first
  | (simp only [kept_mk, kept_eta, apply_ite kept, ite_self, foldl_kept, foldDoms_kept, kept_portResetEffect, kept_resetMc, kept_abandonTests, kept_atOnce, kept_endForce, kept_endSafe, kept_setArbChip, kept_setClk, kept_holdDomain]; done)
  | ((try dsimp only) <;> (repeat' split) <;> simp only [kept_mk, kept_eta, apply_ite kept, ite_self, foldl_kept, foldDoms_kept, kept_portResetEffect, kept_resetMc, kept_abandonTests, kept_atOnce, kept_endForce, kept_endSafe, kept_setArbChip, kept_setClk, kept_holdDomain]; done)
  | ((try dsimp only) <;> (repeat' split) <;> simp [kept_mk, kept_eta, apply_ite kept, ite_self, foldl_kept, foldDoms_kept, kept_portResetEffect, kept_resetMc, kept_abandonTests, kept_atOnce, kept_endForce, kept_endSafe, kept_setArbChip, kept_setClk, kept_holdDomain])
@[simp] theorem kept_coolCheck (s : State) :
    kept (coolCheck s) = kept s := by
  unfold coolCheck
  first
  | (simp only [kept_mk, kept_eta, apply_ite kept, ite_self, foldl_kept, foldDoms_kept, kept_setTherm]; done)
  | ((try dsimp only) <;> (repeat' split) <;> simp only [kept_mk, kept_eta, apply_ite kept, ite_self, foldl_kept, foldDoms_kept, kept_setTherm]; done)
  | ((try dsimp only) <;> (repeat' split) <;> simp [kept_mk, kept_eta, apply_ite kept, ite_self, foldl_kept, foldDoms_kept, kept_setTherm])
@[simp] theorem kept_countFault (s : State) (x1 : DWord) :
    kept (countFault s x1) = kept s := by
  unfold countFault
  first
  | (simp only [kept_mk, kept_eta, apply_ite kept, ite_self, foldl_kept, foldDoms_kept]; done)
  | ((try dsimp only) <;> (repeat' split) <;> simp only [kept_mk, kept_eta, apply_ite kept, ite_self, foldl_kept, foldDoms_kept]; done)
  | ((try dsimp only) <;> (repeat' split) <;> simp [kept_mk, kept_eta, apply_ite kept, ite_self, foldl_kept, foldDoms_kept])
@[simp] theorem kept_countGap (s : State) :
    kept (countGap s) = kept s := by
  unfold countGap
  first
  | (simp only [kept_mk, kept_eta, apply_ite kept, ite_self, foldl_kept, foldDoms_kept]; done)
  | ((try dsimp only) <;> (repeat' split) <;> simp only [kept_mk, kept_eta, apply_ite kept, ite_self, foldl_kept, foldDoms_kept]; done)
  | ((try dsimp only) <;> (repeat' split) <;> simp [kept_mk, kept_eta, apply_ite kept, ite_self, foldl_kept, foldDoms_kept])
@[simp] theorem kept_declareFailed (s : State) (x1 : Nat) (x2 : Nat) :
    kept (declareFailed s x1 x2) = kept s := by
  unfold declareFailed
  first
  | (simp only [kept_mk, kept_eta, apply_ite kept, ite_self, foldl_kept, foldDoms_kept, kept_setTherm, kept_raise]; done)
  | ((try dsimp only) <;> (repeat' split) <;> simp only [kept_mk, kept_eta, apply_ite kept, ite_self, foldl_kept, foldDoms_kept, kept_setTherm, kept_raise]; done)
  | ((try dsimp only) <;> (repeat' split) <;> simp [kept_mk, kept_eta, apply_ite kept, ite_self, foldl_kept, foldDoms_kept, kept_setTherm, kept_raise])
@[simp] theorem kept_derateLatch (s : State) (x1 : Nat) :
    kept (derateLatch s x1) = kept s := by
  unfold derateLatch
  first
  | (simp only [kept_mk, kept_eta, apply_ite kept, ite_self, foldl_kept, foldDoms_kept, kept_driveThr, kept_setArb]; done)
  | ((try dsimp only) <;> (repeat' split) <;> simp only [kept_mk, kept_eta, apply_ite kept, ite_self, foldl_kept, foldDoms_kept, kept_driveThr, kept_setArb]; done)
  | ((try dsimp only) <;> (repeat' split) <;> simp [kept_mk, kept_eta, apply_ite kept, ite_self, foldl_kept, foldDoms_kept, kept_driveThr, kept_setArb])
@[simp] theorem kept_descentDone (s : State) (x1 : Nat) :
    kept (descentDone s x1) = kept s := by
  unfold descentDone
  first
  | (simp only [kept_mk, kept_eta, apply_ite kept, ite_self, foldl_kept, foldDoms_kept, kept_report, kept_setDom]; done)
  | ((try dsimp only) <;> (repeat' split) <;> simp only [kept_mk, kept_eta, apply_ite kept, ite_self, foldl_kept, foldDoms_kept, kept_report, kept_setDom]; done)
  | ((try dsimp only) <;> (repeat' split) <;> simp [kept_mk, kept_eta, apply_ite kept, ite_self, foldl_kept, foldDoms_kept, kept_report, kept_setDom])
@[simp] theorem kept_domArb (s : State) (x1 : Nat) :
    kept (domArb s x1) = kept s := by
  unfold domArb
  first
  | (simp only [kept_mk, kept_eta, apply_ite kept, ite_self, foldl_kept, foldDoms_kept, kept_arbFrame]; done)
  | ((try dsimp only) <;> (repeat' split) <;> simp only [kept_mk, kept_eta, apply_ite kept, ite_self, foldl_kept, foldDoms_kept, kept_arbFrame]; done)
  | ((try dsimp only) <;> (repeat' split) <;> simp [kept_mk, kept_eta, apply_ite kept, ite_self, foldl_kept, foldDoms_kept, kept_arbFrame])
@[simp] theorem kept_lagFrame (s : State) (x1 : Nat) :
    kept (lagFrame s x1) = kept s := by
  unfold lagFrame
  first
  | (simp only [kept_mk, kept_eta, apply_ite kept, ite_self, foldl_kept, foldDoms_kept, kept_setArb]; done)
  | ((try dsimp only) <;> (repeat' split) <;> simp only [kept_mk, kept_eta, apply_ite kept, ite_self, foldl_kept, foldDoms_kept, kept_setArb]; done)
  | ((try dsimp only) <;> (repeat' split) <;> simp [kept_mk, kept_eta, apply_ite kept, ite_self, foldl_kept, foldDoms_kept, kept_setArb])
@[simp] theorem kept_domCount (s : State) (x1 : Nat) :
    kept (domCount s x1) = kept s := by
  unfold domCount
  first
  | (simp only [kept_mk, kept_eta, apply_ite kept, ite_self, foldl_kept, foldDoms_kept, kept_lagFrame, kept_arbCount]; done)
  | ((try dsimp only) <;> (repeat' split) <;> simp only [kept_mk, kept_eta, apply_ite kept, ite_self, foldl_kept, foldDoms_kept, kept_lagFrame, kept_arbCount]; done)
  | ((try dsimp only) <;> (repeat' split) <;> simp [kept_mk, kept_eta, apply_ite kept, ite_self, foldl_kept, foldDoms_kept, kept_lagFrame, kept_arbCount])
@[simp] theorem kept_profFrame (s : State) (x1 : Nat) :
    kept (profFrame s x1) = kept s := by
  unfold profFrame
  first
  | (simp only [kept_mk, kept_eta, apply_ite kept, ite_self, foldl_kept, foldDoms_kept, kept_setDom]; done)
  | ((try dsimp only) <;> (repeat' split) <;> simp only [kept_mk, kept_eta, apply_ite kept, ite_self, foldl_kept, foldDoms_kept, kept_setDom]; done)
  | ((try dsimp only) <;> (repeat' split) <;> simp [kept_mk, kept_eta, apply_ite kept, ite_self, foldl_kept, foldDoms_kept, kept_setDom])
@[simp] theorem kept_rampDone (s : State) (x1 : Nat) :
    kept (rampDone s x1) = kept s := by
  unfold rampDone
  first
  | (simp only [kept_mk, kept_eta, apply_ite kept, ite_self, foldl_kept, foldDoms_kept, kept_setMembers]; done)
  | ((try dsimp only) <;> (repeat' split) <;> simp only [kept_mk, kept_eta, apply_ite kept, ite_self, foldl_kept, foldDoms_kept, kept_setMembers]; done)
  | ((try dsimp only) <;> (repeat' split) <;> simp [kept_mk, kept_eta, apply_ite kept, ite_self, foldl_kept, foldDoms_kept, kept_setMembers])
@[simp] theorem kept_softStartFrame (s : State) (x1 : Nat) :
    kept (softStartFrame s x1) = kept s := by
  unfold softStartFrame
  first
  | (simp only [kept_mk, kept_eta, apply_ite kept, ite_self, foldl_kept, foldDoms_kept, kept_beginLeg2, kept_beginLeg1, kept_setMembers]; done)
  | ((try dsimp only) <;> (repeat' split) <;> simp only [kept_mk, kept_eta, apply_ite kept, ite_self, foldl_kept, foldDoms_kept, kept_beginLeg2, kept_beginLeg1, kept_setMembers]; done)
  | ((try dsimp only) <;> (repeat' split) <;> simp [kept_mk, kept_eta, apply_ite kept, ite_self, foldl_kept, foldDoms_kept, kept_beginLeg2, kept_beginLeg1, kept_setMembers])
@[simp] theorem kept_profileFrame (s : State) (x1 : Nat) :
    kept (profileFrame s x1) = kept s := by
  unfold profileFrame
  first
  | (simp only [kept_mk, kept_eta, apply_ite kept, ite_self, foldl_kept, foldDoms_kept, kept_profFrame, kept_rampDone, kept_setDroop, kept_softStartFrame, kept_descentDone]; done)
  | ((try dsimp only) <;> (repeat' split) <;> simp only [kept_mk, kept_eta, apply_ite kept, ite_self, foldl_kept, foldDoms_kept, kept_profFrame, kept_rampDone, kept_setDroop, kept_softStartFrame, kept_descentDone]; done)
  | ((try dsimp only) <;> (repeat' split) <;> simp [kept_mk, kept_eta, apply_ite kept, ite_self, foldl_kept, foldDoms_kept, kept_profFrame, kept_rampDone, kept_setDroop, kept_softStartFrame, kept_descentDone])
@[simp] theorem kept_rcFrame (s : State) (x1 : Nat) :
    kept (rcFrame s x1) = kept s := by
  unfold rcFrame
  first
  | (simp only [kept_mk, kept_eta, apply_ite kept, ite_self, foldl_kept, foldDoms_kept, kept_setRc, kept_setDom]; done)
  | ((try dsimp only) <;> (repeat' split) <;> simp only [kept_mk, kept_eta, apply_ite kept, ite_self, foldl_kept, foldDoms_kept, kept_setRc, kept_setDom]; done)
  | ((try dsimp only) <;> (repeat' split) <;> simp [kept_mk, kept_eta, apply_ite kept, ite_self, foldl_kept, foldDoms_kept, kept_setRc, kept_setDom])
@[simp] theorem kept_joinFrame (s : State) (x1 : Nat) :
    kept (joinFrame s x1) = kept s := by
  unfold joinFrame
  first
  | (simp only [kept_mk, kept_eta, apply_ite kept, ite_self, foldl_kept, foldDoms_kept, kept_unparkAll, kept_supAgain]; done)
  | ((try dsimp only) <;> (repeat' split) <;> simp only [kept_mk, kept_eta, apply_ite kept, ite_self, foldl_kept, foldDoms_kept, kept_unparkAll, kept_supAgain]; done)
  | ((try dsimp only) <;> (repeat' split) <;> simp [kept_mk, kept_eta, apply_ite kept, ite_self, foldl_kept, foldDoms_kept, kept_unparkAll, kept_supAgain])
@[simp] theorem kept_legImage (s : State) (x1 : Nat) (x2 : Trans) :
    kept (legImage s x1 x2) = kept s := by
  unfold legImage
  first
  | (simp only [kept_mk, kept_eta, apply_ite kept, ite_self, foldl_kept, foldDoms_kept, kept_loadInit]; done)
  | ((try dsimp only) <;> (repeat' split) <;> simp only [kept_mk, kept_eta, apply_ite kept, ite_self, foldl_kept, foldDoms_kept, kept_loadInit]; done)
  | ((try dsimp only) <;> (repeat' split) <;> simp [kept_mk, kept_eta, apply_ite kept, ite_self, foldl_kept, foldDoms_kept, kept_loadInit])
@[simp] theorem kept_pulseGo (s : State) (x1 : Nat) :
    kept (pulseGo s x1) = kept s := by
  unfold pulseGo
  first
  | (simp only [kept_mk, kept_eta, apply_ite kept, ite_self, foldl_kept, foldDoms_kept, kept_setTiles]; done)
  | ((try dsimp only) <;> (repeat' split) <;> simp only [kept_mk, kept_eta, apply_ite kept, ite_self, foldl_kept, foldDoms_kept, kept_setTiles]; done)
  | ((try dsimp only) <;> (repeat' split) <;> simp [kept_mk, kept_eta, apply_ite kept, ite_self, foldl_kept, foldDoms_kept, kept_setTiles])
@[simp] theorem kept_tryGo (s : State) (x1 : Nat) (x2 : FreqChange) :
    kept (tryGo s x1 x2) = kept s := by
  unfold tryGo
  first
  | (simp only [kept_mk, kept_eta, apply_ite kept, ite_self, foldl_kept, foldDoms_kept, kept_editChange, kept_pulseGo]; done)
  | ((try dsimp only) <;> (repeat' split) <;> simp only [kept_mk, kept_eta, apply_ite kept, ite_self, foldl_kept, foldDoms_kept, kept_editChange, kept_pulseGo]; done)
  | ((try dsimp only) <;> (repeat' split) <;> simp [kept_mk, kept_eta, apply_ite kept, ite_self, foldl_kept, foldDoms_kept, kept_editChange, kept_pulseGo])
@[simp] theorem kept_releaseClock (s : State) (x1 : Nat) :
    kept (releaseClock s x1) = kept s := by
  unfold releaseClock
  first
  | (simp only [kept_mk, kept_eta, apply_ite kept, ite_self, foldl_kept, foldDoms_kept, kept_holdClock]; done)
  | ((try dsimp only) <;> (repeat' split) <;> simp only [kept_mk, kept_eta, apply_ite kept, ite_self, foldl_kept, foldDoms_kept, kept_holdClock]; done)
  | ((try dsimp only) <;> (repeat' split) <;> simp [kept_mk, kept_eta, apply_ite kept, ite_self, foldl_kept, foldDoms_kept, kept_holdClock])
@[simp] theorem kept_takeAck (s : State) (x1 : Nat) :
    kept (takeAck s x1) = kept s := by
  unfold takeAck
  first
  | (simp only [kept_mk, kept_eta, apply_ite kept, ite_self, foldl_kept, foldDoms_kept, kept_setTiles, kept_driveReq]; done)
  | ((try dsimp only) <;> (repeat' split) <;> simp only [kept_mk, kept_eta, apply_ite kept, ite_self, foldl_kept, foldDoms_kept, kept_setTiles, kept_driveReq]; done)
  | ((try dsimp only) <;> (repeat' split) <;> simp [kept_mk, kept_eta, apply_ite kept, ite_self, foldl_kept, foldDoms_kept, kept_setTiles, kept_driveReq])
@[simp] theorem kept_tryRequest (s : State) (x1 : Nat) (x2 : FreqChange) :
    kept (tryRequest s x1 x2) = kept s := by
  unfold tryRequest
  first
  | (simp only [kept_mk, kept_eta, apply_ite kept, ite_self, foldl_kept, foldDoms_kept, kept_editChange, kept_driveReq]; done)
  | ((try dsimp only) <;> (repeat' split) <;> simp only [kept_mk, kept_eta, apply_ite kept, ite_self, foldl_kept, foldDoms_kept, kept_editChange, kept_driveReq]; done)
  | ((try dsimp only) <;> (repeat' split) <;> simp [kept_mk, kept_eta, apply_ite kept, ite_self, foldl_kept, foldDoms_kept, kept_editChange, kept_driveReq])
@[simp] theorem kept_freqFrame (s : State) (x1 : Nat) :
    kept (freqFrame s x1) = kept s := by
  unfold freqFrame
  first
  | (simp only [kept_mk, kept_eta, apply_ite kept, ite_self, foldl_kept, foldDoms_kept, kept_tryGo, kept_setTiles, kept_planChange, kept_releaseClock, kept_takeAck, kept_tryRequest]; done)
  | ((try dsimp only) <;> (repeat' split) <;> simp only [kept_mk, kept_eta, apply_ite kept, ite_self, foldl_kept, foldDoms_kept, kept_tryGo, kept_setTiles, kept_planChange, kept_releaseClock, kept_takeAck, kept_tryRequest]; done)
  | ((try dsimp only) <;> (repeat' split) <;> simp [kept_mk, kept_eta, apply_ite kept, ite_self, foldl_kept, foldDoms_kept, kept_tryGo, kept_setTiles, kept_planChange, kept_releaseClock, kept_takeAck, kept_tryRequest])
@[simp] theorem kept_presentPred (s : State) (x1 : Nat) (x2 : Nat) :
    kept (presentPred s x1 x2) = kept s := by
  unfold presentPred
  first
  | (simp only [kept_mk, kept_eta, apply_ite kept, ite_self, foldl_kept, foldDoms_kept, kept_setDom]; done)
  | ((try dsimp only) <;> (repeat' split) <;> simp only [kept_mk, kept_eta, apply_ite kept, ite_self, foldl_kept, foldDoms_kept, kept_setDom]; done)
  | ((try dsimp only) <;> (repeat' split) <;> simp [kept_mk, kept_eta, apply_ite kept, ite_self, foldl_kept, foldDoms_kept, kept_setDom])
@[simp] theorem kept_errFrame (s : State) (x1 : Nat) :
    kept (errFrame s x1) = kept s := by
  unfold errFrame
  first
  | (simp only [kept_mk, kept_eta, apply_ite kept, ite_self, foldl_kept, foldDoms_kept, kept_setDom]; done)
  | ((try dsimp only) <;> (repeat' split) <;> simp only [kept_mk, kept_eta, apply_ite kept, ite_self, foldl_kept, foldDoms_kept, kept_setDom]; done)
  | ((try dsimp only) <;> (repeat' split) <;> simp [kept_mk, kept_eta, apply_ite kept, ite_self, foldl_kept, foldDoms_kept, kept_setDom])
@[simp] theorem kept_domFrame (x0 : Nat) (s : State) (x2 : Nat) :
    kept (domFrame x0 s x2) = kept s := by
  unfold domFrame
  first
  | (simp only [kept_mk, kept_eta, apply_ite kept, ite_self, foldl_kept, foldDoms_kept, kept_profileFrame, kept_rcFrame, kept_joinFrame, kept_legImage, kept_freqFrame, kept_presentPred, kept_errFrame]; done)
  | ((try dsimp only) <;> (repeat' split) <;> simp only [kept_mk, kept_eta, apply_ite kept, ite_self, foldl_kept, foldDoms_kept, kept_profileFrame, kept_rcFrame, kept_joinFrame, kept_legImage, kept_freqFrame, kept_presentPred, kept_errFrame]; done)
  | ((try dsimp only) <;> (repeat' split) <;> simp [kept_mk, kept_eta, apply_ite kept, ite_self, foldl_kept, foldDoms_kept, kept_profileFrame, kept_rcFrame, kept_joinFrame, kept_legImage, kept_freqFrame, kept_presentPred, kept_errFrame])
@[simp] theorem kept_downCut (s : State) (x1 : Nat) :
    kept (downCut s x1) = kept s := by
  unfold downCut
  first
  | (simp only [kept_mk, kept_eta, apply_ite kept, ite_self, foldl_kept, foldDoms_kept, kept_setDom]; done)
  | ((try dsimp only) <;> (repeat' split) <;> simp only [kept_mk, kept_eta, apply_ite kept, ite_self, foldl_kept, foldDoms_kept, kept_setDom]; done)
  | ((try dsimp only) <;> (repeat' split) <;> simp [kept_mk, kept_eta, apply_ite kept, ite_self, foldl_kept, foldDoms_kept, kept_setDom])
@[simp] theorem kept_downBadFrame (s : State) (x1 : Nat) :
    kept (downBadFrame s x1) = kept s := by
  unfold downBadFrame
  first
  | (simp only [kept_mk, kept_eta, apply_ite kept, ite_self, foldl_kept, foldDoms_kept, kept_badFrame, kept_setLink, kept_downCut]; done)
  | ((try dsimp only) <;> (repeat' split) <;> simp only [kept_mk, kept_eta, apply_ite kept, ite_self, foldl_kept, foldDoms_kept, kept_badFrame, kept_setLink, kept_downCut]; done)
  | ((try dsimp only) <;> (repeat' split) <;> simp [kept_mk, kept_eta, apply_ite kept, ite_self, foldl_kept, foldDoms_kept, kept_badFrame, kept_setLink, kept_downCut])
@[simp] theorem kept_downGood (s : State) (x1 : Nat) :
    kept (downGood s x1) = kept s := by
  unfold downGood
  first
  | (simp only [kept_mk, kept_eta, apply_ite kept, ite_self, foldl_kept, foldDoms_kept, kept_setLink]; done)
  | ((try dsimp only) <;> (repeat' split) <;> simp only [kept_mk, kept_eta, apply_ite kept, ite_self, foldl_kept, foldDoms_kept, kept_setLink]; done)
  | ((try dsimp only) <;> (repeat' split) <;> simp [kept_mk, kept_eta, apply_ite kept, ite_self, foldl_kept, foldDoms_kept, kept_setLink])
@[simp] theorem kept_drainPort (s : State) (x1 : Nat) :
    kept (drainPort s x1) = kept s := by
  unfold drainPort
  first
  | (simp only [kept_mk, kept_eta, apply_ite kept, ite_self, foldl_kept, foldDoms_kept, kept_setPort]; done)
  | ((try dsimp only) <;> (repeat' split) <;> simp only [kept_mk, kept_eta, apply_ite kept, ite_self, foldl_kept, foldDoms_kept, kept_setPort]; done)
  | ((try dsimp only) <;> (repeat' split) <;> simp [kept_mk, kept_eta, apply_ite kept, ite_self, foldl_kept, foldDoms_kept, kept_setPort])
@[simp] theorem kept_droopLatch (s : State) (x1 : Nat) :
    kept (droopLatch s x1) = kept s := by
  unfold droopLatch
  first
  | (simp only [kept_mk, kept_eta, apply_ite kept, ite_self, foldl_kept, foldDoms_kept, kept_setDroop, kept_setMembers]; done)
  | ((try dsimp only) <;> (repeat' split) <;> simp only [kept_mk, kept_eta, apply_ite kept, ite_self, foldl_kept, foldDoms_kept, kept_setDroop, kept_setMembers]; done)
  | ((try dsimp only) <;> (repeat' split) <;> simp [kept_mk, kept_eta, apply_ite kept, ite_self, foldl_kept, foldDoms_kept, kept_setDroop, kept_setMembers])
@[simp] theorem kept_steadyReport (s : State) (x1 : Nat) (x2 : Nat) (x3 : Nat) :
    kept (steadyReport s x1 x2 x3) = kept s := by
  unfold steadyReport
  first
  | (simp only [kept_mk, kept_eta, apply_ite kept, ite_self, foldl_kept, foldDoms_kept, kept_setDroop, kept_freshBelow, kept_raise]; done)
  | ((try dsimp only) <;> (repeat' split) <;> simp only [kept_mk, kept_eta, apply_ite kept, ite_self, foldl_kept, foldDoms_kept, kept_setDroop, kept_freshBelow, kept_raise]; done)
  | ((try dsimp only) <;> (repeat' split) <;> simp [kept_mk, kept_eta, apply_ite kept, ite_self, foldl_kept, foldDoms_kept, kept_setDroop, kept_freshBelow, kept_raise])
@[simp] theorem kept_dt3Action (s : State) (x1 : Nat) (x2 : Nat) :
    kept (dt3Action s x1 x2) = kept s := by
  unfold dt3Action
  first
  | (simp only [kept_mk, kept_eta, apply_ite kept, ite_self, foldl_kept, foldDoms_kept, kept_steadyReport, kept_setDroop, kept_driveThr]; done)
  | ((try dsimp only) <;> (repeat' split) <;> simp only [kept_mk, kept_eta, apply_ite kept, ite_self, foldl_kept, foldDoms_kept, kept_steadyReport, kept_setDroop, kept_driveThr]; done)
  | ((try dsimp only) <;> (repeat' split) <;> simp [kept_mk, kept_eta, apply_ite kept, ite_self, foldl_kept, foldDoms_kept, kept_steadyReport, kept_setDroop, kept_driveThr])
@[simp] theorem kept_dueResets (x0 : Nat) (s : State) :
    kept (dueResets x0 s) = kept s := by
  unfold dueResets
  exact foldl_kept _ _ _ (fun s x => by split <;> (try split) <;> simp only [kept_mk, kept_eta, apply_ite kept, ite_self, foldl_kept, foldDoms_kept, kept_portResetEffect])
@[simp] theorem kept_eccCorr (s : State) (x1 : Nat) (x2 : Nat) (x3 : Nat) :
    kept (eccCorr s x1 x2 x3) = kept s := by
  unfold eccCorr
  first
  | (simp only [kept_mk, kept_eta, apply_ite kept, ite_self, foldl_kept, foldDoms_kept, kept_raise]; done)
  | ((try dsimp only) <;> (repeat' split) <;> simp only [kept_mk, kept_eta, apply_ite kept, ite_self, foldl_kept, foldDoms_kept, kept_raise]; done)
  | ((try dsimp only) <;> (repeat' split) <;> simp [kept_mk, kept_eta, apply_ite kept, ite_self, foldl_kept, foldDoms_kept, kept_raise])
@[simp] theorem kept_eccUnc (s : State) (x1 : Nat) (x2 : Nat) (x3 : Nat) :
    kept (eccUnc s x1 x2 x3) = kept s := by
  unfold eccUnc
  first
  | (simp only [kept_mk, kept_eta, apply_ite kept, ite_self, foldl_kept, foldDoms_kept, kept_raise]; done)
  | ((try dsimp only) <;> (repeat' split) <;> simp only [kept_mk, kept_eta, apply_ite kept, ite_self, foldl_kept, foldDoms_kept, kept_raise]; done)
  | ((try dsimp only) <;> (repeat' split) <;> simp [kept_mk, kept_eta, apply_ite kept, ite_self, foldl_kept, foldDoms_kept, kept_raise])
@[simp] theorem kept_recordTables (x0 : CharRecord) (s : State) :
    kept (recordTables x0 s) = kept s := by
  unfold recordTables
  first
  | (simp only [kept_mk, kept_eta, apply_ite kept, ite_self, foldl_kept, foldDoms_kept, kept_setDoms]; done)
  | ((try dsimp only) <;> (repeat' split) <;> simp only [kept_mk, kept_eta, apply_ite kept, ite_self, foldl_kept, foldDoms_kept, kept_setDoms]; done)
  | ((try dsimp only) <;> (repeat' split) <;> simp [kept_mk, kept_eta, apply_ite kept, ite_self, foldl_kept, foldDoms_kept, kept_setDoms])
@[simp] theorem kept_installRecord (x0 : CharRecord) (s : State) :
    kept (installRecord x0 s) = kept s := by
  unfold installRecord
  first
  | (simp only [kept_mk, kept_eta, apply_ite kept, ite_self, foldl_kept, foldDoms_kept, kept_setTherm, kept_recordTables, kept_absentSites, kept_busInit]; done)
  | ((try dsimp only) <;> (repeat' split) <;> simp only [kept_mk, kept_eta, apply_ite kept, ite_self, foldl_kept, foldDoms_kept, kept_setTherm, kept_recordTables, kept_absentSites, kept_busInit]; done)
  | ((try dsimp only) <;> (repeat' split) <;> simp [kept_mk, kept_eta, apply_ite kept, ite_self, foldl_kept, foldDoms_kept, kept_setTherm, kept_recordTables, kept_absentSites, kept_busInit])
@[simp] theorem kept_endCharLoad (s : State) (x1 : Cmd) (x2 : Option CharRecord) :
    kept (endCharLoad s x1 x2) = kept s := by
  unfold endCharLoad
  first
  | (simp only [kept_mk, kept_eta, apply_ite kept, ite_self, foldl_kept, foldDoms_kept, kept_charBad, kept_finish, kept_installRecord, kept_dropUnit]; done)
  | ((try dsimp only) <;> (repeat' split) <;> simp only [kept_mk, kept_eta, apply_ite kept, ite_self, foldl_kept, foldDoms_kept, kept_charBad, kept_finish, kept_installRecord, kept_dropUnit]; done)
  | ((try dsimp only) <;> (repeat' split) <;> simp [kept_mk, kept_eta, apply_ite kept, ite_self, foldl_kept, foldDoms_kept, kept_charBad, kept_finish, kept_installRecord, kept_dropUnit])
@[simp] theorem kept_sendOutput (s : State) (x1 : List WriteReq) :
    kept (sendOutput s x1) = kept s := by
  unfold sendOutput
  first
  | (simp only [kept_mk, kept_eta, apply_ite kept, ite_self, foldl_kept, foldDoms_kept, kept_feedWrites]; done)
  | ((try dsimp only) <;> (repeat' split) <;> simp only [kept_mk, kept_eta, apply_ite kept, ite_self, foldl_kept, foldDoms_kept, kept_feedWrites]; done)
  | ((try dsimp only) <;> (repeat' split) <;> simp [kept_mk, kept_eta, apply_ite kept, ite_self, foldl_kept, foldDoms_kept, kept_feedWrites])
@[simp] theorem kept_endLogRead (s : State) (x1 : Cmd) (x2 : List (Nat × List Byte)) :
    kept (endLogRead s x1 x2) = kept s := by
  unfold endLogRead
  first
  | (simp only [kept_mk, kept_eta, apply_ite kept, ite_self, foldl_kept, foldDoms_kept, kept_postCompletion, kept_dropUnit, kept_sendOutput]; done)
  | ((try dsimp only) <;> (repeat' split) <;> simp only [kept_mk, kept_eta, apply_ite kept, ite_self, foldl_kept, foldDoms_kept, kept_postCompletion, kept_dropUnit, kept_sendOutput]; done)
  | ((try dsimp only) <;> (repeat' split) <;> simp [kept_mk, kept_eta, apply_ite kept, ite_self, foldl_kept, foldDoms_kept, kept_postCompletion, kept_dropUnit, kept_sendOutput])
@[simp] theorem kept_enterMode (s : State) (x1 : Nat) (x2 : Nat) :
    kept (enterMode s x1 x2) = kept s := by
  unfold enterMode
  first
  | (simp only [kept_mk, kept_eta, apply_ite kept, ite_self, foldl_kept, foldDoms_kept, kept_stretchUpdate, kept_setClk]; done)
  | ((try dsimp only) <;> (repeat' split) <;> simp only [kept_mk, kept_eta, apply_ite kept, ite_self, foldl_kept, foldDoms_kept, kept_stretchUpdate, kept_setClk]; done)
  | ((try dsimp only) <;> (repeat' split) <;> simp [kept_mk, kept_eta, apply_ite kept, ite_self, foldl_kept, foldDoms_kept, kept_stretchUpdate, kept_setClk])
@[simp] theorem kept_eraseBlock (s : State) (x1 : Nat) :
    kept (eraseBlock s x1) = kept s := by
  unfold eraseBlock
  first
  | (simp only [kept_mk, kept_eta, apply_ite kept, ite_self, foldl_kept, foldDoms_kept, kept_issue]; done)
  | ((try dsimp only) <;> (repeat' split) <;> simp only [kept_mk, kept_eta, apply_ite kept, ite_self, foldl_kept, foldDoms_kept, kept_issue]; done)
  | ((try dsimp only) <;> (repeat' split) <;> simp [kept_mk, kept_eta, apply_ite kept, ite_self, foldl_kept, foldDoms_kept, kept_issue])
@[simp] theorem kept_eraseEnds (x0 : Bool) (x1 : Fin 4) (x2 : Nat) (s : State) :
    kept (eraseEnds x0 x1 x2 s) = kept s := by
  unfold eraseEnds
  first
  | (simp only [kept_mk, kept_eta, apply_ite kept, ite_self, foldl_kept, foldDoms_kept, kept_norError, kept_eraseBlock]; done)
  | ((try dsimp only) <;> (repeat' split) <;> simp only [kept_mk, kept_eta, apply_ite kept, ite_self, foldl_kept, foldDoms_kept, kept_norError, kept_eraseBlock]; done)
  | ((try dsimp only) <;> (repeat' split) <;> simp [kept_mk, kept_eta, apply_ite kept, ite_self, foldl_kept, foldDoms_kept, kept_norError, kept_eraseBlock])
@[simp] theorem kept_errLatch (s : State) :
    kept (errLatch s) = kept s := by
  unfold errLatch
  first
  | (simp only [kept_mk, kept_eta, apply_ite kept, ite_self, foldl_kept, foldDoms_kept, kept_setDoms]; done)
  | ((try dsimp only) <;> (repeat' split) <;> simp only [kept_mk, kept_eta, apply_ite kept, ite_self, foldl_kept, foldDoms_kept, kept_setDoms]; done)
  | ((try dsimp only) <;> (repeat' split) <;> simp [kept_mk, kept_eta, apply_ite kept, ite_self, foldl_kept, foldDoms_kept, kept_setDoms])
@[simp] theorem kept_failInference (s : State) (x1 : Nat) (x2 : Nat) (x3 : Nat) (x4 : Nat) :
    kept (failInference s x1 x2 x3 x4) = kept s := by
  unfold failInference
  first
  | (simp only [kept_mk, kept_eta, apply_ite kept, ite_self, foldl_kept, foldDoms_kept, kept_lanternOffAll, kept_raise, kept_setDom]; done)
  | ((try dsimp only) <;> (repeat' split) <;> simp only [kept_mk, kept_eta, apply_ite kept, ite_self, foldl_kept, foldDoms_kept, kept_lanternOffAll, kept_raise, kept_setDom]; done)
  | ((try dsimp only) <;> (repeat' split) <;> simp [kept_mk, kept_eta, apply_ite kept, ite_self, foldl_kept, foldDoms_kept, kept_lanternOffAll, kept_raise, kept_setDom])
@[simp] theorem kept_failSensors (s : State) :
    kept (failSensors s) = kept s := by
  unfold failSensors
  generalize List.range 320 = l
  exact (foldl_kept _ _ _ (fun s x => by dsimp only; (repeat' split) <;> simp only [kept_mk, kept_eta, apply_ite kept, ite_self, foldl_kept, foldDoms_kept, kept_setTherm, kept_declareFailed])).trans (by simp only [kept_mk, kept_eta, apply_ite kept, ite_self, foldl_kept, foldDoms_kept, kept_setTherm, kept_declareFailed])
@[simp] theorem kept_fastLevel (s : State) (x1 : Nat) :
    kept (fastLevel s x1) = kept s := by
  unfold fastLevel
  first
  | (simp only [kept_mk, kept_eta, apply_ite kept, ite_self, foldl_kept, foldDoms_kept, kept_setLevel, kept_setArb]; done)
  | ((try dsimp only) <;> (repeat' split) <;> simp only [kept_mk, kept_eta, apply_ite kept, ite_self, foldl_kept, foldDoms_kept, kept_setLevel, kept_setArb]; done)
  | ((try dsimp only) <;> (repeat' split) <;> simp [kept_mk, kept_eta, apply_ite kept, ite_self, foldl_kept, foldDoms_kept, kept_setLevel, kept_setArb])
@[simp] theorem kept_offerOf (s : State) (x1 : Nat) :
    kept (offerOf s x1) = kept s := by
  unfold offerOf
  first
  | (simp only [kept_mk, kept_eta, apply_ite kept, ite_self, foldl_kept, foldDoms_kept, kept_setArb]; done)
  | ((try dsimp only) <;> (repeat' split) <;> simp only [kept_mk, kept_eta, apply_ite kept, ite_self, foldl_kept, foldDoms_kept, kept_setArb]; done)
  | ((try dsimp only) <;> (repeat' split) <;> simp [kept_mk, kept_eta, apply_ite kept, ite_self, foldl_kept, foldDoms_kept, kept_setArb])
@[simp] theorem kept_ownGrant (s : State) (x1 : Nat) :
    kept (ownGrant s x1) = kept s := by
  unfold ownGrant
  first
  | (simp only [kept_mk, kept_eta, apply_ite kept, ite_self, foldl_kept, foldDoms_kept, kept_setArb]; done)
  | ((try dsimp only) <;> (repeat' split) <;> simp only [kept_mk, kept_eta, apply_ite kept, ite_self, foldl_kept, foldDoms_kept, kept_setArb]; done)
  | ((try dsimp only) <;> (repeat' split) <;> simp [kept_mk, kept_eta, apply_ite kept, ite_self, foldl_kept, foldDoms_kept, kept_setArb])
@[simp] theorem kept_fastPath (s : State) :
    kept (fastPath s) = kept s := by
  unfold fastPath
  first
  | (simp only [kept_mk, kept_eta, apply_ite kept, ite_self, foldl_kept, foldDoms_kept, kept_offerOf, kept_fastLevel, kept_ownGrant, kept_setArbChip, kept_setArb]; done)
  | ((try dsimp only) <;> (repeat' split) <;> simp only [kept_mk, kept_eta, apply_ite kept, ite_self, foldl_kept, foldDoms_kept, kept_offerOf, kept_fastLevel, kept_ownGrant, kept_setArbChip, kept_setArb]; done)
  | ((try dsimp only) <;> (repeat' split) <;> simp [kept_mk, kept_eta, apply_ite kept, ite_self, foldl_kept, foldDoms_kept, kept_offerOf, kept_fastLevel, kept_ownGrant, kept_setArbChip, kept_setArb])
@[simp] theorem kept_fetchFault (s : State) (x1 : Desc) (x2 : Nat) :
    kept (fetchFault s x1 x2) = kept s := by
  unfold fetchFault
  first
  | (simp only [kept_mk, kept_eta, apply_ite kept, ite_self, foldl_kept, foldDoms_kept, kept_raise]; done)
  | ((try dsimp only) <;> (repeat' split) <;> simp only [kept_mk, kept_eta, apply_ite kept, ite_self, foldl_kept, foldDoms_kept, kept_raise]; done)
  | ((try dsimp only) <;> (repeat' split) <;> simp [kept_mk, kept_eta, apply_ite kept, ite_self, foldl_kept, foldDoms_kept, kept_raise])
@[simp] theorem kept_nextExpected (s : State) (x1 : Desc) :
    kept (nextExpected s x1) = kept s := by
  unfold nextExpected
  first
  | (simp only [kept_mk, kept_eta, apply_ite kept, ite_self, foldl_kept, foldDoms_kept, kept_setPort]; done)
  | ((try dsimp only) <;> (repeat' split) <;> simp only [kept_mk, kept_eta, apply_ite kept, ite_self, foldl_kept, foldDoms_kept, kept_setPort]; done)
  | ((try dsimp only) <;> (repeat' split) <;> simp [kept_mk, kept_eta, apply_ite kept, ite_self, foldl_kept, foldDoms_kept, kept_setPort])
@[simp] theorem kept_now (x0 : Nat) (s : State) :
    kept (now x0 s) = kept s := by
  unfold now
  first
  | (simp only [kept_mk, kept_eta, apply_ite kept, ite_self, foldl_kept, foldDoms_kept]; done)
  | ((try dsimp only) <;> (repeat' split) <;> simp only [kept_mk, kept_eta, apply_ite kept, ite_self, foldl_kept, foldDoms_kept]; done)
  | ((try dsimp only) <;> (repeat' split) <;> simp [kept_mk, kept_eta, apply_ite kept, ite_self, foldl_kept, foldDoms_kept])
@[simp] theorem kept_takeEntry (s : State) (x1 : PortNo) :
    kept (takeEntry s x1) = kept s := by
  unfold takeEntry
  first
  | (simp only [kept_mk, kept_eta, apply_ite kept, ite_self, foldl_kept, foldDoms_kept, kept_setPort]; done)
  | ((try dsimp only) <;> (repeat' split) <;> simp only [kept_mk, kept_eta, apply_ite kept, ite_self, foldl_kept, foldDoms_kept, kept_setPort]; done)
  | ((try dsimp only) <;> (repeat' split) <;> simp [kept_mk, kept_eta, apply_ite kept, ite_self, foldl_kept, foldDoms_kept, kept_setPort])
@[simp] theorem kept_fetchAs (x0 : Nat) (x1 : Desc) (s : State) :
    kept (fetchAs x0 x1 s) = kept s := by
  unfold fetchAs
  first
  | (simp only [kept_mk, kept_eta, apply_ite kept, ite_self, foldl_kept, foldDoms_kept, kept_fetchFault, kept_arrive, kept_nextExpected, kept_now, kept_takeEntry, kept_acceptAll]; done)
  | ((try dsimp only) <;> (repeat' split) <;> simp only [kept_mk, kept_eta, apply_ite kept, ite_self, foldl_kept, foldDoms_kept, kept_fetchFault, kept_arrive, kept_nextExpected, kept_now, kept_takeEntry, kept_acceptAll]; done)
  | ((try dsimp only) <;> (repeat' split) <;> simp [kept_mk, kept_eta, apply_ite kept, ite_self, foldl_kept, foldDoms_kept, kept_fetchFault, kept_arrive, kept_nextExpected, kept_now, kept_takeEntry, kept_acceptAll])
@[simp] theorem kept_fireLevel (s : State) (x1 : Nat) (x2 : Nat) :
    kept (fireLevel s x1 x2) = kept s := by
  unfold fireLevel
  first
  | (simp only [kept_mk, kept_eta, apply_ite kept, ite_self, foldl_kept, foldDoms_kept, kept_steadyReport, kept_setMembers, kept_setDom]; done)
  | ((try dsimp only) <;> (repeat' split) <;> simp only [kept_mk, kept_eta, apply_ite kept, ite_self, foldl_kept, foldDoms_kept, kept_steadyReport, kept_setMembers, kept_setDom]; done)
  | ((try dsimp only) <;> (repeat' split) <;> simp [kept_mk, kept_eta, apply_ite kept, ite_self, foldl_kept, foldDoms_kept, kept_steadyReport, kept_setMembers, kept_setDom])
@[simp] theorem kept_stationHold (s : State) (x1 : Nat) :
    kept (stationHold s x1) = kept s := by
  unfold stationHold
  first
  | (simp only [kept_mk, kept_eta, apply_ite kept, ite_self, foldl_kept, foldDoms_kept, kept_unparkAll, kept_setMembers]; done)
  | ((try dsimp only) <;> (repeat' split) <;> simp only [kept_mk, kept_eta, apply_ite kept, ite_self, foldl_kept, foldDoms_kept, kept_unparkAll, kept_setMembers]; done)
  | ((try dsimp only) <;> (repeat' split) <;> simp [kept_mk, kept_eta, apply_ite kept, ite_self, foldl_kept, foldDoms_kept, kept_unparkAll, kept_setMembers])
@[simp] theorem kept_holdUnlinked (s : State) (x1 : Nat) :
    kept (holdUnlinked s x1) = kept s := by
  unfold holdUnlinked
  first
  | (simp only [kept_mk, kept_eta, apply_ite kept, ite_self, foldl_kept, foldDoms_kept, kept_stationHold, kept_holdDomain]; done)
  | ((try dsimp only) <;> (repeat' split) <;> simp only [kept_mk, kept_eta, apply_ite kept, ite_self, foldl_kept, foldDoms_kept, kept_stationHold, kept_holdDomain]; done)
  | ((try dsimp only) <;> (repeat' split) <;> simp [kept_mk, kept_eta, apply_ite kept, ite_self, foldl_kept, foldDoms_kept, kept_stationHold, kept_holdDomain])
@[simp] theorem kept_forceClocks (s : State) (x1 : Bool) :
    kept (forceClocks s x1) = kept s := by
  unfold forceClocks
  first
  | (simp only [kept_mk, kept_eta, apply_ite kept, ite_self, foldl_kept, foldDoms_kept, kept_stretchUpdate, kept_staleUpdate, kept_holdUnlinked, kept_setClk]; done)
  | ((try dsimp only) <;> (repeat' split) <;> simp only [kept_mk, kept_eta, apply_ite kept, ite_self, foldl_kept, foldDoms_kept, kept_stretchUpdate, kept_staleUpdate, kept_holdUnlinked, kept_setClk]; done)
  | ((try dsimp only) <;> (repeat' split) <;> simp [kept_mk, kept_eta, apply_ite kept, ite_self, foldl_kept, foldDoms_kept, kept_stretchUpdate, kept_staleUpdate, kept_holdUnlinked, kept_setClk])
@[simp] theorem kept_forwardReports (x0 : Nat) (s : State) :
    kept (forwardReports x0 s) = kept s := by
  unfold forwardReports
  first
  | (simp only [kept_mk, kept_eta, apply_ite kept, ite_self, foldl_kept, foldDoms_kept, kept_setCellAt]; done)
  | ((try dsimp only) <;> (repeat' split) <;> simp only [kept_mk, kept_eta, apply_ite kept, ite_self, foldl_kept, foldDoms_kept, kept_setCellAt]; done)
  | ((try dsimp only) <;> (repeat' split) <;> simp [kept_mk, kept_eta, apply_ite kept, ite_self, foldl_kept, foldDoms_kept, kept_setCellAt])
@[simp] theorem kept_frameInputs (s : State) :
    kept (frameInputs s) = kept s := by
  unfold frameInputs
  first
  | (simp only [kept_mk, kept_eta, apply_ite kept, ite_self, foldl_kept, foldDoms_kept, kept_setDoms]; done)
  | ((try dsimp only) <;> (repeat' split) <;> simp only [kept_mk, kept_eta, apply_ite kept, ite_self, foldl_kept, foldDoms_kept, kept_setDoms]; done)
  | ((try dsimp only) <;> (repeat' split) <;> simp [kept_mk, kept_eta, apply_ite kept, ite_self, foldl_kept, foldDoms_kept, kept_setDoms])
@[simp] theorem kept_pushRecord (s : State) (x1 : Fin 4) (x2 : Nat) (x3 : Nat) (x4 : List Byte) :
    kept (pushRecord s x1 x2 x3 x4) = kept s := by
  unfold pushRecord
  first
  | (simp only [kept_mk, kept_eta, apply_ite kept, ite_self, foldl_kept, foldDoms_kept]; done)
  | ((try dsimp only) <;> (repeat' split) <;> simp only [kept_mk, kept_eta, apply_ite kept, ite_self, foldl_kept, foldDoms_kept]; done)
  | ((try dsimp only) <;> (repeat' split) <;> simp [kept_mk, kept_eta, apply_ite kept, ite_self, foldl_kept, foldDoms_kept])
@[simp] theorem kept_gapRecord (s : State) :
    kept (gapRecord s) = kept s := by
  unfold gapRecord
  first
  | (simp only [kept_mk, kept_eta, apply_ite kept, ite_self, foldl_kept, foldDoms_kept, kept_pushRecord]; done)
  | ((try dsimp only) <;> (repeat' split) <;> simp only [kept_mk, kept_eta, apply_ite kept, ite_self, foldl_kept, foldDoms_kept, kept_pushRecord]; done)
  | ((try dsimp only) <;> (repeat' split) <;> simp [kept_mk, kept_eta, apply_ite kept, ite_self, foldl_kept, foldDoms_kept, kept_pushRecord])
@[simp] theorem kept_takeRecord (s : State) (x1 : Nat) (x2 : DownRec) :
    kept (takeRecord s x1 x2) = kept s := by
  unfold takeRecord
  first
  | (simp only [kept_mk, kept_eta, apply_ite kept, ite_self, foldl_kept, foldDoms_kept, kept_stationHold, kept_setMembers]; done)
  | ((try dsimp only) <;> (repeat' split) <;> simp only [kept_mk, kept_eta, apply_ite kept, ite_self, foldl_kept, foldDoms_kept, kept_stationHold, kept_setMembers]; done)
  | ((try dsimp only) <;> (repeat' split) <;> simp [kept_mk, kept_eta, apply_ite kept, ite_self, foldl_kept, foldDoms_kept, kept_stationHold, kept_setMembers])
@[simp] theorem kept_takeWhole (s : State) (x1 : Nat) (x2 : DownRec) :
    kept (takeWhole s x1 x2) = kept s := by
  unfold takeWhole
  first
  | (simp only [kept_mk, kept_eta, apply_ite kept, ite_self, foldl_kept, foldDoms_kept, kept_takeRecord, kept_setMembers]; done)
  | ((try dsimp only) <;> (repeat' split) <;> simp only [kept_mk, kept_eta, apply_ite kept, ite_self, foldl_kept, foldDoms_kept, kept_takeRecord, kept_setMembers]; done)
  | ((try dsimp only) <;> (repeat' split) <;> simp [kept_mk, kept_eta, apply_ite kept, ite_self, foldl_kept, foldDoms_kept, kept_takeRecord, kept_setMembers])
@[simp] theorem kept_hubRecord (s : State) (x1 : Nat) (x2 : Nat) :
    kept (hubRecord s x1 x2) = kept s := by
  unfold hubRecord
  first
  | (simp only [kept_mk, kept_eta, apply_ite kept, ite_self, foldl_kept, foldDoms_kept, kept_takeWhole, kept_takeRecord]; done)
  | ((try dsimp only) <;> (repeat' split) <;> simp only [kept_mk, kept_eta, apply_ite kept, ite_self, foldl_kept, foldDoms_kept, kept_takeWhole, kept_takeRecord]; done)
  | ((try dsimp only) <;> (repeat' split) <;> simp [kept_mk, kept_eta, apply_ite kept, ite_self, foldl_kept, foldDoms_kept, kept_takeWhole, kept_takeRecord])
@[simp] theorem kept_incorrUpdate (s : State) (x1 : Nat) :
    kept (incorrUpdate s x1) = kept s := by
  unfold incorrUpdate
  first
  | (simp only [kept_mk, kept_eta, apply_ite kept, ite_self, foldl_kept, foldDoms_kept, kept_setArbChip]; done)
  | ((try dsimp only) <;> (repeat' split) <;> simp only [kept_mk, kept_eta, apply_ite kept, ite_self, foldl_kept, foldDoms_kept, kept_setArbChip]; done)
  | ((try dsimp only) <;> (repeat' split) <;> simp [kept_mk, kept_eta, apply_ite kept, ite_self, foldl_kept, foldDoms_kept, kept_setArbChip])
@[simp] theorem kept_inferDomain (x0 : Nat) (x1 : List InfFault) (x2 : Bool) (s : State) (x4 : Nat) :
    kept (inferDomain x0 x1 x2 s x4) = kept s := by
  unfold inferDomain
  first
  | (simp only [kept_mk, kept_eta, apply_ite kept, ite_self, foldl_kept, foldDoms_kept, kept_failInference, kept_setDom]; done)
  | ((try dsimp only) <;> (repeat' split) <;> simp only [kept_mk, kept_eta, apply_ite kept, ite_self, foldl_kept, foldDoms_kept, kept_failInference, kept_setDom]; done)
  | ((try dsimp only) <;> (repeat' split) <;> simp [kept_mk, kept_eta, apply_ite kept, ite_self, foldl_kept, foldDoms_kept, kept_failInference, kept_setDom])
@[simp] theorem kept_journalSlot (s : State) (x1 : DWord) :
    kept ((journalSlot s x1).1) = kept s := by
  unfold journalSlot
  first
  | (simp only [kept_mk, kept_eta, apply_ite kept, ite_self, foldl_kept, foldDoms_kept, kept_countGap, kept_gapRecord]; done)
  | ((try dsimp only) <;> (repeat' split) <;> simp only [kept_mk, kept_eta, apply_ite kept, ite_self, foldl_kept, foldDoms_kept, kept_countGap, kept_gapRecord]; done)
  | ((try dsimp only) <;> (repeat' split) <;> simp [kept_mk, kept_eta, apply_ite kept, ite_self, foldl_kept, foldDoms_kept, kept_countGap, kept_gapRecord])
@[simp] theorem kept_judgeCrack (x0 : Int) (s : State) (x2 : Nat × Nat) :
    kept (judgeCrack x0 s x2) = kept s := by
  unfold judgeCrack
  first
  | (simp only [kept_mk, kept_eta, apply_ite kept, ite_self, foldl_kept, foldDoms_kept, kept_queueRecord, kept_report, kept_failCell, kept_raise, kept_setCellAt]; done)
  | ((try dsimp only) <;> (repeat' split) <;> simp only [kept_mk, kept_eta, apply_ite kept, ite_self, foldl_kept, foldDoms_kept, kept_queueRecord, kept_report, kept_failCell, kept_raise, kept_setCellAt]; done)
  | ((try dsimp only) <;> (repeat' split) <;> simp [kept_mk, kept_eta, apply_ite kept, ite_self, foldl_kept, foldDoms_kept, kept_queueRecord, kept_report, kept_failCell, kept_raise, kept_setCellAt])
@[simp] theorem kept_judgeWindow (x0 : Nat) (s : State) (x2 : Nat) :
    kept (judgeWindow x0 s x2) = kept s := by
  unfold judgeWindow
  first
  | (simp only [kept_mk, kept_eta, apply_ite kept, ite_self, foldl_kept, foldDoms_kept, kept_report, kept_raise, kept_setDom]; done)
  | ((try dsimp only) <;> (repeat' split) <;> simp only [kept_mk, kept_eta, apply_ite kept, ite_self, foldl_kept, foldDoms_kept, kept_report, kept_raise, kept_setDom]; done)
  | ((try dsimp only) <;> (repeat' split) <;> simp [kept_mk, kept_eta, apply_ite kept, ite_self, foldl_kept, foldDoms_kept, kept_report, kept_raise, kept_setDom])
@[simp] theorem kept_lagShutter (s : State) :
    kept (lagShutter s) = kept s := by
  unfold lagShutter
  first
  | (simp only [kept_mk, kept_eta, apply_ite kept, ite_self, foldl_kept, foldDoms_kept, kept_setDoms, kept_postEvent]; done)
  | ((try dsimp only) <;> (repeat' split) <;> simp only [kept_mk, kept_eta, apply_ite kept, ite_self, foldl_kept, foldDoms_kept, kept_setDoms, kept_postEvent]; done)
  | ((try dsimp only) <;> (repeat' split) <;> simp [kept_mk, kept_eta, apply_ite kept, ite_self, foldl_kept, foldDoms_kept, kept_setDoms, kept_postEvent])
@[simp] theorem kept_laneTakeover (s : State) :
    kept (laneTakeover s) = kept s := by
  unfold laneTakeover
  first
  | (simp only [kept_mk, kept_eta, apply_ite kept, ite_self, foldl_kept, foldDoms_kept, kept_abandonTests]; done)
  | ((try dsimp only) <;> (repeat' split) <;> simp only [kept_mk, kept_eta, apply_ite kept, ite_self, foldl_kept, foldDoms_kept, kept_abandonTests]; done)
  | ((try dsimp only) <;> (repeat' split) <;> simp [kept_mk, kept_eta, apply_ite kept, ite_self, foldl_kept, foldDoms_kept, kept_abandonTests])
@[simp] theorem kept_laneTestEnd (s : State) (x1 : Nat) (x2 : TestResult) :
    kept (laneTestEnd s x1 x2) = kept s := by
  unfold laneTestEnd
  first
  | (simp only [kept_mk, kept_eta, apply_ite kept, ite_self, foldl_kept, foldDoms_kept, kept_raise]; done)
  | ((try dsimp only) <;> (repeat' split) <;> simp only [kept_mk, kept_eta, apply_ite kept, ite_self, foldl_kept, foldDoms_kept, kept_raise]; done)
  | ((try dsimp only) <;> (repeat' split) <;> simp [kept_mk, kept_eta, apply_ite kept, ite_self, foldl_kept, foldDoms_kept, kept_raise])
@[simp] theorem kept_plausCond (s : State) (x1 : Nat) (x2 : Nat) (x3 : Nat) (x4 : Bool) :
    kept (plausCond s x1 x2 x3 x4) = kept s := by
  unfold plausCond
  first
  | (simp only [kept_mk, kept_eta, apply_ite kept, ite_self, foldl_kept, foldDoms_kept, kept_setMeter, kept_raise]; done)
  | ((try dsimp only) <;> (repeat' split) <;> simp only [kept_mk, kept_eta, apply_ite kept, ite_self, foldl_kept, foldDoms_kept, kept_setMeter, kept_raise]; done)
  | ((try dsimp only) <;> (repeat' split) <;> simp [kept_mk, kept_eta, apply_ite kept, ite_self, foldl_kept, foldDoms_kept, kept_setMeter, kept_raise])
@[simp] theorem kept_plausRatio (s : State) (x1 : Nat) (x2 : Nat) (x3 : Nat) :
    kept (plausRatio s x1 x2 x3) = kept s := by
  unfold plausRatio
  first
  | (simp only [kept_mk, kept_eta, apply_ite kept, ite_self, foldl_kept, foldDoms_kept, kept_plausCond, kept_setMeter]; done)
  | ((try dsimp only) <;> (repeat' split) <;> simp only [kept_mk, kept_eta, apply_ite kept, ite_self, foldl_kept, foldDoms_kept, kept_plausCond, kept_setMeter]; done)
  | ((try dsimp only) <;> (repeat' split) <;> simp [kept_mk, kept_eta, apply_ite kept, ite_self, foldl_kept, foldDoms_kept, kept_plausCond, kept_setMeter])
@[simp] theorem kept_windowRatio (s : State) (x1 : Nat) (x2 : Nat) (x3 : Bool) :
    kept (windowRatio s x1 x2 x3) = kept s := by
  unfold windowRatio
  first
  | (simp only [kept_mk, kept_eta, apply_ite kept, ite_self, foldl_kept, foldDoms_kept, kept_plausRatio, kept_setMeter, kept_flushWindow]; done)
  | ((try dsimp only) <;> (repeat' split) <;> simp only [kept_mk, kept_eta, apply_ite kept, ite_self, foldl_kept, foldDoms_kept, kept_plausRatio, kept_setMeter, kept_flushWindow]; done)
  | ((try dsimp only) <;> (repeat' split) <;> simp [kept_mk, kept_eta, apply_ite kept, ite_self, foldl_kept, foldDoms_kept, kept_plausRatio, kept_setMeter, kept_flushWindow])
@[simp] theorem kept_meterLatch (x0 : Nat) (s : State) :
    kept (meterLatch x0 s) = kept s := by
  unfold meterLatch
  first
  | (simp only [kept_mk, kept_eta, apply_ite kept, ite_self, foldl_kept, foldDoms_kept, kept_windowRatio, kept_staleUpdate, kept_setMeter]; done)
  | ((try dsimp only) <;> (repeat' split) <;> simp only [kept_mk, kept_eta, apply_ite kept, ite_self, foldl_kept, foldDoms_kept, kept_windowRatio, kept_staleUpdate, kept_setMeter]; done)
  | ((try dsimp only) <;> (repeat' split) <;> simp [kept_mk, kept_eta, apply_ite kept, ite_self, foldl_kept, foldDoms_kept, kept_windowRatio, kept_staleUpdate, kept_setMeter])
@[simp] theorem kept_latchEnergy (s : State) :
    kept (latchEnergy s) = kept s := by
  unfold latchEnergy
  first
  | (simp only [kept_mk, kept_eta, apply_ite kept, ite_self, foldl_kept, foldDoms_kept, kept_meterLatch, kept_setDom]; done)
  | ((try dsimp only) <;> (repeat' split) <;> simp only [kept_mk, kept_eta, apply_ite kept, ite_self, foldl_kept, foldDoms_kept, kept_meterLatch, kept_setDom]; done)
  | ((try dsimp only) <;> (repeat' split) <;> simp [kept_mk, kept_eta, apply_ite kept, ite_self, foldl_kept, foldDoms_kept, kept_meterLatch, kept_setDom])
@[simp] theorem kept_latchSources (s : State) (x1 : DWord) :
    kept (latchSources s x1) = kept s := by
  unfold latchSources
  first
  | (simp only [kept_mk, kept_eta, apply_ite kept, ite_self, foldl_kept, foldDoms_kept]; done)
  | ((try dsimp only) <;> (repeat' split) <;> simp only [kept_mk, kept_eta, apply_ite kept, ite_self, foldl_kept, foldDoms_kept]; done)
  | ((try dsimp only) <;> (repeat' split) <;> simp [kept_mk, kept_eta, apply_ite kept, ite_self, foldl_kept, foldDoms_kept])
@[simp] theorem kept_latchSums (x0 : Nat) (s : State) :
    kept (latchSums x0 s) = kept s := by
  unfold latchSums
  first
  | (simp only [kept_mk, kept_eta, apply_ite kept, ite_self, foldl_kept, foldDoms_kept, kept_setDoms, kept_setDom]; done)
  | ((try dsimp only) <;> (repeat' split) <;> simp only [kept_mk, kept_eta, apply_ite kept, ite_self, foldl_kept, foldDoms_kept, kept_setDoms, kept_setDom]; done)
  | ((try dsimp only) <;> (repeat' split) <;> simp [kept_mk, kept_eta, apply_ite kept, ite_self, foldl_kept, foldDoms_kept, kept_setDoms, kept_setDom])
@[simp] theorem kept_markLost (s : State) :
    kept (markLost s) = kept s := by
  unfold markLost
  first
  | (simp only [kept_mk, kept_eta, apply_ite kept, ite_self, foldl_kept, foldDoms_kept, kept_setDoms]; done)
  | ((try dsimp only) <;> (repeat' split) <;> simp only [kept_mk, kept_eta, apply_ite kept, ite_self, foldl_kept, foldDoms_kept, kept_setDoms]; done)
  | ((try dsimp only) <;> (repeat' split) <;> simp [kept_mk, kept_eta, apply_ite kept, ite_self, foldl_kept, foldDoms_kept, kept_setDoms])
@[simp] theorem kept_markSeen (s : State) (x1 : DWord) :
    kept (markSeen s x1) = kept s := by
  unfold markSeen
  first
  | (simp only [kept_mk, kept_eta, apply_ite kept, ite_self, foldl_kept, foldDoms_kept]; done)
  | ((try dsimp only) <;> (repeat' split) <;> simp only [kept_mk, kept_eta, apply_ite kept, ite_self, foldl_kept, foldDoms_kept]; done)
  | ((try dsimp only) <;> (repeat' split) <;> simp [kept_mk, kept_eta, apply_ite kept, ite_self, foldl_kept, foldDoms_kept])
@[simp] theorem kept_markUnusable (s : State) (x1 : Nat) :
    kept (markUnusable s x1) = kept s := by
  unfold markUnusable
  first
  | (simp only [kept_mk, kept_eta, apply_ite kept, ite_self, foldl_kept, foldDoms_kept]; done)
  | ((try dsimp only) <;> (repeat' split) <;> simp only [kept_mk, kept_eta, apply_ite kept, ite_self, foldl_kept, foldDoms_kept]; done)
  | ((try dsimp only) <;> (repeat' split) <;> simp [kept_mk, kept_eta, apply_ite kept, ite_self, foldl_kept, foldDoms_kept])
@[simp] theorem kept_meterGate (s : State) :
    kept (meterGate s) = kept s := by
  unfold meterGate
  first
  | (simp only [kept_mk, kept_eta, apply_ite kept, ite_self, foldl_kept, foldDoms_kept, kept_staleUpdate, kept_setMeter]; done)
  | ((try dsimp only) <;> (repeat' split) <;> simp only [kept_mk, kept_eta, apply_ite kept, ite_self, foldl_kept, foldDoms_kept, kept_staleUpdate, kept_setMeter]; done)
  | ((try dsimp only) <;> (repeat' split) <;> simp [kept_mk, kept_eta, apply_ite kept, ite_self, foldl_kept, foldDoms_kept, kept_staleUpdate, kept_setMeter])
@[simp] theorem kept_modelLost (s : State) (x1 : Nat) :
    kept (modelLost s x1) = kept s := by
  unfold modelLost
  first
  | (simp only [kept_mk, kept_eta, apply_ite kept, ite_self, foldl_kept, foldDoms_kept, kept_report]; done)
  | ((try dsimp only) <;> (repeat' split) <;> simp only [kept_mk, kept_eta, apply_ite kept, ite_self, foldl_kept, foldDoms_kept, kept_report]; done)
  | ((try dsimp only) <;> (repeat' split) <;> simp [kept_mk, kept_eta, apply_ite kept, ite_self, foldl_kept, foldDoms_kept, kept_report])
@[simp] theorem kept_moveFreq (s : State) (x1 : Nat) (x2 : Nat) (x3 : Nat) :
    kept ((moveFreq s x1 x2 x3).1) = kept s := by
  unfold moveFreq
  first
  | (simp only [kept_mk, kept_eta, apply_ite kept, ite_self, foldl_kept, foldDoms_kept, kept_setArb]; done)
  | ((try dsimp only) <;> (repeat' split) <;> simp only [kept_mk, kept_eta, apply_ite kept, ite_self, foldl_kept, foldDoms_kept, kept_setArb]; done)
  | ((try dsimp only) <;> (repeat' split) <;> simp [kept_mk, kept_eta, apply_ite kept, ite_self, foldl_kept, foldDoms_kept, kept_setArb])
@[simp] theorem kept_moveUnits (x0 : Nat) (x1 : List (List Cmd)) (s : State) :
    kept (moveUnits x0 x1 s) = kept s := by
  unfold moveUnits
  first
  | (simp only [kept_mk, kept_eta, apply_ite kept, ite_self, foldl_kept, foldDoms_kept, kept_makeRoom, kept_editUnit]; done)
  | ((try dsimp only) <;> (repeat' split) <;> simp only [kept_mk, kept_eta, apply_ite kept, ite_self, foldl_kept, foldDoms_kept, kept_makeRoom, kept_editUnit]; done)
  | ((try dsimp only) <;> (repeat' split) <;> simp [kept_mk, kept_eta, apply_ite kept, ite_self, foldl_kept, foldDoms_kept, kept_makeRoom, kept_editUnit])
@[simp] theorem kept_writeMtrCtrl (s : State) (x1 : Word) :
    kept (writeMtrCtrl s x1) = kept s := by
  unfold writeMtrCtrl
  first
  | (simp only [kept_mk, kept_eta, apply_ite kept, ite_self, foldl_kept, foldDoms_kept, kept_staleUpdate]; done)
  | ((try dsimp only) <;> (repeat' split) <;> simp only [kept_mk, kept_eta, apply_ite kept, ite_self, foldl_kept, foldDoms_kept, kept_staleUpdate]; done)
  | ((try dsimp only) <;> (repeat' split) <;> simp [kept_mk, kept_eta, apply_ite kept, ite_self, foldl_kept, foldDoms_kept, kept_staleUpdate])
@[simp] theorem kept_mtrRow (x0 : Word) (x1 : Nat) (s : State) :
    kept (mtrRow x0 x1 s) = kept s := by
  unfold mtrRow
  first
  | (simp only [kept_mk, kept_eta, apply_ite kept, ite_self, foldl_kept, foldDoms_kept, kept_now, kept_writeMtrCtrl, kept_ackWrite]; done)
  | ((try dsimp only) <;> (repeat' split) <;> simp only [kept_mk, kept_eta, apply_ite kept, ite_self, foldl_kept, foldDoms_kept, kept_now, kept_writeMtrCtrl, kept_ackWrite]; done)
  | ((try dsimp only) <;> (repeat' split) <;> simp [kept_mk, kept_eta, apply_ite kept, ite_self, foldl_kept, foldDoms_kept, kept_now, kept_writeMtrCtrl, kept_ackWrite])
@[simp] theorem kept_noteAcks (x0 : Nat) (s : State) :
    kept (noteAcks x0 s) = kept s := by
  unfold noteAcks
  first
  | (simp only [kept_mk, kept_eta, apply_ite kept, ite_self, foldl_kept, foldDoms_kept]; done)
  | ((try dsimp only) <;> (repeat' split) <;> simp only [kept_mk, kept_eta, apply_ite kept, ite_self, foldl_kept, foldDoms_kept]; done)
  | ((try dsimp only) <;> (repeat' split) <;> simp [kept_mk, kept_eta, apply_ite kept, ite_self, foldl_kept, foldDoms_kept])
@[simp] theorem kept_oldWrites (s : State) (x1 : Nat) (x2 : Nat) (x3 : Bool) :
    kept (oldWrites s x1 x2 x3) = kept s := by
  unfold oldWrites
  first
  | (simp only [kept_mk, kept_eta, apply_ite kept, ite_self, foldl_kept, foldDoms_kept]; done)
  | ((try dsimp only) <;> (repeat' split) <;> simp only [kept_mk, kept_eta, apply_ite kept, ite_self, foldl_kept, foldDoms_kept]; done)
  | ((try dsimp only) <;> (repeat' split) <;> simp [kept_mk, kept_eta, apply_ite kept, ite_self, foldl_kept, foldDoms_kept])
@[simp] theorem kept_startErase (s : State) :
    kept (startErase s) = kept s := by
  unfold startErase
  first
  | (simp only [kept_mk, kept_eta, apply_ite kept, ite_self, foldl_kept, foldDoms_kept, kept_eraseBlock]; done)
  | ((try dsimp only) <;> (repeat' split) <;> simp only [kept_mk, kept_eta, apply_ite kept, ite_self, foldl_kept, foldDoms_kept, kept_eraseBlock]; done)
  | ((try dsimp only) <;> (repeat' split) <;> simp [kept_mk, kept_eta, apply_ite kept, ite_self, foldl_kept, foldDoms_kept, kept_eraseBlock])
@[simp] theorem kept_openStrata (x0 : NorInfo) (s : State) :
    kept (openStrata x0 s) = kept s := by
  unfold openStrata
  first
  | (simp only [kept_mk, kept_eta, apply_ite kept, ite_self, foldl_kept, foldDoms_kept, kept_issue, kept_startErase, kept_freshBelow, kept_raise]; done)
  | ((try dsimp only) <;> (repeat' split) <;> simp only [kept_mk, kept_eta, apply_ite kept, ite_self, foldl_kept, foldDoms_kept, kept_issue, kept_startErase, kept_freshBelow, kept_raise]; done)
  | ((try dsimp only) <;> (repeat' split) <;> simp [kept_mk, kept_eta, apply_ite kept, ite_self, foldl_kept, foldDoms_kept, kept_issue, kept_startErase, kept_freshBelow, kept_raise])
@[simp] theorem kept_outputsHeld (s : State) (x1 : Nat) :
    kept (outputsHeld s x1) = kept s := by
  unfold outputsHeld
  first
  | (simp only [kept_mk, kept_eta, apply_ite kept, ite_self, foldl_kept, foldDoms_kept, kept_sendCode, kept_setDom]; done)
  | ((try dsimp only) <;> (repeat' split) <;> simp only [kept_mk, kept_eta, apply_ite kept, ite_self, foldl_kept, foldDoms_kept, kept_sendCode, kept_setDom]; done)
  | ((try dsimp only) <;> (repeat' split) <;> simp [kept_mk, kept_eta, apply_ite kept, ite_self, foldl_kept, foldDoms_kept, kept_sendCode, kept_setDom])
@[simp] theorem kept_overrun (s : State) (x1 : Nat) (x2 : Nat) (x3 : Nat) (x4 : Nat) (x5 : Nat) (x6 : Nat) :
    kept (overrun s x1 x2 x3 x4 x5 x6) = kept s := by
  unfold overrun
  first
  | (simp only [kept_mk, kept_eta, apply_ite kept, ite_self, foldl_kept, foldDoms_kept, kept_outputsHeld, kept_raise, kept_setDom]; done)
  | ((try dsimp only) <;> (repeat' split) <;> simp only [kept_mk, kept_eta, apply_ite kept, ite_self, foldl_kept, foldDoms_kept, kept_outputsHeld, kept_raise, kept_setDom]; done)
  | ((try dsimp only) <;> (repeat' split) <;> simp [kept_mk, kept_eta, apply_ite kept, ite_self, foldl_kept, foldDoms_kept, kept_outputsHeld, kept_raise, kept_setDom])
@[simp] theorem kept_overrunHold (s : State) (x1 : Nat) :
    kept (overrunHold s x1) = kept s := by
  unfold overrunHold
  first
  | (simp only [kept_mk, kept_eta, apply_ite kept, ite_self, foldl_kept, foldDoms_kept, kept_holdDomain]; done)
  | ((try dsimp only) <;> (repeat' split) <;> simp only [kept_mk, kept_eta, apply_ite kept, ite_self, foldl_kept, foldDoms_kept, kept_holdDomain]; done)
  | ((try dsimp only) <;> (repeat' split) <;> simp [kept_mk, kept_eta, apply_ite kept, ite_self, foldl_kept, foldDoms_kept, kept_holdDomain])
@[simp] theorem kept_reportOvld (s : State) (x1 : Nat × Nat) :
    kept (reportOvld s x1) = kept s := by
  unfold reportOvld
  first
  | (simp only [kept_mk, kept_eta, apply_ite kept, ite_self, foldl_kept, foldDoms_kept, kept_raise, kept_setCellAt]; done)
  | ((try dsimp only) <;> (repeat' split) <;> simp only [kept_mk, kept_eta, apply_ite kept, ite_self, foldl_kept, foldDoms_kept, kept_raise, kept_setCellAt]; done)
  | ((try dsimp only) <;> (repeat' split) <;> simp [kept_mk, kept_eta, apply_ite kept, ite_self, foldl_kept, foldDoms_kept, kept_raise, kept_setCellAt])
@[simp] theorem kept_ovldLatch (s : State) (x1 : Nat) :
    kept (ovldLatch s x1) = kept s := by
  unfold ovldLatch
  first
  | (simp only [kept_mk, kept_eta, apply_ite kept, ite_self, foldl_kept, foldDoms_kept, kept_reportOvld]; done)
  | ((try dsimp only) <;> (repeat' split) <;> simp only [kept_mk, kept_eta, apply_ite kept, ite_self, foldl_kept, foldDoms_kept, kept_reportOvld]; done)
  | ((try dsimp only) <;> (repeat' split) <;> simp [kept_mk, kept_eta, apply_ite kept, ite_self, foldl_kept, foldDoms_kept, kept_reportOvld])
@[simp] theorem kept_windowTo (s : State) (x1 : Nat) (x2 : Nat) (x3 : Nat) :
    kept (windowTo s x1 x2 x3) = kept s := by
  unfold windowTo
  first
  | (simp only [kept_mk, kept_eta, apply_ite kept, ite_self, foldl_kept, foldDoms_kept, kept_windowRatio, kept_setMeter]; done)
  | ((try dsimp only) <;> (repeat' split) <;> simp only [kept_mk, kept_eta, apply_ite kept, ite_self, foldl_kept, foldDoms_kept, kept_windowRatio, kept_setMeter]; done)
  | ((try dsimp only) <;> (repeat' split) <;> simp [kept_mk, kept_eta, apply_ite kept, ite_self, foldl_kept, foldDoms_kept, kept_windowRatio, kept_setMeter])
@[simp] theorem kept_pairResult (s : State) (x1 : Int) (x2 : Int) (x3 : Nat) :
    kept (pairResult s x1 x2 x3) = kept s := by
  unfold pairResult
  first
  | (simp only [kept_mk, kept_eta, apply_ite kept, ite_self, foldl_kept, foldDoms_kept, kept_incorrUpdate, kept_windowTo, kept_setMeter]; done)
  | ((try dsimp only) <;> (repeat' split) <;> simp only [kept_mk, kept_eta, apply_ite kept, ite_self, foldl_kept, foldDoms_kept, kept_incorrUpdate, kept_windowTo, kept_setMeter]; done)
  | ((try dsimp only) <;> (repeat' split) <;> simp [kept_mk, kept_eta, apply_ite kept, ite_self, foldl_kept, foldDoms_kept, kept_incorrUpdate, kept_windowTo, kept_setMeter])
@[simp] theorem kept_parkLatch (s : State) (x1 : Nat) :
    kept (parkLatch s x1) = kept s := by
  unfold parkLatch
  first
  | (simp only [kept_mk, kept_eta, apply_ite kept, ite_self, foldl_kept, foldDoms_kept, kept_abortPark, kept_setCellAt, kept_setDom]; done)
  | ((try dsimp only) <;> (repeat' split) <;> simp only [kept_mk, kept_eta, apply_ite kept, ite_self, foldl_kept, foldDoms_kept, kept_abortPark, kept_setCellAt, kept_setDom]; done)
  | ((try dsimp only) <;> (repeat' split) <;> simp [kept_mk, kept_eta, apply_ite kept, ite_self, foldl_kept, foldDoms_kept, kept_abortPark, kept_setCellAt, kept_setDom])
@[simp] theorem kept_parkAll (s : State) (x1 : Nat) :
    kept (parkAll s x1) = kept s := by
  unfold parkAll
  first
  | (simp only [kept_mk, kept_eta, apply_ite kept, ite_self, foldl_kept, foldDoms_kept, kept_parkLatch, kept_setDroop, kept_setDom]; done)
  | ((try dsimp only) <;> (repeat' split) <;> simp only [kept_mk, kept_eta, apply_ite kept, ite_self, foldl_kept, foldDoms_kept, kept_parkLatch, kept_setDroop, kept_setDom]; done)
  | ((try dsimp only) <;> (repeat' split) <;> simp [kept_mk, kept_eta, apply_ite kept, ite_self, foldl_kept, foldDoms_kept, kept_parkLatch, kept_setDroop, kept_setDom])
@[simp] theorem kept_plausChannel (s : State) (x1 : Nat) (x2 : Int) :
    kept (plausChannel s x1 x2) = kept s := by
  unfold plausChannel
  first
  | (simp only [kept_mk, kept_eta, apply_ite kept, ite_self, foldl_kept, foldDoms_kept, kept_plausCond]; done)
  | ((try dsimp only) <;> (repeat' split) <;> simp only [kept_mk, kept_eta, apply_ite kept, ite_self, foldl_kept, foldDoms_kept, kept_plausCond]; done)
  | ((try dsimp only) <;> (repeat' split) <;> simp [kept_mk, kept_eta, apply_ite kept, ite_self, foldl_kept, foldDoms_kept, kept_plausCond])
@[simp] theorem kept_pmbErr (s : State) (x1 : BusTxn) :
    kept (pmbErr s x1) = kept s := by
  unfold pmbErr
  first
  | (simp only [kept_mk, kept_eta, apply_ite kept, ite_self, foldl_kept, foldDoms_kept, kept_freshBelow, kept_raise]; done)
  | ((try dsimp only) <;> (repeat' split) <;> simp only [kept_mk, kept_eta, apply_ite kept, ite_self, foldl_kept, foldDoms_kept, kept_freshBelow, kept_raise]; done)
  | ((try dsimp only) <;> (repeat' split) <;> simp [kept_mk, kept_eta, apply_ite kept, ite_self, foldl_kept, foldDoms_kept, kept_freshBelow, kept_raise])
@[simp] theorem kept_postFault (s : State) (x1 : DWord) (x2 : Word) (x3 : Word) :
    kept (postFault s x1 x2 x3) = kept s := by
  unfold postFault
  first
  | (simp only [kept_mk, kept_eta, apply_ite kept, ite_self, foldl_kept, foldDoms_kept, kept_postEvent]; done)
  | ((try dsimp only) <;> (repeat' split) <;> simp only [kept_mk, kept_eta, apply_ite kept, ite_self, foldl_kept, foldDoms_kept, kept_postEvent]; done)
  | ((try dsimp only) <;> (repeat' split) <;> simp [kept_mk, kept_eta, apply_ite kept, ite_self, foldl_kept, foldDoms_kept, kept_postEvent])
@[simp] theorem kept_programRecord (s : State) (x1 : StrataRec) :
    kept (programRecord s x1) = kept s := by
  unfold programRecord
  first
  | (simp only [kept_mk, kept_eta, apply_ite kept, ite_self, foldl_kept, foldDoms_kept, kept_passSlot, kept_issue]; done)
  | ((try dsimp only) <;> (repeat' split) <;> simp only [kept_mk, kept_eta, apply_ite kept, ite_self, foldl_kept, foldDoms_kept, kept_passSlot, kept_issue]; done)
  | ((try dsimp only) <;> (repeat' split) <;> simp [kept_mk, kept_eta, apply_ite kept, ite_self, foldl_kept, foldDoms_kept, kept_passSlot, kept_issue])
@[simp] theorem kept_programEnds (x0 : Bool) (x1 : StrataRec) (s : State) :
    kept (programEnds x0 x1 s) = kept s := by
  unfold programEnds
  first
  | (simp only [kept_mk, kept_eta, apply_ite kept, ite_self, foldl_kept, foldDoms_kept, kept_passSlot, kept_programRecord, kept_issue, kept_norError]; done)
  | ((try dsimp only) <;> (repeat' split) <;> simp only [kept_mk, kept_eta, apply_ite kept, ite_self, foldl_kept, foldDoms_kept, kept_passSlot, kept_programRecord, kept_issue, kept_norError]; done)
  | ((try dsimp only) <;> (repeat' split) <;> simp [kept_mk, kept_eta, apply_ite kept, ite_self, foldl_kept, foldDoms_kept, kept_passSlot, kept_programRecord, kept_issue, kept_norError])
@[simp] theorem kept_pulseEnd (s : State) :
    kept (pulseEnd s) = kept s := by
  unfold pulseEnd
  first
  | (simp only [kept_mk, kept_eta, apply_ite kept, ite_self, foldl_kept, foldDoms_kept, kept_setDoms]; done)
  | ((try dsimp only) <;> (repeat' split) <;> simp only [kept_mk, kept_eta, apply_ite kept, ite_self, foldl_kept, foldDoms_kept, kept_setDoms]; done)
  | ((try dsimp only) <;> (repeat' split) <;> simp [kept_mk, kept_eta, apply_ite kept, ite_self, foldl_kept, foldDoms_kept, kept_setDoms])
@[simp] theorem kept_pulseStart (s : State) :
    kept (pulseStart s) = kept s := by
  unfold pulseStart
  first
  | (simp only [kept_mk, kept_eta, apply_ite kept, ite_self, foldl_kept, foldDoms_kept, kept_setDoms]; done)
  | ((try dsimp only) <;> (repeat' split) <;> simp only [kept_mk, kept_eta, apply_ite kept, ite_self, foldl_kept, foldDoms_kept, kept_setDoms]; done)
  | ((try dsimp only) <;> (repeat' split) <;> simp [kept_mk, kept_eta, apply_ite kept, ite_self, foldl_kept, foldDoms_kept, kept_setDoms])
@[simp] theorem kept_raiseAtOnce (s : State) (x1 : Nat) (x2 : Nat) (x3 : Nat) (x4 : Nat) (x5 : Nat) :
    kept (raiseAtOnce s x1 x2 x3 x4 x5) = kept s := by
  unfold raiseAtOnce
  first
  | (simp only [kept_mk, kept_eta, apply_ite kept, ite_self, foldl_kept, foldDoms_kept, kept_atOnce, kept_raise]; done)
  | ((try dsimp only) <;> (repeat' split) <;> simp only [kept_mk, kept_eta, apply_ite kept, ite_self, foldl_kept, foldDoms_kept, kept_atOnce, kept_raise]; done)
  | ((try dsimp only) <;> (repeat' split) <;> simp [kept_mk, kept_eta, apply_ite kept, ite_self, foldl_kept, foldDoms_kept, kept_atOnce, kept_raise])
@[simp] theorem kept_raiseExt (s : State) (x1 : Nat) (x2 : Nat) (x3 : Nat) (x4 : Nat) (x5 : Nat) (x6 : Word) :
    kept (raiseExt s x1 x2 x3 x4 x5 x6) = kept s := by
  unfold raiseExt
  first
  | (simp only [kept_mk, kept_eta, apply_ite kept, ite_self, foldl_kept, foldDoms_kept, kept_enqueueFault]; done)
  | ((try dsimp only) <;> (repeat' split) <;> simp only [kept_mk, kept_eta, apply_ite kept, ite_self, foldl_kept, foldDoms_kept, kept_enqueueFault]; done)
  | ((try dsimp only) <;> (repeat' split) <;> simp [kept_mk, kept_eta, apply_ite kept, ite_self, foldl_kept, foldDoms_kept, kept_enqueueFault])
@[simp] theorem kept_raiseFrom (s : State) (x1 : Nat) (x2 : Nat) (x3 : Nat) (x4 : Nat) (x5 : Nat) (x6 : Nat) :
    kept (raiseFrom s x1 x2 x3 x4 x5 x6) = kept s := by
  unfold raiseFrom
  first
  | (simp only [kept_mk, kept_eta, apply_ite kept, ite_self, foldl_kept, foldDoms_kept, kept_enqueueFault]; done)
  | ((try dsimp only) <;> (repeat' split) <;> simp only [kept_mk, kept_eta, apply_ite kept, ite_self, foldl_kept, foldDoms_kept, kept_enqueueFault]; done)
  | ((try dsimp only) <;> (repeat' split) <;> simp [kept_mk, kept_eta, apply_ite kept, ite_self, foldl_kept, foldDoms_kept, kept_enqueueFault])
@[simp] theorem kept_rcSaturate (s : State) (x1 : Nat) (x2 : Nat) :
    kept (rcSaturate s x1 x2) = kept s := by
  unfold rcSaturate
  first
  | (simp only [kept_mk, kept_eta, apply_ite kept, ite_self, foldl_kept, foldDoms_kept, kept_report, kept_raise, kept_setDom]; done)
  | ((try dsimp only) <;> (repeat' split) <;> simp only [kept_mk, kept_eta, apply_ite kept, ite_self, foldl_kept, foldDoms_kept, kept_report, kept_raise, kept_setDom]; done)
  | ((try dsimp only) <;> (repeat' split) <;> simp [kept_mk, kept_eta, apply_ite kept, ite_self, foldl_kept, foldDoms_kept, kept_report, kept_raise, kept_setDom])
@[simp] theorem kept_rcEndUpdate (s : State) (x1 : Nat) :
    kept (rcEndUpdate s x1) = kept s := by
  unfold rcEndUpdate
  first
  | (simp only [kept_mk, kept_eta, apply_ite kept, ite_self, foldl_kept, foldDoms_kept, kept_rcSaturate, kept_setRc]; done)
  | ((try dsimp only) <;> (repeat' split) <;> simp only [kept_mk, kept_eta, apply_ite kept, ite_self, foldl_kept, foldDoms_kept, kept_rcSaturate, kept_setRc]; done)
  | ((try dsimp only) <;> (repeat' split) <;> simp [kept_mk, kept_eta, apply_ite kept, ite_self, foldl_kept, foldDoms_kept, kept_rcSaturate, kept_setRc])
@[simp] theorem kept_rcLearn (s : State) (x1 : Nat) (x2 : Int) (x3 : Int) :
    kept (rcLearn s x1 x2 x3) = kept s := by
  unfold rcLearn
  first
  | (simp only [kept_mk, kept_eta, apply_ite kept, ite_self, foldl_kept, foldDoms_kept, kept_setRc]; done)
  | ((try dsimp only) <;> (repeat' split) <;> simp only [kept_mk, kept_eta, apply_ite kept, ite_self, foldl_kept, foldDoms_kept, kept_setRc]; done)
  | ((try dsimp only) <;> (repeat' split) <;> simp [kept_mk, kept_eta, apply_ite kept, ite_self, foldl_kept, foldDoms_kept, kept_setRc])
@[simp] theorem kept_refuseUnit (s : State) (x1 : List Cmd) (x2 : Nat) (x3 : Nat) (x4 : Word) :
    kept (refuseUnit s x1 x2 x3 x4) = kept s := by
  unfold refuseUnit
  first
  | (simp only [kept_mk, kept_eta, apply_ite kept, ite_self, foldl_kept, foldDoms_kept, kept_failUnit]; done)
  | ((try dsimp only) <;> (repeat' split) <;> simp only [kept_mk, kept_eta, apply_ite kept, ite_self, foldl_kept, foldDoms_kept, kept_failUnit]; done)
  | ((try dsimp only) <;> (repeat' split) <;> simp [kept_mk, kept_eta, apply_ite kept, ite_self, foldl_kept, foldDoms_kept, kept_failUnit])
@[simp] theorem kept_regrant (s : State) :
    kept (regrant s) = kept s := by
  unfold regrant
  dsimp only
  rw [kept_setArbChip]
  exact (foldl_kept _ _ _ (fun s x => by simp only [kept_mk, kept_eta, apply_ite kept, ite_self, foldl_kept, foldDoms_kept, kept_moveFreq, kept_setArbChip, kept_setArb])).trans (foldl1_kept _ _ _ (fun a x => by simp only [kept_mk, kept_eta, apply_ite kept, ite_self, foldl_kept, foldDoms_kept, kept_moveFreq, kept_setArbChip, kept_setArb]))
@[simp] theorem kept_resumeCmds (s : State) :
    kept (resumeCmds s) = kept s := by
  unfold resumeCmds
  dsimp only
  exact (foldl_kept _ _ _ (fun s x => by split <;> (try split) <;> simp only [kept_mk, kept_eta, apply_ite kept, ite_self, foldl_kept, foldDoms_kept, kept_failUnit, kept_editUnit])).trans (foldl_kept _ _ _ (fun s x => by simp only [kept_mk, kept_eta, apply_ite kept, ite_self, foldl_kept, foldDoms_kept, kept_failUnit, kept_editUnit]))
@[simp] theorem kept_riseSensor (s : State) (x1 : Nat) :
    kept (riseSensor s x1) = kept s := by
  unfold riseSensor
  first
  | (simp only [kept_mk, kept_eta, apply_ite kept, ite_self, foldl_kept, foldDoms_kept, kept_setTherm, kept_setMembers, kept_raise]; done)
  | ((try dsimp only) <;> (repeat' split) <;> simp only [kept_mk, kept_eta, apply_ite kept, ite_self, foldl_kept, foldDoms_kept, kept_setTherm, kept_setMembers, kept_raise]; done)
  | ((try dsimp only) <;> (repeat' split) <;> simp [kept_mk, kept_eta, apply_ite kept, ite_self, foldl_kept, foldDoms_kept, kept_setTherm, kept_setMembers, kept_raise])
@[simp] theorem kept_rotateLanes (x0 : Nat) (s : State) :
    kept (rotateLanes x0 s) = kept s := by
  unfold rotateLanes
  first
  | (simp only [kept_mk, kept_eta, apply_ite kept, ite_self, foldl_kept, foldDoms_kept, kept_startTest, kept_abandonTests]; done)
  | ((try dsimp only) <;> (repeat' split) <;> simp only [kept_mk, kept_eta, apply_ite kept, ite_self, foldl_kept, foldDoms_kept, kept_startTest, kept_abandonTests]; done)
  | ((try dsimp only) <;> (repeat' split) <;> simp [kept_mk, kept_eta, apply_ite kept, ite_self, foldl_kept, foldDoms_kept, kept_startTest, kept_abandonTests])
@[simp] theorem kept_runSection (x0 : List Word) (x1 : Nat) (x2 : List Upset) (x3 : Nat) (s : State) :
    kept (runSection x0 x1 x2 x3 s) = kept s := by
  induction x3 generalizing s with
  | zero => rfl
  | succ n ih =>
    unfold runSection
    dsimp only
    (repeat' split) <;> simp only [kept_mk, kept_eta, apply_ite kept, ite_self, foldl_kept, foldDoms_kept, kept_cleWordStep, ih]
@[simp] theorem kept_scrubHit (s : State) (x1 : ScrubHit) :
    kept (scrubHit s x1) = kept s := by
  unfold scrubHit
  first
  | (simp only [kept_mk, kept_eta, apply_ite kept, ite_self, foldl_kept, foldDoms_kept, kept_setRc, kept_overrunHold, kept_atLost, kept_eccCorr, kept_eccUnc, kept_modelLost, kept_freshBelow, kept_acceptAll, kept_raise, kept_setDom]; done)
  | ((try dsimp only) <;> (repeat' split) <;> simp only [kept_mk, kept_eta, apply_ite kept, ite_self, foldl_kept, foldDoms_kept, kept_setRc, kept_overrunHold, kept_atLost, kept_eccCorr, kept_eccUnc, kept_modelLost, kept_freshBelow, kept_acceptAll, kept_raise, kept_setDom]; done)
  | ((try dsimp only) <;> (repeat' split) <;> simp [kept_mk, kept_eta, apply_ite kept, ite_self, foldl_kept, foldDoms_kept, kept_setRc, kept_overrunHold, kept_atLost, kept_eccCorr, kept_eccUnc, kept_modelLost, kept_freshBelow, kept_acceptAll, kept_raise, kept_setDom])
@[simp] theorem kept_setConv (s : State) (x1 : Nat) (x2 : Conv5 → Conv5) :
    kept (setConv s x1 x2) = kept s := by
  unfold setConv
  first
  | (simp only [kept_mk, kept_eta, apply_ite kept, ite_self, foldl_kept, foldDoms_kept]; done)
  | ((try dsimp only) <;> (repeat' split) <;> simp only [kept_mk, kept_eta, apply_ite kept, ite_self, foldl_kept, foldDoms_kept]; done)
  | ((try dsimp only) <;> (repeat' split) <;> simp [kept_mk, kept_eta, apply_ite kept, ite_self, foldl_kept, foldDoms_kept])
@[simp] theorem kept_sendTrim (s : State) (x1 : Nat) (x2 : Nat) :
    kept (sendTrim s x1 x2) = kept s := by
  unfold sendTrim
  first
  | (simp only [kept_mk, kept_eta, apply_ite kept, ite_self, foldl_kept, foldDoms_kept, kept_setConv, kept_busTrim]; done)
  | ((try dsimp only) <;> (repeat' split) <;> simp only [kept_mk, kept_eta, apply_ite kept, ite_self, foldl_kept, foldDoms_kept, kept_setConv, kept_busTrim]; done)
  | ((try dsimp only) <;> (repeat' split) <;> simp [kept_mk, kept_eta, apply_ite kept, ite_self, foldl_kept, foldDoms_kept, kept_setConv, kept_busTrim])
@[simp] theorem kept_setTargets (s : State) :
    kept (setTargets s) = kept s := by
  unfold setTargets
  first
  | (simp only [kept_mk, kept_eta, apply_ite kept, ite_self, foldl_kept, foldDoms_kept, kept_setMembers]; done)
  | ((try dsimp only) <;> (repeat' split) <;> simp only [kept_mk, kept_eta, apply_ite kept, ite_self, foldl_kept, foldDoms_kept, kept_setMembers]; done)
  | ((try dsimp only) <;> (repeat' split) <;> simp [kept_mk, kept_eta, apply_ite kept, ite_self, foldl_kept, foldDoms_kept, kept_setMembers])
@[simp] theorem kept_setWants (s : State) :
    kept (setWants s) = kept s := by
  unfold setWants
  first
  | (simp only [kept_mk, kept_eta, apply_ite kept, ite_self, foldl_kept, foldDoms_kept, kept_setArb]; done)
  | ((try dsimp only) <;> (repeat' split) <;> simp only [kept_mk, kept_eta, apply_ite kept, ite_self, foldl_kept, foldDoms_kept, kept_setArb]; done)
  | ((try dsimp only) <;> (repeat' split) <;> simp [kept_mk, kept_eta, apply_ite kept, ite_self, foldl_kept, foldDoms_kept, kept_setArb])
@[simp] theorem kept_shareLatch (s : State) (x1 : Nat) :
    kept (shareLatch s x1) = kept s := by
  unfold shareLatch
  first
  | (simp only [kept_mk, kept_eta, apply_ite kept, ite_self, foldl_kept, foldDoms_kept, kept_setCellAt]; done)
  | ((try dsimp only) <;> (repeat' split) <;> simp only [kept_mk, kept_eta, apply_ite kept, ite_self, foldl_kept, foldDoms_kept, kept_setCellAt]; done)
  | ((try dsimp only) <;> (repeat' split) <;> simp [kept_mk, kept_eta, apply_ite kept, ite_self, foldl_kept, foldDoms_kept, kept_setCellAt])
@[simp] theorem kept_watchSlot (x0 : Nat) (x1 : Latch) (x2 : Nat) (s : State) (x4 : Nat) :
    kept (watchSlot x0 x1 x2 s x4) = kept s := by
  unfold watchSlot
  first
  | (simp only [kept_mk, kept_eta, apply_ite kept, ite_self, foldl_kept, foldDoms_kept, kept_postEvent, kept_setPort]; done)
  | ((try dsimp only) <;> (repeat' split) <;> simp only [kept_mk, kept_eta, apply_ite kept, ite_self, foldl_kept, foldDoms_kept, kept_postEvent, kept_setPort]; done)
  | ((try dsimp only) <;> (repeat' split) <;> simp [kept_mk, kept_eta, apply_ite kept, ite_self, foldl_kept, foldDoms_kept, kept_postEvent, kept_setPort])
@[simp] theorem kept_watchesAt (x0 : Nat) (x1 : Latch) (s : State) :
    kept (watchesAt x0 x1 s) = kept s := by
  unfold watchesAt
  first
  | (simp only [kept_mk, kept_eta, apply_ite kept, ite_self, foldl_kept, foldDoms_kept, kept_watchSlot]; done)
  | ((try dsimp only) <;> (repeat' split) <;> simp only [kept_mk, kept_eta, apply_ite kept, ite_self, foldl_kept, foldDoms_kept, kept_watchSlot]; done)
  | ((try dsimp only) <;> (repeat' split) <;> simp [kept_mk, kept_eta, apply_ite kept, ite_self, foldl_kept, foldDoms_kept, kept_watchSlot])
@[simp] theorem kept_sieveShutter (x0 : Nat) (s : State) :
    kept (sieveShutter x0 s) = kept s := by
  unfold sieveShutter
  first
  | (simp only [kept_mk, kept_eta, apply_ite kept, ite_self, foldl_kept, foldDoms_kept, kept_sievePost, kept_sieveEnd]; done)
  | ((try dsimp only) <;> (repeat' split) <;> simp only [kept_mk, kept_eta, apply_ite kept, ite_self, foldl_kept, foldDoms_kept, kept_sievePost, kept_sieveEnd]; done)
  | ((try dsimp only) <;> (repeat' split) <;> simp [kept_mk, kept_eta, apply_ite kept, ite_self, foldl_kept, foldDoms_kept, kept_sievePost, kept_sieveEnd])
@[simp] theorem kept_siteFrame (x0 : Nat) (s : State) :
    kept (siteFrame x0 s) = kept s := by
  unfold siteFrame
  first
  | (simp only [kept_mk, kept_eta, apply_ite kept, ite_self, foldl_kept, foldDoms_kept, kept_setDoms]; done)
  | ((try dsimp only) <;> (repeat' split) <;> simp only [kept_mk, kept_eta, apply_ite kept, ite_self, foldl_kept, foldDoms_kept, kept_setDoms]; done)
  | ((try dsimp only) <;> (repeat' split) <;> simp [kept_mk, kept_eta, apply_ite kept, ite_self, foldl_kept, foldDoms_kept, kept_setDoms])
@[simp] theorem kept_slotBegin (s : State) (x1 : Nat) (x2 : Nat) (x3 : Nat) (x4 : Nat) (x5 : Nat) (x6 : Program) :
    kept (slotBegin s x1 x2 x3 x4 x5 x6) = kept s := by
  unfold slotBegin
  first
  | (simp only [kept_mk, kept_eta, apply_ite kept, ite_self, foldl_kept, foldDoms_kept]; done)
  | ((try dsimp only) <;> (repeat' split) <;> simp only [kept_mk, kept_eta, apply_ite kept, ite_self, foldl_kept, foldDoms_kept]; done)
  | ((try dsimp only) <;> (repeat' split) <;> simp [kept_mk, kept_eta, apply_ite kept, ite_self, foldl_kept, foldDoms_kept])
@[simp] theorem kept_slotEnd (s : State) (x1 : Nat) (x2 : SlotUse) (x3 : List Upset) :
    kept (slotEnd s x1 x2 x3) = kept s := by
  unfold slotEnd
  first
  | (simp only [kept_mk, kept_eta, apply_ite kept, ite_self, foldl_kept, foldDoms_kept, kept_mismatchFound, kept_commitWords, kept_outputsHeld, kept_applyOutputs, kept_setDom]; done)
  | ((try dsimp only) <;> (repeat' split) <;> simp only [kept_mk, kept_eta, apply_ite kept, ite_self, foldl_kept, foldDoms_kept, kept_mismatchFound, kept_commitWords, kept_outputsHeld, kept_applyOutputs, kept_setDom]; done)
  | ((try dsimp only) <;> (repeat' split) <;> simp [kept_mk, kept_eta, apply_ite kept, ite_self, foldl_kept, foldDoms_kept, kept_mismatchFound, kept_commitWords, kept_outputsHeld, kept_applyOutputs, kept_setDom])
@[simp] theorem kept_slotLearn (s : State) (x1 : Nat) (x2 : Nat) :
    kept (slotLearn s x1 x2) = kept s := by
  unfold slotLearn
  first
  | (simp only [kept_mk, kept_eta, apply_ite kept, ite_self, foldl_kept, foldDoms_kept, kept_rcLearn]; done)
  | ((try dsimp only) <;> (repeat' split) <;> simp only [kept_mk, kept_eta, apply_ite kept, ite_self, foldl_kept, foldDoms_kept, kept_rcLearn]; done)
  | ((try dsimp only) <;> (repeat' split) <;> simp [kept_mk, kept_eta, apply_ite kept, ite_self, foldl_kept, foldDoms_kept, kept_rcLearn])
@[simp] theorem kept_slotRan (s : State) (x1 : Nat) (x2 : Nat) (x3 : Nat) (x4 : Nat) (x5 : Nat) (x6 : Program) (x7 : List Upset) :
    kept (slotRan s x1 x2 x3 x4 x5 x6 x7) = kept s := by
  unfold slotRan
  first
  | (simp only [kept_mk, kept_eta, apply_ite kept, ite_self, foldl_kept, foldDoms_kept, kept_slotBegin, kept_runSection]; done)
  | ((try dsimp only) <;> (repeat' split) <;> simp only [kept_mk, kept_eta, apply_ite kept, ite_self, foldl_kept, foldDoms_kept, kept_slotBegin, kept_runSection]; done)
  | ((try dsimp only) <;> (repeat' split) <;> simp [kept_mk, kept_eta, apply_ite kept, ite_self, foldl_kept, foldDoms_kept, kept_slotBegin, kept_runSection])
@[simp] theorem kept_storeErr (x0 : Nat) (s : State) (x2 : StoreErr) :
    kept (storeErr x0 s x2) = kept s := by
  unfold storeErr
  first
  | (simp only [kept_mk, kept_eta, apply_ite kept, ite_self, foldl_kept, foldDoms_kept, kept_markUnusable, kept_loadInit, kept_raise]; done)
  | ((try dsimp only) <;> (repeat' split) <;> simp only [kept_mk, kept_eta, apply_ite kept, ite_self, foldl_kept, foldDoms_kept, kept_markUnusable, kept_loadInit, kept_raise]; done)
  | ((try dsimp only) <;> (repeat' split) <;> simp [kept_mk, kept_eta, apply_ite kept, ite_self, foldl_kept, foldDoms_kept, kept_markUnusable, kept_loadInit, kept_raise])
@[simp] theorem kept_slotRun (s : State) (x1 : Nat) (x2 : Nat) (x3 : Nat) (x4 : Nat) (x5 : Nat) (x6 : SlotUse) (x7 : Program) (x8 : List Upset) (x9 : List StoreErr) :
    kept (slotRun s x1 x2 x3 x4 x5 x6 x7 x8 x9) = kept s := by
  unfold slotRun
  first
  | (simp only [kept_mk, kept_eta, apply_ite kept, ite_self, foldl_kept, foldDoms_kept, kept_storeErr, kept_overrun, kept_slotEnd, kept_slotRan, kept_outputsHeld]; done)
  | ((try dsimp only) <;> (repeat' split) <;> simp only [kept_mk, kept_eta, apply_ite kept, ite_self, foldl_kept, foldDoms_kept, kept_storeErr, kept_overrun, kept_slotEnd, kept_slotRan, kept_outputsHeld]; done)
  | ((try dsimp only) <;> (repeat' split) <;> simp [kept_mk, kept_eta, apply_ite kept, ite_self, foldl_kept, foldDoms_kept, kept_storeErr, kept_overrun, kept_slotEnd, kept_slotRan, kept_outputsHeld])
@[simp] theorem kept_startBreath (s : State) :
    kept (startBreath s) = kept s := by
  unfold startBreath
  first
  | (simp only [kept_mk, kept_eta, apply_ite kept, ite_self, foldl_kept, foldDoms_kept, kept_issue]; done)
  | ((try dsimp only) <;> (repeat' split) <;> simp only [kept_mk, kept_eta, apply_ite kept, ite_self, foldl_kept, foldDoms_kept, kept_issue]; done)
  | ((try dsimp only) <;> (repeat' split) <;> simp [kept_mk, kept_eta, apply_ite kept, ite_self, foldl_kept, foldDoms_kept, kept_issue])
@[simp] theorem kept_startHold (s : State) (x1 : Nat) (x2 : Nat) :
    kept (startHold s x1 x2) = kept s := by
  unfold startHold
  first
  | (simp only [kept_mk, kept_eta, apply_ite kept, ite_self, foldl_kept, foldDoms_kept]; done)
  | ((try dsimp only) <;> (repeat' split) <;> simp only [kept_mk, kept_eta, apply_ite kept, ite_self, foldl_kept, foldDoms_kept]; done)
  | ((try dsimp only) <;> (repeat' split) <;> simp [kept_mk, kept_eta, apply_ite kept, ite_self, foldl_kept, foldDoms_kept])
@[simp] theorem kept_startMc (s : State) :
    kept (startMc s) = kept s := by
  unfold startMc
  first
  | (simp only [kept_mk, kept_eta, apply_ite kept, ite_self, foldl_kept, foldDoms_kept]; done)
  | ((try dsimp only) <;> (repeat' split) <;> simp only [kept_mk, kept_eta, apply_ite kept, ite_self, foldl_kept, foldDoms_kept]; done)
  | ((try dsimp only) <;> (repeat' split) <;> simp [kept_mk, kept_eta, apply_ite kept, ite_self, foldl_kept, foldDoms_kept])
@[simp] theorem kept_uvRelease (s : State) (x1 : Nat) :
    kept (uvRelease s x1) = kept s := by
  unfold uvRelease
  first
  | (simp only [kept_mk, kept_eta, apply_ite kept, ite_self, foldl_kept, foldDoms_kept, kept_setStops]; done)
  | ((try dsimp only) <;> (repeat' split) <;> simp only [kept_mk, kept_eta, apply_ite kept, ite_self, foldl_kept, foldDoms_kept, kept_setStops]; done)
  | ((try dsimp only) <;> (repeat' split) <;> simp [kept_mk, kept_eta, apply_ite kept, ite_self, foldl_kept, foldDoms_kept, kept_setStops])
@[simp] theorem kept_stationFrame (x0 : Nat) (s : State) (x2 : Nat) :
    kept (stationFrame x0 s x2) = kept s := by
  unfold stationFrame
  first
  | (simp only [kept_mk, kept_eta, apply_ite kept, ite_self, foldl_kept, foldDoms_kept, kept_hubRecord, kept_setMembers, kept_uvRelease, kept_driveThr]; done)
  | ((try dsimp only) <;> (repeat' split) <;> simp only [kept_mk, kept_eta, apply_ite kept, ite_self, foldl_kept, foldDoms_kept, kept_hubRecord, kept_setMembers, kept_uvRelease, kept_driveThr]; done)
  | ((try dsimp only) <;> (repeat' split) <;> simp [kept_mk, kept_eta, apply_ite kept, ite_self, foldl_kept, foldDoms_kept, kept_hubRecord, kept_setMembers, kept_uvRelease, kept_driveThr])
@[simp] theorem kept_supLatch (s : State) (x1 : Nat) :
    kept (supLatch s x1) = kept s := by
  unfold supLatch
  first
  | (simp only [kept_mk, kept_eta, apply_ite kept, ite_self, foldl_kept, foldDoms_kept, kept_supStart, kept_setDom]; done)
  | ((try dsimp only) <;> (repeat' split) <;> simp only [kept_mk, kept_eta, apply_ite kept, ite_self, foldl_kept, foldDoms_kept, kept_supStart, kept_setDom]; done)
  | ((try dsimp only) <;> (repeat' split) <;> simp [kept_mk, kept_eta, apply_ite kept, ite_self, foldl_kept, foldDoms_kept, kept_supStart, kept_setDom])
@[simp] theorem kept_transLatch (s : State) (x1 : Nat) :
    kept (transLatch s x1) = kept s := by
  unfold transLatch
  first
  | (simp only [kept_mk, kept_eta, apply_ite kept, ite_self, foldl_kept, foldDoms_kept, kept_setMembers]; done)
  | ((try dsimp only) <;> (repeat' split) <;> simp only [kept_mk, kept_eta, apply_ite kept, ite_self, foldl_kept, foldDoms_kept, kept_setMembers]; done)
  | ((try dsimp only) <;> (repeat' split) <;> simp [kept_mk, kept_eta, apply_ite kept, ite_self, foldl_kept, foldDoms_kept, kept_setMembers])
@[simp] theorem kept_stationLatch (s : State) (x1 : Nat) :
    kept (stationLatch s x1) = kept s := by
  unfold stationLatch
  first
  | (simp only [kept_mk, kept_eta, apply_ite kept, ite_self, foldl_kept, foldDoms_kept, kept_ovldLatch, kept_derateLatch, kept_supLatch, kept_shareLatch, kept_parkAll, kept_transLatch, kept_droopLatch, kept_setCellAt]; done)
  | ((try dsimp only) <;> (repeat' split) <;> simp only [kept_mk, kept_eta, apply_ite kept, ite_self, foldl_kept, foldDoms_kept, kept_ovldLatch, kept_derateLatch, kept_supLatch, kept_shareLatch, kept_parkAll, kept_transLatch, kept_droopLatch, kept_setCellAt]; done)
  | ((try dsimp only) <;> (repeat' split) <;> simp [kept_mk, kept_eta, apply_ite kept, ite_self, foldl_kept, foldDoms_kept, kept_ovldLatch, kept_derateLatch, kept_supLatch, kept_shareLatch, kept_parkAll, kept_transLatch, kept_droopLatch, kept_setCellAt])
@[simp] theorem kept_statusRead (s : State) (x1 : Nat) (x2 : BitVec 16) :
    kept (statusRead s x1 x2) = kept s := by
  unfold statusRead
  first
  | (simp only [kept_mk, kept_eta, apply_ite kept, ite_self, foldl_kept, foldDoms_kept, kept_setConv, kept_raise]; done)
  | ((try dsimp only) <;> (repeat' split) <;> simp only [kept_mk, kept_eta, apply_ite kept, ite_self, foldl_kept, foldDoms_kept, kept_setConv, kept_raise]; done)
  | ((try dsimp only) <;> (repeat' split) <;> simp [kept_mk, kept_eta, apply_ite kept, ite_self, foldl_kept, foldDoms_kept, kept_setConv, kept_raise])
@[simp] theorem kept_steadyCheck (s : State) (x1 : Nat) :
    kept (steadyCheck s x1) = kept s := by
  unfold steadyCheck
  first
  | (simp only [kept_mk, kept_eta, apply_ite kept, ite_self, foldl_kept, foldDoms_kept, kept_raise, kept_setArbChip]; done)
  | ((try dsimp only) <;> (repeat' split) <;> simp only [kept_mk, kept_eta, apply_ite kept, ite_self, foldl_kept, foldDoms_kept, kept_raise, kept_setArbChip]; done)
  | ((try dsimp only) <;> (repeat' split) <;> simp [kept_mk, kept_eta, apply_ite kept, ite_self, foldl_kept, foldDoms_kept, kept_raise, kept_setArbChip])
@[simp] theorem kept_takeMessage (s : State) (x1 : FaultMsg) :
    kept (takeMessage s x1) = kept s := by
  unfold takeMessage
  first
  | (simp only [kept_mk, kept_eta, apply_ite kept, ite_self, foldl_kept, foldDoms_kept, kept_markSeen, kept_journalSlot, kept_classReaction, kept_postFault, kept_countFault, kept_latchSources, kept_raise, kept_pushRecord]; done)
  | ((try dsimp only) <;> (repeat' split) <;> simp only [kept_mk, kept_eta, apply_ite kept, ite_self, foldl_kept, foldDoms_kept, kept_markSeen, kept_journalSlot, kept_classReaction, kept_postFault, kept_countFault, kept_latchSources, kept_raise, kept_pushRecord]; done)
  | ((try dsimp only) <;> (repeat' split) <;> simp [kept_mk, kept_eta, apply_ite kept, ite_self, foldl_kept, foldDoms_kept, kept_markSeen, kept_journalSlot, kept_classReaction, kept_postFault, kept_countFault, kept_latchSources, kept_raise, kept_pushRecord])
@[simp] theorem kept_takeOwn (s : State) (x1 : Nat) (x2 : DownRec) :
    kept (takeOwn s x1 x2) = kept s := by
  unfold takeOwn
  first
  | (simp only [kept_mk, kept_eta, apply_ite kept, ite_self, foldl_kept, foldDoms_kept, kept_takeWhole, kept_driveThr]; done)
  | ((try dsimp only) <;> (repeat' split) <;> simp only [kept_mk, kept_eta, apply_ite kept, ite_self, foldl_kept, foldDoms_kept, kept_takeWhole, kept_driveThr]; done)
  | ((try dsimp only) <;> (repeat' split) <;> simp [kept_mk, kept_eta, apply_ite kept, ite_self, foldl_kept, foldDoms_kept, kept_takeWhole, kept_driveThr])
@[simp] theorem kept_takeSense (s : State) (x1 : SenseSample) :
    kept (takeSense s x1) = kept s := by
  unfold takeSense
  first
  | (simp only [kept_mk, kept_eta, apply_ite kept, ite_self, foldl_kept, foldDoms_kept, kept_setDom]; done)
  | ((try dsimp only) <;> (repeat' split) <;> simp only [kept_mk, kept_eta, apply_ite kept, ite_self, foldl_kept, foldDoms_kept, kept_setDom]; done)
  | ((try dsimp only) <;> (repeat' split) <;> simp [kept_mk, kept_eta, apply_ite kept, ite_self, foldl_kept, foldDoms_kept, kept_setDom])
@[simp] theorem kept_takeSums (s : State) (x1 : Nat) (x2 : UpFrame) :
    kept (takeSums s x1 x2) = kept s := by
  unfold takeSums
  first
  | (simp only [kept_mk, kept_eta, apply_ite kept, ite_self, foldl_kept, foldDoms_kept, kept_setDom]; done)
  | ((try dsimp only) <;> (repeat' split) <;> simp only [kept_mk, kept_eta, apply_ite kept, ite_self, foldl_kept, foldDoms_kept, kept_setDom]; done)
  | ((try dsimp only) <;> (repeat' split) <;> simp [kept_mk, kept_eta, apply_ite kept, ite_self, foldl_kept, foldDoms_kept, kept_setDom])
@[simp] theorem kept_testEffect (s : State) (x1 : TestRun) (x2 : TestResult) :
    kept (testEffect s x1 x2) = kept s := by
  unfold testEffect
  first
  | (simp only [kept_mk, kept_eta, apply_ite kept, ite_self, foldl_kept, foldDoms_kept, kept_laneTestEnd, kept_declareFailed, kept_cellTestEnd, kept_bankTestEnd, kept_arrayTestEnd, kept_cellmapChecked]; done)
  | ((try dsimp only) <;> (repeat' split) <;> simp only [kept_mk, kept_eta, apply_ite kept, ite_self, foldl_kept, foldDoms_kept, kept_laneTestEnd, kept_declareFailed, kept_cellTestEnd, kept_bankTestEnd, kept_arrayTestEnd, kept_cellmapChecked]; done)
  | ((try dsimp only) <;> (repeat' split) <;> simp [kept_mk, kept_eta, apply_ite kept, ite_self, foldl_kept, foldDoms_kept, kept_laneTestEnd, kept_declareFailed, kept_cellTestEnd, kept_bankTestEnd, kept_arrayTestEnd, kept_cellmapChecked])
@[simp] theorem kept_thMax (s : State) :
    kept (thMax s) = kept s := by
  unfold thMax
  first
  | (simp only [kept_mk, kept_eta, apply_ite kept, ite_self, foldl_kept, foldDoms_kept, kept_setTherm]; done)
  | ((try dsimp only) <;> (repeat' split) <;> simp only [kept_mk, kept_eta, apply_ite kept, ite_self, foldl_kept, foldDoms_kept, kept_setTherm]; done)
  | ((try dsimp only) <;> (repeat' split) <;> simp [kept_mk, kept_eta, apply_ite kept, ite_self, foldl_kept, foldDoms_kept, kept_setTherm])
@[simp] theorem kept_thermalLimit (s : State) (x1 : Nat) (x2 : Nat) :
    kept (thermalLimit s x1 x2) = kept s := by
  unfold thermalLimit
  first
  | (simp only [kept_mk, kept_eta, apply_ite kept, ite_self, foldl_kept, foldDoms_kept, kept_setDom]; done)
  | ((try dsimp only) <;> (repeat' split) <;> simp only [kept_mk, kept_eta, apply_ite kept, ite_self, foldl_kept, foldDoms_kept, kept_setDom]; done)
  | ((try dsimp only) <;> (repeat' split) <;> simp [kept_mk, kept_eta, apply_ite kept, ite_self, foldl_kept, foldDoms_kept, kept_setDom])
@[simp] theorem kept_thermalLimits (s : State) :
    kept (thermalLimits s) = kept s := by
  unfold thermalLimits
  first
  | (simp only [kept_mk, kept_eta, apply_ite kept, ite_self, foldl_kept, foldDoms_kept, kept_thermalLimit]; done)
  | ((try dsimp only) <;> (repeat' split) <;> simp only [kept_mk, kept_eta, apply_ite kept, ite_self, foldl_kept, foldDoms_kept, kept_thermalLimit]; done)
  | ((try dsimp only) <;> (repeat' split) <;> simp [kept_mk, kept_eta, apply_ite kept, ite_self, foldl_kept, foldDoms_kept, kept_thermalLimit])
@[simp] theorem kept_throtDom (s : State) (x1 : Nat) :
    kept (throtDom s x1) = kept s := by
  unfold throtDom
  first
  | (simp only [kept_mk, kept_eta, apply_ite kept, ite_self, foldl_kept, foldDoms_kept, kept_setTherm, kept_setMembers, kept_raise]; done)
  | ((try dsimp only) <;> (repeat' split) <;> simp only [kept_mk, kept_eta, apply_ite kept, ite_self, foldl_kept, foldDoms_kept, kept_setTherm, kept_setMembers, kept_raise]; done)
  | ((try dsimp only) <;> (repeat' split) <;> simp [kept_mk, kept_eta, apply_ite kept, ite_self, foldl_kept, foldDoms_kept, kept_setTherm, kept_setMembers, kept_raise])
@[simp] theorem kept_toHub (x0 : Nat) (s : State) :
    kept (toHub x0 s) = kept s := by
  unfold toHub
  first
  | (simp only [kept_mk, kept_eta, apply_ite kept, ite_self, foldl_kept, foldDoms_kept, kept_setDoms]; done)
  | ((try dsimp only) <;> (repeat' split) <;> simp only [kept_mk, kept_eta, apply_ite kept, ite_self, foldl_kept, foldDoms_kept, kept_setDoms]; done)
  | ((try dsimp only) <;> (repeat' split) <;> simp [kept_mk, kept_eta, apply_ite kept, ite_self, foldl_kept, foldDoms_kept, kept_setDoms])
@[simp] theorem kept_tripNow (s : State) (x1 : Nat) (x2 : Nat) (x3 : Int) :
    kept (tripNow s x1 x2 x3) = kept s := by
  unfold tripNow
  first
  | (simp only [kept_mk, kept_eta, apply_ite kept, ite_self, foldl_kept, foldDoms_kept, kept_setTherm, kept_raiseAtOnce, kept_forceDark]; done)
  | ((try dsimp only) <;> (repeat' split) <;> simp only [kept_mk, kept_eta, apply_ite kept, ite_self, foldl_kept, foldDoms_kept, kept_setTherm, kept_raiseAtOnce, kept_forceDark]; done)
  | ((try dsimp only) <;> (repeat' split) <;> simp [kept_mk, kept_eta, apply_ite kept, ite_self, foldl_kept, foldDoms_kept, kept_setTherm, kept_raiseAtOnce, kept_forceDark])
@[simp] theorem kept_voutRead (s : State) (x1 : Nat) (x2 : Nat) :
    kept (voutRead s x1 x2) = kept s := by
  unfold voutRead
  first
  | (simp only [kept_mk, kept_eta, apply_ite kept, ite_self, foldl_kept, foldDoms_kept, kept_setConv]; done)
  | ((try dsimp only) <;> (repeat' split) <;> simp only [kept_mk, kept_eta, apply_ite kept, ite_self, foldl_kept, foldDoms_kept, kept_setConv]; done)
  | ((try dsimp only) <;> (repeat' split) <;> simp [kept_mk, kept_eta, apply_ite kept, ite_self, foldl_kept, foldDoms_kept, kept_setConv])
@[simp] theorem kept_txnGood (s : State) (x1 : BusTxn) (x2 : BitVec 16) :
    kept (txnGood s x1 x2) = kept s := by
  unfold txnGood
  first
  | (simp only [kept_mk, kept_eta, apply_ite kept, ite_self, foldl_kept, foldDoms_kept, kept_setConv, kept_statusRead, kept_voutRead, kept_raise]; done)
  | ((try dsimp only) <;> (repeat' split) <;> simp only [kept_mk, kept_eta, apply_ite kept, ite_self, foldl_kept, foldDoms_kept, kept_setConv, kept_statusRead, kept_voutRead, kept_raise]; done)
  | ((try dsimp only) <;> (repeat' split) <;> simp [kept_mk, kept_eta, apply_ite kept, ite_self, foldl_kept, foldDoms_kept, kept_setConv, kept_statusRead, kept_voutRead, kept_raise])
@[simp] theorem kept_unverifyAll (s : State) :
    kept (unverifyAll s) = kept s := by
  unfold unverifyAll
  first
  | (simp only [kept_mk, kept_eta, apply_ite kept, ite_self, foldl_kept, foldDoms_kept]; done)
  | ((try dsimp only) <;> (repeat' split) <;> simp only [kept_mk, kept_eta, apply_ite kept, ite_self, foldl_kept, foldDoms_kept]; done)
  | ((try dsimp only) <;> (repeat' split) <;> simp [kept_mk, kept_eta, apply_ite kept, ite_self, foldl_kept, foldDoms_kept])
@[simp] theorem kept_upLost (s : State) (x1 : Nat) :
    kept (upLost s x1) = kept s := by
  unfold upLost
  first
  | (simp only [kept_mk, kept_eta, apply_ite kept, ite_self, foldl_kept, foldDoms_kept, kept_setRc, kept_setDom]; done)
  | ((try dsimp only) <;> (repeat' split) <;> simp only [kept_mk, kept_eta, apply_ite kept, ite_self, foldl_kept, foldDoms_kept, kept_setRc, kept_setDom]; done)
  | ((try dsimp only) <;> (repeat' split) <;> simp [kept_mk, kept_eta, apply_ite kept, ite_self, foldl_kept, foldDoms_kept, kept_setRc, kept_setDom])
@[simp] theorem kept_upPrevious (s : State) (x1 : Nat) :
    kept (upPrevious s x1) = kept s := by
  unfold upPrevious
  exact foldl_kept _ _ _ (fun s x => by simp only [kept_mk, kept_eta, apply_ite kept, ite_self, foldl_kept, foldDoms_kept, kept_setDom])
@[simp] theorem kept_upBadFrame (s : State) (x1 : Nat) :
    kept (upBadFrame s x1) = kept s := by
  unfold upBadFrame
  first
  | (simp only [kept_mk, kept_eta, apply_ite kept, ite_self, foldl_kept, foldDoms_kept, kept_badFrame, kept_setLink, kept_upLost, kept_upPrevious]; done)
  | ((try dsimp only) <;> (repeat' split) <;> simp only [kept_mk, kept_eta, apply_ite kept, ite_self, foldl_kept, foldDoms_kept, kept_badFrame, kept_setLink, kept_upLost, kept_upPrevious]; done)
  | ((try dsimp only) <;> (repeat' split) <;> simp [kept_mk, kept_eta, apply_ite kept, ite_self, foldl_kept, foldDoms_kept, kept_badFrame, kept_setLink, kept_upLost, kept_upPrevious])
@[simp] theorem kept_upGood (s : State) (x1 : Nat) :
    kept (upGood s x1) = kept s := by
  unfold upGood
  first
  | (simp only [kept_mk, kept_eta, apply_ite kept, ite_self, foldl_kept, foldDoms_kept, kept_setLink]; done)
  | ((try dsimp only) <;> (repeat' split) <;> simp only [kept_mk, kept_eta, apply_ite kept, ite_self, foldl_kept, foldDoms_kept, kept_setLink]; done)
  | ((try dsimp only) <;> (repeat' split) <;> simp [kept_mk, kept_eta, apply_ite kept, ite_self, foldl_kept, foldDoms_kept, kept_setLink])
@[simp] theorem kept_uvStop (s : State) (x1 : Nat) (x2 : Option Dom) :
    kept (uvStop s x1 x2) = kept s := by
  unfold uvStop
  first
  | (simp only [kept_mk, kept_eta, apply_ite kept, ite_self, foldl_kept, foldDoms_kept, kept_setStops, kept_setDom]; done)
  | ((try dsimp only) <;> (repeat' split) <;> simp only [kept_mk, kept_eta, apply_ite kept, ite_self, foldl_kept, foldDoms_kept, kept_setStops, kept_setDom]; done)
  | ((try dsimp only) <;> (repeat' split) <;> simp [kept_mk, kept_eta, apply_ite kept, ite_self, foldl_kept, foldDoms_kept, kept_setStops, kept_setDom])
@[simp] theorem kept_virTrim (x0 : Record) (s : State) (x2 : Nat) :
    kept (virTrim x0 s x2) = kept s := by
  unfold virTrim
  first
  | (simp only [kept_mk, kept_eta, apply_ite kept, ite_self, foldl_kept, foldDoms_kept, kept_sendTrim]; done)
  | ((try dsimp only) <;> (repeat' split) <;> simp only [kept_mk, kept_eta, apply_ite kept, ite_self, foldl_kept, foldDoms_kept, kept_sendTrim]; done)
  | ((try dsimp only) <;> (repeat' split) <;> simp [kept_mk, kept_eta, apply_ite kept, ite_self, foldl_kept, foldDoms_kept, kept_sendTrim])
@[simp] theorem kept_virTrims (s : State) (x1 : Record) :
    kept (virTrims s x1) = kept s := by
  unfold virTrims
  first
  | (simp only [kept_mk, kept_eta, apply_ite kept, ite_self, foldl_kept, foldDoms_kept, kept_avsInForce, kept_virTrim]; done)
  | ((try dsimp only) <;> (repeat' split) <;> simp only [kept_mk, kept_eta, apply_ite kept, ite_self, foldl_kept, foldDoms_kept, kept_avsInForce, kept_virTrim]; done)
  | ((try dsimp only) <;> (repeat' split) <;> simp [kept_mk, kept_eta, apply_ite kept, ite_self, foldl_kept, foldDoms_kept, kept_avsInForce, kept_virTrim])
@[simp] theorem kept_wakeT8 (s : State) :
    kept (wakeT8 s) = kept s := by
  unfold wakeT8
  first
  | (simp only [kept_mk, kept_eta, apply_ite kept, ite_self, foldl_kept, foldDoms_kept]; done)
  | ((try dsimp only) <;> (repeat' split) <;> simp only [kept_mk, kept_eta, apply_ite kept, ite_self, foldl_kept, foldDoms_kept]; done)
  | ((try dsimp only) <;> (repeat' split) <;> simp [kept_mk, kept_eta, apply_ite kept, ite_self, foldl_kept, foldDoms_kept])
@[simp] theorem kept_wdtFail (s : State) (x1 : Nat) :
    kept (wdtFail s x1) = kept s := by
  unfold wdtFail
  first
  | (simp only [kept_mk, kept_eta, apply_ite kept, ite_self, foldl_kept, foldDoms_kept, kept_resetMc, kept_raise]; done)
  | ((try dsimp only) <;> (repeat' split) <;> simp only [kept_mk, kept_eta, apply_ite kept, ite_self, foldl_kept, foldDoms_kept, kept_resetMc, kept_raise]; done)
  | ((try dsimp only) <;> (repeat' split) <;> simp [kept_mk, kept_eta, apply_ite kept, ite_self, foldl_kept, foldDoms_kept, kept_resetMc, kept_raise])
@[simp] theorem kept_withdrawChange (s : State) (x1 : Nat) (x2 : Nat) :
    kept (withdrawChange s x1 x2) = kept s := by
  unfold withdrawChange
  first
  | (simp only [kept_mk, kept_eta, apply_ite kept, ite_self, foldl_kept, foldDoms_kept, kept_setTiles, kept_dropChange, kept_raise]; done)
  | ((try dsimp only) <;> (repeat' split) <;> simp only [kept_mk, kept_eta, apply_ite kept, ite_self, foldl_kept, foldDoms_kept, kept_setTiles, kept_dropChange, kept_raise]; done)
  | ((try dsimp only) <;> (repeat' split) <;> simp [kept_mk, kept_eta, apply_ite kept, ite_self, foldl_kept, foldDoms_kept, kept_setTiles, kept_dropChange, kept_raise])
@[simp] theorem kept_workEnds (x0 : Bool) (s : State) :
    kept (workEnds x0 s) = kept s := by
  unfold workEnds
  first
  | (simp only [kept_mk, kept_eta, apply_ite kept, ite_self, foldl_kept, foldDoms_kept, kept_programEnds, kept_eraseEnds]; done)
  | ((try dsimp only) <;> (repeat' split) <;> simp only [kept_mk, kept_eta, apply_ite kept, ite_self, foldl_kept, foldDoms_kept, kept_programEnds, kept_eraseEnds]; done)
  | ((try dsimp only) <;> (repeat' split) <;> simp [kept_mk, kept_eta, apply_ite kept, ite_self, foldl_kept, foldDoms_kept, kept_programEnds, kept_eraseEnds])
@[simp] theorem kept_writeFmcCtl (s : State) (x1 : Word) :
    kept (writeFmcCtl s x1) = kept s := by
  unfold writeFmcCtl
  first
  | (simp only [kept_mk, kept_eta, apply_ite kept, ite_self, foldl_kept, foldDoms_kept, kept_setClk]; done)
  | ((try dsimp only) <;> (repeat' split) <;> simp only [kept_mk, kept_eta, apply_ite kept, ite_self, foldl_kept, foldDoms_kept, kept_setClk]; done)
  | ((try dsimp only) <;> (repeat' split) <;> simp [kept_mk, kept_eta, apply_ite kept, ite_self, foldl_kept, foldDoms_kept, kept_setClk])
@[simp] theorem kept_writeClock (s : State) (x1 : Nat) (x2 : Word) :
    kept (writeClock s x1 x2) = kept s := by
  unfold writeClock
  first
  | (simp only [kept_mk, kept_eta, apply_ite kept, ite_self, foldl_kept, foldDoms_kept, kept_writeFmcCtl, kept_meterGate, kept_setClk]; done)
  | ((try dsimp only) <;> (repeat' split) <;> simp only [kept_mk, kept_eta, apply_ite kept, ite_self, foldl_kept, foldDoms_kept, kept_writeFmcCtl, kept_meterGate, kept_setClk]; done)
  | ((try dsimp only) <;> (repeat' split) <;> simp [kept_mk, kept_eta, apply_ite kept, ite_self, foldl_kept, foldDoms_kept, kept_writeFmcCtl, kept_meterGate, kept_setClk])
@[simp] theorem kept_writeEntry (s : State) (x1 : PortNo) (x2 : RingId) (x3 : Nat) (x4 : List Byte) :
    kept (writeEntry s x1 x2 x3 x4) = kept s := by
  unfold writeEntry
  first
  | (simp only [kept_mk, kept_eta, apply_ite kept, ite_self, foldl_kept, foldDoms_kept, kept_setPort]; done)
  | ((try dsimp only) <;> (repeat' split) <;> simp only [kept_mk, kept_eta, apply_ite kept, ite_self, foldl_kept, foldDoms_kept, kept_setPort]; done)
  | ((try dsimp only) <;> (repeat' split) <;> simp [kept_mk, kept_eta, apply_ite kept, ite_self, foldl_kept, foldDoms_kept, kept_setPort])
@[simp] theorem kept_writeExcl (s : State) (x1 : Nat) (x2 : Word) :
    kept (writeExcl s x1 x2) = kept s := by
  unfold writeExcl
  first
  | (simp only [kept_mk, kept_eta, apply_ite kept, ite_self, foldl_kept, foldDoms_kept, kept_setTherm]; done)
  | ((try dsimp only) <;> (repeat' split) <;> simp only [kept_mk, kept_eta, apply_ite kept, ite_self, foldl_kept, foldDoms_kept, kept_setTherm]; done)
  | ((try dsimp only) <;> (repeat' split) <;> simp [kept_mk, kept_eta, apply_ite kept, ite_self, foldl_kept, foldDoms_kept, kept_setTherm])
@[simp] theorem kept_writeFltCfg (s : State) (x1 : Word) :
    kept (writeFltCfg s x1) = kept s := by
  unfold writeFltCfg
  first
  | (simp only [kept_mk, kept_eta, apply_ite kept, ite_self, foldl_kept, foldDoms_kept]; done)
  | ((try dsimp only) <;> (repeat' split) <;> simp only [kept_mk, kept_eta, apply_ite kept, ite_self, foldl_kept, foldDoms_kept]; done)
  | ((try dsimp only) <;> (repeat' split) <;> simp [kept_mk, kept_eta, apply_ite kept, ite_self, foldl_kept, foldDoms_kept])
@[simp] theorem kept_writeFw (s : State) (x1 : Nat) (x2 : Word) :
    kept (writeFw s x1 x2) = kept s := by
  unfold writeFw
  first
  | (simp only [kept_mk, kept_eta, apply_ite kept, ite_self, foldl_kept, foldDoms_kept]; done)
  | ((try dsimp only) <;> (repeat' split) <;> simp only [kept_mk, kept_eta, apply_ite kept, ite_self, foldl_kept, foldDoms_kept]; done)
  | ((try dsimp only) <;> (repeat' split) <;> simp [kept_mk, kept_eta, apply_ite kept, ite_self, foldl_kept, foldDoms_kept])
@[simp] theorem kept_writeIrq (s : State) (x1 : Nat) (x2 : Word) :
    kept (writeIrq s x1 x2) = kept s := by
  unfold writeIrq
  first
  | (simp only [kept_mk, kept_eta, apply_ite kept, ite_self, foldl_kept, foldDoms_kept, kept_clearLatched]; done)
  | ((try dsimp only) <;> (repeat' split) <;> simp only [kept_mk, kept_eta, apply_ite kept, ite_self, foldl_kept, foldDoms_kept, kept_clearLatched]; done)
  | ((try dsimp only) <;> (repeat' split) <;> simp [kept_mk, kept_eta, apply_ite kept, ite_self, foldl_kept, foldDoms_kept, kept_clearLatched])
@[simp] theorem kept_writeMeter (s : State) (x1 : Nat) (x2 : Word) :
    kept (writeMeter s x1 x2) = kept s := by
  unfold writeMeter
  first
  | (simp only [kept_mk, kept_eta, apply_ite kept, ite_self, foldl_kept, foldDoms_kept, kept_staleUpdate, kept_setMeter, kept_writeMtrCtrl]; done)
  | ((try dsimp only) <;> (repeat' split) <;> simp only [kept_mk, kept_eta, apply_ite kept, ite_self, foldl_kept, foldDoms_kept, kept_staleUpdate, kept_setMeter, kept_writeMtrCtrl]; done)
  | ((try dsimp only) <;> (repeat' split) <;> simp [kept_mk, kept_eta, apply_ite kept, ite_self, foldl_kept, foldDoms_kept, kept_staleUpdate, kept_setMeter, kept_writeMtrCtrl])
@[simp] theorem kept_writeRingReg (s : State) (x1 : Nat) (x2 : Nat) (x3 : Nat) (x4 : Word) :
    kept (writeRingReg s x1 x2 x3 x4) = kept s := by
  unfold writeRingReg
  first
  | (simp only [kept_mk, kept_eta, apply_ite kept, ite_self, foldl_kept, foldDoms_kept, kept_setPort]; done)
  | ((try dsimp only) <;> (repeat' split) <;> simp only [kept_mk, kept_eta, apply_ite kept, ite_self, foldl_kept, foldDoms_kept, kept_setPort]; done)
  | ((try dsimp only) <;> (repeat' split) <;> simp [kept_mk, kept_eta, apply_ite kept, ite_self, foldl_kept, foldDoms_kept, kept_setPort])
@[simp] theorem kept_writePage (s : State) (x1 : Nat) (x2 : Nat) (x3 : Word) :
    kept (writePage s x1 x2 x3) = kept s := by
  unfold writePage
  first
  | (simp only [kept_mk, kept_eta, apply_ite kept, ite_self, foldl_kept, foldDoms_kept, kept_writeRingReg, kept_setPort]; done)
  | ((try dsimp only) <;> (repeat' split) <;> simp only [kept_mk, kept_eta, apply_ite kept, ite_self, foldl_kept, foldDoms_kept, kept_writeRingReg, kept_setPort]; done)
  | ((try dsimp only) <;> (repeat' split) <;> simp [kept_mk, kept_eta, apply_ite kept, ite_self, foldl_kept, foldDoms_kept, kept_writeRingReg, kept_setPort])
@[simp] theorem kept_writePortCtl (s : State) (x1 : Nat) (x2 : Word) :
    kept (writePortCtl s x1 x2) = kept s := by
  unfold writePortCtl
  first
  | (simp only [kept_mk, kept_eta, apply_ite kept, ite_self, foldl_kept, foldDoms_kept, kept_requestReset, kept_setPort]; done)
  | ((try dsimp only) <;> (repeat' split) <;> simp only [kept_mk, kept_eta, apply_ite kept, ite_self, foldl_kept, foldDoms_kept, kept_requestReset, kept_setPort]; done)
  | ((try dsimp only) <;> (repeat' split) <;> simp [kept_mk, kept_eta, apply_ite kept, ite_self, foldl_kept, foldDoms_kept, kept_requestReset, kept_setPort])
@[simp] theorem kept_writeRights (s : State) (x1 : Nat) (x2 : Nat) (x3 : Word) :
    kept (writeRights s x1 x2 x3) = kept s := by
  unfold writeRights
  first
  | (simp only [kept_mk, kept_eta, apply_ite kept, ite_self, foldl_kept, foldDoms_kept, kept_setPort]; done)
  | ((try dsimp only) <;> (repeat' split) <;> simp only [kept_mk, kept_eta, apply_ite kept, ite_self, foldl_kept, foldDoms_kept, kept_setPort]; done)
  | ((try dsimp only) <;> (repeat' split) <;> simp [kept_mk, kept_eta, apply_ite kept, ite_self, foldl_kept, foldDoms_kept, kept_setPort])
@[simp] theorem kept_writePortCfg (s : State) (x1 : Nat) (x2 : Word) :
    kept (writePortCfg s x1 x2) = kept s := by
  unfold writePortCfg
  first
  | (simp only [kept_mk, kept_eta, apply_ite kept, ite_self, foldl_kept, foldDoms_kept, kept_writePortCtl, kept_writeRights]; done)
  | ((try dsimp only) <;> (repeat' split) <;> simp only [kept_mk, kept_eta, apply_ite kept, ite_self, foldl_kept, foldDoms_kept, kept_writePortCtl, kept_writeRights]; done)
  | ((try dsimp only) <;> (repeat' split) <;> simp [kept_mk, kept_eta, apply_ite kept, ite_self, foldl_kept, foldDoms_kept, kept_writePortCtl, kept_writeRights])
@[simp] theorem kept_writeRingEn (s : State) (x1 : Nat) (x2 : Word) :
    kept (writeRingEn s x1 x2) = kept s := by
  unfold writeRingEn
  first
  | (simp only [kept_mk, kept_eta, apply_ite kept, ite_self, foldl_kept, foldDoms_kept, kept_oldWrites, kept_setPort]; done)
  | ((try dsimp only) <;> (repeat' split) <;> simp only [kept_mk, kept_eta, apply_ite kept, ite_self, foldl_kept, foldDoms_kept, kept_oldWrites, kept_setPort]; done)
  | ((try dsimp only) <;> (repeat' split) <;> simp [kept_mk, kept_eta, apply_ite kept, ite_self, foldl_kept, foldDoms_kept, kept_oldWrites, kept_setPort])
@[simp] theorem kept_writeSafeMode (s : State) (x1 : Word) :
    kept (writeSafeMode s x1) = kept s := by
  unfold writeSafeMode
  first
  | (simp only [kept_mk, kept_eta, apply_ite kept, ite_self, foldl_kept, foldDoms_kept]; done)
  | ((try dsimp only) <;> (repeat' split) <;> simp only [kept_mk, kept_eta, apply_ite kept, ite_self, foldl_kept, foldDoms_kept]; done)
  | ((try dsimp only) <;> (repeat' split) <;> simp [kept_mk, kept_eta, apply_ite kept, ite_self, foldl_kept, foldDoms_kept])
@[simp] theorem kept_writeSafety (s : State) (x1 : Nat) (x2 : Word) :
    kept (writeSafety s x1 x2) = kept s := by
  unfold writeSafety
  first
  | (simp only [kept_mk, kept_eta, apply_ite kept, ite_self, foldl_kept, foldDoms_kept, kept_issue, kept_startErase, kept_writeFltCfg]; done)
  | ((try dsimp only) <;> (repeat' split) <;> simp only [kept_mk, kept_eta, apply_ite kept, ite_self, foldl_kept, foldDoms_kept, kept_issue, kept_startErase, kept_writeFltCfg]; done)
  | ((try dsimp only) <;> (repeat' split) <;> simp [kept_mk, kept_eta, apply_ite kept, ite_self, foldl_kept, foldDoms_kept, kept_issue, kept_startErase, kept_writeFltCfg])
@[simp] theorem kept_writeTherm (s : State) (x1 : Nat) (x2 : Word) :
    kept (writeTherm s x1 x2) = kept s := by
  unfold writeTherm
  first
  | (simp only [kept_mk, kept_eta, apply_ite kept, ite_self, foldl_kept, foldDoms_kept, kept_setTherm, kept_writeExcl]; done)
  | ((try dsimp only) <;> (repeat' split) <;> simp only [kept_mk, kept_eta, apply_ite kept, ite_self, foldl_kept, foldDoms_kept, kept_setTherm, kept_writeExcl]; done)
  | ((try dsimp only) <;> (repeat' split) <;> simp [kept_mk, kept_eta, apply_ite kept, ite_self, foldl_kept, foldDoms_kept, kept_setTherm, kept_writeExcl])
@[simp] theorem kept_writeSetup (s : State) (x1 : Nat) (x2 : Word) :
    kept (writeSetup s x1 x2) = kept s := by
  unfold writeSetup
  first
  | (simp only [kept_mk, kept_eta, apply_ite kept, ite_self, foldl_kept, foldDoms_kept, kept_writeIrq, kept_writeMeter, kept_writeSafety, kept_writeClock, kept_writeFw, kept_writePortCfg, kept_writeTherm, kept_setClk]; done)
  | ((try dsimp only) <;> (repeat' split) <;> simp only [kept_mk, kept_eta, apply_ite kept, ite_self, foldl_kept, foldDoms_kept, kept_writeIrq, kept_writeMeter, kept_writeSafety, kept_writeClock, kept_writeFw, kept_writePortCfg, kept_writeTherm, kept_setClk]; done)
  | ((try dsimp only) <;> (repeat' split) <;> simp [kept_mk, kept_eta, apply_ite kept, ite_self, foldl_kept, foldDoms_kept, kept_writeIrq, kept_writeMeter, kept_writeSafety, kept_writeClock, kept_writeFw, kept_writePortCfg, kept_writeTherm, kept_setClk])

end Sys2Proof.Laws
end

