-- ==== Sys2Proof/Laws/KeptCommands.lean ====
section
/-! SUPPORT. Each command but a shutter and a power-on reset keeps the commit sequence and the waiting commands. -/

namespace Sys2Proof.Laws
open Sys2Proof Sys2Proof.Machine
set_option Elab.async false
set_option linter.unusedSimpArgs false
set_option linter.unusedTactic false
set_option linter.unreachableTactic false
set_option linter.unnecessarySeqFocus false

/-- An outcome that, where it is a next state, keeps the commit sequence and the waiting commands of a state. -/
def Kept (s : State) (o : Host.Outcome State Fault Refusal) : Prop := ∀ u, o = .next u → kept u = kept s

theorem kept_next (s u : State) : Kept s (.next u) ↔ kept u = kept s :=
  ⟨fun h => h u rfl, fun h _ e => by cases e; exact h⟩

theorem kept_fault (s : State) (f : Fault) : Kept s (.fault f) ↔ True :=
  ⟨fun _ => trivial, fun _ _ e => by cases e⟩

theorem kept_refused (s : State) (f : Refusal) : Kept s (.refused f) ↔ True :=
  ⟨fun _ => trivial, fun _ _ e => by cases e⟩

theorem kept_cleExec (x0 : ClEnv → LaneCtx → ClEff) (s : State) : Kept s (cleExec x0 s) := by
  unfold cleExec
  first
  | (simp only [kept_next, kept_fault, kept_refused, kept_mk, kept_eta, apply_ite kept, ite_self, foldl_kept, foldDoms_kept, kept_cleWordStep]; done)
  | ((try dsimp only) <;> (repeat' split) <;> simp only [kept_next, kept_fault, kept_refused, kept_mk, kept_eta, apply_ite kept, ite_self, foldl_kept, foldDoms_kept, kept_cleWordStep]; done)
  | ((try dsimp only) <;> (repeat' split) <;> simp [kept_next, kept_fault, kept_refused, kept_mk, kept_eta, apply_ite kept, ite_self, foldl_kept, foldDoms_kept, kept_cleWordStep])
theorem kept_execRegrant (x0 : Nat) (s : State) : Kept s (execRegrant x0 s) := by
  unfold execRegrant
  first
  | (simp only [kept_next, kept_fault, kept_refused, kept_mk, kept_eta, apply_ite kept, ite_self, foldl_kept, foldDoms_kept, kept_setDoms, kept_thermalLimits, kept_regrant, kept_now, kept_setWants, kept_steadyCheck, kept_virTrims]; done)
  | ((try dsimp only) <;> (repeat' split) <;> simp only [kept_next, kept_fault, kept_refused, kept_mk, kept_eta, apply_ite kept, ite_self, foldl_kept, foldDoms_kept, kept_setDoms, kept_thermalLimits, kept_regrant, kept_now, kept_setWants, kept_steadyCheck, kept_virTrims]; done)
  | ((try dsimp only) <;> (repeat' split) <;> simp [kept_next, kept_fault, kept_refused, kept_mk, kept_eta, apply_ite kept, ite_self, foldl_kept, foldDoms_kept, kept_setDoms, kept_thermalLimits, kept_regrant, kept_now, kept_setWants, kept_steadyCheck, kept_virTrims])
theorem kept_execTileWait (x0 : Site) (x1 : Nat) (s : State) : Kept s (execTileWait x0 x1 s) := by
  unfold execTileWait
  first
  | (simp only [kept_next, kept_fault, kept_refused, kept_mk, kept_eta, apply_ite kept, ite_self, foldl_kept, foldDoms_kept, kept_now, kept_setTile]; done)
  | ((try dsimp only) <;> (repeat' split) <;> simp only [kept_next, kept_fault, kept_refused, kept_mk, kept_eta, apply_ite kept, ite_self, foldl_kept, foldDoms_kept, kept_now, kept_setTile]; done)
  | ((try dsimp only) <;> (repeat' split) <;> simp [kept_next, kept_fault, kept_refused, kept_mk, kept_eta, apply_ite kept, ite_self, foldl_kept, foldDoms_kept, kept_now, kept_setTile])
theorem kept_execTileWake (x0 : Site) (x1 : Nat) (s : State) : Kept s (execTileWake x0 x1 s) := by
  unfold execTileWake
  first
  | (simp only [kept_next, kept_fault, kept_refused, kept_mk, kept_eta, apply_ite kept, ite_self, foldl_kept, foldDoms_kept, kept_now, kept_setTile, kept_setDom]; done)
  | ((try dsimp only) <;> (repeat' split) <;> simp only [kept_next, kept_fault, kept_refused, kept_mk, kept_eta, apply_ite kept, ite_self, foldl_kept, foldDoms_kept, kept_now, kept_setTile, kept_setDom]; done)
  | ((try dsimp only) <;> (repeat' split) <;> simp [kept_next, kept_fault, kept_refused, kept_mk, kept_eta, apply_ite kept, ite_self, foldl_kept, foldDoms_kept, kept_now, kept_setTile, kept_setDom])
theorem kept_execAvsResponse (x0 : Bool) (x1 : Nat) (s : State) : Kept s (execAvsResponse x0 x1 s) := by
  unfold execAvsResponse
  first
  | (simp only [kept_next, kept_fault, kept_refused, kept_mk, kept_eta, apply_ite kept, ite_self, foldl_kept, foldDoms_kept, kept_setConv, kept_now, kept_raise, kept_busTrim]; done)
  | ((try dsimp only) <;> (repeat' split) <;> simp only [kept_next, kept_fault, kept_refused, kept_mk, kept_eta, apply_ite kept, ite_self, foldl_kept, foldDoms_kept, kept_setConv, kept_now, kept_raise, kept_busTrim]; done)
  | ((try dsimp only) <;> (repeat' split) <;> simp [kept_next, kept_fault, kept_refused, kept_mk, kept_eta, apply_ite kept, ite_self, foldl_kept, foldDoms_kept, kept_setConv, kept_now, kept_raise, kept_busTrim])
theorem kept_execPmbAddrWrite (x0 : Fin 5) (x1 : Word) (x2 : Nat) (s : State) : Kept s (execPmbAddrWrite x0 x1 x2 s) := by
  unfold execPmbAddrWrite
  first
  | (simp only [kept_next, kept_fault, kept_refused, kept_mk, kept_eta, apply_ite kept, ite_self, foldl_kept, foldDoms_kept, kept_setConv, kept_now, kept_ackWrite]; done)
  | ((try dsimp only) <;> (repeat' split) <;> simp only [kept_next, kept_fault, kept_refused, kept_mk, kept_eta, apply_ite kept, ite_self, foldl_kept, foldDoms_kept, kept_setConv, kept_now, kept_ackWrite]; done)
  | ((try dsimp only) <;> (repeat' split) <;> simp [kept_next, kept_fault, kept_refused, kept_mk, kept_eta, apply_ite kept, ite_self, foldl_kept, foldDoms_kept, kept_setConv, kept_now, kept_ackWrite])
theorem kept_execPmbAlertRelease (x0 : Nat) (s : State) : Kept s (execPmbAlertRelease x0 s) := by
  unfold execPmbAlertRelease
  first
  | (simp only [kept_next, kept_fault, kept_refused, kept_mk, kept_eta, apply_ite kept, ite_self, foldl_kept, foldDoms_kept, kept_now]; done)
  | ((try dsimp only) <;> (repeat' split) <;> simp only [kept_next, kept_fault, kept_refused, kept_mk, kept_eta, apply_ite kept, ite_self, foldl_kept, foldDoms_kept, kept_now]; done)
  | ((try dsimp only) <;> (repeat' split) <;> simp [kept_next, kept_fault, kept_refused, kept_mk, kept_eta, apply_ite kept, ite_self, foldl_kept, foldDoms_kept, kept_now])
theorem kept_execPmbCfgWrite (x0 : Word) (x1 : Nat) (s : State) : Kept s (execPmbCfgWrite x0 x1 s) := by
  unfold execPmbCfgWrite
  first
  | (simp only [kept_next, kept_fault, kept_refused, kept_mk, kept_eta, apply_ite kept, ite_self, foldl_kept, foldDoms_kept, kept_now, kept_ackWrite]; done)
  | ((try dsimp only) <;> (repeat' split) <;> simp only [kept_next, kept_fault, kept_refused, kept_mk, kept_eta, apply_ite kept, ite_self, foldl_kept, foldDoms_kept, kept_now, kept_ackWrite]; done)
  | ((try dsimp only) <;> (repeat' split) <;> simp [kept_next, kept_fault, kept_refused, kept_mk, kept_eta, apply_ite kept, ite_self, foldl_kept, foldDoms_kept, kept_now, kept_ackWrite])
theorem kept_execPmbusPoll (x0 : PollKind) (x1 : Fin 5) (x2 : Nat) (s : State) : Kept s (execPmbusPoll x0 x1 x2 s) := by
  unfold execPmbusPoll
  first
  | (simp only [kept_next, kept_fault, kept_refused, kept_mk, kept_eta, apply_ite kept, ite_self, foldl_kept, foldDoms_kept, kept_busBack, kept_now]; done)
  | ((try dsimp only) <;> (repeat' split) <;> simp only [kept_next, kept_fault, kept_refused, kept_mk, kept_eta, apply_ite kept, ite_self, foldl_kept, foldDoms_kept, kept_busBack, kept_now]; done)
  | ((try dsimp only) <;> (repeat' split) <;> simp [kept_next, kept_fault, kept_refused, kept_mk, kept_eta, apply_ite kept, ite_self, foldl_kept, foldDoms_kept, kept_busBack, kept_now])
theorem kept_execPmbusRetry (x0 : Nat) (s : State) : Kept s (execPmbusRetry x0 s) := by
  unfold execPmbusRetry
  first
  | (simp only [kept_next, kept_fault, kept_refused, kept_mk, kept_eta, apply_ite kept, ite_self, foldl_kept, foldDoms_kept, kept_busStart, kept_now]; done)
  | ((try dsimp only) <;> (repeat' split) <;> simp only [kept_next, kept_fault, kept_refused, kept_mk, kept_eta, apply_ite kept, ite_self, foldl_kept, foldDoms_kept, kept_busStart, kept_now]; done)
  | ((try dsimp only) <;> (repeat' split) <;> simp [kept_next, kept_fault, kept_refused, kept_mk, kept_eta, apply_ite kept, ite_self, foldl_kept, foldDoms_kept, kept_busStart, kept_now])
theorem kept_execPmbusStretchTimeout (x0 : Nat) (s : State) : Kept s (execPmbusStretchTimeout x0 s) := by
  unfold execPmbusStretchTimeout
  first
  | (simp only [kept_next, kept_fault, kept_refused, kept_mk, kept_eta, apply_ite kept, ite_self, foldl_kept, foldDoms_kept, kept_busStart, kept_pmbErr, kept_now]; done)
  | ((try dsimp only) <;> (repeat' split) <;> simp only [kept_next, kept_fault, kept_refused, kept_mk, kept_eta, apply_ite kept, ite_self, foldl_kept, foldDoms_kept, kept_busStart, kept_pmbErr, kept_now]; done)
  | ((try dsimp only) <;> (repeat' split) <;> simp [kept_next, kept_fault, kept_refused, kept_mk, kept_eta, apply_ite kept, ite_self, foldl_kept, foldDoms_kept, kept_busStart, kept_pmbErr, kept_now])
theorem kept_execPmbusTransactionDone (x0 : BusRes) (x1 : Nat) (s : State) : Kept s (execPmbusTransactionDone x0 x1 s) := by
  unfold execPmbusTransactionDone
  first
  | (simp only [kept_next, kept_fault, kept_refused, kept_mk, kept_eta, apply_ite kept, ite_self, foldl_kept, foldDoms_kept, kept_busStart, kept_pmbErr, kept_txnGood, kept_now, kept_busTrim]; done)
  | ((try dsimp only) <;> (repeat' split) <;> simp only [kept_next, kept_fault, kept_refused, kept_mk, kept_eta, apply_ite kept, ite_self, foldl_kept, foldDoms_kept, kept_busStart, kept_pmbErr, kept_txnGood, kept_now, kept_busTrim]; done)
  | ((try dsimp only) <;> (repeat' split) <;> simp [kept_next, kept_fault, kept_refused, kept_mk, kept_eta, apply_ite kept, ite_self, foldl_kept, foldDoms_kept, kept_busStart, kept_pmbErr, kept_txnGood, kept_now, kept_busTrim])
theorem kept_execStage1Alert (x0 : Nat) (s : State) : Kept s (execStage1Alert x0 s) := by
  unfold execStage1Alert
  first
  | (simp only [kept_next, kept_fault, kept_refused, kept_mk, kept_eta, apply_ite kept, ite_self, foldl_kept, foldDoms_kept, kept_now, kept_busFront]; done)
  | ((try dsimp only) <;> (repeat' split) <;> simp only [kept_next, kept_fault, kept_refused, kept_mk, kept_eta, apply_ite kept, ite_self, foldl_kept, foldDoms_kept, kept_now, kept_busFront]; done)
  | ((try dsimp only) <;> (repeat' split) <;> simp [kept_next, kept_fault, kept_refused, kept_mk, kept_eta, apply_ite kept, ite_self, foldl_kept, foldDoms_kept, kept_now, kept_busFront])
theorem kept_execAbs (x0 : Reg) (x1 : Reg) (s : State) : Kept s (execAbs x0 x1 s) := by
  unfold execAbs
  first
  | (simp only [kept_next, kept_fault, kept_refused, kept_mk, kept_eta, apply_ite kept, ite_self, foldl_kept, foldDoms_kept, kept_cleExec]; done)
  | ((try dsimp only) <;> (repeat' split) <;> simp only [kept_next, kept_fault, kept_refused, kept_mk, kept_eta, apply_ite kept, ite_self, foldl_kept, foldDoms_kept, kept_cleExec]; done)
  | ((try dsimp only) <;> (repeat' split) <;> simp [kept_next, kept_fault, kept_refused, kept_mk, kept_eta, apply_ite kept, ite_self, foldl_kept, foldDoms_kept, kept_cleExec])
theorem kept_execAdd (x0 : Reg) (x1 : Reg) (x2 : Reg) (s : State) : Kept s (execAdd x0 x1 x2 s) := by
  unfold execAdd
  first
  | (simp only [kept_next, kept_fault, kept_refused, kept_mk, kept_eta, apply_ite kept, ite_self, foldl_kept, foldDoms_kept, kept_cleExec]; done)
  | ((try dsimp only) <;> (repeat' split) <;> simp only [kept_next, kept_fault, kept_refused, kept_mk, kept_eta, apply_ite kept, ite_self, foldl_kept, foldDoms_kept, kept_cleExec]; done)
  | ((try dsimp only) <;> (repeat' split) <;> simp [kept_next, kept_fault, kept_refused, kept_mk, kept_eta, apply_ite kept, ite_self, foldl_kept, foldDoms_kept, kept_cleExec])
theorem kept_execAddi (x0 : Reg) (x1 : Reg) (x2 : BitVec 14) (s : State) : Kept s (execAddi x0 x1 x2 s) := by
  unfold execAddi
  first
  | (simp only [kept_next, kept_fault, kept_refused, kept_mk, kept_eta, apply_ite kept, ite_self, foldl_kept, foldDoms_kept, kept_cleExec]; done)
  | ((try dsimp only) <;> (repeat' split) <;> simp only [kept_next, kept_fault, kept_refused, kept_mk, kept_eta, apply_ite kept, ite_self, foldl_kept, foldDoms_kept, kept_cleExec]; done)
  | ((try dsimp only) <;> (repeat' split) <;> simp [kept_next, kept_fault, kept_refused, kept_mk, kept_eta, apply_ite kept, ite_self, foldl_kept, foldDoms_kept, kept_cleExec])
theorem kept_execAddiq (x0 : Reg) (x1 : Reg) (x2 : BitVec 14) (s : State) : Kept s (execAddiq x0 x1 x2 s) := by
  unfold execAddiq
  first
  | (simp only [kept_next, kept_fault, kept_refused, kept_mk, kept_eta, apply_ite kept, ite_self, foldl_kept, foldDoms_kept, kept_cleExec]; done)
  | ((try dsimp only) <;> (repeat' split) <;> simp only [kept_next, kept_fault, kept_refused, kept_mk, kept_eta, apply_ite kept, ite_self, foldl_kept, foldDoms_kept, kept_cleExec]; done)
  | ((try dsimp only) <;> (repeat' split) <;> simp [kept_next, kept_fault, kept_refused, kept_mk, kept_eta, apply_ite kept, ite_self, foldl_kept, foldDoms_kept, kept_cleExec])
theorem kept_execAnd (x0 : Reg) (x1 : Reg) (x2 : Reg) (s : State) : Kept s (execAnd x0 x1 x2 s) := by
  unfold execAnd
  first
  | (simp only [kept_next, kept_fault, kept_refused, kept_mk, kept_eta, apply_ite kept, ite_self, foldl_kept, foldDoms_kept, kept_cleExec]; done)
  | ((try dsimp only) <;> (repeat' split) <;> simp only [kept_next, kept_fault, kept_refused, kept_mk, kept_eta, apply_ite kept, ite_self, foldl_kept, foldDoms_kept, kept_cleExec]; done)
  | ((try dsimp only) <;> (repeat' split) <;> simp [kept_next, kept_fault, kept_refused, kept_mk, kept_eta, apply_ite kept, ite_self, foldl_kept, foldDoms_kept, kept_cleExec])
theorem kept_execClamp (x0 : Reg) (x1 : Reg) (x2 : Reg) (s : State) : Kept s (execClamp x0 x1 x2 s) := by
  unfold execClamp
  first
  | (simp only [kept_next, kept_fault, kept_refused, kept_mk, kept_eta, apply_ite kept, ite_self, foldl_kept, foldDoms_kept, kept_cleExec]; done)
  | ((try dsimp only) <;> (repeat' split) <;> simp only [kept_next, kept_fault, kept_refused, kept_mk, kept_eta, apply_ite kept, ite_self, foldl_kept, foldDoms_kept, kept_cleExec]; done)
  | ((try dsimp only) <;> (repeat' split) <;> simp [kept_next, kept_fault, kept_refused, kept_mk, kept_eta, apply_ite kept, ite_self, foldl_kept, foldDoms_kept, kept_cleExec])
theorem kept_execCleEnd (s : State) : Kept s (execCleEnd s) := by
  unfold execCleEnd
  first
  | (simp only [kept_next, kept_fault, kept_refused, kept_mk, kept_eta, apply_ite kept, ite_self, foldl_kept, foldDoms_kept, kept_cleExec]; done)
  | ((try dsimp only) <;> (repeat' split) <;> simp only [kept_next, kept_fault, kept_refused, kept_mk, kept_eta, apply_ite kept, ite_self, foldl_kept, foldDoms_kept, kept_cleExec]; done)
  | ((try dsimp only) <;> (repeat' split) <;> simp [kept_next, kept_fault, kept_refused, kept_mk, kept_eta, apply_ite kept, ite_self, foldl_kept, foldDoms_kept, kept_cleExec])
theorem kept_execCleIn (x0 : Reg) (x1 : BitVec 4) (s : State) : Kept s (execCleIn x0 x1 s) := by
  unfold execCleIn
  first
  | (simp only [kept_next, kept_fault, kept_refused, kept_mk, kept_eta, apply_ite kept, ite_self, foldl_kept, foldDoms_kept, kept_cleExec]; done)
  | ((try dsimp only) <;> (repeat' split) <;> simp only [kept_next, kept_fault, kept_refused, kept_mk, kept_eta, apply_ite kept, ite_self, foldl_kept, foldDoms_kept, kept_cleExec]; done)
  | ((try dsimp only) <;> (repeat' split) <;> simp [kept_next, kept_fault, kept_refused, kept_mk, kept_eta, apply_ite kept, ite_self, foldl_kept, foldDoms_kept, kept_cleExec])
theorem kept_execCleNop (s : State) : Kept s (execCleNop s) := by
  unfold execCleNop
  first
  | (simp only [kept_next, kept_fault, kept_refused, kept_mk, kept_eta, apply_ite kept, ite_self, foldl_kept, foldDoms_kept, kept_cleExec]; done)
  | ((try dsimp only) <;> (repeat' split) <;> simp only [kept_next, kept_fault, kept_refused, kept_mk, kept_eta, apply_ite kept, ite_self, foldl_kept, foldDoms_kept, kept_cleExec]; done)
  | ((try dsimp only) <;> (repeat' split) <;> simp [kept_next, kept_fault, kept_refused, kept_mk, kept_eta, apply_ite kept, ite_self, foldl_kept, foldDoms_kept, kept_cleExec])
theorem kept_execCleOut (x0 : Reg) (x1 : BitVec 4) (s : State) : Kept s (execCleOut x0 x1 s) := by
  unfold execCleOut
  first
  | (simp only [kept_next, kept_fault, kept_refused, kept_mk, kept_eta, apply_ite kept, ite_self, foldl_kept, foldDoms_kept, kept_cleExec]; done)
  | ((try dsimp only) <;> (repeat' split) <;> simp only [kept_next, kept_fault, kept_refused, kept_mk, kept_eta, apply_ite kept, ite_self, foldl_kept, foldDoms_kept, kept_cleExec]; done)
  | ((try dsimp only) <;> (repeat' split) <;> simp [kept_next, kept_fault, kept_refused, kept_mk, kept_eta, apply_ite kept, ite_self, foldl_kept, foldDoms_kept, kept_cleExec])
theorem kept_execLdc (x0 : Reg) (x1 : BitVec 8) (s : State) : Kept s (execLdc x0 x1 s) := by
  unfold execLdc
  first
  | (simp only [kept_next, kept_fault, kept_refused, kept_mk, kept_eta, apply_ite kept, ite_self, foldl_kept, foldDoms_kept, kept_cleExec]; done)
  | ((try dsimp only) <;> (repeat' split) <;> simp only [kept_next, kept_fault, kept_refused, kept_mk, kept_eta, apply_ite kept, ite_self, foldl_kept, foldDoms_kept, kept_cleExec]; done)
  | ((try dsimp only) <;> (repeat' split) <;> simp [kept_next, kept_fault, kept_refused, kept_mk, kept_eta, apply_ite kept, ite_self, foldl_kept, foldDoms_kept, kept_cleExec])
theorem kept_execLdi (x0 : Reg) (x1 : BitVec 14) (s : State) : Kept s (execLdi x0 x1 s) := by
  unfold execLdi
  first
  | (simp only [kept_next, kept_fault, kept_refused, kept_mk, kept_eta, apply_ite kept, ite_self, foldl_kept, foldDoms_kept, kept_cleExec]; done)
  | ((try dsimp only) <;> (repeat' split) <;> simp only [kept_next, kept_fault, kept_refused, kept_mk, kept_eta, apply_ite kept, ite_self, foldl_kept, foldDoms_kept, kept_cleExec]; done)
  | ((try dsimp only) <;> (repeat' split) <;> simp [kept_next, kept_fault, kept_refused, kept_mk, kept_eta, apply_ite kept, ite_self, foldl_kept, foldDoms_kept, kept_cleExec])
theorem kept_execLdiq (x0 : Reg) (x1 : BitVec 14) (s : State) : Kept s (execLdiq x0 x1 s) := by
  unfold execLdiq
  first
  | (simp only [kept_next, kept_fault, kept_refused, kept_mk, kept_eta, apply_ite kept, ite_self, foldl_kept, foldDoms_kept, kept_cleExec]; done)
  | ((try dsimp only) <;> (repeat' split) <;> simp only [kept_next, kept_fault, kept_refused, kept_mk, kept_eta, apply_ite kept, ite_self, foldl_kept, foldDoms_kept, kept_cleExec]; done)
  | ((try dsimp only) <;> (repeat' split) <;> simp [kept_next, kept_fault, kept_refused, kept_mk, kept_eta, apply_ite kept, ite_self, foldl_kept, foldDoms_kept, kept_cleExec])
theorem kept_execLds (x0 : Reg) (x1 : BitVec 6) (s : State) : Kept s (execLds x0 x1 s) := by
  unfold execLds
  first
  | (simp only [kept_next, kept_fault, kept_refused, kept_mk, kept_eta, apply_ite kept, ite_self, foldl_kept, foldDoms_kept, kept_cleExec]; done)
  | ((try dsimp only) <;> (repeat' split) <;> simp only [kept_next, kept_fault, kept_refused, kept_mk, kept_eta, apply_ite kept, ite_self, foldl_kept, foldDoms_kept, kept_cleExec]; done)
  | ((try dsimp only) <;> (repeat' split) <;> simp [kept_next, kept_fault, kept_refused, kept_mk, kept_eta, apply_ite kept, ite_self, foldl_kept, foldDoms_kept, kept_cleExec])
theorem kept_execLdsx (x0 : Reg) (x1 : Reg) (x2 : BitVec 6) (s : State) : Kept s (execLdsx x0 x1 x2 s) := by
  unfold execLdsx
  first
  | (simp only [kept_next, kept_fault, kept_refused, kept_mk, kept_eta, apply_ite kept, ite_self, foldl_kept, foldDoms_kept, kept_cleExec]; done)
  | ((try dsimp only) <;> (repeat' split) <;> simp only [kept_next, kept_fault, kept_refused, kept_mk, kept_eta, apply_ite kept, ite_self, foldl_kept, foldDoms_kept, kept_cleExec]; done)
  | ((try dsimp only) <;> (repeat' split) <;> simp [kept_next, kept_fault, kept_refused, kept_mk, kept_eta, apply_ite kept, ite_self, foldl_kept, foldDoms_kept, kept_cleExec])
theorem kept_execMac (x0 : Reg) (x1 : Reg) (x2 : Reg) (s : State) : Kept s (execMac x0 x1 x2 s) := by
  unfold execMac
  first
  | (simp only [kept_next, kept_fault, kept_refused, kept_mk, kept_eta, apply_ite kept, ite_self, foldl_kept, foldDoms_kept, kept_cleExec]; done)
  | ((try dsimp only) <;> (repeat' split) <;> simp only [kept_next, kept_fault, kept_refused, kept_mk, kept_eta, apply_ite kept, ite_self, foldl_kept, foldDoms_kept, kept_cleExec]; done)
  | ((try dsimp only) <;> (repeat' split) <;> simp [kept_next, kept_fault, kept_refused, kept_mk, kept_eta, apply_ite kept, ite_self, foldl_kept, foldDoms_kept, kept_cleExec])
theorem kept_execMax (x0 : Reg) (x1 : Reg) (x2 : Reg) (s : State) : Kept s (execMax x0 x1 x2 s) := by
  unfold execMax
  first
  | (simp only [kept_next, kept_fault, kept_refused, kept_mk, kept_eta, apply_ite kept, ite_self, foldl_kept, foldDoms_kept, kept_cleExec]; done)
  | ((try dsimp only) <;> (repeat' split) <;> simp only [kept_next, kept_fault, kept_refused, kept_mk, kept_eta, apply_ite kept, ite_self, foldl_kept, foldDoms_kept, kept_cleExec]; done)
  | ((try dsimp only) <;> (repeat' split) <;> simp [kept_next, kept_fault, kept_refused, kept_mk, kept_eta, apply_ite kept, ite_self, foldl_kept, foldDoms_kept, kept_cleExec])
theorem kept_execMin (x0 : Reg) (x1 : Reg) (x2 : Reg) (s : State) : Kept s (execMin x0 x1 x2 s) := by
  unfold execMin
  first
  | (simp only [kept_next, kept_fault, kept_refused, kept_mk, kept_eta, apply_ite kept, ite_self, foldl_kept, foldDoms_kept, kept_cleExec]; done)
  | ((try dsimp only) <;> (repeat' split) <;> simp only [kept_next, kept_fault, kept_refused, kept_mk, kept_eta, apply_ite kept, ite_self, foldl_kept, foldDoms_kept, kept_cleExec]; done)
  | ((try dsimp only) <;> (repeat' split) <;> simp [kept_next, kept_fault, kept_refused, kept_mk, kept_eta, apply_ite kept, ite_self, foldl_kept, foldDoms_kept, kept_cleExec])
theorem kept_execMov (x0 : Reg) (x1 : Reg) (s : State) : Kept s (execMov x0 x1 s) := by
  unfold execMov
  first
  | (simp only [kept_next, kept_fault, kept_refused, kept_mk, kept_eta, apply_ite kept, ite_self, foldl_kept, foldDoms_kept, kept_cleExec]; done)
  | ((try dsimp only) <;> (repeat' split) <;> simp only [kept_next, kept_fault, kept_refused, kept_mk, kept_eta, apply_ite kept, ite_self, foldl_kept, foldDoms_kept, kept_cleExec]; done)
  | ((try dsimp only) <;> (repeat' split) <;> simp [kept_next, kept_fault, kept_refused, kept_mk, kept_eta, apply_ite kept, ite_self, foldl_kept, foldDoms_kept, kept_cleExec])
theorem kept_execMsu (x0 : Reg) (x1 : Reg) (x2 : Reg) (s : State) : Kept s (execMsu x0 x1 x2 s) := by
  unfold execMsu
  first
  | (simp only [kept_next, kept_fault, kept_refused, kept_mk, kept_eta, apply_ite kept, ite_self, foldl_kept, foldDoms_kept, kept_cleExec]; done)
  | ((try dsimp only) <;> (repeat' split) <;> simp only [kept_next, kept_fault, kept_refused, kept_mk, kept_eta, apply_ite kept, ite_self, foldl_kept, foldDoms_kept, kept_cleExec]; done)
  | ((try dsimp only) <;> (repeat' split) <;> simp [kept_next, kept_fault, kept_refused, kept_mk, kept_eta, apply_ite kept, ite_self, foldl_kept, foldDoms_kept, kept_cleExec])
theorem kept_execMul (x0 : Reg) (x1 : Reg) (x2 : Reg) (s : State) : Kept s (execMul x0 x1 x2 s) := by
  unfold execMul
  first
  | (simp only [kept_next, kept_fault, kept_refused, kept_mk, kept_eta, apply_ite kept, ite_self, foldl_kept, foldDoms_kept, kept_cleExec]; done)
  | ((try dsimp only) <;> (repeat' split) <;> simp only [kept_next, kept_fault, kept_refused, kept_mk, kept_eta, apply_ite kept, ite_self, foldl_kept, foldDoms_kept, kept_cleExec]; done)
  | ((try dsimp only) <;> (repeat' split) <;> simp [kept_next, kept_fault, kept_refused, kept_mk, kept_eta, apply_ite kept, ite_self, foldl_kept, foldDoms_kept, kept_cleExec])
theorem kept_execNeg (x0 : Reg) (x1 : Reg) (s : State) : Kept s (execNeg x0 x1 s) := by
  unfold execNeg
  first
  | (simp only [kept_next, kept_fault, kept_refused, kept_mk, kept_eta, apply_ite kept, ite_self, foldl_kept, foldDoms_kept, kept_cleExec]; done)
  | ((try dsimp only) <;> (repeat' split) <;> simp only [kept_next, kept_fault, kept_refused, kept_mk, kept_eta, apply_ite kept, ite_self, foldl_kept, foldDoms_kept, kept_cleExec]; done)
  | ((try dsimp only) <;> (repeat' split) <;> simp [kept_next, kept_fault, kept_refused, kept_mk, kept_eta, apply_ite kept, ite_self, foldl_kept, foldDoms_kept, kept_cleExec])
theorem kept_execOr (x0 : Reg) (x1 : Reg) (x2 : Reg) (s : State) : Kept s (execOr x0 x1 x2 s) := by
  unfold execOr
  first
  | (simp only [kept_next, kept_fault, kept_refused, kept_mk, kept_eta, apply_ite kept, ite_self, foldl_kept, foldDoms_kept, kept_cleExec]; done)
  | ((try dsimp only) <;> (repeat' split) <;> simp only [kept_next, kept_fault, kept_refused, kept_mk, kept_eta, apply_ite kept, ite_self, foldl_kept, foldDoms_kept, kept_cleExec]; done)
  | ((try dsimp only) <;> (repeat' split) <;> simp [kept_next, kept_fault, kept_refused, kept_mk, kept_eta, apply_ite kept, ite_self, foldl_kept, foldDoms_kept, kept_cleExec])
theorem kept_execRep (x0 : BitVec 4) (x1 : BitVec 6) (s : State) : Kept s (execRep x0 x1 s) := by
  unfold execRep
  first
  | (simp only [kept_next, kept_fault, kept_refused, kept_mk, kept_eta, apply_ite kept, ite_self, foldl_kept, foldDoms_kept, kept_cleExec]; done)
  | ((try dsimp only) <;> (repeat' split) <;> simp only [kept_next, kept_fault, kept_refused, kept_mk, kept_eta, apply_ite kept, ite_self, foldl_kept, foldDoms_kept, kept_cleExec]; done)
  | ((try dsimp only) <;> (repeat' split) <;> simp [kept_next, kept_fault, kept_refused, kept_mk, kept_eta, apply_ite kept, ite_self, foldl_kept, foldDoms_kept, kept_cleExec])
theorem kept_execSel (x0 : Reg) (x1 : Reg) (x2 : Reg) (x3 : BitVec 3) (x4 : Reg) (s : State) : Kept s (execSel x0 x1 x2 x3 x4 s) := by
  unfold execSel
  first
  | (simp only [kept_next, kept_fault, kept_refused, kept_mk, kept_eta, apply_ite kept, ite_self, foldl_kept, foldDoms_kept, kept_cleExec]; done)
  | ((try dsimp only) <;> (repeat' split) <;> simp only [kept_next, kept_fault, kept_refused, kept_mk, kept_eta, apply_ite kept, ite_self, foldl_kept, foldDoms_kept, kept_cleExec]; done)
  | ((try dsimp only) <;> (repeat' split) <;> simp [kept_next, kept_fault, kept_refused, kept_mk, kept_eta, apply_ite kept, ite_self, foldl_kept, foldDoms_kept, kept_cleExec])
theorem kept_execShl (x0 : Reg) (x1 : Reg) (x2 : BitVec 5) (s : State) : Kept s (execShl x0 x1 x2 s) := by
  unfold execShl
  first
  | (simp only [kept_next, kept_fault, kept_refused, kept_mk, kept_eta, apply_ite kept, ite_self, foldl_kept, foldDoms_kept, kept_cleExec]; done)
  | ((try dsimp only) <;> (repeat' split) <;> simp only [kept_next, kept_fault, kept_refused, kept_mk, kept_eta, apply_ite kept, ite_self, foldl_kept, foldDoms_kept, kept_cleExec]; done)
  | ((try dsimp only) <;> (repeat' split) <;> simp [kept_next, kept_fault, kept_refused, kept_mk, kept_eta, apply_ite kept, ite_self, foldl_kept, foldDoms_kept, kept_cleExec])
theorem kept_execShr (x0 : Reg) (x1 : Reg) (x2 : BitVec 5) (s : State) : Kept s (execShr x0 x1 x2 s) := by
  unfold execShr
  first
  | (simp only [kept_next, kept_fault, kept_refused, kept_mk, kept_eta, apply_ite kept, ite_self, foldl_kept, foldDoms_kept, kept_cleExec]; done)
  | ((try dsimp only) <;> (repeat' split) <;> simp only [kept_next, kept_fault, kept_refused, kept_mk, kept_eta, apply_ite kept, ite_self, foldl_kept, foldDoms_kept, kept_cleExec]; done)
  | ((try dsimp only) <;> (repeat' split) <;> simp [kept_next, kept_fault, kept_refused, kept_mk, kept_eta, apply_ite kept, ite_self, foldl_kept, foldDoms_kept, kept_cleExec])
theorem kept_execSkipif (x0 : Reg) (x1 : Reg) (x2 : BitVec 3) (x3 : BitVec 3) (s : State) : Kept s (execSkipif x0 x1 x2 x3 s) := by
  unfold execSkipif
  first
  | (simp only [kept_next, kept_fault, kept_refused, kept_mk, kept_eta, apply_ite kept, ite_self, foldl_kept, foldDoms_kept, kept_cleExec]; done)
  | ((try dsimp only) <;> (repeat' split) <;> simp only [kept_next, kept_fault, kept_refused, kept_mk, kept_eta, apply_ite kept, ite_self, foldl_kept, foldDoms_kept, kept_cleExec]; done)
  | ((try dsimp only) <;> (repeat' split) <;> simp [kept_next, kept_fault, kept_refused, kept_mk, kept_eta, apply_ite kept, ite_self, foldl_kept, foldDoms_kept, kept_cleExec])
theorem kept_execSts (x0 : Reg) (x1 : BitVec 6) (s : State) : Kept s (execSts x0 x1 s) := by
  unfold execSts
  first
  | (simp only [kept_next, kept_fault, kept_refused, kept_mk, kept_eta, apply_ite kept, ite_self, foldl_kept, foldDoms_kept, kept_cleExec]; done)
  | ((try dsimp only) <;> (repeat' split) <;> simp only [kept_next, kept_fault, kept_refused, kept_mk, kept_eta, apply_ite kept, ite_self, foldl_kept, foldDoms_kept, kept_cleExec]; done)
  | ((try dsimp only) <;> (repeat' split) <;> simp [kept_next, kept_fault, kept_refused, kept_mk, kept_eta, apply_ite kept, ite_self, foldl_kept, foldDoms_kept, kept_cleExec])
theorem kept_execStsx (x0 : Reg) (x1 : Reg) (x2 : BitVec 6) (s : State) : Kept s (execStsx x0 x1 x2 s) := by
  unfold execStsx
  first
  | (simp only [kept_next, kept_fault, kept_refused, kept_mk, kept_eta, apply_ite kept, ite_self, foldl_kept, foldDoms_kept, kept_cleExec]; done)
  | ((try dsimp only) <;> (repeat' split) <;> simp only [kept_next, kept_fault, kept_refused, kept_mk, kept_eta, apply_ite kept, ite_self, foldl_kept, foldDoms_kept, kept_cleExec]; done)
  | ((try dsimp only) <;> (repeat' split) <;> simp [kept_next, kept_fault, kept_refused, kept_mk, kept_eta, apply_ite kept, ite_self, foldl_kept, foldDoms_kept, kept_cleExec])
theorem kept_execSub (x0 : Reg) (x1 : Reg) (x2 : Reg) (s : State) : Kept s (execSub x0 x1 x2 s) := by
  unfold execSub
  first
  | (simp only [kept_next, kept_fault, kept_refused, kept_mk, kept_eta, apply_ite kept, ite_self, foldl_kept, foldDoms_kept, kept_cleExec]; done)
  | ((try dsimp only) <;> (repeat' split) <;> simp only [kept_next, kept_fault, kept_refused, kept_mk, kept_eta, apply_ite kept, ite_self, foldl_kept, foldDoms_kept, kept_cleExec]; done)
  | ((try dsimp only) <;> (repeat' split) <;> simp [kept_next, kept_fault, kept_refused, kept_mk, kept_eta, apply_ite kept, ite_self, foldl_kept, foldDoms_kept, kept_cleExec])
theorem kept_execXor (x0 : Reg) (x1 : Reg) (x2 : Reg) (s : State) : Kept s (execXor x0 x1 x2 s) := by
  unfold execXor
  first
  | (simp only [kept_next, kept_fault, kept_refused, kept_mk, kept_eta, apply_ite kept, ite_self, foldl_kept, foldDoms_kept, kept_cleExec]; done)
  | ((try dsimp only) <;> (repeat' split) <;> simp only [kept_next, kept_fault, kept_refused, kept_mk, kept_eta, apply_ite kept, ite_self, foldl_kept, foldDoms_kept, kept_cleExec]; done)
  | ((try dsimp only) <;> (repeat' split) <;> simp [kept_next, kept_fault, kept_refused, kept_mk, kept_eta, apply_ite kept, ite_self, foldl_kept, foldDoms_kept, kept_cleExec])
theorem kept_execCleSlot (x0 : Nat) (x1 : Fin 16) (x2 : Fin 5) (x3 : List Upset) (x4 : List StoreErr) (s : State) : Kept s (execCleSlot x0 x1 x2 x3 x4 s) := by
  unfold execCleSlot
  first
  | (simp only [kept_next, kept_fault, kept_refused, kept_mk, kept_eta, apply_ite kept, ite_self, foldl_kept, foldDoms_kept, kept_overrun, kept_slotRun, kept_slotLearn, kept_outputsHeld, kept_now]; done)
  | ((try dsimp only) <;> (repeat' split) <;> simp only [kept_next, kept_fault, kept_refused, kept_mk, kept_eta, apply_ite kept, ite_self, foldl_kept, foldDoms_kept, kept_overrun, kept_slotRun, kept_slotLearn, kept_outputsHeld, kept_now]; done)
  | ((try dsimp only) <;> (repeat' split) <;> simp [kept_next, kept_fault, kept_refused, kept_mk, kept_eta, apply_ite kept, ite_self, foldl_kept, foldDoms_kept, kept_overrun, kept_slotRun, kept_slotLearn, kept_outputsHeld, kept_now])
theorem kept_execOverrunHeld (x0 : Dom) (x1 : Nat) (s : State) : Kept s (execOverrunHeld x0 x1 s) := by
  unfold execOverrunHeld
  first
  | (simp only [kept_next, kept_fault, kept_refused, kept_mk, kept_eta, apply_ite kept, ite_self, foldl_kept, foldDoms_kept, kept_overrunHold, kept_now, kept_setDom]; done)
  | ((try dsimp only) <;> (repeat' split) <;> simp only [kept_next, kept_fault, kept_refused, kept_mk, kept_eta, apply_ite kept, ite_self, foldl_kept, foldDoms_kept, kept_overrunHold, kept_now, kept_setDom]; done)
  | ((try dsimp only) <;> (repeat' split) <;> simp [kept_next, kept_fault, kept_refused, kept_mk, kept_eta, apply_ite kept, ite_self, foldl_kept, foldDoms_kept, kept_overrunHold, kept_now, kept_setDom])
theorem kept_execClkSrcSwitch (x0 : Word) (x1 : Nat) (s : State) : Kept s (execClkSrcSwitch x0 x1 s) := by
  unfold execClkSrcSwitch
  extract_lets s0 c0 nc ns c1 c2 c3 c4
  clear_value c4
  split <;> rw [kept_next]
  · rfl
  · simp only [kept_staleUpdate, kept_mk, kept_eta]; rfl
theorem kept_execClockMonitorFault (x0 : MonClock) (x1 : Nat) (s : State) : Kept s (execClockMonitorFault x0 x1 s) := by
  unfold execClockMonitorFault
  first
  | (simp only [kept_next, kept_fault, kept_refused, kept_mk, kept_eta, apply_ite kept, ite_self, foldl_kept, foldDoms_kept, kept_raiseAtOnce, kept_forceClocks, kept_staleUpdate, kept_now, kept_setClk]; done)
  | ((try dsimp only) <;> (repeat' split) <;> simp only [kept_next, kept_fault, kept_refused, kept_mk, kept_eta, apply_ite kept, ite_self, foldl_kept, foldDoms_kept, kept_raiseAtOnce, kept_forceClocks, kept_staleUpdate, kept_now, kept_setClk]; done)
  | ((try dsimp only) <;> (repeat' split) <;> simp [kept_next, kept_fault, kept_refused, kept_mk, kept_eta, apply_ite kept, ite_self, foldl_kept, foldDoms_kept, kept_raiseAtOnce, kept_forceClocks, kept_staleUpdate, kept_now, kept_setClk])
theorem kept_execClockReturn (x0 : MonClock) (x1 : Nat) (s : State) : Kept s (execClockReturn x0 x1 s) := by
  unfold execClockReturn
  first
  | (simp only [kept_next, kept_fault, kept_refused, kept_mk, kept_eta, apply_ite kept, ite_self, foldl_kept, foldDoms_kept, kept_staleUpdate, kept_now, kept_setClk]; done)
  | ((try dsimp only) <;> (repeat' split) <;> simp only [kept_next, kept_fault, kept_refused, kept_mk, kept_eta, apply_ite kept, ite_self, foldl_kept, foldDoms_kept, kept_staleUpdate, kept_now, kept_setClk]; done)
  | ((try dsimp only) <;> (repeat' split) <;> simp [kept_next, kept_fault, kept_refused, kept_mk, kept_eta, apply_ite kept, ite_self, foldl_kept, foldDoms_kept, kept_staleUpdate, kept_now, kept_setClk])
theorem kept_execFmcDone (x0 : Nat) (x1 : Nat) (s : State) : Kept s (execFmcDone x0 x1 s) := by
  unfold execFmcDone
  first
  | (simp only [kept_next, kept_fault, kept_refused, kept_mk, kept_eta, apply_ite kept, ite_self, foldl_kept, foldDoms_kept, kept_now, kept_setClk]; done)
  | ((try dsimp only) <;> (repeat' split) <;> simp only [kept_next, kept_fault, kept_refused, kept_mk, kept_eta, apply_ite kept, ite_self, foldl_kept, foldDoms_kept, kept_now, kept_setClk]; done)
  | ((try dsimp only) <;> (repeat' split) <;> simp [kept_next, kept_fault, kept_refused, kept_mk, kept_eta, apply_ite kept, ite_self, foldl_kept, foldDoms_kept, kept_now, kept_setClk])
theorem kept_execFmcGo (x0 : Word) (x1 : Nat) (s : State) : Kept s (execFmcGo x0 x1 s) := by
  unfold execFmcGo
  first
  | (simp only [kept_next, kept_fault, kept_refused, kept_mk, kept_eta, apply_ite kept, ite_self, foldl_kept, foldDoms_kept, kept_writeFmcCtl, kept_now, kept_ackWrite]; done)
  | ((try dsimp only) <;> (repeat' split) <;> simp only [kept_next, kept_fault, kept_refused, kept_mk, kept_eta, apply_ite kept, ite_self, foldl_kept, foldDoms_kept, kept_writeFmcCtl, kept_now, kept_ackWrite]; done)
  | ((try dsimp only) <;> (repeat' split) <;> simp [kept_next, kept_fault, kept_refused, kept_mk, kept_eta, apply_ite kept, ite_self, foldl_kept, foldDoms_kept, kept_writeFmcCtl, kept_now, kept_ackWrite])
theorem kept_execFwGo (x0 : Word) (x1 : Nat) (s : State) : Kept s (execFwGo x0 x1 s) := by
  unfold execFwGo
  first
  | (simp only [kept_next, kept_fault, kept_refused, kept_mk, kept_eta, apply_ite kept, ite_self, foldl_kept, foldDoms_kept, kept_now, kept_ackWrite]; done)
  | ((try dsimp only) <;> (repeat' split) <;> simp only [kept_next, kept_fault, kept_refused, kept_mk, kept_eta, apply_ite kept, ite_self, foldl_kept, foldDoms_kept, kept_now, kept_ackWrite]; done)
  | ((try dsimp only) <;> (repeat' split) <;> simp [kept_next, kept_fault, kept_refused, kept_mk, kept_eta, apply_ite kept, ite_self, foldl_kept, foldDoms_kept, kept_now, kept_ackWrite])
theorem kept_execFwLoadDone (x0 : FwImage) (x1 : Nat) (s : State) : Kept s (execFwLoadDone x0 x1 s) := by
  unfold execFwLoadDone
  first
  | (simp only [kept_next, kept_fault, kept_refused, kept_mk, kept_eta, apply_ite kept, ite_self, foldl_kept, foldDoms_kept, kept_now, kept_freshBelow, kept_raise, kept_startMc]; done)
  | ((try dsimp only) <;> (repeat' split) <;> simp only [kept_next, kept_fault, kept_refused, kept_mk, kept_eta, apply_ite kept, ite_self, foldl_kept, foldDoms_kept, kept_now, kept_freshBelow, kept_raise, kept_startMc]; done)
  | ((try dsimp only) <;> (repeat' split) <;> simp [kept_next, kept_fault, kept_refused, kept_mk, kept_eta, apply_ite kept, ite_self, foldl_kept, foldDoms_kept, kept_now, kept_freshBelow, kept_raise, kept_startMc])
theorem kept_execMcStart (x0 : Nat) (s : State) : Kept s (execMcStart x0 s) := by
  unfold execMcStart
  first
  | (simp only [kept_next, kept_fault, kept_refused, kept_mk, kept_eta, apply_ite kept, ite_self, foldl_kept, foldDoms_kept, kept_now, kept_startMc]; done)
  | ((try dsimp only) <;> (repeat' split) <;> simp only [kept_next, kept_fault, kept_refused, kept_mk, kept_eta, apply_ite kept, ite_self, foldl_kept, foldDoms_kept, kept_now, kept_startMc]; done)
  | ((try dsimp only) <;> (repeat' split) <;> simp [kept_next, kept_fault, kept_refused, kept_mk, kept_eta, apply_ite kept, ite_self, foldl_kept, foldDoms_kept, kept_now, kept_startMc])
theorem kept_execMuxSwitchDone (x0 : MuxId) (x1 : Bool) (x2 : Nat) (s : State) : Kept s (execMuxSwitchDone x0 x1 x2 s) := by
  unfold execMuxSwitchDone
  first
  | (simp only [kept_next, kept_fault, kept_refused, kept_mk, kept_eta, apply_ite kept, ite_self, foldl_kept, foldDoms_kept, kept_stretchUpdate, kept_now, kept_raise, kept_setClk]; done)
  | ((try dsimp only) <;> (repeat' split) <;> simp only [kept_next, kept_fault, kept_refused, kept_mk, kept_eta, apply_ite kept, ite_self, foldl_kept, foldDoms_kept, kept_stretchUpdate, kept_now, kept_raise, kept_setClk]; done)
  | ((try dsimp only) <;> (repeat' split) <;> simp [kept_next, kept_fault, kept_refused, kept_mk, kept_eta, apply_ite kept, ite_self, foldl_kept, foldDoms_kept, kept_stretchUpdate, kept_now, kept_raise, kept_setClk])
theorem kept_execPllCfgWrite (x0 : PllId) (x1 : Word) (x2 : Nat) (s : State) : Kept s (execPllCfgWrite x0 x1 x2 s) := by
  unfold execPllCfgWrite
  first
  | (simp only [kept_next, kept_fault, kept_refused, kept_mk, kept_eta, apply_ite kept, ite_self, foldl_kept, foldDoms_kept, kept_now, kept_ackWrite, kept_setClk]; done)
  | ((try dsimp only) <;> (repeat' split) <;> simp only [kept_next, kept_fault, kept_refused, kept_mk, kept_eta, apply_ite kept, ite_self, foldl_kept, foldDoms_kept, kept_now, kept_ackWrite, kept_setClk]; done)
  | ((try dsimp only) <;> (repeat' split) <;> simp [kept_next, kept_fault, kept_refused, kept_mk, kept_eta, apply_ite kept, ite_self, foldl_kept, foldDoms_kept, kept_now, kept_ackWrite, kept_setClk])
theorem kept_execPllLock (x0 : PllId) (x1 : Nat) (s : State) : Kept s (execPllLock x0 x1 s) := by
  unfold execPllLock
  first
  | (simp only [kept_next, kept_fault, kept_refused, kept_mk, kept_eta, apply_ite kept, ite_self, foldl_kept, foldDoms_kept, kept_staleUpdate, kept_now, kept_setClk]; done)
  | ((try dsimp only) <;> (repeat' split) <;> simp only [kept_next, kept_fault, kept_refused, kept_mk, kept_eta, apply_ite kept, ite_self, foldl_kept, foldDoms_kept, kept_staleUpdate, kept_now, kept_setClk]; done)
  | ((try dsimp only) <;> (repeat' split) <;> simp [kept_next, kept_fault, kept_refused, kept_mk, kept_eta, apply_ite kept, ite_self, foldl_kept, foldDoms_kept, kept_staleUpdate, kept_now, kept_setClk])
theorem kept_execPllUnlock (x0 : PllId) (x1 : Nat) (s : State) : Kept s (execPllUnlock x0 x1 s) := by
  unfold execPllUnlock
  first
  | (simp only [kept_next, kept_fault, kept_refused, kept_mk, kept_eta, apply_ite kept, ite_self, foldl_kept, foldDoms_kept, kept_now, kept_raise, kept_setClk]; done)
  | ((try dsimp only) <;> (repeat' split) <;> simp only [kept_next, kept_fault, kept_refused, kept_mk, kept_eta, apply_ite kept, ite_self, foldl_kept, foldDoms_kept, kept_now, kept_raise, kept_setClk]; done)
  | ((try dsimp only) <;> (repeat' split) <;> simp [kept_next, kept_fault, kept_refused, kept_mk, kept_eta, apply_ite kept, ite_self, foldl_kept, foldDoms_kept, kept_now, kept_raise, kept_setClk])
theorem kept_execPwrmodeDeep (x0 : Word) (x1 : Nat) (s : State) : Kept s (execPwrmodeDeep x0 x1 s) := by
  unfold execPwrmodeDeep
  first
  | (simp only [kept_next, kept_fault, kept_refused, kept_mk, kept_eta, apply_ite kept, ite_self, foldl_kept, foldDoms_kept, kept_now, kept_ackWrite, kept_setClk]; done)
  | ((try dsimp only) <;> (repeat' split) <;> simp only [kept_next, kept_fault, kept_refused, kept_mk, kept_eta, apply_ite kept, ite_self, foldl_kept, foldDoms_kept, kept_now, kept_ackWrite, kept_setClk]; done)
  | ((try dsimp only) <;> (repeat' split) <;> simp [kept_next, kept_fault, kept_refused, kept_mk, kept_eta, apply_ite kept, ite_self, foldl_kept, foldDoms_kept, kept_now, kept_ackWrite, kept_setClk])
theorem kept_execPwrmodeRun (x0 : Word) (x1 : Nat) (s : State) : Kept s (execPwrmodeRun x0 x1 s) := by
  unfold execPwrmodeRun
  first
  | (simp only [kept_next, kept_fault, kept_refused, kept_mk, kept_eta, apply_ite kept, ite_self, foldl_kept, foldDoms_kept, kept_now, kept_ackWrite, kept_setClk]; done)
  | ((try dsimp only) <;> (repeat' split) <;> simp only [kept_next, kept_fault, kept_refused, kept_mk, kept_eta, apply_ite kept, ite_self, foldl_kept, foldDoms_kept, kept_now, kept_ackWrite, kept_setClk]; done)
  | ((try dsimp only) <;> (repeat' split) <;> simp [kept_next, kept_fault, kept_refused, kept_mk, kept_eta, apply_ite kept, ite_self, foldl_kept, foldDoms_kept, kept_now, kept_ackWrite, kept_setClk])
theorem kept_execPwrmodeSleep (x0 : Word) (x1 : Nat) (s : State) : Kept s (execPwrmodeSleep x0 x1 s) := by
  unfold execPwrmodeSleep
  first
  | (simp only [kept_next, kept_fault, kept_refused, kept_mk, kept_eta, apply_ite kept, ite_self, foldl_kept, foldDoms_kept, kept_now, kept_ackWrite, kept_setClk]; done)
  | ((try dsimp only) <;> (repeat' split) <;> simp only [kept_next, kept_fault, kept_refused, kept_mk, kept_eta, apply_ite kept, ite_self, foldl_kept, foldDoms_kept, kept_now, kept_ackWrite, kept_setClk]; done)
  | ((try dsimp only) <;> (repeat' split) <;> simp [kept_next, kept_fault, kept_refused, kept_mk, kept_eta, apply_ite kept, ite_self, foldl_kept, foldDoms_kept, kept_now, kept_ackWrite, kept_setClk])
theorem kept_execPwrmodeTransitionDone (x0 : Nat) (s : State) : Kept s (execPwrmodeTransitionDone x0 s) := by
  unfold execPwrmodeTransitionDone
  first
  | (simp only [kept_next, kept_fault, kept_refused, kept_mk, kept_eta, apply_ite kept, ite_self, foldl_kept, foldDoms_kept, kept_wakeT8, kept_enterMode, kept_now, kept_meterGate, kept_setClk]; done)
  | ((try dsimp only) <;> (repeat' split) <;> simp only [kept_next, kept_fault, kept_refused, kept_mk, kept_eta, apply_ite kept, ite_self, foldl_kept, foldDoms_kept, kept_wakeT8, kept_enterMode, kept_now, kept_meterGate, kept_setClk]; done)
  | ((try dsimp only) <;> (repeat' split) <;> simp [kept_next, kept_fault, kept_refused, kept_mk, kept_eta, apply_ite kept, ite_self, foldl_kept, foldDoms_kept, kept_wakeT8, kept_enterMode, kept_now, kept_meterGate, kept_setClk])
theorem kept_execCrossingRecovery (x0 : Dom) (x1 : Level) (x2 : Nat) (s : State) : Kept s (execCrossingRecovery x0 x1 x2 s) := by
  unfold execCrossingRecovery
  first
  | (simp only [kept_next, kept_fault, kept_refused, kept_mk, kept_eta, apply_ite kept, ite_self, foldl_kept, foldDoms_kept, kept_setDroop, kept_now]; done)
  | ((try dsimp only) <;> (repeat' split) <;> simp only [kept_next, kept_fault, kept_refused, kept_mk, kept_eta, apply_ite kept, ite_self, foldl_kept, foldDoms_kept, kept_setDroop, kept_now]; done)
  | ((try dsimp only) <;> (repeat' split) <;> simp [kept_next, kept_fault, kept_refused, kept_mk, kept_eta, apply_ite kept, ite_self, foldl_kept, foldDoms_kept, kept_setDroop, kept_now])
theorem kept_execDt1Crossing (x0 : Dom) (x1 : BitVec 16) (x2 : Nat) (s : State) : Kept s (execDt1Crossing x0 x1 x2 s) := by
  unfold execDt1Crossing
  first
  | (simp only [kept_next, kept_fault, kept_refused, kept_mk, kept_eta, apply_ite kept, ite_self, foldl_kept, foldDoms_kept, kept_fireLevel, kept_steadyReport, kept_abortPark, kept_setDroop, kept_now, kept_driveThr, kept_setDom]; done)
  | ((try dsimp only) <;> (repeat' split) <;> simp only [kept_next, kept_fault, kept_refused, kept_mk, kept_eta, apply_ite kept, ite_self, foldl_kept, foldDoms_kept, kept_fireLevel, kept_steadyReport, kept_abortPark, kept_setDroop, kept_now, kept_driveThr, kept_setDom]; done)
  | ((try dsimp only) <;> (repeat' split) <;> simp [kept_next, kept_fault, kept_refused, kept_mk, kept_eta, apply_ite kept, ite_self, foldl_kept, foldDoms_kept, kept_fireLevel, kept_steadyReport, kept_abortPark, kept_setDroop, kept_now, kept_driveThr, kept_setDom])
theorem kept_execDt2Crossing (x0 : Dom) (x1 : BitVec 16) (x2 : Nat) (s : State) : Kept s (execDt2Crossing x0 x1 x2 s) := by
  unfold execDt2Crossing
  first
  | (simp only [kept_next, kept_fault, kept_refused, kept_mk, kept_eta, apply_ite kept, ite_self, foldl_kept, foldDoms_kept, kept_fireLevel, kept_dt3Action, kept_setDroop, kept_now, kept_setDom]; done)
  | ((try dsimp only) <;> (repeat' split) <;> simp only [kept_next, kept_fault, kept_refused, kept_mk, kept_eta, apply_ite kept, ite_self, foldl_kept, foldDoms_kept, kept_fireLevel, kept_dt3Action, kept_setDroop, kept_now, kept_setDom]; done)
  | ((try dsimp only) <;> (repeat' split) <;> simp [kept_next, kept_fault, kept_refused, kept_mk, kept_eta, apply_ite kept, ite_self, foldl_kept, foldDoms_kept, kept_fireLevel, kept_dt3Action, kept_setDroop, kept_now, kept_setDom])
theorem kept_execDt3Crossing (x0 : Dom) (x1 : BitVec 16) (x2 : Nat) (s : State) : Kept s (execDt3Crossing x0 x1 x2 s) := by
  unfold execDt3Crossing
  first
  | (simp only [kept_next, kept_fault, kept_refused, kept_mk, kept_eta, apply_ite kept, ite_self, foldl_kept, foldDoms_kept, kept_dt3Action, kept_now, kept_setDom]; done)
  | ((try dsimp only) <;> (repeat' split) <;> simp only [kept_next, kept_fault, kept_refused, kept_mk, kept_eta, apply_ite kept, ite_self, foldl_kept, foldDoms_kept, kept_dt3Action, kept_now, kept_setDom]; done)
  | ((try dsimp only) <;> (repeat' split) <;> simp [kept_next, kept_fault, kept_refused, kept_mk, kept_eta, apply_ite kept, ite_self, foldl_kept, foldDoms_kept, kept_dt3Action, kept_now, kept_setDom])
theorem kept_execDt3End (x0 : Dom) (x1 : Nat) (s : State) : Kept s (execDt3End x0 x1 s) := by
  unfold execDt3End
  first
  | (simp only [kept_next, kept_fault, kept_refused, kept_mk, kept_eta, apply_ite kept, ite_self, foldl_kept, foldDoms_kept, kept_setDroop, kept_now, kept_driveThr]; done)
  | ((try dsimp only) <;> (repeat' split) <;> simp only [kept_next, kept_fault, kept_refused, kept_mk, kept_eta, apply_ite kept, ite_self, foldl_kept, foldDoms_kept, kept_setDroop, kept_now, kept_driveThr]; done)
  | ((try dsimp only) <;> (repeat' split) <;> simp [kept_next, kept_fault, kept_refused, kept_mk, kept_eta, apply_ite kept, ite_self, foldl_kept, foldDoms_kept, kept_setDroop, kept_now, kept_driveThr])
theorem kept_execFlareCheck (x0 : Dom) (x1 : BitVec 12) (x2 : Bool) (x3 : Nat) (s : State) : Kept s (execFlareCheck x0 x1 x2 x3 s) := by
  unfold execFlareCheck
  first
  | (simp only [kept_next, kept_fault, kept_refused, kept_mk, kept_eta, apply_ite kept, ite_self, foldl_kept, foldDoms_kept, kept_setDroop, kept_now, kept_raise]; done)
  | ((try dsimp only) <;> (repeat' split) <;> simp only [kept_next, kept_fault, kept_refused, kept_mk, kept_eta, apply_ite kept, ite_self, foldl_kept, foldDoms_kept, kept_setDroop, kept_now, kept_raise]; done)
  | ((try dsimp only) <;> (repeat' split) <;> simp [kept_next, kept_fault, kept_refused, kept_mk, kept_eta, apply_ite kept, ite_self, foldl_kept, foldDoms_kept, kept_setDroop, kept_now, kept_raise])
theorem kept_execFlareConductionEnd (x0 : Dom) (x1 : Nat) (s : State) : Kept s (execFlareConductionEnd x0 x1 s) := by
  unfold execFlareConductionEnd
  first
  | (simp only [kept_next, kept_fault, kept_refused, kept_mk, kept_eta, apply_ite kept, ite_self, foldl_kept, foldDoms_kept, kept_setDroop, kept_now]; done)
  | ((try dsimp only) <;> (repeat' split) <;> simp only [kept_next, kept_fault, kept_refused, kept_mk, kept_eta, apply_ite kept, ite_self, foldl_kept, foldDoms_kept, kept_setDroop, kept_now]; done)
  | ((try dsimp only) <;> (repeat' split) <;> simp [kept_next, kept_fault, kept_refused, kept_mk, kept_eta, apply_ite kept, ite_self, foldl_kept, foldDoms_kept, kept_setDroop, kept_now])
theorem kept_execFlareRecharged (x0 : Dom) (x1 : Nat) (s : State) : Kept s (execFlareRecharged x0 x1 s) := by
  unfold execFlareRecharged
  first
  | (simp only [kept_next, kept_fault, kept_refused, kept_mk, kept_eta, apply_ite kept, ite_self, foldl_kept, foldDoms_kept, kept_setDroop, kept_now]; done)
  | ((try dsimp only) <;> (repeat' split) <;> simp only [kept_next, kept_fault, kept_refused, kept_mk, kept_eta, apply_ite kept, ite_self, foldl_kept, foldDoms_kept, kept_setDroop, kept_now]; done)
  | ((try dsimp only) <;> (repeat' split) <;> simp [kept_next, kept_fault, kept_refused, kept_mk, kept_eta, apply_ite kept, ite_self, foldl_kept, foldDoms_kept, kept_setDroop, kept_now])
theorem kept_execFloorCrossing (x0 : Dom) (x1 : BitVec 16) (x2 : Nat) (s : State) : Kept s (execFloorCrossing x0 x1 x2 s) := by
  unfold execFloorCrossing
  first
  | (simp only [kept_next, kept_fault, kept_refused, kept_mk, kept_eta, apply_ite kept, ite_self, foldl_kept, foldDoms_kept, kept_uvStop, kept_setDroop, kept_raiseFrom, kept_now, kept_freshBelow, kept_sieveEvent]; done)
  | ((try dsimp only) <;> (repeat' split) <;> simp only [kept_next, kept_fault, kept_refused, kept_mk, kept_eta, apply_ite kept, ite_self, foldl_kept, foldDoms_kept, kept_uvStop, kept_setDroop, kept_raiseFrom, kept_now, kept_freshBelow, kept_sieveEvent]; done)
  | ((try dsimp only) <;> (repeat' split) <;> simp [kept_next, kept_fault, kept_refused, kept_mk, kept_eta, apply_ite kept, ite_self, foldl_kept, foldDoms_kept, kept_uvStop, kept_setDroop, kept_raiseFrom, kept_now, kept_freshBelow, kept_sieveEvent])
theorem kept_execGlintEnd (x0 : Dom) (x1 : Nat) (s : State) : Kept s (execGlintEnd x0 x1 s) := by
  unfold execGlintEnd
  first
  | (simp only [kept_next, kept_fault, kept_refused, kept_mk, kept_eta, apply_ite kept, ite_self, foldl_kept, foldDoms_kept, kept_setDroop, kept_now, kept_driveThr]; done)
  | ((try dsimp only) <;> (repeat' split) <;> simp only [kept_next, kept_fault, kept_refused, kept_mk, kept_eta, apply_ite kept, ite_self, foldl_kept, foldDoms_kept, kept_setDroop, kept_now, kept_driveThr]; done)
  | ((try dsimp only) <;> (repeat' split) <;> simp [kept_next, kept_fault, kept_refused, kept_mk, kept_eta, apply_ite kept, ite_self, foldl_kept, foldDoms_kept, kept_setDroop, kept_now, kept_driveThr])
theorem kept_execFaultMessage (x0 : Nat) (s : State) : Kept s (execFaultMessage x0 s) := by
  unfold execFaultMessage
  first
  | (simp only [kept_next, kept_fault, kept_refused, kept_mk, kept_eta, apply_ite kept, ite_self, foldl_kept, foldDoms_kept, kept_takeMessage, kept_wakeT8, kept_now]; done)
  | ((try dsimp only) <;> (repeat' split) <;> simp only [kept_next, kept_fault, kept_refused, kept_mk, kept_eta, apply_ite kept, ite_self, foldl_kept, foldDoms_kept, kept_takeMessage, kept_wakeT8, kept_now]; done)
  | ((try dsimp only) <;> (repeat' split) <;> simp [kept_next, kept_fault, kept_refused, kept_mk, kept_eta, apply_ite kept, ite_self, foldl_kept, foldDoms_kept, kept_takeMessage, kept_wakeT8, kept_now])
theorem kept_execFltCfgClr (x0 : Word) (x1 : Nat) (s : State) : Kept s (execFltCfgClr x0 x1 s) := by
  unfold execFltCfgClr
  first
  | (simp only [kept_next, kept_fault, kept_refused, kept_mk, kept_eta, apply_ite kept, ite_self, foldl_kept, foldDoms_kept, kept_now, kept_ackWrite, kept_writeFltCfg]; done)
  | ((try dsimp only) <;> (repeat' split) <;> simp only [kept_next, kept_fault, kept_refused, kept_mk, kept_eta, apply_ite kept, ite_self, foldl_kept, foldDoms_kept, kept_now, kept_ackWrite, kept_writeFltCfg]; done)
  | ((try dsimp only) <;> (repeat' split) <;> simp [kept_next, kept_fault, kept_refused, kept_mk, kept_eta, apply_ite kept, ite_self, foldl_kept, foldDoms_kept, kept_now, kept_ackWrite, kept_writeFltCfg])
theorem kept_execHeartbeatToggle (x0 : Nat) (s : State) : Kept s (execHeartbeatToggle x0 s) := by
  unfold execHeartbeatToggle
  first
  | (simp only [kept_next, kept_fault, kept_refused, kept_mk, kept_eta, apply_ite kept, ite_self, foldl_kept, foldDoms_kept, kept_now]; done)
  | ((try dsimp only) <;> (repeat' split) <;> simp only [kept_next, kept_fault, kept_refused, kept_mk, kept_eta, apply_ite kept, ite_self, foldl_kept, foldDoms_kept, kept_now]; done)
  | ((try dsimp only) <;> (repeat' split) <;> simp [kept_next, kept_fault, kept_refused, kept_mk, kept_eta, apply_ite kept, ite_self, foldl_kept, foldDoms_kept, kept_now])
theorem kept_execLifetimeCountersRecord (x0 : List Byte) (x1 : Nat) (s : State) : Kept s (execLifetimeCountersRecord x0 x1 s) := by
  unfold execLifetimeCountersRecord
  first
  | (simp only [kept_next, kept_fault, kept_refused, kept_mk, kept_eta, apply_ite kept, ite_self, foldl_kept, foldDoms_kept, kept_queueRecord, kept_now]; done)
  | ((try dsimp only) <;> (repeat' split) <;> simp only [kept_next, kept_fault, kept_refused, kept_mk, kept_eta, apply_ite kept, ite_self, foldl_kept, foldDoms_kept, kept_queueRecord, kept_now]; done)
  | ((try dsimp only) <;> (repeat' split) <;> simp [kept_next, kept_fault, kept_refused, kept_mk, kept_eta, apply_ite kept, ite_self, foldl_kept, foldDoms_kept, kept_queueRecord, kept_now])
theorem kept_execPfail (x0 : Nat) (s : State) : Kept s (execPfail x0 s) := by
  unfold execPfail
  first
  | (simp only [kept_next, kept_fault, kept_refused, kept_mk, kept_eta, apply_ite kept, ite_self, foldl_kept, foldDoms_kept, kept_raiseAtOnce, kept_now, kept_pushRecord, kept_startBreath]; done)
  | ((try dsimp only) <;> (repeat' split) <;> simp only [kept_next, kept_fault, kept_refused, kept_mk, kept_eta, apply_ite kept, ite_self, foldl_kept, foldDoms_kept, kept_raiseAtOnce, kept_now, kept_pushRecord, kept_startBreath]; done)
  | ((try dsimp only) <;> (repeat' split) <;> simp [kept_next, kept_fault, kept_refused, kept_mk, kept_eta, apply_ite kept, ite_self, foldl_kept, foldDoms_kept, kept_raiseAtOnce, kept_now, kept_pushRecord, kept_startBreath])
theorem kept_execPfailNRise (x0 : Nat) (s : State) : Kept s (execPfailNRise x0 s) := by
  unfold execPfailNRise
  first
  | (simp only [kept_next, kept_fault, kept_refused, kept_mk, kept_eta, apply_ite kept, ite_self, foldl_kept, foldDoms_kept, kept_now]; done)
  | ((try dsimp only) <;> (repeat' split) <;> simp only [kept_next, kept_fault, kept_refused, kept_mk, kept_eta, apply_ite kept, ite_self, foldl_kept, foldDoms_kept, kept_now]; done)
  | ((try dsimp only) <;> (repeat' split) <;> simp [kept_next, kept_fault, kept_refused, kept_mk, kept_eta, apply_ite kept, ite_self, foldl_kept, foldDoms_kept, kept_now])
theorem kept_execSafeModeWrite (x0 : Word) (x1 : Nat) (s : State) : Kept s (execSafeModeWrite x0 x1 s) := by
  unfold execSafeModeWrite
  first
  | (simp only [kept_next, kept_fault, kept_refused, kept_mk, kept_eta, apply_ite kept, ite_self, foldl_kept, foldDoms_kept, kept_writeSafeMode, kept_now, kept_ackWrite]; done)
  | ((try dsimp only) <;> (repeat' split) <;> simp only [kept_next, kept_fault, kept_refused, kept_mk, kept_eta, apply_ite kept, ite_self, foldl_kept, foldDoms_kept, kept_writeSafeMode, kept_now, kept_ackWrite]; done)
  | ((try dsimp only) <;> (repeat' split) <;> simp [kept_next, kept_fault, kept_refused, kept_mk, kept_eta, apply_ite kept, ite_self, foldl_kept, foldDoms_kept, kept_writeSafeMode, kept_now, kept_ackWrite])
theorem kept_execSafePulseEnd (x0 : Nat) (s : State) : Kept s (execSafePulseEnd x0 s) := by
  unfold execSafePulseEnd
  first
  | (simp only [kept_next, kept_fault, kept_refused, kept_mk, kept_eta, apply_ite kept, ite_self, foldl_kept, foldDoms_kept, kept_now]; done)
  | ((try dsimp only) <;> (repeat' split) <;> simp only [kept_next, kept_fault, kept_refused, kept_mk, kept_eta, apply_ite kept, ite_self, foldl_kept, foldDoms_kept, kept_now]; done)
  | ((try dsimp only) <;> (repeat' split) <;> simp [kept_next, kept_fault, kept_refused, kept_mk, kept_eta, apply_ite kept, ite_self, foldl_kept, foldDoms_kept, kept_now])
theorem kept_execWdtFailsClear (x0 : Nat) (s : State) : Kept s (execWdtFailsClear x0 s) := by
  unfold execWdtFailsClear
  first
  | (simp only [kept_next, kept_fault, kept_refused, kept_mk, kept_eta, apply_ite kept, ite_self, foldl_kept, foldDoms_kept, kept_now]; done)
  | ((try dsimp only) <;> (repeat' split) <;> simp only [kept_next, kept_fault, kept_refused, kept_mk, kept_eta, apply_ite kept, ite_self, foldl_kept, foldDoms_kept, kept_now]; done)
  | ((try dsimp only) <;> (repeat' split) <;> simp [kept_next, kept_fault, kept_refused, kept_mk, kept_eta, apply_ite kept, ite_self, foldl_kept, foldDoms_kept, kept_now])
theorem kept_execWdtKick (x0 : Word) (x1 : Nat) (s : State) : Kept s (execWdtKick x0 x1 s) := by
  unfold execWdtKick
  first
  | (simp only [kept_next, kept_fault, kept_refused, kept_mk, kept_eta, apply_ite kept, ite_self, foldl_kept, foldDoms_kept, kept_wdtFail, kept_now]; done)
  | ((try dsimp only) <;> (repeat' split) <;> simp only [kept_next, kept_fault, kept_refused, kept_mk, kept_eta, apply_ite kept, ite_self, foldl_kept, foldDoms_kept, kept_wdtFail, kept_now]; done)
  | ((try dsimp only) <;> (repeat' split) <;> simp [kept_next, kept_fault, kept_refused, kept_mk, kept_eta, apply_ite kept, ite_self, foldl_kept, foldDoms_kept, kept_wdtFail, kept_now])
theorem kept_execWdtTimeout (x0 : Nat) (s : State) : Kept s (execWdtTimeout x0 s) := by
  unfold execWdtTimeout
  first
  | (simp only [kept_next, kept_fault, kept_refused, kept_mk, kept_eta, apply_ite kept, ite_self, foldl_kept, foldDoms_kept, kept_wdtFail, kept_now]; done)
  | ((try dsimp only) <;> (repeat' split) <;> simp only [kept_next, kept_fault, kept_refused, kept_mk, kept_eta, apply_ite kept, ite_self, foldl_kept, foldDoms_kept, kept_wdtFail, kept_now]; done)
  | ((try dsimp only) <;> (repeat' split) <;> simp [kept_next, kept_fault, kept_refused, kept_mk, kept_eta, apply_ite kept, ite_self, foldl_kept, foldDoms_kept, kept_wdtFail, kept_now])
theorem kept_execFrameLatch (x0 : Nat) (x1 : List SenseSample) (s : State) : Kept s (execFrameLatch x0 x1 s) := by
  unfold execFrameLatch
  first
  | (simp only [kept_next, kept_fault, kept_refused, kept_mk, kept_eta, apply_ite kept, ite_self, foldl_kept, foldDoms_kept, kept_takeSense, kept_setDoms, kept_toHub, kept_pulseEnd, kept_latchSums, kept_errLatch, kept_attributeAll, kept_latchEnergy, kept_now, kept_stationLatch]; done)
  | ((try dsimp only) <;> (repeat' split) <;> simp only [kept_next, kept_fault, kept_refused, kept_mk, kept_eta, apply_ite kept, ite_self, foldl_kept, foldDoms_kept, kept_takeSense, kept_setDoms, kept_toHub, kept_pulseEnd, kept_latchSums, kept_errLatch, kept_attributeAll, kept_latchEnergy, kept_now, kept_stationLatch]; done)
  | ((try dsimp only) <;> (repeat' split) <;> simp [kept_next, kept_fault, kept_refused, kept_mk, kept_eta, apply_ite kept, ite_self, foldl_kept, foldDoms_kept, kept_takeSense, kept_setDoms, kept_toHub, kept_pulseEnd, kept_latchSums, kept_errLatch, kept_attributeAll, kept_latchEnergy, kept_now, kept_stationLatch])
theorem kept_execFrameStart (x0 : Nat) (s : State) : Kept s (execFrameStart x0 s) := by
  unfold execFrameStart
  first
  | (simp only [kept_next, kept_fault, kept_refused, kept_mk, kept_eta, apply_ite kept, ite_self, foldl_kept, foldDoms_kept, kept_domFrame, kept_siteFrame, kept_setDoms, kept_pulseStart, kept_stationFrame, kept_domArb, kept_frameInputs, kept_laneTakeover, kept_now, kept_markLost, kept_forwardReports, kept_waveCapture, kept_domCount]; done)
  | ((try dsimp only) <;> (repeat' split) <;> simp only [kept_next, kept_fault, kept_refused, kept_mk, kept_eta, apply_ite kept, ite_self, foldl_kept, foldDoms_kept, kept_domFrame, kept_siteFrame, kept_setDoms, kept_pulseStart, kept_stationFrame, kept_domArb, kept_frameInputs, kept_laneTakeover, kept_now, kept_markLost, kept_forwardReports, kept_waveCapture, kept_domCount]; done)
  | ((try dsimp only) <;> (repeat' split) <;> simp [kept_next, kept_fault, kept_refused, kept_mk, kept_eta, apply_ite kept, ite_self, foldl_kept, foldDoms_kept, kept_domFrame, kept_siteFrame, kept_setDoms, kept_pulseStart, kept_stationFrame, kept_domArb, kept_frameInputs, kept_laneTakeover, kept_now, kept_markLost, kept_forwardReports, kept_waveCapture, kept_domCount])
theorem kept_execFreqAck (x0 : Site) (x1 : Nat) (s : State) : Kept s (execFreqAck x0 x1 s) := by
  unfold execFreqAck
  first
  | (simp only [kept_next, kept_fault, kept_refused, kept_mk, kept_eta, apply_ite kept, ite_self, foldl_kept, foldDoms_kept, kept_now, kept_setTile]; done)
  | ((try dsimp only) <;> (repeat' split) <;> simp only [kept_next, kept_fault, kept_refused, kept_mk, kept_eta, apply_ite kept, ite_self, foldl_kept, foldDoms_kept, kept_now, kept_setTile]; done)
  | ((try dsimp only) <;> (repeat' split) <;> simp [kept_next, kept_fault, kept_refused, kept_mk, kept_eta, apply_ite kept, ite_self, foldl_kept, foldDoms_kept, kept_now, kept_setTile])
theorem kept_execFreqDeferTimeout (x0 : Site) (x1 : Nat) (s : State) : Kept s (execFreqDeferTimeout x0 x1 s) := by
  unfold execFreqDeferTimeout
  first
  | (simp only [kept_next, kept_fault, kept_refused, kept_mk, kept_eta, apply_ite kept, ite_self, foldl_kept, foldDoms_kept, kept_withdrawChange, kept_now]; done)
  | ((try dsimp only) <;> (repeat' split) <;> simp only [kept_next, kept_fault, kept_refused, kept_mk, kept_eta, apply_ite kept, ite_self, foldl_kept, foldDoms_kept, kept_withdrawChange, kept_now]; done)
  | ((try dsimp only) <;> (repeat' split) <;> simp [kept_next, kept_fault, kept_refused, kept_mk, kept_eta, apply_ite kept, ite_self, foldl_kept, foldDoms_kept, kept_withdrawChange, kept_now])
theorem kept_execFreqRdy (x0 : Site) (x1 : Nat) (s : State) : Kept s (execFreqRdy x0 x1 s) := by
  unfold execFreqRdy
  first
  | (simp only [kept_next, kept_fault, kept_refused, kept_mk, kept_eta, apply_ite kept, ite_self, foldl_kept, foldDoms_kept, kept_now, kept_setTile]; done)
  | ((try dsimp only) <;> (repeat' split) <;> simp only [kept_next, kept_fault, kept_refused, kept_mk, kept_eta, apply_ite kept, ite_self, foldl_kept, foldDoms_kept, kept_now, kept_setTile]; done)
  | ((try dsimp only) <;> (repeat' split) <;> simp [kept_next, kept_fault, kept_refused, kept_mk, kept_eta, apply_ite kept, ite_self, foldl_kept, foldDoms_kept, kept_now, kept_setTile])
theorem kept_execFreqWithdraw (x0 : Site) (x1 : Nat) (s : State) : Kept s (execFreqWithdraw x0 x1 s) := by
  unfold execFreqWithdraw
  first
  | (simp only [kept_next, kept_fault, kept_refused, kept_mk, kept_eta, apply_ite kept, ite_self, foldl_kept, foldDoms_kept, kept_withdrawChange, kept_now]; done)
  | ((try dsimp only) <;> (repeat' split) <;> simp only [kept_next, kept_fault, kept_refused, kept_mk, kept_eta, apply_ite kept, ite_self, foldl_kept, foldDoms_kept, kept_withdrawChange, kept_now]; done)
  | ((try dsimp only) <;> (repeat' split) <;> simp [kept_next, kept_fault, kept_refused, kept_mk, kept_eta, apply_ite kept, ite_self, foldl_kept, foldDoms_kept, kept_withdrawChange, kept_now])
theorem kept_execBindModel (x0 : Desc) (s : State) : Kept s (execBindModel x0 s) := by
  unfold execBindModel
  first
  | (simp only [kept_next, kept_fault, kept_refused, kept_mk, kept_eta, apply_ite kept, ite_self, foldl_kept, foldDoms_kept, kept_fetchAs]; done)
  | ((try dsimp only) <;> (repeat' split) <;> simp only [kept_next, kept_fault, kept_refused, kept_mk, kept_eta, apply_ite kept, ite_self, foldl_kept, foldDoms_kept, kept_fetchAs]; done)
  | ((try dsimp only) <;> (repeat' split) <;> simp [kept_next, kept_fault, kept_refused, kept_mk, kept_eta, apply_ite kept, ite_self, foldl_kept, foldDoms_kept, kept_fetchAs])
theorem kept_execBindProgram (x0 : Desc) (s : State) : Kept s (execBindProgram x0 s) := by
  unfold execBindProgram
  first
  | (simp only [kept_next, kept_fault, kept_refused, kept_mk, kept_eta, apply_ite kept, ite_self, foldl_kept, foldDoms_kept, kept_fetchAs]; done)
  | ((try dsimp only) <;> (repeat' split) <;> simp only [kept_next, kept_fault, kept_refused, kept_mk, kept_eta, apply_ite kept, ite_self, foldl_kept, foldDoms_kept, kept_fetchAs]; done)
  | ((try dsimp only) <;> (repeat' split) <;> simp [kept_next, kept_fault, kept_refused, kept_mk, kept_eta, apply_ite kept, ite_self, foldl_kept, foldDoms_kept, kept_fetchAs])
theorem kept_execBudgetCap (x0 : Desc) (s : State) : Kept s (execBudgetCap x0 s) := by
  unfold execBudgetCap
  first
  | (simp only [kept_next, kept_fault, kept_refused, kept_mk, kept_eta, apply_ite kept, ite_self, foldl_kept, foldDoms_kept, kept_fetchAs]; done)
  | ((try dsimp only) <;> (repeat' split) <;> simp only [kept_next, kept_fault, kept_refused, kept_mk, kept_eta, apply_ite kept, ite_self, foldl_kept, foldDoms_kept, kept_fetchAs]; done)
  | ((try dsimp only) <;> (repeat' split) <;> simp [kept_next, kept_fault, kept_refused, kept_mk, kept_eta, apply_ite kept, ite_self, foldl_kept, foldDoms_kept, kept_fetchAs])
theorem kept_execBudgetSet (x0 : Desc) (s : State) : Kept s (execBudgetSet x0 s) := by
  unfold execBudgetSet
  first
  | (simp only [kept_next, kept_fault, kept_refused, kept_mk, kept_eta, apply_ite kept, ite_self, foldl_kept, foldDoms_kept, kept_fetchAs]; done)
  | ((try dsimp only) <;> (repeat' split) <;> simp only [kept_next, kept_fault, kept_refused, kept_mk, kept_eta, apply_ite kept, ite_self, foldl_kept, foldDoms_kept, kept_fetchAs]; done)
  | ((try dsimp only) <;> (repeat' split) <;> simp [kept_next, kept_fault, kept_refused, kept_mk, kept_eta, apply_ite kept, ite_self, foldl_kept, foldDoms_kept, kept_fetchAs])
theorem kept_execBulkFetchDone (x0 : PortNo) (x1 : BitVec 16) (x2 : Bulk) (x3 : Nat) (s : State) : Kept s (execBulkFetchDone x0 x1 x2 x3 s) := by
  unfold execBulkFetchDone
  first
  | (simp only [kept_next, kept_fault, kept_refused, kept_mk, kept_eta, apply_ite kept, ite_self, foldl_kept, foldDoms_kept, kept_bulkError, kept_now, kept_acceptAll, kept_bulkCheck]; done)
  | ((try dsimp only) <;> (repeat' split) <;> simp only [kept_next, kept_fault, kept_refused, kept_mk, kept_eta, apply_ite kept, ite_self, foldl_kept, foldDoms_kept, kept_bulkError, kept_now, kept_acceptAll, kept_bulkCheck]; done)
  | ((try dsimp only) <;> (repeat' split) <;> simp [kept_next, kept_fault, kept_refused, kept_mk, kept_eta, apply_ite kept, ite_self, foldl_kept, foldDoms_kept, kept_bulkError, kept_now, kept_acceptAll, kept_bulkCheck])
theorem kept_execCharLoad (x0 : Desc) (s : State) : Kept s (execCharLoad x0 s) := by
  unfold execCharLoad
  first
  | (simp only [kept_next, kept_fault, kept_refused, kept_mk, kept_eta, apply_ite kept, ite_self, foldl_kept, foldDoms_kept, kept_fetchAs]; done)
  | ((try dsimp only) <;> (repeat' split) <;> simp only [kept_next, kept_fault, kept_refused, kept_mk, kept_eta, apply_ite kept, ite_self, foldl_kept, foldDoms_kept, kept_fetchAs]; done)
  | ((try dsimp only) <;> (repeat' split) <;> simp [kept_next, kept_fault, kept_refused, kept_mk, kept_eta, apply_ite kept, ite_self, foldl_kept, foldDoms_kept, kept_fetchAs])
theorem kept_execDomCellmap (x0 : Desc) (s : State) : Kept s (execDomCellmap x0 s) := by
  unfold execDomCellmap
  first
  | (simp only [kept_next, kept_fault, kept_refused, kept_mk, kept_eta, apply_ite kept, ite_self, foldl_kept, foldDoms_kept, kept_fetchAs]; done)
  | ((try dsimp only) <;> (repeat' split) <;> simp only [kept_next, kept_fault, kept_refused, kept_mk, kept_eta, apply_ite kept, ite_self, foldl_kept, foldDoms_kept, kept_fetchAs]; done)
  | ((try dsimp only) <;> (repeat' split) <;> simp [kept_next, kept_fault, kept_refused, kept_mk, kept_eta, apply_ite kept, ite_self, foldl_kept, foldDoms_kept, kept_fetchAs])
theorem kept_execDomFreq (x0 : Desc) (s : State) : Kept s (execDomFreq x0 s) := by
  unfold execDomFreq
  first
  | (simp only [kept_next, kept_fault, kept_refused, kept_mk, kept_eta, apply_ite kept, ite_self, foldl_kept, foldDoms_kept, kept_fetchAs]; done)
  | ((try dsimp only) <;> (repeat' split) <;> simp only [kept_next, kept_fault, kept_refused, kept_mk, kept_eta, apply_ite kept, ite_self, foldl_kept, foldDoms_kept, kept_fetchAs]; done)
  | ((try dsimp only) <;> (repeat' split) <;> simp [kept_next, kept_fault, kept_refused, kept_mk, kept_eta, apply_ite kept, ite_self, foldl_kept, foldDoms_kept, kept_fetchAs])
theorem kept_execDomLimits (x0 : Desc) (s : State) : Kept s (execDomLimits x0 s) := by
  unfold execDomLimits
  first
  | (simp only [kept_next, kept_fault, kept_refused, kept_mk, kept_eta, apply_ite kept, ite_self, foldl_kept, foldDoms_kept, kept_fetchAs]; done)
  | ((try dsimp only) <;> (repeat' split) <;> simp only [kept_next, kept_fault, kept_refused, kept_mk, kept_eta, apply_ite kept, ite_self, foldl_kept, foldDoms_kept, kept_fetchAs]; done)
  | ((try dsimp only) <;> (repeat' split) <;> simp [kept_next, kept_fault, kept_refused, kept_mk, kept_eta, apply_ite kept, ite_self, foldl_kept, foldDoms_kept, kept_fetchAs])
theorem kept_execDomPair (x0 : Desc) (s : State) : Kept s (execDomPair x0 s) := by
  unfold execDomPair
  first
  | (simp only [kept_next, kept_fault, kept_refused, kept_mk, kept_eta, apply_ite kept, ite_self, foldl_kept, foldDoms_kept, kept_fetchAs]; done)
  | ((try dsimp only) <;> (repeat' split) <;> simp only [kept_next, kept_fault, kept_refused, kept_mk, kept_eta, apply_ite kept, ite_self, foldl_kept, foldDoms_kept, kept_fetchAs]; done)
  | ((try dsimp only) <;> (repeat' split) <;> simp [kept_next, kept_fault, kept_refused, kept_mk, kept_eta, apply_ite kept, ite_self, foldl_kept, foldDoms_kept, kept_fetchAs])
theorem kept_execDomState (x0 : Desc) (s : State) : Kept s (execDomState x0 s) := by
  unfold execDomState
  first
  | (simp only [kept_next, kept_fault, kept_refused, kept_mk, kept_eta, apply_ite kept, ite_self, foldl_kept, foldDoms_kept, kept_fetchAs]; done)
  | ((try dsimp only) <;> (repeat' split) <;> simp only [kept_next, kept_fault, kept_refused, kept_mk, kept_eta, apply_ite kept, ite_self, foldl_kept, foldDoms_kept, kept_fetchAs]; done)
  | ((try dsimp only) <;> (repeat' split) <;> simp [kept_next, kept_fault, kept_refused, kept_mk, kept_eta, apply_ite kept, ite_self, foldl_kept, foldDoms_kept, kept_fetchAs])
theorem kept_execDomTarget (x0 : Desc) (s : State) : Kept s (execDomTarget x0 s) := by
  unfold execDomTarget
  first
  | (simp only [kept_next, kept_fault, kept_refused, kept_mk, kept_eta, apply_ite kept, ite_self, foldl_kept, foldDoms_kept, kept_fetchAs]; done)
  | ((try dsimp only) <;> (repeat' split) <;> simp only [kept_next, kept_fault, kept_refused, kept_mk, kept_eta, apply_ite kept, ite_self, foldl_kept, foldDoms_kept, kept_fetchAs]; done)
  | ((try dsimp only) <;> (repeat' split) <;> simp [kept_next, kept_fault, kept_refused, kept_mk, kept_eta, apply_ite kept, ite_self, foldl_kept, foldDoms_kept, kept_fetchAs])
theorem kept_execDomUnpair (x0 : Desc) (s : State) : Kept s (execDomUnpair x0 s) := by
  unfold execDomUnpair
  first
  | (simp only [kept_next, kept_fault, kept_refused, kept_mk, kept_eta, apply_ite kept, ite_self, foldl_kept, foldDoms_kept, kept_fetchAs]; done)
  | ((try dsimp only) <;> (repeat' split) <;> simp only [kept_next, kept_fault, kept_refused, kept_mk, kept_eta, apply_ite kept, ite_self, foldl_kept, foldDoms_kept, kept_fetchAs]; done)
  | ((try dsimp only) <;> (repeat' split) <;> simp [kept_next, kept_fault, kept_refused, kept_mk, kept_eta, apply_ite kept, ite_self, foldl_kept, foldDoms_kept, kept_fetchAs])
theorem kept_execGroupTimeout (x0 : PortNo) (x1 : Nat) (s : State) : Kept s (execGroupTimeout x0 x1 s) := by
  unfold execGroupTimeout
  first
  | (simp only [kept_next, kept_fault, kept_refused, kept_mk, kept_eta, apply_ite kept, ite_self, foldl_kept, foldDoms_kept, kept_now, kept_acceptAll, kept_cutGroup]; done)
  | ((try dsimp only) <;> (repeat' split) <;> simp only [kept_next, kept_fault, kept_refused, kept_mk, kept_eta, apply_ite kept, ite_self, foldl_kept, foldDoms_kept, kept_now, kept_acceptAll, kept_cutGroup]; done)
  | ((try dsimp only) <;> (repeat' split) <;> simp [kept_next, kept_fault, kept_refused, kept_mk, kept_eta, apply_ite kept, ite_self, foldl_kept, foldDoms_kept, kept_now, kept_acceptAll, kept_cutGroup])
theorem kept_execHintPhase (x0 : Desc) (s : State) : Kept s (execHintPhase x0 s) := by
  unfold execHintPhase
  first
  | (simp only [kept_next, kept_fault, kept_refused, kept_mk, kept_eta, apply_ite kept, ite_self, foldl_kept, foldDoms_kept, kept_fetchAs]; done)
  | ((try dsimp only) <;> (repeat' split) <;> simp only [kept_next, kept_fault, kept_refused, kept_mk, kept_eta, apply_ite kept, ite_self, foldl_kept, foldDoms_kept, kept_fetchAs]; done)
  | ((try dsimp only) <;> (repeat' split) <;> simp [kept_next, kept_fault, kept_refused, kept_mk, kept_eta, apply_ite kept, ite_self, foldl_kept, foldDoms_kept, kept_fetchAs])
theorem kept_execJobAlign (x0 : Desc) (s : State) : Kept s (execJobAlign x0 s) := by
  unfold execJobAlign
  first
  | (simp only [kept_next, kept_fault, kept_refused, kept_mk, kept_eta, apply_ite kept, ite_self, foldl_kept, foldDoms_kept, kept_fetchAs]; done)
  | ((try dsimp only) <;> (repeat' split) <;> simp only [kept_next, kept_fault, kept_refused, kept_mk, kept_eta, apply_ite kept, ite_self, foldl_kept, foldDoms_kept, kept_fetchAs]; done)
  | ((try dsimp only) <;> (repeat' split) <;> simp [kept_next, kept_fault, kept_refused, kept_mk, kept_eta, apply_ite kept, ite_self, foldl_kept, foldDoms_kept, kept_fetchAs])
theorem kept_execLendPolicy (x0 : Desc) (s : State) : Kept s (execLendPolicy x0 s) := by
  unfold execLendPolicy
  first
  | (simp only [kept_next, kept_fault, kept_refused, kept_mk, kept_eta, apply_ite kept, ite_self, foldl_kept, foldDoms_kept, kept_fetchAs]; done)
  | ((try dsimp only) <;> (repeat' split) <;> simp only [kept_next, kept_fault, kept_refused, kept_mk, kept_eta, apply_ite kept, ite_self, foldl_kept, foldDoms_kept, kept_fetchAs]; done)
  | ((try dsimp only) <;> (repeat' split) <;> simp [kept_next, kept_fault, kept_refused, kept_mk, kept_eta, apply_ite kept, ite_self, foldl_kept, foldDoms_kept, kept_fetchAs])
theorem kept_execLoadModel (x0 : Desc) (s : State) : Kept s (execLoadModel x0 s) := by
  unfold execLoadModel
  first
  | (simp only [kept_next, kept_fault, kept_refused, kept_mk, kept_eta, apply_ite kept, ite_self, foldl_kept, foldDoms_kept, kept_fetchAs]; done)
  | ((try dsimp only) <;> (repeat' split) <;> simp only [kept_next, kept_fault, kept_refused, kept_mk, kept_eta, apply_ite kept, ite_self, foldl_kept, foldDoms_kept, kept_fetchAs]; done)
  | ((try dsimp only) <;> (repeat' split) <;> simp [kept_next, kept_fault, kept_refused, kept_mk, kept_eta, apply_ite kept, ite_self, foldl_kept, foldDoms_kept, kept_fetchAs])
theorem kept_execLoadProgram (x0 : Desc) (s : State) : Kept s (execLoadProgram x0 s) := by
  unfold execLoadProgram
  first
  | (simp only [kept_next, kept_fault, kept_refused, kept_mk, kept_eta, apply_ite kept, ite_self, foldl_kept, foldDoms_kept, kept_fetchAs]; done)
  | ((try dsimp only) <;> (repeat' split) <;> simp only [kept_next, kept_fault, kept_refused, kept_mk, kept_eta, apply_ite kept, ite_self, foldl_kept, foldDoms_kept, kept_fetchAs]; done)
  | ((try dsimp only) <;> (repeat' split) <;> simp [kept_next, kept_fault, kept_refused, kept_mk, kept_eta, apply_ite kept, ite_self, foldl_kept, foldDoms_kept, kept_fetchAs])
theorem kept_execLogMark (x0 : Desc) (s : State) : Kept s (execLogMark x0 s) := by
  unfold execLogMark
  first
  | (simp only [kept_next, kept_fault, kept_refused, kept_mk, kept_eta, apply_ite kept, ite_self, foldl_kept, foldDoms_kept, kept_fetchAs]; done)
  | ((try dsimp only) <;> (repeat' split) <;> simp only [kept_next, kept_fault, kept_refused, kept_mk, kept_eta, apply_ite kept, ite_self, foldl_kept, foldDoms_kept, kept_fetchAs]; done)
  | ((try dsimp only) <;> (repeat' split) <;> simp [kept_next, kept_fault, kept_refused, kept_mk, kept_eta, apply_ite kept, ite_self, foldl_kept, foldDoms_kept, kept_fetchAs])
theorem kept_execLogRead (x0 : Desc) (s : State) : Kept s (execLogRead x0 s) := by
  unfold execLogRead
  first
  | (simp only [kept_next, kept_fault, kept_refused, kept_mk, kept_eta, apply_ite kept, ite_self, foldl_kept, foldDoms_kept, kept_fetchAs]; done)
  | ((try dsimp only) <;> (repeat' split) <;> simp only [kept_next, kept_fault, kept_refused, kept_mk, kept_eta, apply_ite kept, ite_self, foldl_kept, foldDoms_kept, kept_fetchAs]; done)
  | ((try dsimp only) <;> (repeat' split) <;> simp [kept_next, kept_fault, kept_refused, kept_mk, kept_eta, apply_ite kept, ite_self, foldl_kept, foldDoms_kept, kept_fetchAs])
theorem kept_execNop (x0 : Desc) (s : State) : Kept s (execNop x0 s) := by
  unfold execNop
  first
  | (simp only [kept_next, kept_fault, kept_refused, kept_mk, kept_eta, apply_ite kept, ite_self, foldl_kept, foldDoms_kept, kept_fetchAs]; done)
  | ((try dsimp only) <;> (repeat' split) <;> simp only [kept_next, kept_fault, kept_refused, kept_mk, kept_eta, apply_ite kept, ite_self, foldl_kept, foldDoms_kept, kept_fetchAs]; done)
  | ((try dsimp only) <;> (repeat' split) <;> simp [kept_next, kept_fault, kept_refused, kept_mk, kept_eta, apply_ite kept, ite_self, foldl_kept, foldDoms_kept, kept_fetchAs])
theorem kept_execNorReadDone (x0 : PortNo) (x1 : List (Nat × List Byte)) (x2 : S0Read) (x3 : Nat) (s : State) : Kept s (execNorReadDone x0 x1 x2 x3 s) := by
  unfold execNorReadDone
  first
  | (simp only [kept_next, kept_fault, kept_refused, kept_mk, kept_eta, apply_ite kept, ite_self, foldl_kept, foldDoms_kept, kept_endLogRead, kept_endCharLoad, kept_now, kept_acceptAll]; done)
  | ((try dsimp only) <;> (repeat' split) <;> simp only [kept_next, kept_fault, kept_refused, kept_mk, kept_eta, apply_ite kept, ite_self, foldl_kept, foldDoms_kept, kept_endLogRead, kept_endCharLoad, kept_now, kept_acceptAll]; done)
  | ((try dsimp only) <;> (repeat' split) <;> simp [kept_next, kept_fault, kept_refused, kept_mk, kept_eta, apply_ite kept, ite_self, foldl_kept, foldDoms_kept, kept_endLogRead, kept_endCharLoad, kept_now, kept_acceptAll])
theorem kept_execPortQuiesce (x0 : Desc) (s : State) : Kept s (execPortQuiesce x0 s) := by
  unfold execPortQuiesce
  first
  | (simp only [kept_next, kept_fault, kept_refused, kept_mk, kept_eta, apply_ite kept, ite_self, foldl_kept, foldDoms_kept, kept_fetchAs]; done)
  | ((try dsimp only) <;> (repeat' split) <;> simp only [kept_next, kept_fault, kept_refused, kept_mk, kept_eta, apply_ite kept, ite_self, foldl_kept, foldDoms_kept, kept_fetchAs]; done)
  | ((try dsimp only) <;> (repeat' split) <;> simp [kept_next, kept_fault, kept_refused, kept_mk, kept_eta, apply_ite kept, ite_self, foldl_kept, foldDoms_kept, kept_fetchAs])
theorem kept_execRcConfig (x0 : Desc) (s : State) : Kept s (execRcConfig x0 s) := by
  unfold execRcConfig
  first
  | (simp only [kept_next, kept_fault, kept_refused, kept_mk, kept_eta, apply_ite kept, ite_self, foldl_kept, foldDoms_kept, kept_fetchAs]; done)
  | ((try dsimp only) <;> (repeat' split) <;> simp only [kept_next, kept_fault, kept_refused, kept_mk, kept_eta, apply_ite kept, ite_self, foldl_kept, foldDoms_kept, kept_fetchAs]; done)
  | ((try dsimp only) <;> (repeat' split) <;> simp [kept_next, kept_fault, kept_refused, kept_mk, kept_eta, apply_ite kept, ite_self, foldl_kept, foldDoms_kept, kept_fetchAs])
theorem kept_execRcReset (x0 : Desc) (s : State) : Kept s (execRcReset x0 s) := by
  unfold execRcReset
  first
  | (simp only [kept_next, kept_fault, kept_refused, kept_mk, kept_eta, apply_ite kept, ite_self, foldl_kept, foldDoms_kept, kept_fetchAs]; done)
  | ((try dsimp only) <;> (repeat' split) <;> simp only [kept_next, kept_fault, kept_refused, kept_mk, kept_eta, apply_ite kept, ite_self, foldl_kept, foldDoms_kept, kept_fetchAs]; done)
  | ((try dsimp only) <;> (repeat' split) <;> simp [kept_next, kept_fault, kept_refused, kept_mk, kept_eta, apply_ite kept, ite_self, foldl_kept, foldDoms_kept, kept_fetchAs])
theorem kept_execRightsSet (x0 : Desc) (s : State) : Kept s (execRightsSet x0 s) := by
  unfold execRightsSet
  first
  | (simp only [kept_next, kept_fault, kept_refused, kept_mk, kept_eta, apply_ite kept, ite_self, foldl_kept, foldDoms_kept, kept_fetchAs]; done)
  | ((try dsimp only) <;> (repeat' split) <;> simp only [kept_next, kept_fault, kept_refused, kept_mk, kept_eta, apply_ite kept, ite_self, foldl_kept, foldDoms_kept, kept_fetchAs]; done)
  | ((try dsimp only) <;> (repeat' split) <;> simp [kept_next, kept_fault, kept_refused, kept_mk, kept_eta, apply_ite kept, ite_self, foldl_kept, foldDoms_kept, kept_fetchAs])
theorem kept_execSelftest (x0 : Desc) (s : State) : Kept s (execSelftest x0 s) := by
  unfold execSelftest
  first
  | (simp only [kept_next, kept_fault, kept_refused, kept_mk, kept_eta, apply_ite kept, ite_self, foldl_kept, foldDoms_kept, kept_fetchAs]; done)
  | ((try dsimp only) <;> (repeat' split) <;> simp only [kept_next, kept_fault, kept_refused, kept_mk, kept_eta, apply_ite kept, ite_self, foldl_kept, foldDoms_kept, kept_fetchAs]; done)
  | ((try dsimp only) <;> (repeat' split) <;> simp [kept_next, kept_fault, kept_refused, kept_mk, kept_eta, apply_ite kept, ite_self, foldl_kept, foldDoms_kept, kept_fetchAs])
theorem kept_execSieveStart (x0 : Desc) (s : State) : Kept s (execSieveStart x0 s) := by
  unfold execSieveStart
  first
  | (simp only [kept_next, kept_fault, kept_refused, kept_mk, kept_eta, apply_ite kept, ite_self, foldl_kept, foldDoms_kept, kept_fetchAs]; done)
  | ((try dsimp only) <;> (repeat' split) <;> simp only [kept_next, kept_fault, kept_refused, kept_mk, kept_eta, apply_ite kept, ite_self, foldl_kept, foldDoms_kept, kept_fetchAs]; done)
  | ((try dsimp only) <;> (repeat' split) <;> simp [kept_next, kept_fault, kept_refused, kept_mk, kept_eta, apply_ite kept, ite_self, foldl_kept, foldDoms_kept, kept_fetchAs])
theorem kept_execSieveStop (x0 : Desc) (s : State) : Kept s (execSieveStop x0 s) := by
  unfold execSieveStop
  first
  | (simp only [kept_next, kept_fault, kept_refused, kept_mk, kept_eta, apply_ite kept, ite_self, foldl_kept, foldDoms_kept, kept_fetchAs]; done)
  | ((try dsimp only) <;> (repeat' split) <;> simp only [kept_next, kept_fault, kept_refused, kept_mk, kept_eta, apply_ite kept, ite_self, foldl_kept, foldDoms_kept, kept_fetchAs]; done)
  | ((try dsimp only) <;> (repeat' split) <;> simp [kept_next, kept_fault, kept_refused, kept_mk, kept_eta, apply_ite kept, ite_self, foldl_kept, foldDoms_kept, kept_fetchAs])
theorem kept_execSnapshot (x0 : Desc) (s : State) : Kept s (execSnapshot x0 s) := by
  unfold execSnapshot
  first
  | (simp only [kept_next, kept_fault, kept_refused, kept_mk, kept_eta, apply_ite kept, ite_self, foldl_kept, foldDoms_kept, kept_fetchAs]; done)
  | ((try dsimp only) <;> (repeat' split) <;> simp only [kept_next, kept_fault, kept_refused, kept_mk, kept_eta, apply_ite kept, ite_self, foldl_kept, foldDoms_kept, kept_fetchAs]; done)
  | ((try dsimp only) <;> (repeat' split) <;> simp [kept_next, kept_fault, kept_refused, kept_mk, kept_eta, apply_ite kept, ite_self, foldl_kept, foldDoms_kept, kept_fetchAs])
theorem kept_execStepMark (x0 : Desc) (s : State) : Kept s (execStepMark x0 s) := by
  unfold execStepMark
  first
  | (simp only [kept_next, kept_fault, kept_refused, kept_mk, kept_eta, apply_ite kept, ite_self, foldl_kept, foldDoms_kept, kept_fetchAs]; done)
  | ((try dsimp only) <;> (repeat' split) <;> simp only [kept_next, kept_fault, kept_refused, kept_mk, kept_eta, apply_ite kept, ite_self, foldl_kept, foldDoms_kept, kept_fetchAs]; done)
  | ((try dsimp only) <;> (repeat' split) <;> simp [kept_next, kept_fault, kept_refused, kept_mk, kept_eta, apply_ite kept, ite_self, foldl_kept, foldDoms_kept, kept_fetchAs])
theorem kept_execTraceConfig (x0 : Desc) (s : State) : Kept s (execTraceConfig x0 s) := by
  unfold execTraceConfig
  first
  | (simp only [kept_next, kept_fault, kept_refused, kept_mk, kept_eta, apply_ite kept, ite_self, foldl_kept, foldDoms_kept, kept_fetchAs]; done)
  | ((try dsimp only) <;> (repeat' split) <;> simp only [kept_next, kept_fault, kept_refused, kept_mk, kept_eta, apply_ite kept, ite_self, foldl_kept, foldDoms_kept, kept_fetchAs]; done)
  | ((try dsimp only) <;> (repeat' split) <;> simp [kept_next, kept_fault, kept_refused, kept_mk, kept_eta, apply_ite kept, ite_self, foldl_kept, foldDoms_kept, kept_fetchAs])
theorem kept_execWatchArm (x0 : Desc) (s : State) : Kept s (execWatchArm x0 s) := by
  unfold execWatchArm
  first
  | (simp only [kept_next, kept_fault, kept_refused, kept_mk, kept_eta, apply_ite kept, ite_self, foldl_kept, foldDoms_kept, kept_fetchAs]; done)
  | ((try dsimp only) <;> (repeat' split) <;> simp only [kept_next, kept_fault, kept_refused, kept_mk, kept_eta, apply_ite kept, ite_self, foldl_kept, foldDoms_kept, kept_fetchAs]; done)
  | ((try dsimp only) <;> (repeat' split) <;> simp [kept_next, kept_fault, kept_refused, kept_mk, kept_eta, apply_ite kept, ite_self, foldl_kept, foldDoms_kept, kept_fetchAs])
theorem kept_execWatchCancel (x0 : Desc) (s : State) : Kept s (execWatchCancel x0 s) := by
  unfold execWatchCancel
  first
  | (simp only [kept_next, kept_fault, kept_refused, kept_mk, kept_eta, apply_ite kept, ite_self, foldl_kept, foldDoms_kept, kept_fetchAs]; done)
  | ((try dsimp only) <;> (repeat' split) <;> simp only [kept_next, kept_fault, kept_refused, kept_mk, kept_eta, apply_ite kept, ite_self, foldl_kept, foldDoms_kept, kept_fetchAs]; done)
  | ((try dsimp only) <;> (repeat' split) <;> simp [kept_next, kept_fault, kept_refused, kept_mk, kept_eta, apply_ite kept, ite_self, foldl_kept, foldDoms_kept, kept_fetchAs])
theorem kept_execLanternInterval (x0 : Nat) (x1 : List InfFault) (s : State) : Kept s (execLanternInterval x0 x1 s) := by
  unfold execLanternInterval
  first
  | (simp only [kept_next, kept_fault, kept_refused, kept_mk, kept_eta, apply_ite kept, ite_self, foldl_kept, foldDoms_kept, kept_inferDomain, kept_now]; done)
  | ((try dsimp only) <;> (repeat' split) <;> simp only [kept_next, kept_fault, kept_refused, kept_mk, kept_eta, apply_ite kept, ite_self, foldl_kept, foldDoms_kept, kept_inferDomain, kept_now]; done)
  | ((try dsimp only) <;> (repeat' split) <;> simp [kept_next, kept_fault, kept_refused, kept_mk, kept_eta, apply_ite kept, ite_self, foldl_kept, foldDoms_kept, kept_inferDomain, kept_now])
theorem kept_execLanternWindowEnd (x0 : Nat) (s : State) : Kept s (execLanternWindowEnd x0 s) := by
  unfold execLanternWindowEnd
  first
  | (simp only [kept_next, kept_fault, kept_refused, kept_mk, kept_eta, apply_ite kept, ite_self, foldl_kept, foldDoms_kept, kept_now, kept_judgeWindow]; done)
  | ((try dsimp only) <;> (repeat' split) <;> simp only [kept_next, kept_fault, kept_refused, kept_mk, kept_eta, apply_ite kept, ite_self, foldl_kept, foldDoms_kept, kept_now, kept_judgeWindow]; done)
  | ((try dsimp only) <;> (repeat' split) <;> simp [kept_next, kept_fault, kept_refused, kept_mk, kept_eta, apply_ite kept, ite_self, foldl_kept, foldDoms_kept, kept_now, kept_judgeWindow])
theorem kept_execLinkDownFrame (x0 : Fin 5) (x1 : LinkRx 1600) (x2 : Nat) (s : State) : Kept s (execLinkDownFrame x0 x1 x2 s) := by
  unfold execLinkDownFrame
  first
  | (simp only [kept_next, kept_fault, kept_refused, kept_mk, kept_eta, apply_ite kept, ite_self, foldl_kept, foldDoms_kept, kept_takeOwn, kept_setLink, kept_now, kept_downCut, kept_downGood, kept_downBadFrame]; done)
  | ((try dsimp only) <;> (repeat' split) <;> simp only [kept_next, kept_fault, kept_refused, kept_mk, kept_eta, apply_ite kept, ite_self, foldl_kept, foldDoms_kept, kept_takeOwn, kept_setLink, kept_now, kept_downCut, kept_downGood, kept_downBadFrame]; done)
  | ((try dsimp only) <;> (repeat' split) <;> simp [kept_next, kept_fault, kept_refused, kept_mk, kept_eta, apply_ite kept, ite_self, foldl_kept, foldDoms_kept, kept_takeOwn, kept_setLink, kept_now, kept_downCut, kept_downGood, kept_downBadFrame])
theorem kept_execLinkLost (x0 : Fin 5) (x1 : Nat) (s : State) : Kept s (execLinkLost x0 x1 s) := by
  unfold execLinkLost
  first
  | (simp only [kept_next, kept_fault, kept_refused, kept_mk, kept_eta, apply_ite kept, ite_self, foldl_kept, foldDoms_kept, kept_linkFault, kept_setLink, kept_now, kept_holdUnlinked]; done)
  | ((try dsimp only) <;> (repeat' split) <;> simp only [kept_next, kept_fault, kept_refused, kept_mk, kept_eta, apply_ite kept, ite_self, foldl_kept, foldDoms_kept, kept_linkFault, kept_setLink, kept_now, kept_holdUnlinked]; done)
  | ((try dsimp only) <;> (repeat' split) <;> simp [kept_next, kept_fault, kept_refused, kept_mk, kept_eta, apply_ite kept, ite_self, foldl_kept, foldDoms_kept, kept_linkFault, kept_setLink, kept_now, kept_holdUnlinked])
theorem kept_execLinkRestored (x0 : Fin 5) (x1 : Nat) (s : State) : Kept s (execLinkRestored x0 x1 s) := by
  unfold execLinkRestored
  first
  | (simp only [kept_next, kept_fault, kept_refused, kept_mk, kept_eta, apply_ite kept, ite_self, foldl_kept, foldDoms_kept, kept_report, kept_setLink, kept_now]; done)
  | ((try dsimp only) <;> (repeat' split) <;> simp only [kept_next, kept_fault, kept_refused, kept_mk, kept_eta, apply_ite kept, ite_self, foldl_kept, foldDoms_kept, kept_report, kept_setLink, kept_now]; done)
  | ((try dsimp only) <;> (repeat' split) <;> simp [kept_next, kept_fault, kept_refused, kept_mk, kept_eta, apply_ite kept, ite_self, foldl_kept, foldDoms_kept, kept_report, kept_setLink, kept_now])
theorem kept_execLinkTrained (x0 : Fin 5) (x1 : Bool) (x2 : Nat) (x3 : Nat) (s : State) : Kept s (execLinkTrained x0 x1 x2 x3 s) := by
  unfold execLinkTrained
  first
  | (simp only [kept_next, kept_fault, kept_refused, kept_mk, kept_eta, apply_ite kept, ite_self, foldl_kept, foldDoms_kept, kept_setLink, kept_now]; done)
  | ((try dsimp only) <;> (repeat' split) <;> simp only [kept_next, kept_fault, kept_refused, kept_mk, kept_eta, apply_ite kept, ite_self, foldl_kept, foldDoms_kept, kept_setLink, kept_now]; done)
  | ((try dsimp only) <;> (repeat' split) <;> simp [kept_next, kept_fault, kept_refused, kept_mk, kept_eta, apply_ite kept, ite_self, foldl_kept, foldDoms_kept, kept_setLink, kept_now])
theorem kept_execLinkUpFrame (x0 : Fin 5) (x1 : LinkRx 3200) (x2 : Nat) (s : State) : Kept s (execLinkUpFrame x0 x1 x2 s) := by
  unfold execLinkUpFrame
  first
  | (simp only [kept_next, kept_fault, kept_refused, kept_mk, kept_eta, apply_ite kept, ite_self, foldl_kept, foldDoms_kept, kept_upBadFrame, kept_now, kept_upGood, kept_takeSums]; done)
  | ((try dsimp only) <;> (repeat' split) <;> simp only [kept_next, kept_fault, kept_refused, kept_mk, kept_eta, apply_ite kept, ite_self, foldl_kept, foldDoms_kept, kept_upBadFrame, kept_now, kept_upGood, kept_takeSums]; done)
  | ((try dsimp only) <;> (repeat' split) <;> simp [kept_next, kept_fault, kept_refused, kept_mk, kept_eta, apply_ite kept, ite_self, foldl_kept, foldDoms_kept, kept_upBadFrame, kept_now, kept_upGood, kept_takeSums])
theorem kept_execCalSelf (x0 : Word) (x1 : Nat) (s : State) : Kept s (execCalSelf x0 x1 s) := by
  unfold execCalSelf
  first
  | (simp only [kept_next, kept_fault, kept_refused, kept_mk, kept_eta, apply_ite kept, ite_self, foldl_kept, foldDoms_kept, kept_mtrRow]; done)
  | ((try dsimp only) <;> (repeat' split) <;> simp only [kept_next, kept_fault, kept_refused, kept_mk, kept_eta, apply_ite kept, ite_self, foldl_kept, foldDoms_kept, kept_mtrRow]; done)
  | ((try dsimp only) <;> (repeat' split) <;> simp [kept_next, kept_fault, kept_refused, kept_mk, kept_eta, apply_ite kept, ite_self, foldl_kept, foldDoms_kept, kept_mtrRow])
theorem kept_execCalSelfAll (x0 : Word) (x1 : Nat) (s : State) : Kept s (execCalSelfAll x0 x1 s) := by
  unfold execCalSelfAll
  first
  | (simp only [kept_next, kept_fault, kept_refused, kept_mk, kept_eta, apply_ite kept, ite_self, foldl_kept, foldDoms_kept, kept_mtrRow]; done)
  | ((try dsimp only) <;> (repeat' split) <;> simp only [kept_next, kept_fault, kept_refused, kept_mk, kept_eta, apply_ite kept, ite_self, foldl_kept, foldDoms_kept, kept_mtrRow]; done)
  | ((try dsimp only) <;> (repeat' split) <;> simp [kept_next, kept_fault, kept_refused, kept_mk, kept_eta, apply_ite kept, ite_self, foldl_kept, foldDoms_kept, kept_mtrRow])
theorem kept_execCalSystemFullScale (x0 : Word) (x1 : Nat) (s : State) : Kept s (execCalSystemFullScale x0 x1 s) := by
  unfold execCalSystemFullScale
  first
  | (simp only [kept_next, kept_fault, kept_refused, kept_mk, kept_eta, apply_ite kept, ite_self, foldl_kept, foldDoms_kept, kept_mtrRow]; done)
  | ((try dsimp only) <;> (repeat' split) <;> simp only [kept_next, kept_fault, kept_refused, kept_mk, kept_eta, apply_ite kept, ite_self, foldl_kept, foldDoms_kept, kept_mtrRow]; done)
  | ((try dsimp only) <;> (repeat' split) <;> simp [kept_next, kept_fault, kept_refused, kept_mk, kept_eta, apply_ite kept, ite_self, foldl_kept, foldDoms_kept, kept_mtrRow])
theorem kept_execCalSystemZero (x0 : Word) (x1 : Nat) (s : State) : Kept s (execCalSystemZero x0 x1 s) := by
  unfold execCalSystemZero
  first
  | (simp only [kept_next, kept_fault, kept_refused, kept_mk, kept_eta, apply_ite kept, ite_self, foldl_kept, foldDoms_kept, kept_mtrRow]; done)
  | ((try dsimp only) <;> (repeat' split) <;> simp only [kept_next, kept_fault, kept_refused, kept_mk, kept_eta, apply_ite kept, ite_self, foldl_kept, foldDoms_kept, kept_mtrRow]; done)
  | ((try dsimp only) <;> (repeat' split) <;> simp [kept_next, kept_fault, kept_refused, kept_mk, kept_eta, apply_ite kept, ite_self, foldl_kept, foldDoms_kept, kept_mtrRow])
theorem kept_execCalibrationDone (x0 : List CalRaw) (x1 : Nat) (s : State) : Kept s (execCalibrationDone x0 x1 s) := by
  unfold execCalibrationDone
  first
  | (simp only [kept_next, kept_fault, kept_refused, kept_mk, kept_eta, apply_ite kept, ite_self, foldl_kept, foldDoms_kept, kept_staleUpdate, kept_setMeter, kept_now, kept_calChannel]; done)
  | ((try dsimp only) <;> (repeat' split) <;> simp only [kept_next, kept_fault, kept_refused, kept_mk, kept_eta, apply_ite kept, ite_self, foldl_kept, foldDoms_kept, kept_staleUpdate, kept_setMeter, kept_now, kept_calChannel]; done)
  | ((try dsimp only) <;> (repeat' split) <;> simp [kept_next, kept_fault, kept_refused, kept_mk, kept_eta, apply_ite kept, ite_self, foldl_kept, foldDoms_kept, kept_staleUpdate, kept_setMeter, kept_now, kept_calChannel])
theorem kept_execMainsSyncEdge (x0 : Nat) (x1 : Nat) (s : State) : Kept s (execMainsSyncEdge x0 x1 s) := by
  unfold execMainsSyncEdge
  first
  | (simp only [kept_next, kept_fault, kept_refused, kept_mk, kept_eta, apply_ite kept, ite_self, foldl_kept, foldDoms_kept, kept_setMeter, kept_now]; done)
  | ((try dsimp only) <;> (repeat' split) <;> simp only [kept_next, kept_fault, kept_refused, kept_mk, kept_eta, apply_ite kept, ite_self, foldl_kept, foldDoms_kept, kept_setMeter, kept_now]; done)
  | ((try dsimp only) <;> (repeat' split) <;> simp [kept_next, kept_fault, kept_refused, kept_mk, kept_eta, apply_ite kept, ite_self, foldl_kept, foldDoms_kept, kept_setMeter, kept_now])
theorem kept_execMeterSettleEnd (x0 : Nat) (s : State) : Kept s (execMeterSettleEnd x0 s) := by
  unfold execMeterSettleEnd
  first
  | (simp only [kept_next, kept_fault, kept_refused, kept_mk, kept_eta, apply_ite kept, ite_self, foldl_kept, foldDoms_kept, kept_setMeter, kept_now]; done)
  | ((try dsimp only) <;> (repeat' split) <;> simp only [kept_next, kept_fault, kept_refused, kept_mk, kept_eta, apply_ite kept, ite_self, foldl_kept, foldDoms_kept, kept_setMeter, kept_now]; done)
  | ((try dsimp only) <;> (repeat' split) <;> simp [kept_next, kept_fault, kept_refused, kept_mk, kept_eta, apply_ite kept, ite_self, foldl_kept, foldDoms_kept, kept_setMeter, kept_now])
theorem kept_execMeterWindowEnd (x0 : Nat) (x1 : Nat) (x2 : Nat) (s : State) : Kept s (execMeterWindowEnd x0 x1 x2 s) := by
  unfold execMeterWindowEnd
  first
  | (simp only [kept_next, kept_fault, kept_refused, kept_mk, kept_eta, apply_ite kept, ite_self, foldl_kept, foldDoms_kept, kept_staleUpdate, kept_plausChannel, kept_setMeter, kept_now, kept_raise, kept_pairResult]; done)
  | ((try dsimp only) <;> (repeat' split) <;> simp only [kept_next, kept_fault, kept_refused, kept_mk, kept_eta, apply_ite kept, ite_self, foldl_kept, foldDoms_kept, kept_staleUpdate, kept_plausChannel, kept_setMeter, kept_now, kept_raise, kept_pairResult]; done)
  | ((try dsimp only) <;> (repeat' split) <;> simp [kept_next, kept_fault, kept_refused, kept_mk, kept_eta, apply_ite kept, ite_self, foldl_kept, foldDoms_kept, kept_staleUpdate, kept_plausChannel, kept_setMeter, kept_now, kept_raise, kept_pairResult])
theorem kept_execMtrGo (x0 : Word) (x1 : Nat) (s : State) : Kept s (execMtrGo x0 x1 s) := by
  unfold execMtrGo
  first
  | (simp only [kept_next, kept_fault, kept_refused, kept_mk, kept_eta, apply_ite kept, ite_self, foldl_kept, foldDoms_kept, kept_mtrRow]; done)
  | ((try dsimp only) <;> (repeat' split) <;> simp only [kept_next, kept_fault, kept_refused, kept_mk, kept_eta, apply_ite kept, ite_self, foldl_kept, foldDoms_kept, kept_mtrRow]; done)
  | ((try dsimp only) <;> (repeat' split) <;> simp [kept_next, kept_fault, kept_refused, kept_mk, kept_eta, apply_ite kept, ite_self, foldl_kept, foldDoms_kept, kept_mtrRow])
theorem kept_execSyncLost (x0 : Nat) (s : State) : Kept s (execSyncLost x0 s) := by
  unfold execSyncLost
  first
  | (simp only [kept_next, kept_fault, kept_refused, kept_mk, kept_eta, apply_ite kept, ite_self, foldl_kept, foldDoms_kept, kept_setMeter, kept_now]; done)
  | ((try dsimp only) <;> (repeat' split) <;> simp only [kept_next, kept_fault, kept_refused, kept_mk, kept_eta, apply_ite kept, ite_self, foldl_kept, foldDoms_kept, kept_setMeter, kept_now]; done)
  | ((try dsimp only) <;> (repeat' split) <;> simp [kept_next, kept_fault, kept_refused, kept_mk, kept_eta, apply_ite kept, ite_self, foldl_kept, foldDoms_kept, kept_setMeter, kept_now])
theorem kept_execLastBreathDone (x0 : Nat) (s : State) : Kept s (execLastBreathDone x0 s) := by
  unfold execLastBreathDone
  first
  | (simp only [kept_next, kept_fault, kept_refused, kept_mk, kept_eta, apply_ite kept, ite_self, foldl_kept, foldDoms_kept, kept_programRecord, kept_issue, kept_startErase, kept_now, kept_breathGone]; done)
  | ((try dsimp only) <;> (repeat' split) <;> simp only [kept_next, kept_fault, kept_refused, kept_mk, kept_eta, apply_ite kept, ite_self, foldl_kept, foldDoms_kept, kept_programRecord, kept_issue, kept_startErase, kept_now, kept_breathGone]; done)
  | ((try dsimp only) <;> (repeat' split) <;> simp [kept_next, kept_fault, kept_refused, kept_mk, kept_eta, apply_ite kept, ite_self, foldl_kept, foldDoms_kept, kept_programRecord, kept_issue, kept_startErase, kept_now, kept_breathGone])
theorem kept_execStrataWriteDone (x0 : Bool) (x1 : Nat) (s : State) : Kept s (execStrataWriteDone x0 x1 s) := by
  unfold execStrataWriteDone
  first
  | (simp only [kept_next, kept_fault, kept_refused, kept_mk, kept_eta, apply_ite kept, ite_self, foldl_kept, foldDoms_kept, kept_breathFails, kept_issue, kept_startErase, kept_now, kept_workEnds]; done)
  | ((try dsimp only) <;> (repeat' split) <;> simp only [kept_next, kept_fault, kept_refused, kept_mk, kept_eta, apply_ite kept, ite_self, foldl_kept, foldDoms_kept, kept_breathFails, kept_issue, kept_startErase, kept_now, kept_workEnds]; done)
  | ((try dsimp only) <;> (repeat' split) <;> simp [kept_next, kept_fault, kept_refused, kept_mk, kept_eta, apply_ite kept, ite_self, foldl_kept, foldDoms_kept, kept_breathFails, kept_issue, kept_startErase, kept_now, kept_workEnds])
theorem kept_execBadAccess (x0 : Option PortNo) (x1 : BitVec 17) (x2 : Bool) (x3 : Nat) (s : State) : Kept s (execBadAccess x0 x1 x2 x3 s) := by
  unfold execBadAccess
  first
  | (simp only [kept_next, kept_fault, kept_refused, kept_mk, kept_eta, apply_ite kept, ite_self, foldl_kept, foldDoms_kept, kept_now, kept_raise]; done)
  | ((try dsimp only) <;> (repeat' split) <;> simp only [kept_next, kept_fault, kept_refused, kept_mk, kept_eta, apply_ite kept, ite_self, foldl_kept, foldDoms_kept, kept_now, kept_raise]; done)
  | ((try dsimp only) <;> (repeat' split) <;> simp [kept_next, kept_fault, kept_refused, kept_mk, kept_eta, apply_ite kept, ite_self, foldl_kept, foldDoms_kept, kept_now, kept_raise])
theorem kept_execCompletionPost (x0 : PortNo) (x1 : Nat) (s : State) : Kept s (execCompletionPost x0 x1 s) := by
  unfold execCompletionPost
  first
  | (simp only [kept_next, kept_fault, kept_refused, kept_mk, kept_eta, apply_ite kept, ite_self, foldl_kept, foldDoms_kept, kept_writeEntry, kept_now, kept_setPort]; done)
  | ((try dsimp only) <;> (repeat' split) <;> simp only [kept_next, kept_fault, kept_refused, kept_mk, kept_eta, apply_ite kept, ite_self, foldl_kept, foldDoms_kept, kept_writeEntry, kept_now, kept_setPort]; done)
  | ((try dsimp only) <;> (repeat' split) <;> simp [kept_next, kept_fault, kept_refused, kept_mk, kept_eta, apply_ite kept, ite_self, foldl_kept, foldDoms_kept, kept_writeEntry, kept_now, kept_setPort])
theorem kept_execCseqLoRead (x0 : Path) (x1 : Nat) (s : State) : Kept s (execCseqLoRead x0 x1 s) := by
  unfold execCseqLoRead
  first
  | (simp only [kept_next, kept_fault, kept_refused, kept_mk, kept_eta, apply_ite kept, ite_self, foldl_kept, foldDoms_kept, kept_ackRead, kept_now]; done)
  | ((try dsimp only) <;> (repeat' split) <;> simp only [kept_next, kept_fault, kept_refused, kept_mk, kept_eta, apply_ite kept, ite_self, foldl_kept, foldDoms_kept, kept_ackRead, kept_now]; done)
  | ((try dsimp only) <;> (repeat' split) <;> simp [kept_next, kept_fault, kept_refused, kept_mk, kept_eta, apply_ite kept, ite_self, foldl_kept, foldDoms_kept, kept_ackRead, kept_now])
theorem kept_execDbCplHead (x0 : PortNo) (x1 : Word) (x2 : Nat) (s : State) : Kept s (execDbCplHead x0 x1 x2 s) := by
  unfold execDbCplHead
  first
  | (simp only [kept_next, kept_fault, kept_refused, kept_mk, kept_eta, apply_ite kept, ite_self, foldl_kept, foldDoms_kept, kept_now, kept_ackWrite, kept_consumerBell]; done)
  | ((try dsimp only) <;> (repeat' split) <;> simp only [kept_next, kept_fault, kept_refused, kept_mk, kept_eta, apply_ite kept, ite_self, foldl_kept, foldDoms_kept, kept_now, kept_ackWrite, kept_consumerBell]; done)
  | ((try dsimp only) <;> (repeat' split) <;> simp [kept_next, kept_fault, kept_refused, kept_mk, kept_eta, apply_ite kept, ite_self, foldl_kept, foldDoms_kept, kept_now, kept_ackWrite, kept_consumerBell])
theorem kept_execDbCqTail (x0 : PortNo) (x1 : Word) (x2 : Nat) (s : State) : Kept s (execDbCqTail x0 x1 x2 s) := by
  unfold execDbCqTail
  first
  | (simp only [kept_next, kept_fault, kept_refused, kept_mk, kept_eta, apply_ite kept, ite_self, foldl_kept, foldDoms_kept, kept_badBell, kept_now, kept_ackWrite, kept_setPort]; done)
  | ((try dsimp only) <;> (repeat' split) <;> simp only [kept_next, kept_fault, kept_refused, kept_mk, kept_eta, apply_ite kept, ite_self, foldl_kept, foldDoms_kept, kept_badBell, kept_now, kept_ackWrite, kept_setPort]; done)
  | ((try dsimp only) <;> (repeat' split) <;> simp [kept_next, kept_fault, kept_refused, kept_mk, kept_eta, apply_ite kept, ite_self, foldl_kept, foldDoms_kept, kept_badBell, kept_now, kept_ackWrite, kept_setPort])
theorem kept_execDbEvqHead (x0 : PortNo) (x1 : Word) (x2 : Nat) (s : State) : Kept s (execDbEvqHead x0 x1 x2 s) := by
  unfold execDbEvqHead
  first
  | (simp only [kept_next, kept_fault, kept_refused, kept_mk, kept_eta, apply_ite kept, ite_self, foldl_kept, foldDoms_kept, kept_now, kept_ackWrite, kept_drainPort, kept_consumerBell]; done)
  | ((try dsimp only) <;> (repeat' split) <;> simp only [kept_next, kept_fault, kept_refused, kept_mk, kept_eta, apply_ite kept, ite_self, foldl_kept, foldDoms_kept, kept_now, kept_ackWrite, kept_drainPort, kept_consumerBell]; done)
  | ((try dsimp only) <;> (repeat' split) <;> simp [kept_next, kept_fault, kept_refused, kept_mk, kept_eta, apply_ite kept, ite_self, foldl_kept, foldDoms_kept, kept_now, kept_ackWrite, kept_drainPort, kept_consumerBell])
theorem kept_execDbTrqHead (x0 : PortNo) (x1 : Word) (x2 : Nat) (s : State) : Kept s (execDbTrqHead x0 x1 x2 s) := by
  unfold execDbTrqHead
  first
  | (simp only [kept_next, kept_fault, kept_refused, kept_mk, kept_eta, apply_ite kept, ite_self, foldl_kept, foldDoms_kept, kept_now, kept_ackWrite, kept_consumerBell]; done)
  | ((try dsimp only) <;> (repeat' split) <;> simp only [kept_next, kept_fault, kept_refused, kept_mk, kept_eta, apply_ite kept, ite_self, foldl_kept, foldDoms_kept, kept_now, kept_ackWrite, kept_consumerBell]; done)
  | ((try dsimp only) <;> (repeat' split) <;> simp [kept_next, kept_fault, kept_refused, kept_mk, kept_eta, apply_ite kept, ite_self, foldl_kept, foldDoms_kept, kept_now, kept_ackWrite, kept_consumerBell])
theorem kept_execEventPost (x0 : PortNo) (x1 : Nat) (s : State) : Kept s (execEventPost x0 x1 s) := by
  unfold execEventPost
  first
  | (simp only [kept_next, kept_fault, kept_refused, kept_mk, kept_eta, apply_ite kept, ite_self, foldl_kept, foldDoms_kept, kept_writeEntry, kept_now, kept_setPort]; done)
  | ((try dsimp only) <;> (repeat' split) <;> simp only [kept_next, kept_fault, kept_refused, kept_mk, kept_eta, apply_ite kept, ite_self, foldl_kept, foldDoms_kept, kept_writeEntry, kept_now, kept_setPort]; done)
  | ((try dsimp only) <;> (repeat' split) <;> simp [kept_next, kept_fault, kept_refused, kept_mk, kept_eta, apply_ite kept, ite_self, foldl_kept, foldDoms_kept, kept_writeEntry, kept_now, kept_setPort])
theorem kept_execFabricError (x0 : PortNo) (x1 : RingId) (x2 : BitVec 17) (x3 : Nat) (s : State) : Kept s (execFabricError x0 x1 x2 x3 s) := by
  unfold execFabricError
  first
  | (simp only [kept_next, kept_fault, kept_refused, kept_mk, kept_eta, apply_ite kept, ite_self, foldl_kept, foldDoms_kept, kept_fabricStop, kept_now]; done)
  | ((try dsimp only) <;> (repeat' split) <;> simp only [kept_next, kept_fault, kept_refused, kept_mk, kept_eta, apply_ite kept, ite_self, foldl_kept, foldDoms_kept, kept_fabricStop, kept_now]; done)
  | ((try dsimp only) <;> (repeat' split) <;> simp [kept_next, kept_fault, kept_refused, kept_mk, kept_eta, apply_ite kept, ite_self, foldl_kept, foldDoms_kept, kept_fabricStop, kept_now])
theorem kept_execFltLastLoRead (x0 : Path) (x1 : Nat) (s : State) : Kept s (execFltLastLoRead x0 x1 s) := by
  unfold execFltLastLoRead
  first
  | (simp only [kept_next, kept_fault, kept_refused, kept_mk, kept_eta, apply_ite kept, ite_self, foldl_kept, foldDoms_kept, kept_ackRead, kept_now]; done)
  | ((try dsimp only) <;> (repeat' split) <;> simp only [kept_next, kept_fault, kept_refused, kept_mk, kept_eta, apply_ite kept, ite_self, foldl_kept, foldDoms_kept, kept_ackRead, kept_now]; done)
  | ((try dsimp only) <;> (repeat' split) <;> simp [kept_next, kept_fault, kept_refused, kept_mk, kept_eta, apply_ite kept, ite_self, foldl_kept, foldDoms_kept, kept_ackRead, kept_now])
theorem kept_execGtcLoRead (x0 : Path) (x1 : Nat) (s : State) : Kept s (execGtcLoRead x0 x1 s) := by
  unfold execGtcLoRead
  first
  | (simp only [kept_next, kept_fault, kept_refused, kept_mk, kept_eta, apply_ite kept, ite_self, foldl_kept, foldDoms_kept, kept_ackRead, kept_now]; done)
  | ((try dsimp only) <;> (repeat' split) <;> simp only [kept_next, kept_fault, kept_refused, kept_mk, kept_eta, apply_ite kept, ite_self, foldl_kept, foldDoms_kept, kept_ackRead, kept_now]; done)
  | ((try dsimp only) <;> (repeat' split) <;> simp [kept_next, kept_fault, kept_refused, kept_mk, kept_eta, apply_ite kept, ite_self, foldl_kept, foldDoms_kept, kept_ackRead, kept_now])
theorem kept_execHoldoffExpire (x0 : Fin 9) (x1 : Fin 16) (x2 : Nat) (s : State) : Kept s (execHoldoffExpire x0 x1 x2 s) := by
  unfold execHoldoffExpire
  first
  | (simp only [kept_next, kept_fault, kept_refused, kept_mk, kept_eta, apply_ite kept, ite_self, foldl_kept, foldDoms_kept, kept_wakeT8, kept_now]; done)
  | ((try dsimp only) <;> (repeat' split) <;> simp only [kept_next, kept_fault, kept_refused, kept_mk, kept_eta, apply_ite kept, ite_self, foldl_kept, foldDoms_kept, kept_wakeT8, kept_now]; done)
  | ((try dsimp only) <;> (repeat' split) <;> simp [kept_next, kept_fault, kept_refused, kept_mk, kept_eta, apply_ite kept, ite_self, foldl_kept, foldDoms_kept, kept_wakeT8, kept_now])
theorem kept_execIntSwset (x0 : Fin 8) (x1 : Word) (x2 : Nat) (s : State) : Kept s (execIntSwset x0 x1 x2 s) := by
  unfold execIntSwset
  first
  | (simp only [kept_next, kept_fault, kept_refused, kept_mk, kept_eta, apply_ite kept, ite_self, foldl_kept, foldDoms_kept, kept_wakeT8, kept_now, kept_ackWrite]; done)
  | ((try dsimp only) <;> (repeat' split) <;> simp only [kept_next, kept_fault, kept_refused, kept_mk, kept_eta, apply_ite kept, ite_self, foldl_kept, foldDoms_kept, kept_wakeT8, kept_now, kept_ackWrite]; done)
  | ((try dsimp only) <;> (repeat' split) <;> simp [kept_next, kept_fault, kept_refused, kept_mk, kept_eta, apply_ite kept, ite_self, foldl_kept, foldDoms_kept, kept_wakeT8, kept_now, kept_ackWrite])
theorem kept_execIrqClaim (x0 : Fin 9) (x1 : Nat) (s : State) : Kept s (execIrqClaim x0 x1 s) := by
  unfold execIrqClaim
  first
  | (simp only [kept_next, kept_fault, kept_refused, kept_mk, kept_eta, apply_ite kept, ite_self, foldl_kept, foldDoms_kept, kept_ackRead, kept_setClaim, kept_now, kept_startHold]; done)
  | ((try dsimp only) <;> (repeat' split) <;> simp only [kept_next, kept_fault, kept_refused, kept_mk, kept_eta, apply_ite kept, ite_self, foldl_kept, foldDoms_kept, kept_ackRead, kept_setClaim, kept_now, kept_startHold]; done)
  | ((try dsimp only) <;> (repeat' split) <;> simp [kept_next, kept_fault, kept_refused, kept_mk, kept_eta, apply_ite kept, ite_self, foldl_kept, foldDoms_kept, kept_ackRead, kept_setClaim, kept_now, kept_startHold])
theorem kept_execIrqDone (x0 : Fin 9) (x1 : Word) (x2 : Nat) (s : State) : Kept s (execIrqDone x0 x1 x2 s) := by
  unfold execIrqDone
  first
  | (simp only [kept_next, kept_fault, kept_refused, kept_mk, kept_eta, apply_ite kept, ite_self, foldl_kept, foldDoms_kept, kept_setClaim, kept_now, kept_ackWrite, kept_setPort]; done)
  | ((try dsimp only) <;> (repeat' split) <;> simp only [kept_next, kept_fault, kept_refused, kept_mk, kept_eta, apply_ite kept, ite_self, foldl_kept, foldDoms_kept, kept_setClaim, kept_now, kept_ackWrite, kept_setPort]; done)
  | ((try dsimp only) <;> (repeat' split) <;> simp [kept_next, kept_fault, kept_refused, kept_mk, kept_eta, apply_ite kept, ite_self, foldl_kept, foldDoms_kept, kept_setClaim, kept_now, kept_ackWrite, kept_setPort])
theorem kept_execPortDisable (x0 : PortNo) (x1 : Word) (x2 : Nat) (s : State) : Kept s (execPortDisable x0 x1 x2 s) := by
  unfold execPortDisable
  first
  | (simp only [kept_next, kept_fault, kept_refused, kept_mk, kept_eta, apply_ite kept, ite_self, foldl_kept, foldDoms_kept, kept_writePortCtl, kept_now, kept_ackWrite]; done)
  | ((try dsimp only) <;> (repeat' split) <;> simp only [kept_next, kept_fault, kept_refused, kept_mk, kept_eta, apply_ite kept, ite_self, foldl_kept, foldDoms_kept, kept_writePortCtl, kept_now, kept_ackWrite]; done)
  | ((try dsimp only) <;> (repeat' split) <;> simp [kept_next, kept_fault, kept_refused, kept_mk, kept_eta, apply_ite kept, ite_self, foldl_kept, foldDoms_kept, kept_writePortCtl, kept_now, kept_ackWrite])
theorem kept_execPortReset (x0 : PortNo) (x1 : Word) (x2 : Nat) (s : State) : Kept s (execPortReset x0 x1 x2 s) := by
  unfold execPortReset
  first
  | (simp only [kept_next, kept_fault, kept_refused, kept_mk, kept_eta, apply_ite kept, ite_self, foldl_kept, foldDoms_kept, kept_requestReset, kept_now, kept_ackWrite]; done)
  | ((try dsimp only) <;> (repeat' split) <;> simp only [kept_next, kept_fault, kept_refused, kept_mk, kept_eta, apply_ite kept, ite_self, foldl_kept, foldDoms_kept, kept_requestReset, kept_now, kept_ackWrite]; done)
  | ((try dsimp only) <;> (repeat' split) <;> simp [kept_next, kept_fault, kept_refused, kept_mk, kept_eta, apply_ite kept, ite_self, foldl_kept, foldDoms_kept, kept_requestReset, kept_now, kept_ackWrite])
theorem kept_execRingEn (x0 : PortNo) (x1 : Word) (x2 : Nat) (s : State) : Kept s (execRingEn x0 x1 x2 s) := by
  unfold execRingEn
  first
  | (simp only [kept_next, kept_fault, kept_refused, kept_mk, kept_eta, apply_ite kept, ite_self, foldl_kept, foldDoms_kept, kept_writeRingEn, kept_now, kept_ackWrite, kept_drainPort]; done)
  | ((try dsimp only) <;> (repeat' split) <;> simp only [kept_next, kept_fault, kept_refused, kept_mk, kept_eta, apply_ite kept, ite_self, foldl_kept, foldDoms_kept, kept_writeRingEn, kept_now, kept_ackWrite, kept_drainPort]; done)
  | ((try dsimp only) <;> (repeat' split) <;> simp [kept_next, kept_fault, kept_refused, kept_mk, kept_eta, apply_ite kept, ite_self, foldl_kept, foldDoms_kept, kept_writeRingEn, kept_now, kept_ackWrite, kept_drainPort])
theorem kept_execWriteAck (x0 : Nat) (s : State) : Kept s (execWriteAck x0 s) := by
  unfold execWriteAck
  first
  | (simp only [kept_next, kept_fault, kept_refused, kept_mk, kept_eta, apply_ite kept, ite_self, foldl_kept, foldDoms_kept, kept_feedWrites, kept_now, kept_postCompletion, kept_setPort]; done)
  | ((try dsimp only) <;> (repeat' split) <;> simp only [kept_next, kept_fault, kept_refused, kept_mk, kept_eta, apply_ite kept, ite_self, foldl_kept, foldDoms_kept, kept_feedWrites, kept_now, kept_postCompletion, kept_setPort]; done)
  | ((try dsimp only) <;> (repeat' split) <;> simp [kept_next, kept_fault, kept_refused, kept_mk, kept_eta, apply_ite kept, ite_self, foldl_kept, foldDoms_kept, kept_feedWrites, kept_now, kept_postCompletion, kept_setPort])
theorem kept_execFollow (x0 : Dom) (x1 : Nat) (s : State) : Kept s (execFollow x0 x1 s) := by
  unfold execFollow
  first
  | (simp only [kept_next, kept_fault, kept_refused, kept_mk, kept_eta, apply_ite kept, ite_self, foldl_kept, foldDoms_kept, kept_forceDark, kept_raiseFrom, kept_now, kept_sieveEvent]; done)
  | ((try dsimp only) <;> (repeat' split) <;> simp only [kept_next, kept_fault, kept_refused, kept_mk, kept_eta, apply_ite kept, ite_self, foldl_kept, foldDoms_kept, kept_forceDark, kept_raiseFrom, kept_now, kept_sieveEvent]; done)
  | ((try dsimp only) <;> (repeat' split) <;> simp [kept_next, kept_fault, kept_refused, kept_mk, kept_eta, apply_ite kept, ite_self, foldl_kept, foldDoms_kept, kept_forceDark, kept_raiseFrom, kept_now, kept_sieveEvent])
theorem kept_execPlaus (x0 : Dom) (x1 : Nat) (s : State) : Kept s (execPlaus x0 x1 s) := by
  unfold execPlaus
  first
  | (simp only [kept_next, kept_fault, kept_refused, kept_mk, kept_eta, apply_ite kept, ite_self, foldl_kept, foldDoms_kept, kept_report, kept_raiseFrom, kept_now, kept_sieveEvent, kept_setDom]; done)
  | ((try dsimp only) <;> (repeat' split) <;> simp only [kept_next, kept_fault, kept_refused, kept_mk, kept_eta, apply_ite kept, ite_self, foldl_kept, foldDoms_kept, kept_report, kept_raiseFrom, kept_now, kept_sieveEvent, kept_setDom]; done)
  | ((try dsimp only) <;> (repeat' split) <;> simp [kept_next, kept_fault, kept_refused, kept_mk, kept_eta, apply_ite kept, ite_self, foldl_kept, foldDoms_kept, kept_report, kept_raiseFrom, kept_now, kept_sieveEvent, kept_setDom])
theorem kept_execSoftStartEnd (x0 : Dom) (x1 : Nat) (s : State) : Kept s (execSoftStartEnd x0 x1 s) := by
  unfold execSoftStartEnd
  first
  | (simp only [kept_next, kept_fault, kept_refused, kept_mk, kept_eta, apply_ite kept, ite_self, foldl_kept, foldDoms_kept, kept_now, kept_supStart, kept_releaseClock, kept_setMembers]; done)
  | ((try dsimp only) <;> (repeat' split) <;> simp only [kept_next, kept_fault, kept_refused, kept_mk, kept_eta, apply_ite kept, ite_self, foldl_kept, foldDoms_kept, kept_now, kept_supStart, kept_releaseClock, kept_setMembers]; done)
  | ((try dsimp only) <;> (repeat' split) <;> simp [kept_next, kept_fault, kept_refused, kept_mk, kept_eta, apply_ite kept, ite_self, foldl_kept, foldDoms_kept, kept_now, kept_supStart, kept_releaseClock, kept_setMembers])
theorem kept_execRcBinEnd (x0 : Dom) (x1 : Nat) (s : State) : Kept s (execRcBinEnd x0 x1 s) := by
  unfold execRcBinEnd
  first
  | (simp only [kept_next, kept_fault, kept_refused, kept_mk, kept_eta, apply_ite kept, ite_self, foldl_kept, foldDoms_kept, kept_setRc, kept_rcEndUpdate, kept_now]; done)
  | ((try dsimp only) <;> (repeat' split) <;> simp only [kept_next, kept_fault, kept_refused, kept_mk, kept_eta, apply_ite kept, ite_self, foldl_kept, foldDoms_kept, kept_setRc, kept_rcEndUpdate, kept_now]; done)
  | ((try dsimp only) <;> (repeat' split) <;> simp [kept_next, kept_fault, kept_refused, kept_mk, kept_eta, apply_ite kept, ite_self, foldl_kept, foldDoms_kept, kept_setRc, kept_rcEndUpdate, kept_now])
theorem kept_execTileStepMark (x0 : Site) (x1 : Nat) (s : State) : Kept s (execTileStepMark x0 x1 s) := by
  unfold execTileStepMark
  first
  | (simp only [kept_next, kept_fault, kept_refused, kept_mk, kept_eta, apply_ite kept, ite_self, foldl_kept, foldDoms_kept, kept_now, kept_pendMark, kept_setDom]; done)
  | ((try dsimp only) <;> (repeat' split) <;> simp only [kept_next, kept_fault, kept_refused, kept_mk, kept_eta, apply_ite kept, ite_self, foldl_kept, foldDoms_kept, kept_now, kept_pendMark, kept_setDom]; done)
  | ((try dsimp only) <;> (repeat' split) <;> simp [kept_next, kept_fault, kept_refused, kept_mk, kept_eta, apply_ite kept, ite_self, foldl_kept, foldDoms_kept, kept_now, kept_pendMark, kept_setDom])
theorem kept_execGmodeWrite (x0 : Word) (x1 : Nat) (s : State) : Kept s (execGmodeWrite x0 x1 s) := by
  unfold execGmodeWrite
  first
  | (simp only [kept_next, kept_fault, kept_refused, kept_mk, kept_eta, apply_ite kept, ite_self, foldl_kept, foldDoms_kept, kept_now, kept_ackWrite]; done)
  | ((try dsimp only) <;> (repeat' split) <;> simp only [kept_next, kept_fault, kept_refused, kept_mk, kept_eta, apply_ite kept, ite_self, foldl_kept, foldDoms_kept, kept_now, kept_ackWrite]; done)
  | ((try dsimp only) <;> (repeat' split) <;> simp [kept_next, kept_fault, kept_refused, kept_mk, kept_eta, apply_ite kept, ite_self, foldl_kept, foldDoms_kept, kept_now, kept_ackWrite])
theorem kept_execRegisterWrite (x0 : BitVec 17) (x1 : Word) (x2 : Path) (x3 : Nat) (s : State) : Kept s (execRegisterWrite x0 x1 x2 x3 s) := by
  unfold execRegisterWrite
  first
  | (simp only [kept_next, kept_fault, kept_refused, kept_mk, kept_eta, apply_ite kept, ite_self, foldl_kept, foldDoms_kept, kept_writePage, kept_wakeT8, kept_now, kept_ackWrite, kept_writeSetup]; done)
  | ((try dsimp only) <;> (repeat' split) <;> simp only [kept_next, kept_fault, kept_refused, kept_mk, kept_eta, apply_ite kept, ite_self, foldl_kept, foldDoms_kept, kept_writePage, kept_wakeT8, kept_now, kept_ackWrite, kept_writeSetup]; done)
  | ((try dsimp only) <;> (repeat' split) <;> simp [kept_next, kept_fault, kept_refused, kept_mk, kept_eta, apply_ite kept, ite_self, foldl_kept, foldDoms_kept, kept_writePage, kept_wakeT8, kept_now, kept_ackWrite, kept_writeSetup])
theorem kept_execCharRecordInstall (x0 : Option CharRecord) (x1 : Option CharRecord) (x2 : List SysCal) (x3 : Nat) (s : State) : Kept s (execCharRecordInstall x0 x1 x2 x3 s) := by
  unfold execCharRecordInstall
  first
  | (simp only [kept_next, kept_fault, kept_refused, kept_mk, kept_eta, apply_ite kept, ite_self, foldl_kept, foldDoms_kept, kept_charBad, kept_installRecord, kept_bootRecord, kept_now]; done)
  | ((try dsimp only) <;> (repeat' split) <;> simp only [kept_next, kept_fault, kept_refused, kept_mk, kept_eta, apply_ite kept, ite_self, foldl_kept, foldDoms_kept, kept_charBad, kept_installRecord, kept_bootRecord, kept_now]; done)
  | ((try dsimp only) <;> (repeat' split) <;> simp [kept_next, kept_fault, kept_refused, kept_mk, kept_eta, apply_ite kept, ite_self, foldl_kept, foldDoms_kept, kept_charBad, kept_installRecord, kept_bootRecord, kept_now])
theorem kept_execControlReset (x0 : Word) (x1 : Nat) (s : State) : Kept s (execControlReset x0 x1 s) := by
  unfold execControlReset
  first
  | (simp only [kept_next, kept_fault, kept_refused, kept_mk, kept_eta, apply_ite kept, ite_self, foldl_kept, foldDoms_kept, kept_now, kept_ackWrite, kept_controlResetNow]; done)
  | ((try dsimp only) <;> (repeat' split) <;> simp only [kept_next, kept_fault, kept_refused, kept_mk, kept_eta, apply_ite kept, ite_self, foldl_kept, foldDoms_kept, kept_now, kept_ackWrite, kept_controlResetNow]; done)
  | ((try dsimp only) <;> (repeat' split) <;> simp [kept_next, kept_fault, kept_refused, kept_mk, kept_eta, apply_ite kept, ite_self, foldl_kept, foldDoms_kept, kept_now, kept_ackWrite, kept_controlResetNow])
theorem kept_execControlResetDone (x0 : Nat) (s : State) : Kept s (execControlResetDone x0 s) := by
  unfold execControlResetDone
  first
  | (simp only [kept_next, kept_fault, kept_refused, kept_mk, kept_eta, apply_ite kept, ite_self, foldl_kept, foldDoms_kept, kept_now, kept_setClk]; done)
  | ((try dsimp only) <;> (repeat' split) <;> simp only [kept_next, kept_fault, kept_refused, kept_mk, kept_eta, apply_ite kept, ite_self, foldl_kept, foldDoms_kept, kept_now, kept_setClk]; done)
  | ((try dsimp only) <;> (repeat' split) <;> simp [kept_next, kept_fault, kept_refused, kept_mk, kept_eta, apply_ite kept, ite_self, foldl_kept, foldDoms_kept, kept_now, kept_setClk])
theorem kept_execMcReset (x0 : Word) (x1 : Nat) (s : State) : Kept s (execMcReset x0 x1 s) := by
  unfold execMcReset
  first
  | (simp only [kept_next, kept_fault, kept_refused, kept_mk, kept_eta, apply_ite kept, ite_self, foldl_kept, foldDoms_kept, kept_resetMc, kept_now, kept_ackWrite, kept_setClk]; done)
  | ((try dsimp only) <;> (repeat' split) <;> simp only [kept_next, kept_fault, kept_refused, kept_mk, kept_eta, apply_ite kept, ite_self, foldl_kept, foldDoms_kept, kept_resetMc, kept_now, kept_ackWrite, kept_setClk]; done)
  | ((try dsimp only) <;> (repeat' split) <;> simp [kept_next, kept_fault, kept_refused, kept_mk, kept_eta, apply_ite kept, ite_self, foldl_kept, foldDoms_kept, kept_resetMc, kept_now, kept_ackWrite, kept_setClk])
theorem kept_execPorRelease (x0 : NorInfo) (x1 : Nat) (s : State) : Kept s (execPorRelease x0 x1 s) := by
  unfold execPorRelease
  first
  | (simp only [kept_next, kept_fault, kept_refused, kept_mk, kept_eta, apply_ite kept, ite_self, foldl_kept, foldDoms_kept, kept_openStrata, kept_stretchUpdate, kept_staleUpdate, kept_now, kept_setClk]; done)
  | ((try dsimp only) <;> (repeat' split) <;> simp only [kept_next, kept_fault, kept_refused, kept_mk, kept_eta, apply_ite kept, ite_self, foldl_kept, foldDoms_kept, kept_openStrata, kept_stretchUpdate, kept_staleUpdate, kept_now, kept_setClk]; done)
  | ((try dsimp only) <;> (repeat' split) <;> simp [kept_next, kept_fault, kept_refused, kept_mk, kept_eta, apply_ite kept, ite_self, foldl_kept, foldDoms_kept, kept_openStrata, kept_stretchUpdate, kept_staleUpdate, kept_now, kept_setClk])
theorem kept_execThermalRestart (x0 : Nat) (s : State) : Kept s (execThermalRestart x0 s) := by
  unfold execThermalRestart
  first
  | (simp only [kept_next, kept_fault, kept_refused, kept_mk, kept_eta, apply_ite kept, ite_self, foldl_kept, foldDoms_kept, kept_setTherm, kept_unverifyAll, kept_now, kept_controlResetNow]; done)
  | ((try dsimp only) <;> (repeat' split) <;> simp only [kept_next, kept_fault, kept_refused, kept_mk, kept_eta, apply_ite kept, ite_self, foldl_kept, foldDoms_kept, kept_setTherm, kept_unverifyAll, kept_now, kept_controlResetNow]; done)
  | ((try dsimp only) <;> (repeat' split) <;> simp [kept_next, kept_fault, kept_refused, kept_mk, kept_eta, apply_ite kept, ite_self, foldl_kept, foldDoms_kept, kept_setTherm, kept_unverifyAll, kept_now, kept_controlResetNow])
theorem kept_execScrub (x0 : ScrubHit) (x1 : Nat) (s : State) : Kept s (execScrub x0 x1 s) := by
  unfold execScrub
  first
  | (simp only [kept_next, kept_fault, kept_refused, kept_mk, kept_eta, apply_ite kept, ite_self, foldl_kept, foldDoms_kept, kept_scrubHit, kept_now]; done)
  | ((try dsimp only) <;> (repeat' split) <;> simp only [kept_next, kept_fault, kept_refused, kept_mk, kept_eta, apply_ite kept, ite_self, foldl_kept, foldDoms_kept, kept_scrubHit, kept_now]; done)
  | ((try dsimp only) <;> (repeat' split) <;> simp [kept_next, kept_fault, kept_refused, kept_mk, kept_eta, apply_ite kept, ite_self, foldl_kept, foldDoms_kept, kept_scrubHit, kept_now])
theorem kept_execSelftestDone (x0 : TestUnit) (x1 : TestResult) (x2 : Nat) (s : State) : Kept s (execSelftestDone x0 x1 x2 s) := by
  unfold execSelftestDone
  first
  | (simp only [kept_next, kept_fault, kept_refused, kept_mk, kept_eta, apply_ite kept, ite_self, foldl_kept, foldDoms_kept, kept_endTest, kept_testEffect, kept_now, kept_acceptAll]; done)
  | ((try dsimp only) <;> (repeat' split) <;> simp only [kept_next, kept_fault, kept_refused, kept_mk, kept_eta, apply_ite kept, ite_self, foldl_kept, foldDoms_kept, kept_endTest, kept_testEffect, kept_now, kept_acceptAll]; done)
  | ((try dsimp only) <;> (repeat' split) <;> simp [kept_next, kept_fault, kept_refused, kept_mk, kept_eta, apply_ite kept, ite_self, foldl_kept, foldDoms_kept, kept_endTest, kept_testEffect, kept_now, kept_acceptAll])
theorem kept_execGtcDiscontinuity (x0 : GtcPair) (x1 : Bool) (s : State) : Kept s (execGtcDiscontinuity x0 x1 s) := by
  unfold execGtcDiscontinuity
  first
  | (simp only [kept_next, kept_fault, kept_refused, kept_mk, kept_eta, apply_ite kept, ite_self, foldl_kept, foldDoms_kept, kept_resumeCmds, kept_atOnce, kept_carryTimes, kept_now, kept_acceptAll, kept_raiseExt, kept_raise]; done)
  | ((try dsimp only) <;> (repeat' split) <;> simp only [kept_next, kept_fault, kept_refused, kept_mk, kept_eta, apply_ite kept, ite_self, foldl_kept, foldDoms_kept, kept_resumeCmds, kept_atOnce, kept_carryTimes, kept_now, kept_acceptAll, kept_raiseExt, kept_raise]; done)
  | ((try dsimp only) <;> (repeat' split) <;> simp [kept_next, kept_fault, kept_refused, kept_mk, kept_eta, apply_ite kept, ite_self, foldl_kept, foldDoms_kept, kept_resumeCmds, kept_atOnce, kept_carryTimes, kept_now, kept_acceptAll, kept_raiseExt, kept_raise])
theorem kept_execGtcVldRise (x0 : Nat) (s : State) : Kept s (execGtcVldRise x0 s) := by
  unfold execGtcVldRise
  first
  | (simp only [kept_next, kept_fault, kept_refused, kept_mk, kept_eta, apply_ite kept, ite_self, foldl_kept, foldDoms_kept, kept_now]; done)
  | ((try dsimp only) <;> (repeat' split) <;> simp only [kept_next, kept_fault, kept_refused, kept_mk, kept_eta, apply_ite kept, ite_self, foldl_kept, foldDoms_kept, kept_now]; done)
  | ((try dsimp only) <;> (repeat' split) <;> simp [kept_next, kept_fault, kept_refused, kept_mk, kept_eta, apply_ite kept, ite_self, foldl_kept, foldDoms_kept, kept_now])
theorem kept_execShutterStart (x0 : Nat) (s : State) : Kept s (execShutterStart x0 s) := by
  unfold execShutterStart
  first
  | (simp only [kept_next, kept_fault, kept_refused, kept_mk, kept_eta, apply_ite kept, ite_self, foldl_kept, foldDoms_kept, kept_now]; done)
  | ((try dsimp only) <;> (repeat' split) <;> simp only [kept_next, kept_fault, kept_refused, kept_mk, kept_eta, apply_ite kept, ite_self, foldl_kept, foldDoms_kept, kept_now]; done)
  | ((try dsimp only) <;> (repeat' split) <;> simp [kept_next, kept_fault, kept_refused, kept_mk, kept_eta, apply_ite kept, ite_self, foldl_kept, foldDoms_kept, kept_now])
theorem kept_execCellAutonomousHold (x0 : CellNo) (x1 : Nat) (s : State) : Kept s (execCellAutonomousHold x0 x1 s) := by
  unfold execCellAutonomousHold
  first
  | (simp only [kept_next, kept_fault, kept_refused, kept_mk, kept_eta, apply_ite kept, ite_self, foldl_kept, foldDoms_kept, kept_now, kept_setCellAt]; done)
  | ((try dsimp only) <;> (repeat' split) <;> simp only [kept_next, kept_fault, kept_refused, kept_mk, kept_eta, apply_ite kept, ite_self, foldl_kept, foldDoms_kept, kept_now, kept_setCellAt]; done)
  | ((try dsimp only) <;> (repeat' split) <;> simp [kept_next, kept_fault, kept_refused, kept_mk, kept_eta, apply_ite kept, ite_self, foldl_kept, foldDoms_kept, kept_now, kept_setCellAt])
theorem kept_execCellFail (x0 : CellNo) (x1 : Nat) (s : State) : Kept s (execCellFail x0 x1 s) := by
  unfold execCellFail
  first
  | (simp only [kept_next, kept_fault, kept_refused, kept_mk, kept_eta, apply_ite kept, ite_self, foldl_kept, foldDoms_kept, kept_now, kept_failCell]; done)
  | ((try dsimp only) <;> (repeat' split) <;> simp only [kept_next, kept_fault, kept_refused, kept_mk, kept_eta, apply_ite kept, ite_self, foldl_kept, foldDoms_kept, kept_now, kept_failCell]; done)
  | ((try dsimp only) <;> (repeat' split) <;> simp [kept_next, kept_fault, kept_refused, kept_mk, kept_eta, apply_ite kept, ite_self, foldl_kept, foldDoms_kept, kept_now, kept_failCell])
theorem kept_execCellOverload (x0 : CellNo) (x1 : Nat) (s : State) : Kept s (execCellOverload x0 x1 s) := by
  unfold execCellOverload
  first
  | (simp only [kept_next, kept_fault, kept_refused, kept_mk, kept_eta, apply_ite kept, ite_self, foldl_kept, foldDoms_kept, kept_now, kept_reportOvld, kept_setCellAt]; done)
  | ((try dsimp only) <;> (repeat' split) <;> simp only [kept_next, kept_fault, kept_refused, kept_mk, kept_eta, apply_ite kept, ite_self, foldl_kept, foldDoms_kept, kept_now, kept_reportOvld, kept_setCellAt]; done)
  | ((try dsimp only) <;> (repeat' split) <;> simp [kept_next, kept_fault, kept_refused, kept_mk, kept_eta, apply_ite kept, ite_self, foldl_kept, foldDoms_kept, kept_now, kept_reportOvld, kept_setCellAt])
theorem kept_execCellPark (x0 : Dom) (x1 : Nat) (s : State) : Kept s (execCellPark x0 x1 s) := by
  unfold execCellPark
  first
  | (simp only [kept_next, kept_fault, kept_refused, kept_mk, kept_eta, apply_ite kept, ite_self, foldl_kept, foldDoms_kept, kept_now, kept_setCellAt, kept_setDom]; done)
  | ((try dsimp only) <;> (repeat' split) <;> simp only [kept_next, kept_fault, kept_refused, kept_mk, kept_eta, apply_ite kept, ite_self, foldl_kept, foldDoms_kept, kept_now, kept_setCellAt, kept_setDom]; done)
  | ((try dsimp only) <;> (repeat' split) <;> simp [kept_next, kept_fault, kept_refused, kept_mk, kept_eta, apply_ite kept, ite_self, foldl_kept, foldDoms_kept, kept_now, kept_setCellAt, kept_setDom])
theorem kept_execCellReport (x0 : CellNo) (x1 : Word) (x2 : Nat) (s : State) : Kept s (execCellReport x0 x1 x2 s) := by
  unfold execCellReport
  first
  | (simp only [kept_next, kept_fault, kept_refused, kept_mk, kept_eta, apply_ite kept, ite_self, foldl_kept, foldDoms_kept, kept_now, kept_setCellAt]; done)
  | ((try dsimp only) <;> (repeat' split) <;> simp only [kept_next, kept_fault, kept_refused, kept_mk, kept_eta, apply_ite kept, ite_self, foldl_kept, foldDoms_kept, kept_now, kept_setCellAt]; done)
  | ((try dsimp only) <;> (repeat' split) <;> simp [kept_next, kept_fault, kept_refused, kept_mk, kept_eta, apply_ite kept, ite_self, foldl_kept, foldDoms_kept, kept_now, kept_setCellAt])
theorem kept_execCrackWindowEnd (x0 : Dom) (x1 : Nat) (s : State) : Kept s (execCrackWindowEnd x0 x1 s) := by
  unfold execCrackWindowEnd
  first
  | (simp only [kept_next, kept_fault, kept_refused, kept_mk, kept_eta, apply_ite kept, ite_self, foldl_kept, foldDoms_kept, kept_now, kept_judgeCrack, kept_setCellAt, kept_setDom]; done)
  | ((try dsimp only) <;> (repeat' split) <;> simp only [kept_next, kept_fault, kept_refused, kept_mk, kept_eta, apply_ite kept, ite_self, foldl_kept, foldDoms_kept, kept_now, kept_judgeCrack, kept_setCellAt, kept_setDom]; done)
  | ((try dsimp only) <;> (repeat' split) <;> simp [kept_next, kept_fault, kept_refused, kept_mk, kept_eta, apply_ite kept, ite_self, foldl_kept, foldDoms_kept, kept_now, kept_judgeCrack, kept_setCellAt, kept_setDom])
theorem kept_execDerateThrottle (x0 : Dom) (x1 : Nat) (s : State) : Kept s (execDerateThrottle x0 x1 s) := by
  unfold execDerateThrottle
  first
  | (simp only [kept_next, kept_fault, kept_refused, kept_mk, kept_eta, apply_ite kept, ite_self, foldl_kept, foldDoms_kept, kept_now, kept_raise, kept_driveThr, kept_setDom]; done)
  | ((try dsimp only) <;> (repeat' split) <;> simp only [kept_next, kept_fault, kept_refused, kept_mk, kept_eta, apply_ite kept, ite_self, foldl_kept, foldDoms_kept, kept_now, kept_raise, kept_driveThr, kept_setDom]; done)
  | ((try dsimp only) <;> (repeat' split) <;> simp [kept_next, kept_fault, kept_refused, kept_mk, kept_eta, apply_ite kept, ite_self, foldl_kept, foldDoms_kept, kept_now, kept_raise, kept_driveThr, kept_setDom])
theorem kept_execDischargeTimeout (x0 : Dom) (x1 : Nat) (s : State) : Kept s (execDischargeTimeout x0 x1 s) := by
  unfold execDischargeTimeout
  first
  | (simp only [kept_next, kept_fault, kept_refused, kept_mk, kept_eta, apply_ite kept, ite_self, foldl_kept, foldDoms_kept, kept_now, kept_setMembers, kept_raise]; done)
  | ((try dsimp only) <;> (repeat' split) <;> simp only [kept_next, kept_fault, kept_refused, kept_mk, kept_eta, apply_ite kept, ite_self, foldl_kept, foldDoms_kept, kept_now, kept_setMembers, kept_raise]; done)
  | ((try dsimp only) <;> (repeat' split) <;> simp [kept_next, kept_fault, kept_refused, kept_mk, kept_eta, apply_ite kept, ite_self, foldl_kept, foldDoms_kept, kept_now, kept_setMembers, kept_raise])
theorem kept_execIsolationCheck (x0 : Dom) (x1 : Fin 14) (x2 : Nat) (s : State) : Kept s (execIsolationCheck x0 x1 x2 s) := by
  unfold execIsolationCheck
  first
  | (simp only [kept_next, kept_fault, kept_refused, kept_mk, kept_eta, apply_ite kept, ite_self, foldl_kept, foldDoms_kept, kept_raiseAtOnce, kept_now, kept_setCellAt]; done)
  | ((try dsimp only) <;> (repeat' split) <;> simp only [kept_next, kept_fault, kept_refused, kept_mk, kept_eta, apply_ite kept, ite_self, foldl_kept, foldDoms_kept, kept_raiseAtOnce, kept_now, kept_setCellAt]; done)
  | ((try dsimp only) <;> (repeat' split) <;> simp [kept_next, kept_fault, kept_refused, kept_mk, kept_eta, apply_ite kept, ite_self, foldl_kept, foldDoms_kept, kept_raiseAtOnce, kept_now, kept_setCellAt])
theorem kept_execNeighbourArmEnd (x0 : Dom) (x1 : Nat) (s : State) : Kept s (execNeighbourArmEnd x0 x1 s) := by
  unfold execNeighbourArmEnd
  first
  | (simp only [kept_next, kept_fault, kept_refused, kept_mk, kept_eta, apply_ite kept, ite_self, foldl_kept, foldDoms_kept, kept_now, kept_setMembers]; done)
  | ((try dsimp only) <;> (repeat' split) <;> simp only [kept_next, kept_fault, kept_refused, kept_mk, kept_eta, apply_ite kept, ite_self, foldl_kept, foldDoms_kept, kept_now, kept_setMembers]; done)
  | ((try dsimp only) <;> (repeat' split) <;> simp [kept_next, kept_fault, kept_refused, kept_mk, kept_eta, apply_ite kept, ite_self, foldl_kept, foldDoms_kept, kept_now, kept_setMembers])
theorem kept_execOvCrossing (x0 : Dom) (x1 : Nat) (s : State) : Kept s (execOvCrossing x0 x1 s) := by
  unfold execOvCrossing
  first
  | (simp only [kept_next, kept_fault, kept_refused, kept_mk, kept_eta, apply_ite kept, ite_self, foldl_kept, foldDoms_kept, kept_forceDark, kept_raiseFrom, kept_now, kept_setMembers, kept_sieveEvent]; done)
  | ((try dsimp only) <;> (repeat' split) <;> simp only [kept_next, kept_fault, kept_refused, kept_mk, kept_eta, apply_ite kept, ite_self, foldl_kept, foldDoms_kept, kept_forceDark, kept_raiseFrom, kept_now, kept_setMembers, kept_sieveEvent]; done)
  | ((try dsimp only) <;> (repeat' split) <;> simp [kept_next, kept_fault, kept_refused, kept_mk, kept_eta, apply_ite kept, ite_self, foldl_kept, foldDoms_kept, kept_forceDark, kept_raiseFrom, kept_now, kept_setMembers, kept_sieveEvent])
theorem kept_execOverloadTimerClear (x0 : CellNo) (x1 : Nat) (s : State) : Kept s (execOverloadTimerClear x0 x1 s) := by
  unfold execOverloadTimerClear
  first
  | (simp only [kept_next, kept_fault, kept_refused, kept_mk, kept_eta, apply_ite kept, ite_self, foldl_kept, foldDoms_kept, kept_now, kept_setCellAt]; done)
  | ((try dsimp only) <;> (repeat' split) <;> simp only [kept_next, kept_fault, kept_refused, kept_mk, kept_eta, apply_ite kept, ite_self, foldl_kept, foldDoms_kept, kept_now, kept_setCellAt]; done)
  | ((try dsimp only) <;> (repeat' split) <;> simp [kept_next, kept_fault, kept_refused, kept_mk, kept_eta, apply_ite kept, ite_self, foldl_kept, foldDoms_kept, kept_now, kept_setCellAt])
theorem kept_execShort (x0 : Dom) (x1 : Nat) (s : State) : Kept s (execShort x0 x1 s) := by
  unfold execShort
  first
  | (simp only [kept_next, kept_fault, kept_refused, kept_mk, kept_eta, apply_ite kept, ite_self, foldl_kept, foldDoms_kept, kept_forceDark, kept_now, kept_setMembers, kept_raise, kept_sieveEvent]; done)
  | ((try dsimp only) <;> (repeat' split) <;> simp only [kept_next, kept_fault, kept_refused, kept_mk, kept_eta, apply_ite kept, ite_self, foldl_kept, foldDoms_kept, kept_forceDark, kept_now, kept_setMembers, kept_raise, kept_sieveEvent]; done)
  | ((try dsimp only) <;> (repeat' split) <;> simp [kept_next, kept_fault, kept_refused, kept_mk, kept_eta, apply_ite kept, ite_self, foldl_kept, foldDoms_kept, kept_forceDark, kept_now, kept_setMembers, kept_raise, kept_sieveEvent])
theorem kept_execShortRetry (x0 : Dom) (x1 : Nat) (s : State) : Kept s (execShortRetry x0 x1 s) := by
  unfold execShortRetry
  first
  | (simp only [kept_next, kept_fault, kept_refused, kept_mk, kept_eta, apply_ite kept, ite_self, foldl_kept, foldDoms_kept, kept_report, kept_now, kept_setMembers]; done)
  | ((try dsimp only) <;> (repeat' split) <;> simp only [kept_next, kept_fault, kept_refused, kept_mk, kept_eta, apply_ite kept, ite_self, foldl_kept, foldDoms_kept, kept_report, kept_now, kept_setMembers]; done)
  | ((try dsimp only) <;> (repeat' split) <;> simp [kept_next, kept_fault, kept_refused, kept_mk, kept_eta, apply_ite kept, ite_self, foldl_kept, foldDoms_kept, kept_report, kept_now, kept_setMembers])
theorem kept_execWarmHoldExpire (x0 : CellNo) (x1 : Nat) (s : State) : Kept s (execWarmHoldExpire x0 x1 s) := by
  unfold execWarmHoldExpire
  first
  | (simp only [kept_next, kept_fault, kept_refused, kept_mk, kept_eta, apply_ite kept, ite_self, foldl_kept, foldDoms_kept, kept_now, kept_setCellAt]; done)
  | ((try dsimp only) <;> (repeat' split) <;> simp only [kept_next, kept_fault, kept_refused, kept_mk, kept_eta, apply_ite kept, ite_self, foldl_kept, foldDoms_kept, kept_now, kept_setCellAt]; done)
  | ((try dsimp only) <;> (repeat' split) <;> simp [kept_next, kept_fault, kept_refused, kept_mk, kept_eta, apply_ite kept, ite_self, foldl_kept, foldDoms_kept, kept_now, kept_setCellAt])
theorem kept_execDieSilent (x0 : Fin 5) (x1 : Nat) (s : State) : Kept s (execDieSilent x0 x1 s) := by
  unfold execDieSilent
  first
  | (simp only [kept_next, kept_fault, kept_refused, kept_mk, kept_eta, apply_ite kept, ite_self, foldl_kept, foldDoms_kept, kept_setTherm, kept_tripNow, kept_now, kept_raise]; done)
  | ((try dsimp only) <;> (repeat' split) <;> simp only [kept_next, kept_fault, kept_refused, kept_mk, kept_eta, apply_ite kept, ite_self, foldl_kept, foldDoms_kept, kept_setTherm, kept_tripNow, kept_now, kept_raise]; done)
  | ((try dsimp only) <;> (repeat' split) <;> simp [kept_next, kept_fault, kept_refused, kept_mk, kept_eta, apply_ite kept, ite_self, foldl_kept, foldDoms_kept, kept_setTherm, kept_tripNow, kept_now, kept_raise])
theorem kept_execFastSamplingEnd (x0 : Nat) (s : State) : Kept s (execFastSamplingEnd x0 s) := by
  unfold execFastSamplingEnd
  first
  | (simp only [kept_next, kept_fault, kept_refused, kept_mk, kept_eta, apply_ite kept, ite_self, foldl_kept, foldDoms_kept, kept_setTherm, kept_now]; done)
  | ((try dsimp only) <;> (repeat' split) <;> simp only [kept_next, kept_fault, kept_refused, kept_mk, kept_eta, apply_ite kept, ite_self, foldl_kept, foldDoms_kept, kept_setTherm, kept_now]; done)
  | ((try dsimp only) <;> (repeat' split) <;> simp [kept_next, kept_fault, kept_refused, kept_mk, kept_eta, apply_ite kept, ite_self, foldl_kept, foldDoms_kept, kept_setTherm, kept_now])
theorem kept_execHotHoldEnd (x0 : Dom) (x1 : Nat) (s : State) : Kept s (execHotHoldEnd x0 x1 s) := by
  unfold execHotHoldEnd
  first
  | (simp only [kept_next, kept_fault, kept_refused, kept_mk, kept_eta, apply_ite kept, ite_self, foldl_kept, foldDoms_kept, kept_now, kept_setMembers]; done)
  | ((try dsimp only) <;> (repeat' split) <;> simp only [kept_next, kept_fault, kept_refused, kept_mk, kept_eta, apply_ite kept, ite_self, foldl_kept, foldDoms_kept, kept_now, kept_setMembers]; done)
  | ((try dsimp only) <;> (repeat' split) <;> simp [kept_next, kept_fault, kept_refused, kept_mk, kept_eta, apply_ite kept, ite_self, foldl_kept, foldDoms_kept, kept_now, kept_setMembers])
theorem kept_execThLimitWrite (x0 : BitVec 17) (x1 : Word) (x2 : Nat) (s : State) : Kept s (execThLimitWrite x0 x1 x2 s) := by
  unfold execThLimitWrite
  first
  | (simp only [kept_next, kept_fault, kept_refused, kept_mk, kept_eta, apply_ite kept, ite_self, foldl_kept, foldDoms_kept, kept_now, kept_ackWrite, kept_writeTherm]; done)
  | ((try dsimp only) <;> (repeat' split) <;> simp only [kept_next, kept_fault, kept_refused, kept_mk, kept_eta, apply_ite kept, ite_self, foldl_kept, foldDoms_kept, kept_now, kept_ackWrite, kept_writeTherm]; done)
  | ((try dsimp only) <;> (repeat' split) <;> simp [kept_next, kept_fault, kept_refused, kept_mk, kept_eta, apply_ite kept, ite_self, foldl_kept, foldDoms_kept, kept_now, kept_ackWrite, kept_writeTherm])
theorem kept_execThermalSampleComplete (x0 : Vector Conv 320) (x1 : Nat) (s : State) : Kept s (execThermalSampleComplete x0 x1 s) := by
  unfold execThermalSampleComplete
  first
  | (simp only [kept_next, kept_fault, kept_refused, kept_mk, kept_eta, apply_ite kept, ite_self, foldl_kept, foldDoms_kept, kept_setTherm, kept_bandDom, kept_riseSensor, kept_abandonTests, kept_coolCheck, kept_failSensors, kept_now, kept_throtDom, kept_thMax]; done)
  | ((try dsimp only) <;> (repeat' split) <;> simp only [kept_next, kept_fault, kept_refused, kept_mk, kept_eta, apply_ite kept, ite_self, foldl_kept, foldDoms_kept, kept_setTherm, kept_bandDom, kept_riseSensor, kept_abandonTests, kept_coolCheck, kept_failSensors, kept_now, kept_throtDom, kept_thMax]; done)
  | ((try dsimp only) <;> (repeat' split) <;> simp [kept_next, kept_fault, kept_refused, kept_mk, kept_eta, apply_ite kept, ite_self, foldl_kept, foldDoms_kept, kept_setTherm, kept_bandDom, kept_riseSensor, kept_abandonTests, kept_coolCheck, kept_failSensors, kept_now, kept_throtDom, kept_thMax])
theorem kept_execThermalSampleStart (x0 : Nat) (s : State) : Kept s (execThermalSampleStart x0 s) := by
  unfold execThermalSampleStart
  first
  | (simp only [kept_next, kept_fault, kept_refused, kept_mk, kept_eta, apply_ite kept, ite_self, foldl_kept, foldDoms_kept, kept_setTherm, kept_now]; done)
  | ((try dsimp only) <;> (repeat' split) <;> simp only [kept_next, kept_fault, kept_refused, kept_mk, kept_eta, apply_ite kept, ite_self, foldl_kept, foldDoms_kept, kept_setTherm, kept_now]; done)
  | ((try dsimp only) <;> (repeat' split) <;> simp [kept_next, kept_fault, kept_refused, kept_mk, kept_eta, apply_ite kept, ite_self, foldl_kept, foldDoms_kept, kept_setTherm, kept_now])
theorem kept_execTripConfirm (x0 : Fin 320) (x1 : Conv) (x2 : Nat) (s : State) : Kept s (execTripConfirm x0 x1 x2 s) := by
  unfold execTripConfirm
  first
  | (simp only [kept_next, kept_fault, kept_refused, kept_mk, kept_eta, apply_ite kept, ite_self, foldl_kept, foldDoms_kept, kept_setTherm, kept_declareFailed, kept_tripNow, kept_now]; done)
  | ((try dsimp only) <;> (repeat' split) <;> simp only [kept_next, kept_fault, kept_refused, kept_mk, kept_eta, apply_ite kept, ite_self, foldl_kept, foldDoms_kept, kept_setTherm, kept_declareFailed, kept_tripNow, kept_now]; done)
  | ((try dsimp only) <;> (repeat' split) <;> simp [kept_next, kept_fault, kept_refused, kept_mk, kept_eta, apply_ite kept, ite_self, foldl_kept, foldDoms_kept, kept_setTherm, kept_declareFailed, kept_tripNow, kept_now])
theorem kept_execActSample (x0 : Site) (x1 : Vector (BitVec 16) 8) (x2 : Nat) (s : State) : Kept s (execActSample x0 x1 x2 s) := by
  unfold execActSample
  first
  | (simp only [kept_next, kept_fault, kept_refused, kept_mk, kept_eta, apply_ite kept, ite_self, foldl_kept, foldDoms_kept, kept_now, kept_setDom]; done)
  | ((try dsimp only) <;> (repeat' split) <;> simp only [kept_next, kept_fault, kept_refused, kept_mk, kept_eta, apply_ite kept, ite_self, foldl_kept, foldDoms_kept, kept_now, kept_setDom]; done)
  | ((try dsimp only) <;> (repeat' split) <;> simp [kept_next, kept_fault, kept_refused, kept_mk, kept_eta, apply_ite kept, ite_self, foldl_kept, foldDoms_kept, kept_now, kept_setDom])
theorem kept_execTileHint (x0 : Site) (x1 : Hint) (x2 : Bool) (x3 : Nat) (s : State) : Kept s (execTileHint x0 x1 x2 x3 s) := by
  unfold execTileHint
  first
  | (simp only [kept_next, kept_fault, kept_refused, kept_mk, kept_eta, apply_ite kept, ite_self, foldl_kept, foldDoms_kept, kept_now, kept_freshBelow, kept_setDom]; done)
  | ((try dsimp only) <;> (repeat' split) <;> simp only [kept_next, kept_fault, kept_refused, kept_mk, kept_eta, apply_ite kept, ite_self, foldl_kept, foldDoms_kept, kept_now, kept_freshBelow, kept_setDom]; done)
  | ((try dsimp only) <;> (repeat' split) <;> simp [kept_next, kept_fault, kept_refused, kept_mk, kept_eta, apply_ite kept, ite_self, foldl_kept, foldDoms_kept, kept_now, kept_freshBelow, kept_setDom])
theorem kept_execTraceChunkHandoff (x0 : PortNo) (x1 : Nat) (x2 : Nat) (s : State) : Kept s (execTraceChunkHandoff x0 x1 x2 s) := by
  unfold execTraceChunkHandoff
  first
  | (simp only [kept_next, kept_fault, kept_refused, kept_mk, kept_eta, apply_ite kept, ite_self, foldl_kept, foldDoms_kept, kept_now, kept_setPort]; done)
  | ((try dsimp only) <;> (repeat' split) <;> simp only [kept_next, kept_fault, kept_refused, kept_mk, kept_eta, apply_ite kept, ite_self, foldl_kept, foldDoms_kept, kept_now, kept_setPort]; done)
  | ((try dsimp only) <;> (repeat' split) <;> simp [kept_next, kept_fault, kept_refused, kept_mk, kept_eta, apply_ite kept, ite_self, foldl_kept, foldDoms_kept, kept_now, kept_setPort])

/-! ### A shutter and a power-on reset -/

/-- A state whose waiting commands are those of another, and which keeps the rule of R79 where the other has it. -/
def Follows (s u : State) : Prop := u.pending = s.pending ∧ (SeqOk s → SeqOk u)

theorem follows_of_kept {s u : State} (h : kept u = kept s) : Follows s u := by
  rw [kept_iff] at h
  exact ⟨h.2, fun hs => by simpa only [SeqOk, h.1] using hs⟩

theorem follows_trans {s u v : State} (h : Follows s u) (h' : Follows u v) : Follows s v :=
  ⟨h'.1.trans h.1, fun hs => h'.2 (h.2 hs)⟩

theorem follows_numberMember (a : Commits) (x : Cmd × Nat) : Follows a.s (numberMember a x).s :=
  ⟨rfl, fun _ => Or.inr (nextSeq_low a.s.cseq)⟩

theorem follows_numberMembers (l : List (Cmd × Nat)) (a : Commits) : Follows a.s (l.foldl numberMember a).s := by
  induction l generalizing a with
  | nil => exact follows_of_kept rfl
  | cons x xs ih => exact follows_trans (follows_numberMember a x) (ih _)

theorem follows_commitUnit (t : Nat) (q : Latch) (a : Commits) (u : List Cmd) : Follows a.s (commitUnit t q a u).s := by
  unfold commitUnit
  extract_lets epoch y
  have hy : kept y.1 = kept a.s := kept_checkMembers t q a.s u
  split
  · exact follows_trans (follows_of_kept hy) (follows_numberMembers y.2.1 { a with s := y.1 })
  · exact follows_of_kept (kept_failUnit a.s u y.2.2 (some epoch))

theorem follows_shutterUnit (t : Nat) (q : Latch) (a : Commits) (u : List Cmd) : Follows a.s (shutterUnit t q a u).s := by
  unfold shutterUnit
  split
  · exact follows_of_kept rfl
  · extract_lets epoch acked
    split_ifs
    · exact follows_of_kept (kept_displaceTo a.s _ _)
    · exact follows_commitUnit t q a _
    · exact follows_of_kept (kept_refuseUnit a.s _ _ _ _)
    · exact follows_of_kept (kept_refuseUnit a.s _ _ _ _)
    · exact follows_of_kept rfl

theorem follows_shutterUnits (t : Nat) (q : Latch) (l : List (List Cmd)) (a : Commits) :
    Follows a.s (l.foldl (shutterUnit t q) a).s := by
  induction l generalizing a with
  | nil => exact follows_of_kept rfl
  | cons x xs ih => exact follows_trans (follows_shutterUnit t q a x) (ih _)

theorem follows_hostCommits (t : Nat) (q : Latch) (s : State) : Follows s (hostCommits t q s).s := by
  unfold hostCommits
  extract_lets epoch doomed s1 a
  have h1 : kept s1 = kept s := foldl_kept _ _ _ (fun s c => kept_refuseUnit s [c] stRefused 0x7F epoch)
  exact follows_trans (follows_of_kept h1) (follows_trans (follows_shutterUnits t q _ _)
    (follows_of_kept (kept_moveUnits t a.moved a.s)))

theorem kept_emitDone (r : Record) (tab : Nat → (Nat → Bool) → List Byte) (acc : State × List WriteReq) (x : Done) :
    kept (emitDone r tab acc x).1 = kept acc.1 := by
  unfold emitDone
  dsimp only
  (repeat' split) <;> simp only [kept_postCompletion]

theorem next_inj {u v : State} (h : (Host.Outcome.next u : Host.Outcome State Fault Refusal) = .next v) : v = u := by
  injection h with h; exact h.symm

/-- Everything that a shutter does keeps the waiting commands and the rule of R79. -/
theorem follows_shutterAt (t : Nat) (meas : List EpochMeas) (s : State) : Follows s (shutterAt t meas s) := by
  unfold shutterAt
  extract_lets b q pre a r y s3 s4 s5 sd si s6 st s7
  have hb : kept b.2 = kept s := kept_beforeCommits t meas s
  have ha : Follows b.2 a.s := follows_hostCommits t _ b.2
  clear_value a
  have hy : kept y.1 = kept a.s := foldl1_kept _ a.done (a.s, []) (fun acc x => kept_emitDone r (snapBytes pre t) acc x)
  clear_value y
  have h3 : kept s3 = kept y.1 := by simp only [s3, kept_dueResets, kept_sendOutput]
  clear_value s3
  have h4 : kept s4 = kept s3 := by simp only [s4, kept_watchesAt, kept_lagShutter, kept_fastPath]
  clear_value s4
  have h5 : kept s5 = kept s4 := by simp only [s5, kept_setTargets, kept_sieveShutter, kept_rotateLanes]
  clear_value s5
  have hd : kept sd = kept s5 := kept_setDoms s5 epochCounts
  clear_value sd
  have h6 : kept s6 = kept sd := by simp only [s6, kept_mk, kept_eta]
  clear_value s6
  have h7 : kept s7 = kept s6 := by simp only [s7, kept_mk, kept_eta]
  clear_value s7
  have h8 : kept (acceptAll s7) = kept s7 := kept_acceptAll _
  exact follows_trans (follows_of_kept hb) (follows_trans ha
    (follows_of_kept (h8.trans (h7.trans (h6.trans (hd.trans (h5.trans (h4.trans (h3.trans hy)))))))))

theorem follows_execShutter (k : Nat) (meas : List EpochMeas) (s u : State) (h : execShutter k meas s = .next u) : Follows s u := by
  unfold execShutter at h
  extract_lets t s0 st s1 at h
  have h0 : kept s0 = kept s := kept_now t s
  have h1 : kept s1 = kept s0 := by simp only [s1, kept_mk, kept_eta]
  clear_value s1
  clear_value st
  clear_value s0
  split_ifs at h
  · rw [next_inj h]; exact follows_of_kept ((kept_clearInput _).trans h0)
  · rw [next_inj h]; exact follows_of_kept ((kept_busyEpoch meas s1).trans (h1.trans h0))
  · rw [next_inj h]; exact follows_trans (follows_of_kept (h1.trans h0)) (follows_shutterAt t meas s1)

theorem follows_execPorAssert (t : Nat) (s u : State) (h : execPorAssert t s = .next u) : Follows s u := by
  unfold execPorAssert at h
  cases h
  exact ⟨rfl, fun _ => Or.inl rfl⟩

end Sys2Proof.Laws
end

