-- ==== Sys2Proof/Laws/PerInstr.lean ====
section
/-! SUPPORT. Laws made per instruction: what the opcode and used fields of an encoded word spell. -/

namespace Sys2Proof.Laws.CleFields
set_option Elab.async false
open Sys2Proof Sys2Proof.Laws

/-- The opcode and the used fields of an instruction's word spell that instruction (Table 07-7); a command that is no
CLE instruction has no word. -/
def Statement (i : Instr) : Prop := ∀ w, encodeCle i = some w → rawCle w = some i

/-- NOP. -/
theorem nop (d : Desc) : Statement (.nop d) := by
  intro w h; exact nomatch (show (none : Option Word) = some w from h)
/-- DOM_STATE. -/
theorem domState (d : Desc) : Statement (.domState d) := by
  intro w h; exact nomatch (show (none : Option Word) = some w from h)
/-- DOM_TARGET. -/
theorem domTarget (d : Desc) : Statement (.domTarget d) := by
  intro w h; exact nomatch (show (none : Option Word) = some w from h)
/-- DOM_FREQ. -/
theorem domFreq (d : Desc) : Statement (.domFreq d) := by
  intro w h; exact nomatch (show (none : Option Word) = some w from h)
/-- DOM_LIMITS. -/
theorem domLimits (d : Desc) : Statement (.domLimits d) := by
  intro w h; exact nomatch (show (none : Option Word) = some w from h)
/-- DOM_PAIR. -/
theorem domPair (d : Desc) : Statement (.domPair d) := by
  intro w h; exact nomatch (show (none : Option Word) = some w from h)
/-- DOM_UNPAIR. -/
theorem domUnpair (d : Desc) : Statement (.domUnpair d) := by
  intro w h; exact nomatch (show (none : Option Word) = some w from h)
/-- DOM_CELLMAP. -/
theorem domCellmap (d : Desc) : Statement (.domCellmap d) := by
  intro w h; exact nomatch (show (none : Option Word) = some w from h)
/-- BUDGET_SET. -/
theorem budgetSet (d : Desc) : Statement (.budgetSet d) := by
  intro w h; exact nomatch (show (none : Option Word) = some w from h)
/-- BUDGET_CAP. -/
theorem budgetCap (d : Desc) : Statement (.budgetCap d) := by
  intro w h; exact nomatch (show (none : Option Word) = some w from h)
/-- JOB_ALIGN. -/
theorem jobAlign (d : Desc) : Statement (.jobAlign d) := by
  intro w h; exact nomatch (show (none : Option Word) = some w from h)
/-- LEND_POLICY. -/
theorem lendPolicy (d : Desc) : Statement (.lendPolicy d) := by
  intro w h; exact nomatch (show (none : Option Word) = some w from h)
/-- HINT_PHASE. -/
theorem hintPhase (d : Desc) : Statement (.hintPhase d) := by
  intro w h; exact nomatch (show (none : Option Word) = some w from h)
/-- STEP_MARK. -/
theorem stepMark (d : Desc) : Statement (.stepMark d) := by
  intro w h; exact nomatch (show (none : Option Word) = some w from h)
/-- WATCH_ARM. -/
theorem watchArm (d : Desc) : Statement (.watchArm d) := by
  intro w h; exact nomatch (show (none : Option Word) = some w from h)
/-- WATCH_CANCEL. -/
theorem watchCancel (d : Desc) : Statement (.watchCancel d) := by
  intro w h; exact nomatch (show (none : Option Word) = some w from h)
/-- LOAD_PROGRAM. -/
theorem loadProgram (d : Desc) : Statement (.loadProgram d) := by
  intro w h; exact nomatch (show (none : Option Word) = some w from h)
/-- BIND_PROGRAM. -/
theorem bindProgram (d : Desc) : Statement (.bindProgram d) := by
  intro w h; exact nomatch (show (none : Option Word) = some w from h)
/-- LOAD_MODEL. -/
theorem loadModel (d : Desc) : Statement (.loadModel d) := by
  intro w h; exact nomatch (show (none : Option Word) = some w from h)
/-- BIND_MODEL. -/
theorem bindModel (d : Desc) : Statement (.bindModel d) := by
  intro w h; exact nomatch (show (none : Option Word) = some w from h)
/-- RC_CONFIG. -/
theorem rcConfig (d : Desc) : Statement (.rcConfig d) := by
  intro w h; exact nomatch (show (none : Option Word) = some w from h)
/-- RC_RESET. -/
theorem rcReset (d : Desc) : Statement (.rcReset d) := by
  intro w h; exact nomatch (show (none : Option Word) = some w from h)
/-- TRACE_CONFIG. -/
theorem traceConfig (d : Desc) : Statement (.traceConfig d) := by
  intro w h; exact nomatch (show (none : Option Word) = some w from h)
/-- SNAPSHOT. -/
theorem snapshot (d : Desc) : Statement (.snapshot d) := by
  intro w h; exact nomatch (show (none : Option Word) = some w from h)
/-- SIEVE_START. -/
theorem sieveStart (d : Desc) : Statement (.sieveStart d) := by
  intro w h; exact nomatch (show (none : Option Word) = some w from h)
/-- SIEVE_STOP. -/
theorem sieveStop (d : Desc) : Statement (.sieveStop d) := by
  intro w h; exact nomatch (show (none : Option Word) = some w from h)
/-- SELFTEST. -/
theorem selftest (d : Desc) : Statement (.selftest d) := by
  intro w h; exact nomatch (show (none : Option Word) = some w from h)
/-- LOG_READ. -/
theorem logRead (d : Desc) : Statement (.logRead d) := by
  intro w h; exact nomatch (show (none : Option Word) = some w from h)
/-- LOG_MARK. -/
theorem logMark (d : Desc) : Statement (.logMark d) := by
  intro w h; exact nomatch (show (none : Option Word) = some w from h)
/-- RIGHTS_SET. -/
theorem rightsSet (d : Desc) : Statement (.rightsSet d) := by
  intro w h; exact nomatch (show (none : Option Word) = some w from h)
/-- PORT_QUIESCE. -/
theorem portQuiesce (d : Desc) : Statement (.portQuiesce d) := by
  intro w h; exact nomatch (show (none : Option Word) = some w from h)
/-- CHAR_LOAD. -/
theorem charLoad (d : Desc) : Statement (.charLoad d) := by
  intro w h; exact nomatch (show (none : Option Word) = some w from h)
/-- CLE_NOP. -/
theorem cleNop : Statement (.cleNop) := by
  intro w h
  obtain rfl := Option.some.inj h
  simp [rawCle]
/-- END. -/
theorem cleEnd : Statement (.cleEnd) := by
  intro w h
  obtain rfl := Option.some.inj h
  simp [rawCle]
/-- REP. -/
theorem rep (m1 : BitVec 4) (k1 : BitVec 6) : Statement (.rep m1 k1) := by
  intro w h
  obtain rfl := Option.some.inj h
  have h0 := imm_high m1 0#4 k1
  have h1 := imm_low (m1 ++ 0#4) k1
  simp_all [rawCle]
/-- SKIPIF. -/
theorem skipif (a : Reg) (b : Reg) (cond : BitVec 3) (n : BitVec 3) : Statement (.skipif a b cond n) := by
  intro w h
  obtain rfl := Option.some.inj h
  have h0 := imm_high cond 0#8 n
  have h1 := imm_low (cond ++ 0#8) n
  simp_all [rawCle]
/-- SEL. -/
theorem sel (d : Reg) (a : Reg) (b : Reg) (cond : BitVec 3) (c : Reg) : Statement (.sel d a b cond c) := by
  intro w h
  obtain rfl := Option.some.inj h
  have h0 := imm_high cond 0#7 c
  have h1 := imm_low (cond ++ 0#7) c
  simp_all [rawCle]
/-- LDI. -/
theorem ldi (d : Reg) (imm : BitVec 14) : Statement (.ldi d imm) := by
  intro w h
  obtain rfl := Option.some.inj h
  simp [rawCle]
/-- LDIQ. -/
theorem ldiq (d : Reg) (imm : BitVec 14) : Statement (.ldiq d imm) := by
  intro w h
  obtain rfl := Option.some.inj h
  simp [rawCle]
/-- LDC. -/
theorem ldc (d : Reg) (idx : BitVec 8) : Statement (.ldc d idx) := by
  intro w h
  obtain rfl := Option.some.inj h
  have h0 := imm_low 0#6 idx
  simp_all [rawCle]
/-- MOV. -/
theorem mov (d : Reg) (a : Reg) : Statement (.mov d a) := by
  intro w h
  obtain rfl := Option.some.inj h
  simp [rawCle]
/-- LDS. -/
theorem lds (d : Reg) (idx : BitVec 6) : Statement (.lds d idx) := by
  intro w h
  obtain rfl := Option.some.inj h
  have h0 := imm_low 0#8 idx
  simp_all [rawCle]
/-- STS. -/
theorem sts (a : Reg) (idx : BitVec 6) : Statement (.sts a idx) := by
  intro w h
  obtain rfl := Option.some.inj h
  have h0 := imm_low 0#8 idx
  simp_all [rawCle]
/-- LDSX. -/
theorem ldsx (d : Reg) (b : Reg) (idx : BitVec 6) : Statement (.ldsx d b idx) := by
  intro w h
  obtain rfl := Option.some.inj h
  have h0 := imm_low 0#8 idx
  simp_all [rawCle]
/-- STSX. -/
theorem stsx (a : Reg) (b : Reg) (idx : BitVec 6) : Statement (.stsx a b idx) := by
  intro w h
  obtain rfl := Option.some.inj h
  have h0 := imm_low 0#8 idx
  simp_all [rawCle]
/-- IN. -/
theorem cleIn (d : Reg) (port : BitVec 4) : Statement (.cleIn d port) := by
  intro w h
  obtain rfl := Option.some.inj h
  have h0 := imm_low 0#10 port
  simp_all [rawCle]
/-- OUT. -/
theorem cleOut (a : Reg) (port : BitVec 4) : Statement (.cleOut a port) := by
  intro w h
  obtain rfl := Option.some.inj h
  have h0 := imm_low 0#10 port
  simp_all [rawCle]
/-- ADD. -/
theorem add (d : Reg) (a : Reg) (b : Reg) : Statement (.add d a b) := by
  intro w h
  obtain rfl := Option.some.inj h
  simp [rawCle]
/-- SUB. -/
theorem sub (d : Reg) (a : Reg) (b : Reg) : Statement (.sub d a b) := by
  intro w h
  obtain rfl := Option.some.inj h
  simp [rawCle]
/-- ADDI. -/
theorem addi (d : Reg) (a : Reg) (imm : BitVec 14) : Statement (.addi d a imm) := by
  intro w h
  obtain rfl := Option.some.inj h
  simp [rawCle]
/-- ADDIQ. -/
theorem addiq (d : Reg) (a : Reg) (imm : BitVec 14) : Statement (.addiq d a imm) := by
  intro w h
  obtain rfl := Option.some.inj h
  simp [rawCle]
/-- NEG. -/
theorem neg (d : Reg) (a : Reg) : Statement (.neg d a) := by
  intro w h
  obtain rfl := Option.some.inj h
  simp [rawCle]
/-- ABS. -/
theorem abs (d : Reg) (a : Reg) : Statement (.abs d a) := by
  intro w h
  obtain rfl := Option.some.inj h
  simp [rawCle]
/-- MIN. -/
theorem min (d : Reg) (a : Reg) (b : Reg) : Statement (.min d a b) := by
  intro w h
  obtain rfl := Option.some.inj h
  simp [rawCle]
/-- MAX. -/
theorem max (d : Reg) (a : Reg) (b : Reg) : Statement (.max d a b) := by
  intro w h
  obtain rfl := Option.some.inj h
  simp [rawCle]
/-- CLAMP. -/
theorem clamp (d : Reg) (a : Reg) (b : Reg) : Statement (.clamp d a b) := by
  intro w h
  obtain rfl := Option.some.inj h
  simp [rawCle]
/-- MUL. -/
theorem mul (d : Reg) (a : Reg) (b : Reg) : Statement (.mul d a b) := by
  intro w h
  obtain rfl := Option.some.inj h
  simp [rawCle]
/-- MAC. -/
theorem mac (d : Reg) (a : Reg) (b : Reg) : Statement (.mac d a b) := by
  intro w h
  obtain rfl := Option.some.inj h
  simp [rawCle]
/-- MSU. -/
theorem msu (d : Reg) (a : Reg) (b : Reg) : Statement (.msu d a b) := by
  intro w h
  obtain rfl := Option.some.inj h
  simp [rawCle]
/-- SHL. -/
theorem shl (d : Reg) (a : Reg) (n : BitVec 5) : Statement (.shl d a n) := by
  intro w h
  obtain rfl := Option.some.inj h
  have h0 := imm_low 0#9 n
  simp_all [rawCle]
/-- SHR. -/
theorem shr (d : Reg) (a : Reg) (n : BitVec 5) : Statement (.shr d a n) := by
  intro w h
  obtain rfl := Option.some.inj h
  have h0 := imm_low 0#9 n
  simp_all [rawCle]
/-- AND. -/
theorem and (d : Reg) (a : Reg) (b : Reg) : Statement (.and d a b) := by
  intro w h
  obtain rfl := Option.some.inj h
  simp [rawCle]
/-- OR. -/
theorem or (d : Reg) (a : Reg) (b : Reg) : Statement (.or d a b) := by
  intro w h
  obtain rfl := Option.some.inj h
  simp [rawCle]
/-- XOR. -/
theorem xor (d : Reg) (a : Reg) (b : Reg) : Statement (.xor d a b) := by
  intro w h
  obtain rfl := Option.some.inj h
  simp [rawCle]
/-- DB_CQ_TAIL. -/
theorem dbCqTail (p : PortNo) (val : Word) (t : Nat) : Statement (.dbCqTail p val t) := by
  intro w h; exact nomatch (show (none : Option Word) = some w from h)
/-- DB_CPL_HEAD. -/
theorem dbCplHead (p : PortNo) (val : Word) (t : Nat) : Statement (.dbCplHead p val t) := by
  intro w h; exact nomatch (show (none : Option Word) = some w from h)
/-- DB_EVQ_HEAD. -/
theorem dbEvqHead (p : PortNo) (val : Word) (t : Nat) : Statement (.dbEvqHead p val t) := by
  intro w h; exact nomatch (show (none : Option Word) = some w from h)
/-- DB_TRQ_HEAD. -/
theorem dbTrqHead (p : PortNo) (val : Word) (t : Nat) : Statement (.dbTrqHead p val t) := by
  intro w h; exact nomatch (show (none : Option Word) = some w from h)
/-- IRQ_CLAIM. -/
theorem irqClaim (tgt : Fin 9) (t : Nat) : Statement (.irqClaim tgt t) := by
  intro w h; exact nomatch (show (none : Option Word) = some w from h)
/-- IRQ_DONE. -/
theorem irqDone (tgt : Fin 9) (val : Word) (t : Nat) : Statement (.irqDone tgt val t) := by
  intro w h; exact nomatch (show (none : Option Word) = some w from h)
/-- PORT_RESET. -/
theorem portReset (p : PortNo) (val : Word) (t : Nat) : Statement (.portReset p val t) := by
  intro w h; exact nomatch (show (none : Option Word) = some w from h)
/-- RING_EN. -/
theorem ringEn (p : PortNo) (val : Word) (t : Nat) : Statement (.ringEn p val t) := by
  intro w h; exact nomatch (show (none : Option Word) = some w from h)
/-- PORT_DISABLE. -/
theorem portDisable (p : PortNo) (val : Word) (t : Nat) : Statement (.portDisable p val t) := by
  intro w h; exact nomatch (show (none : Option Word) = some w from h)
/-- INT_SWSET. -/
theorem intSwset (k : Fin 8) (val : Word) (t : Nat) : Statement (.intSwset k val t) := by
  intro w h; exact nomatch (show (none : Option Word) = some w from h)
/-- BAD_ACCESS. -/
theorem badAccess (page : Option PortNo) (offset : BitVec 17) (write : Bool) (t : Nat) : Statement (.badAccess page offset write t) := by
  intro w h; exact nomatch (show (none : Option Word) = some w from h)
/-- CSEQ_LO_READ. -/
theorem cseqLoRead (path : Path) (t : Nat) : Statement (.cseqLoRead path t) := by
  intro w h; exact nomatch (show (none : Option Word) = some w from h)
/-- GTC_LO_READ. -/
theorem gtcLoRead (path : Path) (t : Nat) : Statement (.gtcLoRead path t) := by
  intro w h; exact nomatch (show (none : Option Word) = some w from h)
/-- FLT_LAST_LO_READ. -/
theorem fltLastLoRead (path : Path) (t : Nat) : Statement (.fltLastLoRead path t) := by
  intro w h; exact nomatch (show (none : Option Word) = some w from h)
/-- CONTROL_RESET. -/
theorem controlReset (val : Word) (t : Nat) : Statement (.controlReset val t) := by
  intro w h; exact nomatch (show (none : Option Word) = some w from h)
/-- CONTROL_RESET_DONE. -/
theorem controlResetDone (t : Nat) : Statement (.controlResetDone t) := by
  intro w h; exact nomatch (show (none : Option Word) = some w from h)
/-- MC_RESET. -/
theorem mcReset (val : Word) (t : Nat) : Statement (.mcReset val t) := by
  intro w h; exact nomatch (show (none : Option Word) = some w from h)
/-- MTR_GO. -/
theorem mtrGo (val : Word) (t : Nat) : Statement (.mtrGo val t) := by
  intro w h; exact nomatch (show (none : Option Word) = some w from h)
/-- CAL_SYSTEM_ZERO. -/
theorem calSystemZero (val : Word) (t : Nat) : Statement (.calSystemZero val t) := by
  intro w h; exact nomatch (show (none : Option Word) = some w from h)
/-- CAL_SYSTEM_FULL_SCALE. -/
theorem calSystemFullScale (val : Word) (t : Nat) : Statement (.calSystemFullScale val t) := by
  intro w h; exact nomatch (show (none : Option Word) = some w from h)
/-- CAL_SELF. -/
theorem calSelf (val : Word) (t : Nat) : Statement (.calSelf val t) := by
  intro w h; exact nomatch (show (none : Option Word) = some w from h)
/-- CAL_SELF_ALL. -/
theorem calSelfAll (val : Word) (t : Nat) : Statement (.calSelfAll val t) := by
  intro w h; exact nomatch (show (none : Option Word) = some w from h)
/-- CALIBRATION_DONE. -/
theorem calibrationDone (res : List CalRaw) (t : Nat) : Statement (.calibrationDone res t) := by
  intro w h; exact nomatch (show (none : Option Word) = some w from h)
/-- FMC_GO. -/
theorem fmcGo (val : Word) (t : Nat) : Statement (.fmcGo val t) := by
  intro w h; exact nomatch (show (none : Option Word) = some w from h)
/-- FMC_DONE. -/
theorem fmcDone (count : Nat) (t : Nat) : Statement (.fmcDone count t) := by
  intro w h; exact nomatch (show (none : Option Word) = some w from h)
/-- FW_GO. -/
theorem fwGo (val : Word) (t : Nat) : Statement (.fwGo val t) := by
  intro w h; exact nomatch (show (none : Option Word) = some w from h)
/-- FW_LOAD_DONE. -/
theorem fwLoadDone (img : FwImage) (t : Nat) : Statement (.fwLoadDone img t) := by
  intro w h; exact nomatch (show (none : Option Word) = some w from h)
/-- CHAR_RECORD_INSTALL. -/
theorem charRecordInstall (copy1 : Option CharRecord) (copy2 : Option CharRecord) (cals : List SysCal) (t : Nat) : Statement (.charRecordInstall copy1 copy2 cals t) := by
  intro w h; exact nomatch (show (none : Option Word) = some w from h)
/-- PWRMODE_RUN. -/
theorem pwrmodeRun (val : Word) (t : Nat) : Statement (.pwrmodeRun val t) := by
  intro w h; exact nomatch (show (none : Option Word) = some w from h)
/-- PWRMODE_SLEEP. -/
theorem pwrmodeSleep (val : Word) (t : Nat) : Statement (.pwrmodeSleep val t) := by
  intro w h; exact nomatch (show (none : Option Word) = some w from h)
/-- PWRMODE_DEEP. -/
theorem pwrmodeDeep (val : Word) (t : Nat) : Statement (.pwrmodeDeep val t) := by
  intro w h; exact nomatch (show (none : Option Word) = some w from h)
/-- PWRMODE_TRANSITION_DONE. -/
theorem pwrmodeTransitionDone (t : Nat) : Statement (.pwrmodeTransitionDone t) := by
  intro w h; exact nomatch (show (none : Option Word) = some w from h)
/-- CLK_SRC_SWITCH. -/
theorem clkSrcSwitch (val : Word) (t : Nat) : Statement (.clkSrcSwitch val t) := by
  intro w h; exact nomatch (show (none : Option Word) = some w from h)
/-- MUX_SWITCH_DONE. -/
theorem muxSwitchDone (mux : MuxId) (oldStopped : Bool) (t : Nat) : Statement (.muxSwitchDone mux oldStopped t) := by
  intro w h; exact nomatch (show (none : Option Word) = some w from h)
/-- PLL_CFG_WRITE. -/
theorem pllCfgWrite (pll : PllId) (val : Word) (t : Nat) : Statement (.pllCfgWrite pll val t) := by
  intro w h; exact nomatch (show (none : Option Word) = some w from h)
/-- PLL_LOCK. -/
theorem pllLock (pll : PllId) (t : Nat) : Statement (.pllLock pll t) := by
  intro w h; exact nomatch (show (none : Option Word) = some w from h)
/-- PLL_UNLOCK. -/
theorem pllUnlock (pll : PllId) (t : Nat) : Statement (.pllUnlock pll t) := by
  intro w h; exact nomatch (show (none : Option Word) = some w from h)
/-- SAFE_MODE_WRITE. -/
theorem safeModeWrite (val : Word) (t : Nat) : Statement (.safeModeWrite val t) := by
  intro w h; exact nomatch (show (none : Option Word) = some w from h)
/-- FLT_CFG_CLR. -/
theorem fltCfgClr (val : Word) (t : Nat) : Statement (.fltCfgClr val t) := by
  intro w h; exact nomatch (show (none : Option Word) = some w from h)
/-- WDT_KICK. -/
theorem wdtKick (val : Word) (t : Nat) : Statement (.wdtKick val t) := by
  intro w h; exact nomatch (show (none : Option Word) = some w from h)
/-- GMODE_WRITE. -/
theorem gmodeWrite (val : Word) (t : Nat) : Statement (.gmodeWrite val t) := by
  intro w h; exact nomatch (show (none : Option Word) = some w from h)
/-- TH_LIMIT_WRITE. -/
theorem thLimitWrite (off : BitVec 17) (val : Word) (t : Nat) : Statement (.thLimitWrite off val t) := by
  intro w h; exact nomatch (show (none : Option Word) = some w from h)
/-- PMB_CFG_WRITE. -/
theorem pmbCfgWrite (val : Word) (t : Nat) : Statement (.pmbCfgWrite val t) := by
  intro w h; exact nomatch (show (none : Option Word) = some w from h)
/-- PMB_ADDR_WRITE. -/
theorem pmbAddrWrite (i : Fin 5) (val : Word) (t : Nat) : Statement (.pmbAddrWrite i val t) := by
  intro w h; exact nomatch (show (none : Option Word) = some w from h)
/-- REGISTER_WRITE. -/
theorem registerWrite (off : BitVec 17) (val : Word) (path : Path) (t : Nat) : Statement (.registerWrite off val path t) := by
  intro w h; exact nomatch (show (none : Option Word) = some w from h)
/-- POR_ASSERT. -/
theorem porAssert (t : Nat) : Statement (.porAssert t) := by
  intro w h; exact nomatch (show (none : Option Word) = some w from h)
/-- POR_RELEASE. -/
theorem porRelease (nor : NorInfo) (t : Nat) : Statement (.porRelease nor t) := by
  intro w h; exact nomatch (show (none : Option Word) = some w from h)
/-- PFAIL. -/
theorem pfail (t : Nat) : Statement (.pfail t) := by
  intro w h; exact nomatch (show (none : Option Word) = some w from h)
/-- LAST_BREATH_DONE. -/
theorem lastBreathDone (t : Nat) : Statement (.lastBreathDone t) := by
  intro w h; exact nomatch (show (none : Option Word) = some w from h)
/-- STAGE1_ALERT. -/
theorem stage1Alert (t : Nat) : Statement (.stage1Alert t) := by
  intro w h; exact nomatch (show (none : Option Word) = some w from h)
/-- PMBUS_TRANSACTION_DONE. -/
theorem pmbusTransactionDone (res : BusRes) (t : Nat) : Statement (.pmbusTransactionDone res t) := by
  intro w h; exact nomatch (show (none : Option Word) = some w from h)
/-- PMBUS_POLL. -/
theorem pmbusPoll (kind : PollKind) (conv : Fin 5) (t : Nat) : Statement (.pmbusPoll kind conv t) := by
  intro w h; exact nomatch (show (none : Option Word) = some w from h)
/-- PMBUS_STRETCH_TIMEOUT. -/
theorem pmbusStretchTimeout (t : Nat) : Statement (.pmbusStretchTimeout t) := by
  intro w h; exact nomatch (show (none : Option Word) = some w from h)
/-- PMBUS_RETRY. -/
theorem pmbusRetry (t : Nat) : Statement (.pmbusRetry t) := by
  intro w h; exact nomatch (show (none : Option Word) = some w from h)
/-- AVS_RESPONSE. -/
theorem avsResponse (good : Bool) (t : Nat) : Statement (.avsResponse good t) := by
  intro w h; exact nomatch (show (none : Option Word) = some w from h)
/-- MAINS_SYNC_EDGE. -/
theorem mainsSyncEdge (mclks : Nat) (t : Nat) : Statement (.mainsSyncEdge mclks t) := by
  intro w h; exact nomatch (show (none : Option Word) = some w from h)
/-- SYNC_LOST. -/
theorem syncLost (t : Nat) : Statement (.syncLost t) := by
  intro w h; exact nomatch (show (none : Option Word) = some w from h)
/-- GTC_DISCONTINUITY. -/
theorem gtcDiscontinuity (g : GtcPair) (vldFell : Bool) : Statement (.gtcDiscontinuity g vldFell) := by
  intro w h; exact nomatch (show (none : Option Word) = some w from h)
/-- SHUTTER_START. -/
theorem shutterStart (t : Nat) : Statement (.shutterStart t) := by
  intro w h; exact nomatch (show (none : Option Word) = some w from h)
/-- FRAME_LATCH. -/
theorem frameLatch (n : Nat) (sense : List SenseSample) : Statement (.frameLatch n sense) := by
  intro w h; exact nomatch (show (none : Option Word) = some w from h)
/-- FRAME_START. -/
theorem frameStart (n : Nat) : Statement (.frameStart n) := by
  intro w h; exact nomatch (show (none : Option Word) = some w from h)
/-- CLE_SLOT. -/
theorem cleSlot (n : Nat) (pos : Fin 16) (slot : Fin 5) (upsets : List Upset) (errs : List StoreErr) : Statement (.cleSlot n pos slot upsets errs) := by
  intro w h; exact nomatch (show (none : Option Word) = some w from h)
/-- OVERRUN_HELD. -/
theorem overrunHeld (d : Dom) (t : Nat) : Statement (.overrunHeld d t) := by
  intro w h; exact nomatch (show (none : Option Word) = some w from h)
/-- LANTERN_INTERVAL. -/
theorem lanternInterval (m : Nat) (faults : List InfFault) : Statement (.lanternInterval m faults) := by
  intro w h; exact nomatch (show (none : Option Word) = some w from h)
/-- LANTERN_WINDOW_END. -/
theorem lanternWindowEnd (w : Nat) : Statement (.lanternWindowEnd w) := by
  intro w h; exact nomatch (show (none : Option Word) = some w from h)
/-- RC_BIN_END. -/
theorem rcBinEnd (d : Dom) (t : Nat) : Statement (.rcBinEnd d t) := by
  intro w h; exact nomatch (show (none : Option Word) = some w from h)
/-- SHUTTER. -/
theorem shutter (k : Nat) (meas : List EpochMeas) : Statement (.shutter k meas) := by
  intro w h; exact nomatch (show (none : Option Word) = some w from h)
/-- REGRANT. -/
theorem regrant (p : Nat) : Statement (.regrant p) := by
  intro w h; exact nomatch (show (none : Option Word) = some w from h)
/-- TRACE_CHUNK_HANDOFF. -/
theorem traceChunkHandoff (p : PortNo) (k : Nat) (t : Nat) : Statement (.traceChunkHandoff p k t) := by
  intro w h; exact nomatch (show (none : Option Word) = some w from h)
/-- COMPLETION_POST. -/
theorem completionPost (p : PortNo) (t : Nat) : Statement (.completionPost p t) := by
  intro w h; exact nomatch (show (none : Option Word) = some w from h)
/-- BULK_FETCH_DONE. -/
theorem bulkFetchDone (p : PortNo) (tag : BitVec 16) (data : Bulk) (t : Nat) : Statement (.bulkFetchDone p tag data t) := by
  intro w h; exact nomatch (show (none : Option Word) = some w from h)
/-- WRITE_ACK. -/
theorem writeAck (t : Nat) : Statement (.writeAck t) := by
  intro w h; exact nomatch (show (none : Option Word) = some w from h)
/-- FABRIC_ERROR. -/
theorem fabricError (p : PortNo) (ring : RingId) (idx : BitVec 17) (t : Nat) : Statement (.fabricError p ring idx t) := by
  intro w h; exact nomatch (show (none : Option Word) = some w from h)
/-- GROUP_TIMEOUT. -/
theorem groupTimeout (p : PortNo) (t : Nat) : Statement (.groupTimeout p t) := by
  intro w h; exact nomatch (show (none : Option Word) = some w from h)
/-- FAULT_MESSAGE. -/
theorem faultMessage (t : Nat) : Statement (.faultMessage t) := by
  intro w h; exact nomatch (show (none : Option Word) = some w from h)
/-- LINK_UP_FRAME. -/
theorem linkUpFrame (d : Fin 5) (rx : LinkRx 3200) (t : Nat) : Statement (.linkUpFrame d rx t) := by
  intro w h; exact nomatch (show (none : Option Word) = some w from h)
/-- LINK_DOWN_FRAME. -/
theorem linkDownFrame (d : Fin 5) (rx : LinkRx 1600) (t : Nat) : Statement (.linkDownFrame d rx t) := by
  intro w h; exact nomatch (show (none : Option Word) = some w from h)
/-- LINK_LOST. -/
theorem linkLost (d : Fin 5) (t : Nat) : Statement (.linkLost d t) := by
  intro w h; exact nomatch (show (none : Option Word) = some w from h)
/-- LINK_TRAINED. -/
theorem linkTrained (d : Fin 5) (ok : Bool) (lat : Nat) (t : Nat) : Statement (.linkTrained d ok lat t) := by
  intro w h; exact nomatch (show (none : Option Word) = some w from h)
/-- LINK_RESTORED. -/
theorem linkRestored (d : Fin 5) (t : Nat) : Statement (.linkRestored d t) := by
  intro w h; exact nomatch (show (none : Option Word) = some w from h)
/-- TILE_WAIT. -/
theorem tileWait (s : Site) (t : Nat) : Statement (.tileWait s t) := by
  intro w h; exact nomatch (show (none : Option Word) = some w from h)
/-- TILE_WAKE. -/
theorem tileWake (s : Site) (t : Nat) : Statement (.tileWake s t) := by
  intro w h; exact nomatch (show (none : Option Word) = some w from h)
/-- ACT_SAMPLE. -/
theorem actSample (s : Site) (counts : Vector (BitVec 16) 8) (t : Nat) : Statement (.actSample s counts t) := by
  intro w h; exact nomatch (show (none : Option Word) = some w from h)
/-- TILE_HINT. -/
theorem tileHint (s : Site) (h : Hint) (vld : Bool) (t : Nat) : Statement (.tileHint s h vld t) := by
  intro w h; exact nomatch (show (none : Option Word) = some w from h)
/-- TILE_STEP_MARK. -/
theorem tileStepMark (s : Site) (t : Nat) : Statement (.tileStepMark s t) := by
  intro w h; exact nomatch (show (none : Option Word) = some w from h)
/-- FREQ_RDY. -/
theorem freqRdy (s : Site) (t : Nat) : Statement (.freqRdy s t) := by
  intro w h; exact nomatch (show (none : Option Word) = some w from h)
/-- FREQ_ACK. -/
theorem freqAck (s : Site) (t : Nat) : Statement (.freqAck s t) := by
  intro w h; exact nomatch (show (none : Option Word) = some w from h)
/-- FREQ_WITHDRAW. -/
theorem freqWithdraw (s : Site) (t : Nat) : Statement (.freqWithdraw s t) := by
  intro w h; exact nomatch (show (none : Option Word) = some w from h)
/-- CELL_REPORT. -/
theorem cellReport (c : CellNo) (word : Word) (t : Nat) : Statement (.cellReport c word t) := by
  intro w h; exact nomatch (show (none : Option Word) = some w from h)
/-- CELL_AUTONOMOUS_HOLD. -/
theorem cellAutonomousHold (c : CellNo) (t : Nat) : Statement (.cellAutonomousHold c t) := by
  intro w h; exact nomatch (show (none : Option Word) = some w from h)
/-- CELL_OVERLOAD. -/
theorem cellOverload (c : CellNo) (t : Nat) : Statement (.cellOverload c t) := by
  intro w h; exact nomatch (show (none : Option Word) = some w from h)
/-- CELL_FAIL. -/
theorem cellFail (c : CellNo) (t : Nat) : Statement (.cellFail c t) := by
  intro w h; exact nomatch (show (none : Option Word) = some w from h)
/-- ISOLATION_CHECK. -/
theorem isolationCheck (d : Dom) (k : Fin 14) (t : Nat) : Statement (.isolationCheck d k t) := by
  intro w h; exact nomatch (show (none : Option Word) = some w from h)
/-- DERATE_THROTTLE. -/
theorem derateThrottle (d : Dom) (t : Nat) : Statement (.derateThrottle d t) := by
  intro w h; exact nomatch (show (none : Option Word) = some w from h)
/-- CELL_PARK. -/
theorem cellPark (d : Dom) (t : Nat) : Statement (.cellPark d t) := by
  intro w h; exact nomatch (show (none : Option Word) = some w from h)
/-- WARM_HOLD_EXPIRE. -/
theorem warmHoldExpire (c : CellNo) (t : Nat) : Statement (.warmHoldExpire c t) := by
  intro w h; exact nomatch (show (none : Option Word) = some w from h)
/-- CRACK_WINDOW_END. -/
theorem crackWindowEnd (d : Dom) (t : Nat) : Statement (.crackWindowEnd d t) := by
  intro w h; exact nomatch (show (none : Option Word) = some w from h)
/-- OV_CROSSING. -/
theorem ovCrossing (d : Dom) (t : Nat) : Statement (.ovCrossing d t) := by
  intro w h; exact nomatch (show (none : Option Word) = some w from h)
/-- DT1_CROSSING. -/
theorem dt1Crossing (d : Dom) (vlow : BitVec 16) (t : Nat) : Statement (.dt1Crossing d vlow t) := by
  intro w h; exact nomatch (show (none : Option Word) = some w from h)
/-- DT2_CROSSING. -/
theorem dt2Crossing (d : Dom) (vlow : BitVec 16) (t : Nat) : Statement (.dt2Crossing d vlow t) := by
  intro w h; exact nomatch (show (none : Option Word) = some w from h)
/-- DT3_CROSSING. -/
theorem dt3Crossing (d : Dom) (vlow : BitVec 16) (t : Nat) : Statement (.dt3Crossing d vlow t) := by
  intro w h; exact nomatch (show (none : Option Word) = some w from h)
/-- FLOOR_CROSSING. -/
theorem floorCrossing (d : Dom) (vlow : BitVec 16) (t : Nat) : Statement (.floorCrossing d vlow t) := by
  intro w h; exact nomatch (show (none : Option Word) = some w from h)
/-- CROSSING_RECOVERY. -/
theorem crossingRecovery (d : Dom) (lv : Level) (t : Nat) : Statement (.crossingRecovery d lv t) := by
  intro w h; exact nomatch (show (none : Option Word) = some w from h)
/-- GLINT_END. -/
theorem glintEnd (d : Dom) (t : Nat) : Statement (.glintEnd d t) := by
  intro w h; exact nomatch (show (none : Option Word) = some w from h)
/-- DT3_END. -/
theorem dt3End (d : Dom) (t : Nat) : Statement (.dt3End d t) := by
  intro w h; exact nomatch (show (none : Option Word) = some w from h)
/-- FLARE_CONDUCTION_END. -/
theorem flareConductionEnd (d : Dom) (t : Nat) : Statement (.flareConductionEnd d t) := by
  intro w h; exact nomatch (show (none : Option Word) = some w from h)
/-- FLARE_RECHARGED. -/
theorem flareRecharged (d : Dom) (t : Nat) : Statement (.flareRecharged d t) := by
  intro w h; exact nomatch (show (none : Option Word) = some w from h)
/-- FLARE_CHECK. -/
theorem flareCheck (d : Dom) (bankMv : BitVec 12) (low : Bool) (t : Nat) : Statement (.flareCheck d bankMv low t) := by
  intro w h; exact nomatch (show (none : Option Word) = some w from h)
/-- SOFT_START_END. -/
theorem softStartEnd (d : Dom) (t : Nat) : Statement (.softStartEnd d t) := by
  intro w h; exact nomatch (show (none : Option Word) = some w from h)
/-- SHORT. -/
theorem short (d : Dom) (t : Nat) : Statement (.short d t) := by
  intro w h; exact nomatch (show (none : Option Word) = some w from h)
/-- SHORT_RETRY. -/
theorem shortRetry (d : Dom) (t : Nat) : Statement (.shortRetry d t) := by
  intro w h; exact nomatch (show (none : Option Word) = some w from h)
/-- NEIGHBOUR_ARM_END. -/
theorem neighbourArmEnd (d : Dom) (t : Nat) : Statement (.neighbourArmEnd d t) := by
  intro w h; exact nomatch (show (none : Option Word) = some w from h)
/-- DISCHARGE_TIMEOUT. -/
theorem dischargeTimeout (d : Dom) (t : Nat) : Statement (.dischargeTimeout d t) := by
  intro w h; exact nomatch (show (none : Option Word) = some w from h)
/-- PLAUS. -/
theorem plaus (d : Dom) (t : Nat) : Statement (.plaus d t) := by
  intro w h; exact nomatch (show (none : Option Word) = some w from h)
/-- FOLLOW. -/
theorem follow (d : Dom) (t : Nat) : Statement (.follow d t) := by
  intro w h; exact nomatch (show (none : Option Word) = some w from h)
/-- FREQ_DEFER_TIMEOUT. -/
theorem freqDeferTimeout (s : Site) (t : Nat) : Statement (.freqDeferTimeout s t) := by
  intro w h; exact nomatch (show (none : Option Word) = some w from h)
/-- SCRUB. -/
theorem scrub (hit : ScrubHit) (t : Nat) : Statement (.scrub hit t) := by
  intro w h; exact nomatch (show (none : Option Word) = some w from h)
/-- SELFTEST_DONE. -/
theorem selftestDone (u : TestUnit) (res : TestResult) (t : Nat) : Statement (.selftestDone u res t) := by
  intro w h; exact nomatch (show (none : Option Word) = some w from h)
/-- THERMAL_SAMPLE_START. -/
theorem thermalSampleStart (t : Nat) : Statement (.thermalSampleStart t) := by
  intro w h; exact nomatch (show (none : Option Word) = some w from h)
/-- THERMAL_SAMPLE_COMPLETE. -/
theorem thermalSampleComplete (convs : Vector Conv 320) (t : Nat) : Statement (.thermalSampleComplete convs t) := by
  intro w h; exact nomatch (show (none : Option Word) = some w from h)
/-- TRIP_CONFIRM. -/
theorem tripConfirm (s : Fin 320) (conv : Conv) (t : Nat) : Statement (.tripConfirm s conv t) := by
  intro w h; exact nomatch (show (none : Option Word) = some w from h)
/-- FAST_SAMPLING_END. -/
theorem fastSamplingEnd (t : Nat) : Statement (.fastSamplingEnd t) := by
  intro w h; exact nomatch (show (none : Option Word) = some w from h)
/-- HOT_HOLD_END. -/
theorem hotHoldEnd (d : Dom) (t : Nat) : Statement (.hotHoldEnd d t) := by
  intro w h; exact nomatch (show (none : Option Word) = some w from h)
/-- DIE_SILENT. -/
theorem dieSilent (d : Fin 5) (t : Nat) : Statement (.dieSilent d t) := by
  intro w h; exact nomatch (show (none : Option Word) = some w from h)
/-- THERMAL_RESTART. -/
theorem thermalRestart (t : Nat) : Statement (.thermalRestart t) := by
  intro w h; exact nomatch (show (none : Option Word) = some w from h)
/-- METER_SETTLE_END. -/
theorem meterSettleEnd (t : Nat) : Statement (.meterSettleEnd t) := by
  intro w h; exact nomatch (show (none : Option Word) = some w from h)
/-- METER_WINDOW_END. -/
theorem meterWindowEnd (pos : Nat) (neg : Nat) (t : Nat) : Statement (.meterWindowEnd pos neg t) := by
  intro w h; exact nomatch (show (none : Option Word) = some w from h)
/-- CLOCK_MONITOR_FAULT. -/
theorem clockMonitorFault (c : MonClock) (t : Nat) : Statement (.clockMonitorFault c t) := by
  intro w h; exact nomatch (show (none : Option Word) = some w from h)
/-- WDT_TIMEOUT. -/
theorem wdtTimeout (t : Nat) : Statement (.wdtTimeout t) := by
  intro w h; exact nomatch (show (none : Option Word) = some w from h)
/-- WDT_FAILS_CLEAR. -/
theorem wdtFailsClear (t : Nat) : Statement (.wdtFailsClear t) := by
  intro w h; exact nomatch (show (none : Option Word) = some w from h)
/-- HEARTBEAT_TOGGLE. -/
theorem heartbeatToggle (t : Nat) : Statement (.heartbeatToggle t) := by
  intro w h; exact nomatch (show (none : Option Word) = some w from h)
/-- SAFE_PULSE_END. -/
theorem safePulseEnd (t : Nat) : Statement (.safePulseEnd t) := by
  intro w h; exact nomatch (show (none : Option Word) = some w from h)
/-- HOLDOFF_EXPIRE. -/
theorem holdoffExpire (tgt : Fin 9) (g : Fin 16) (t : Nat) : Statement (.holdoffExpire tgt g t) := by
  intro w h; exact nomatch (show (none : Option Word) = some w from h)
/-- STRATA_WRITE_DONE. -/
theorem strataWriteDone (ok : Bool) (t : Nat) : Statement (.strataWriteDone ok t) := by
  intro w h; exact nomatch (show (none : Option Word) = some w from h)
/-- CLOCK_RETURN. -/
theorem clockReturn (c : MonClock) (t : Nat) : Statement (.clockReturn c t) := by
  intro w h; exact nomatch (show (none : Option Word) = some w from h)
/-- GTC_VLD_RISE. -/
theorem gtcVldRise (t : Nat) : Statement (.gtcVldRise t) := by
  intro w h; exact nomatch (show (none : Option Word) = some w from h)
/-- PFAIL_N_RISE. -/
theorem pfailNRise (t : Nat) : Statement (.pfailNRise t) := by
  intro w h; exact nomatch (show (none : Option Word) = some w from h)
/-- PMB_ALERT_RELEASE. -/
theorem pmbAlertRelease (t : Nat) : Statement (.pmbAlertRelease t) := by
  intro w h; exact nomatch (show (none : Option Word) = some w from h)
/-- OVERLOAD_TIMER_CLEAR. -/
theorem overloadTimerClear (c : CellNo) (t : Nat) : Statement (.overloadTimerClear c t) := by
  intro w h; exact nomatch (show (none : Option Word) = some w from h)
/-- MC_START. -/
theorem mcStart (t : Nat) : Statement (.mcStart t) := by
  intro w h; exact nomatch (show (none : Option Word) = some w from h)
/-- NOR_READ_DONE. -/
theorem norReadDone (p : PortNo) (records : List (Nat × List Byte)) (rec : S0Read) (t : Nat) : Statement (.norReadDone p records rec t) := by
  intro w h; exact nomatch (show (none : Option Word) = some w from h)
/-- EVENT_POST. -/
theorem eventPost (p : PortNo) (t : Nat) : Statement (.eventPost p t) := by
  intro w h; exact nomatch (show (none : Option Word) = some w from h)
/-- LIFETIME_COUNTERS_RECORD. -/
theorem lifetimeCountersRecord (payload : List Byte) (t : Nat) : Statement (.lifetimeCountersRecord payload t) := by
  intro w h; exact nomatch (show (none : Option Word) = some w from h)

end Sys2Proof.Laws.CleFields
end

