-- ==== Sys2Proof/Tests/Slice0.lean ====
section
/-! SUPPORT. Small tests, and for every statement with hypotheses states and operands that meet them. -/

namespace Sys2Proof.Tests
open Sys2Proof Sys2Proof.Machine
set_option Elab.async false

/-! ### States of the witnesses -/

/-- All clocks run, GTC is valid and the shutters are started. -/
def base : State :=
  { State.reset with
    time := { State.reset.time with vld := true, everVld := true, started := true, fired := true, gtc := 100000, epoch := 50 }
    clk := { State.reset.clk with run := Vector.replicate 7 true } }

/-- Port 0 with its four rings enabled and one descriptor waiting. -/
def open0 (s : State) : State :=
  setPort s 0 (fun P => { P with rings := Vector.ofFn (fun i : Fin 4 =>
    { ringOf P i with en := true, prod := if i.val = 0 then 1 else 0, db := if i.val = 0 then 1 else 0 }) })

def ready : State := open0 base

/-- A descriptor of port 0 without flags, its CRC good. -/
def desc (op dom : Byte) (ops : List Byte) : Desc :=
  let d : Desc := { port := 0, t := 100000, opcode := op, flags := 0, tag := 7, dom := dom, sub := 0, rsv := 0, atGtc := 0,
                    ops := Vector.ofFn (fun i => ops.getD i.val 0), hseq := 0, crc := 0 }
  { d with crc := crc32c (descBytes d) }

/-- `Admits` as a test. -/
def admits (op : Nat) (d : Desc) (s : State) : Bool :=
  s.cmds.isEmpty && s.groups.all (fun g => g.isNone) && !dGroup d && !dAt d && fetchOk (now d.t s) d.port &&
  (fetchVerdict (now d.t s) op d).isNone && (fetched op d s).cmds.all (fun c => (cellChecks (fetched op d s) c).isEmpty &&
    (firstFail [stateCheck (fetched op d s) false c, busyCheck (fetched op d s) c, unitCheck (fetched op d s) c]).isNone)

theorem admits_iff {op : Nat} {d : Desc} {s : State} (h : admits op d s = true) : Admits op d s := by
  simp only [admits, Bool.and_eq_true, Bool.not_eq_true', List.isEmpty_iff, Option.isNone_iff_eq_none, List.all_eq_true] at h
  obtain ⟨⟨⟨⟨⟨⟨h1, h2⟩, h3⟩, h4⟩, h5⟩, h6⟩, h7⟩ := h
  refine ⟨h1, fun p => ?_, h3, h4, h5, h6, fun c hc => ?_⟩
  · have := (Vector.all_eq_true.mp h2) p.val p.isLt
    rw [Laws.vget_lt _ p.isLt]; simpa using this
  · exact ⟨(h7 c (by simp [hc])).1, (h7 c (by simp [hc])).2⟩


/-! ### Well-formedness: one ill-formed term for each check -/

theorem test_wf_descriptors_of_another_row :
    (let d := desc 0x10 0 []
     [Instr.nop d, .domTarget d, .domFreq d, .domLimits d, .domPair d, .domUnpair d, .domCellmap d, .budgetSet d, .budgetCap d,
      .jobAlign d, .lendPolicy d, .hintPhase d, .stepMark d, .watchArm d, .watchCancel d, .loadProgram d, .bindProgram d,
      .loadModel d, .bindModel d, .rcConfig d, .rcReset d, .traceConfig d, .snapshot d, .sieveStart d, .sieveStop d,
      .selftest d, .logRead d, .logMark d, .rightsSet d, .portQuiesce d, .charLoad d].all (fun i => !i.wf)) = true := by decide +kernel
theorem test_wf_domState_refused : (Instr.domState (desc 0x11 0 [])).wf = false := by decide +kernel
theorem test_wf_domState_admitted : (Instr.domState (desc 0x10 0 [])).wf = true := by decide +kernel
theorem test_wf_skipif_condition : (Instr.skipif 0 0 6 1).wf = false := by decide
theorem test_wf_skipif_count : (Instr.skipif 0 0 0 0).wf = false := by decide
theorem test_wf_sel_condition : (Instr.sel 0 0 0 7 0).wf = false := by decide
theorem test_wf_in_port : (Instr.cleIn 0 13).wf = false := by decide
theorem test_wf_out_port : (Instr.cleOut 0 4).wf = false := by decide
theorem test_wf_shl_count : (Instr.shl 0 0 0).wf = false := by decide
theorem test_wf_shr_count : (Instr.shr 0 0 0).wf = false := by decide
theorem test_wf_calibrations : (Instr.calSystemZero 0x20 0).wf = false ∧ (Instr.calSystemFullScale 0x10 0).wf = false ∧
    (Instr.calSelf 0x50 0).wf = false ∧ (Instr.calSelfAll 0x40 0).wf = false := by decide
theorem test_wf_power_modes : (Instr.pwrmodeRun 1 0).wf = false ∧ (Instr.pwrmodeSleep 2 0).wf = false ∧
    (Instr.pwrmodeDeep 3 0).wf = false := by decide
theorem test_wf_port_disable : (Instr.portDisable 0 1 0).wf = false := by decide
theorem test_wf_thermal_offset : (Instr.thLimitWrite 0x141C 0 0).wf = false := by decide
theorem test_wf_register_offset : (Instr.registerWrite 0x0032 0 .owner 0).wf = false ∧ (Instr.registerWrite 0x0C00 0 .owner 0).wf = false := by
  decide

/-- A characterisation record of a 16-site part whose map is given. -/
def record16 (map : List Site) : CharRecord :=
  { siteMap := map, vf := Vector.replicate 64 (Vector.replicate 8 (8, 240)), maxCode := Vector.replicate 64 64,
    leak := Vector.replicate 80 [], inrush := Vector.replicate 80 0, alpha := Vector.replicate 80 0, rll := Vector.replicate 80 0,
    nominal := Vector.replicate 80 300, ctrim := Vector.replicate 1024 3, rChar := Vector.replicate 1024 100,
    sensOff := Vector.replicate 320 0, cIss := 0, cMat := 0, mtrOfs := Vector.replicate 16 5, mtrGain := Vector.replicate 16 0x400001,
    iocLimit := Vector.replicate 5 0, serial := 9 }

def goodMap : List Site := (List.range 16).map (fun i => Fin.ofNat 64 (4 * i))

theorem test_wf_record_map : (Instr.charRecordInstall (some (record16 [0, 0])) none [] 0).wf = false ∧
    (Instr.norReadDone 0 [] ⟨some (record16 [1]), none⟩ 0).wf = false ∧ (Instr.charRecordInstall (some (record16 goodMap)) none [] 0).wf = true := by
  decide +kernel

/-! ### The queue, reset and the sequence -/

theorem witness_StepTakesFront : { base with pending := [Instr.cleNop, .cleEnd] }.pending = Instr.cleNop :: [.cleEnd] := rfl
theorem witness_StepKeepsSequence : step base = .next base ∧ SeqOk base ∧ base.pending = [] := ⟨rfl, Or.inl rfl, rfl⟩

/-! ### CLE words (Tables 07-6, 07-7 and 08-5) -/

theorem witness_CleRoundTrip : (Instr.sel 15 5 0 5 14).wf = true ∧ encodeCle (.sel 15 5 0 5 14) = some 0x17D4280E ∧
    decodeCle 0x17D4280E = some (.sel 15 5 0 5 14) := by decide +kernel
/-- The words of Table 07-11, the example program. -/
theorem test_decode_table_07_11 :
    ([0x40400002, 0x40800000, 0x64C48000, 0x31000000, 0x29400000, 0x890D4000, 0x29800001, 0x29C00002, 0x8119C000, 0x34100000, 0x2A000003,
      0x864E0000, 0x62650000, 0x62644000, 0x42800008, 0x62668000, 0x44240000, 0x08000000].map decodeCle) =
    [some (.cleIn 1 2), some (.cleIn 2 0), some (.sub 3 1 2), some (.lds 4 0), some (.ldc 5 0), some (.mac 4 3 5), some (.ldc 6 1), some (.ldc 7 2),
     some (.clamp 4 6 7), some (.sts 4 0), some (.ldc 8 3), some (.mul 9 3 8), some (.add 9 9 4), some (.add 9 9 1), some (.cleIn 10 8),
     some (.add 9 9 10), some (.cleOut 9 0), some .cleEnd] := by decide +kernel

/-- A running slot of D00: g1 = 1.5, g2 = −2.25, g3 = 0.0000153 (one LSB). -/
def lane0 : LaneCtx := { LaneCtx.reset with g := (((Vector.replicate 16 0).set 1 0x00018000).set 2 0xFFFDC000).set 3 1 }
def constProg : Program := { ident := 1, crc := 0, init := [], consts := [7, 9], sections := [[0x08000000]], unusable := false }
def slotState : State :=
  { base with slot := { SlotCtx.reset with a := lane0, b := lane0 },
              cfg := vupd base.cfg 0 (fun c => { c with prog := 3 }), progs := vset base.progs 3 (some constProg) }

theorem slotState_runs : SlotRuns slotState := ⟨rfl, by decide +kernel, rfl, rfl, rfl⟩
theorem witness_CleInstructionRuns : SlotRuns slotState ∧ slotState.slot.a.rep = none ∧ (Instr.ldc 4 1).wf = true ∧
    (1 : BitVec 8).toNat < (constsOf slotState slotState.slot.dom).length ∧ cleEff (.ldc 4 1) = some (effLdc 4 1) :=
  ⟨slotState_runs, rfl, rfl, by decide +kernel, rfl⟩
theorem witness_CleResults : SlotRuns slotState ∧ (31 : BitVec 5) ≠ 0 ∧ (12 : BitVec 4).toNat ≤ 12 ∧
    (0 : BitVec 8).toNat < (constsOf slotState slotState.slot.dom).length := ⟨slotState_runs, by decide, by decide, by decide +kernel⟩
theorem witness_CleStoresAndControl : SlotRuns slotState ∧ slotState.slot.a.rep = none ∧ (3 : BitVec 4).toNat ≤ 3 ∧
    (5 : BitVec 3).toNat ≤ 5 ∧ (7 : BitVec 3) ≠ 0 := ⟨slotState_runs, rfl, by decide, by decide, by decide⟩

def skipping : State := { slotState with slot := { slotState.slot with a := { lane0 with skip := 2 }, b := { lane0 with skip := 2 } } }
theorem witness_CleSkipped : skipping.slot.mismatch = none ∧ skipping.slot.cycle ≤ 37 ∧ skipping.slot.a = skipping.slot.b ∧
    skipping.slot.a.ended = false ∧ skipping.slot.a.skip ≠ 0 := ⟨rfl, by decide +kernel, rfl, rfl, by decide +kernel⟩
theorem witness_CleRepBody : 0 < 2 ∧ 0 < 64 ∧
    { lane0 with ip := 3, rep := some { start := 3, len := 2, left := 63 } }.ip = 3 := ⟨by decide, by decide, rfl⟩

def differing : State := { slotState with slot := { slotState.slot with b := { lane0 with g := lane0.g.set 1 2 } } }
theorem witness_CleMismatch : differing.slot.mismatch = none ∧ differing.slot.cycle ≤ 37 ∧ differing.slot.a.ended = false ∧
    differing.slot.b.ended = false ∧ differing.slot.a.skip = 0 ∧ differing.slot.b.skip = 0 ∧
    gr differing.slot.a 1 ≠ gr differing.slot.b 1 ∧ differing.safety.queue.length ≤ 768 ∧
    vget differing.laneOf differing.slot.pos = some 0 := by decide +kernel
/-- A disagreement of the lanes in a MOV ends the slot as a mismatch of cycle 0. -/
theorem test_mismatch : (match exec (.mov 4 1) differing with | .next u => u.slot.mismatch | _ => none) = some 0 := by decide +kernel

/-! ### Ports, rings and interrupts -/

theorem witness_Doorbells : bellHeard (now 0 ready) 0 0 = true ∧ bellHeard (now 0 ready) 0 1 = true ∧ bellHeard (now 0 ready) 0 2 = true ∧
    bellHeard (now 0 ready) 0 3 = true ∧ (portOf ready 0).backlog = [] ∧ (portOf ready 0).ovfDrops = 0 ∧
    (portOf ready 0).ovfOpen = false := by decide +kernel
/-- Both clauses of each doorbell: the full ring's tail and one more, an empty ring's head and one beyond. -/
theorem witness_Doorbells_clauses : (let r := ringOf (portOf ready 0) 0
    (65 < 2 * 64 ∧ ((64 : Int) - r.db) % 128 ≤ 64 - ((r.db : Int) - r.cons) % 128) ∧
    ¬((66 : Int) - r.db) % 128 ≤ 64 - ((r.db : Int) - r.cons) % 128) := by decide +kernel

def lostEvent : Event := { typ := 5, dom := 3, cls := 0, epoch := 2, pay := [] }
/-- An event ring with a waiting record, one in the backlog and two lost. -/
def backed : State := setPort ready 0 (fun P => { P with evWait := [lostEvent], backlog := [lostEvent], ovfDrops := 2, ovfOpen := true })
theorem witness_Doorbells_drain : bellHeard (now 0 backed) 0 2 = true ∧ (portOf backed 0).fabErr = false ∧ (let r := ringOf (portOf backed 0) 2
    (0 < 2 * 2 ^ r.log2.toNat ∧ ((0 : Int) - r.db) % (2 * 2 ^ r.log2.toNat) ≤ ((r.prod : Int) - r.db) % (2 * 2 ^ r.log2.toNat)) ∧
    0 < 2 ^ r.log2.toNat - (((r.prod : Int) - 0) % (2 * 2 ^ r.log2.toNat)).toNat - (portOf backed 0).evWait.length) := by decide +kernel

def claiming : State :=
  let s := setPort base 1 (fun P => { P with en := true, irqEn := BitVec.allOnes 256 })
  { s with irq := { s.irq with swset := BitVec.twoPow 256 100, hold := vset s.irq.hold 6 5, route := vset s.irq.route 100 1 } }
theorem witness_Interrupts_claim : claiming.clk.pwrCur ≠ 2 ∧ claiming.clk.crstBusy = false ∧
    ({ claiming with clk := { claiming.clk with crstBusy := true } } : State).clk.crstBusy = true ∧ claimOf claiming 1 = none ∧ srcEligible (now 0 claiming) 1 100 = true ∧
    (∀ j < 100, srcEligible (now 0 claiming) 1 j = false) := by decide +kernel
theorem witness_Interrupts_none : claimOf base 1 = none ∧ ∀ src < 256, srcEligible (now 0 base) 1 src = false := by decide +kernel
def claimed : State := setPort claiming 1 (fun P => { P with claim := some 100 })
theorem witness_Interrupts_done : claimOf claimed 1 = some 100 ∧ pageOpen claimed = true ∧ (portOf claimed 1).claim = some 100 ∧
    claimed.mc.gated = false ∧ (0x464 : Word).toNat % 2 ^ 10 = 100 ∧ (5 : Word).toNat % 2 ^ 10 ≠ 100 := by decide +kernel

def okCpl : Completion := { tag := 7, status := 0, seq := 1, epoch := 2, result := 3, isFinal := true, atWrite := false }
def anEvent : Event := { typ := 5, dom := 3, cls := 0, epoch := 2, pay := [] }
def posting : State := setPort ready 0 (fun P => { P with cplWait := [okCpl], evWait := [anEvent], resv := 1 })
theorem witness_RingTraffic_posts : (portOf posting 0).cplWait = [okCpl] ∧ canWrite (now 0 posting) 0 1 = true ∧ okCpl.atWrite = false ∧
    (portOf posting 0).evWait = [anEvent] ∧ (portOf posting 0).en = true ∧ canWrite (now 0 posting) 0 2 = true := by decide +kernel
def acking : State := { ready with wq := [{ port := 0, ring := some .cpl, addr := 0, data := [], prod := 1, cpl := [] }] }
/-- The last write of a command's output. -/
def ackingOut : State := { ready with wq := [{ port := 0, ring := none, addr := 0, data := [1], prod := 0, cpl := [(okCpl, false)] }] }
theorem witness_RingTraffic_output : ackingOut.wq = [{ port := 0, ring := none, addr := 0, data := [1], prod := 0, cpl := [(okCpl, false)] }] ∧
    okCpl.isFinal = true := ⟨rfl, rfl⟩
theorem witness_RingTraffic_ack : acking.wq = [{ port := 0, ring := some .cpl, addr := 0, data := [], prod := 1, cpl := [] }] := rfl

theorem witness_RingEnables_good : pageOpen base = true ∧ (∀ r : Fin 4, (ringOf (portOf base 0) r).en = false ∧
    6 ≤ (ringOf (portOf base 0) r).log2.toNat ∧ (ringOf (portOf base 0) r).log2.toNat ≤ 16) := by decide +kernel
/-- An event ring of 64 entries that is off, with 65 records waiting for it. -/
def overfull : State := setPort base 2 (fun P => { setRing P 2 (fun r => { r with log2 := 6 }) with evWait := List.replicate 65 anEvent })
theorem witness_RingEnables_overfull : pageOpen overfull = true ∧ (4 : Word).getLsbD 2 = true ∧ (ringOf (portOf overfull 2) 2).en = false ∧
    (6 ≤ (ringOf (portOf overfull 2) 2).log2.toNat ∧ (ringOf (portOf overfull 2) 2).log2.toNat ≤ 16) ∧
    2 ^ (ringOf (portOf overfull 2) 2).log2.toNat < (portOf overfull 2).evWait.length ∧ (ringOf (portOf overfull 2) 1).en = false ∧
    (portOf base 2).evWait.length ≤ 2 ^ (ringOf (portOf base 2) 2).log2.toNat := by decide +kernel
def badRing : State := setPort base 2 (fun P => setRing (setRing P 2 (fun r => { r with log2 := 5 })) 3 (fun r => { r with log2 := 17 }))
theorem witness_RingEnables_bad : pageOpen badRing = true ∧ (0xE : Word).getLsbD 2 = true ∧ (0xE : Word).getLsbD 3 = true ∧
    (∀ r : Fin 4, (ringOf (portOf badRing 2) r).en = false) ∧ (ringOf (portOf badRing 2) 2).log2.toNat < 6 ∧
    16 < (ringOf (portOf badRing 2) 3).log2.toNat ∧ ((1 : Word).getLsbD 0 = true ∧ (1 : Word).getLsbD 1 = false) := by decide +kernel

/-- A command of port 0 with a descriptor, at a stage. -/
def cmdOf (op : Nat) (st : Stage) (t : Nat) (d : Desc) : Cmd :=
  { d := d, op := op, stage := st, shutter := t, order := 0, ring := 0, idx := 0, accAt := 0, moved := false, refuse := false,
    grp := none, pos := 0, last := false, bulk := none, acked := Vector.replicate 5 false }
def waitingCmd : Cmd := cmdOf 0x10 .waiting 0 (desc 0x10 0 [])
theorem witness_RingEnables_refused : pageOpen { ready with cmds := [waitingCmd] } = true ∧ awaiting { ready with cmds := [waitingCmd] } 0 = true ∧
    (ringOf (portOf ready 0) 1).en = true ∧ (0xD : Word).getLsbD 1 = false ∧ awaiting ready 0 = false ∧ (portOf ready 0).backlog = [] ∧
    (portOf ready 0).ovfDrops = 0 ∧ (portOf ready 0).ovfOpen = false ∧ (0xF : Word).getLsbD 1 = true ∧ (ringOf (portOf ready 0) 0).en = true := by
  decide +kernel

def deepNow : State := { claiming with clk := { claiming.clk with pwrCur := 2 } }
theorem witness_PortResetRequested : pageOpen claiming = true ∧ claiming.time.gtc ≤ 100001 ∧ (portOf claiming 1).rstAt = none ∧
    setupOpen claiming = true ∧ (portOf claiming 2).en = false ∧ pageOpen deepNow = false ∧ setupOpen deepNow = false ∧
    (portOf (setPort claiming 1 (fun P => { P with rstAt := some 102000 })) 1).rstAt = some 102000 ∧
    (portOf claiming 1).en = true ∧ (portOf claiming 0).rstAt = none ∧ (portOf claiming 0).en = true ∧ (0xA5 : Word).toNat % 256 = 0xA5 ∧
    (0xA4 : Word).toNat % 256 ≠ 0xA5 ∧ (0xA4 : Word).getLsbD 0 = false := by decide +kernel
theorem witness_AccessesAndLatchedReads : base.safety.queue.length ≤ 768 ∧ base.clk.pwrCur ≠ 2 := by decide +kernel

/-! ### Faults, the safe state and the watchdog -/

/-- Domain 5 in a state; the other domains as in `base`. -/
def dom5 (f : Domain → Domain) : State := setDom base 5 f

def withMsg (s : State) (cls kind unit inst : Nat) : State :=
  { s with safety := { s.safety with queue := [{ bits := faultWord cls kind unit inst 9 0, from_ := none, ext := 0 }] } }
def containedMsg : State := withMsg (dom5 (fun D => { D with state := .lit })) 1 0x04 0x7 5
theorem witness_FaultMessages : containedMsg.clk.crstBusy = false ∧ containedMsg.safety.escEn = false ∧
    containedMsg.safety.queue.length = 1 ∧ (∀ q ∈ containedMsg.safety.queue, fClass q.bits = 1 ∧ namedDom q.bits = some 5) := by
  decide +kernel
def acceptedCmd : Cmd := cmdOf 0x11 .accepted 102000 (desc 0x11 0 [])
def fatalMsg : State := { withMsg (dom5 (fun D => { D with state := .lit })) 2 0x20 0x8 5 with cmds := [acceptedCmd] }
def escalating : State := let s := withMsg (dom5 (fun D => { D with state := .lit })) 1 0x04 0x7 5; { s with safety := { s.safety with escEn := true, escKind := 4 } }
theorem witness_FaultMessages_escalated : escalating.safety.escEn = true ∧ escalating.safety.safe = false ∧
    (∀ q ∈ escalating.safety.queue, fClass q.bits = 1 ∧ fKindOf q.bits = escalating.safety.escKind.toNat) := by decide +kernel
theorem witness_FaultMessages_fatal : (∀ q ∈ fatalMsg.safety.queue, fClass q.bits = 2) ∧ fatalMsg.safety.safe = false ∧
    (∃ c ∈ fatalMsg.cmds, c.stage = .accepted) ∧ fatalMsg.clk.lost = false ∧ (domOf fatalMsg 5).state = .lit ∧
    (domOf fatalMsg 5).pair ≠ .odd ∧ (domOf fatalMsg 5).tr.ph ≠ .discharge := by decide +kernel
/-- A DARK domain that no pair holds, a message in the safe state, and forced clocks. -/
theorem witness_FaultMessages_kept : (vget fatalMsg.dom 6).state = .dark ∧ (∀ e : Dom, 6 ∈ membersOf fatalMsg e → e = 6) ∧
    ({ fatalMsg with safety := { fatalMsg.safety with safe := true } } : State).safety.safe = true ∧
    (let x : State := { fatalMsg with clk := { fatalMsg.clk with lost := true, crstBusy := true } }
     x.clk.lost = true ∧ x.clk.ccur ≠ 1 ∧ x.clk.crstBusy = true) := by decide +kernel

def safeNow : State := { base with safety := { base.safety with safe := true, level := false } }
def heart : State := { base with safety := { base.safety with hbMode := true, hb := true } }
def pulsing : State := { base with safety := { base.safety with pulseTo := some 5 } }
theorem witness_SafeStatPin : safeNow.clk.crstBusy = false ∧ safeNow.safety.safe = true ∧ heart.safety.hbMode = true ∧
    heart.safety.safe = false ∧ (0x3C00 : Word).toNat / 256 % 256 = 0x3C ∧ (0x3D00 : Word).toNat / 256 % 256 ≠ 0x3C ∧
    base.safety.hbMode = false ∧ base.safety.pulseTo = none ∧ pulsing.safety.pulseTo = some 5 ∧ pulsing.safety.hbMode = false ∧
    5 ≤ (ackWrite (now 100005 pulsing)).time.run ∧ (ackWrite (now 100004 pulsing)).time.run < 5 ∧ vget heart.clk.run 6 = true ∧
    vget State.reset.clk.run 6 = false ∧
    base.clk.pwrCur ≠ 2 ∧ (0x80000000 : Word).getLsbD 31 = true := by decide +kernel

/-- All clocks run, with a clock register changed. -/
def clocked' (f : Clocks → Clocks) : State := { base with clk := f base.clk }
def logOpen : State := { base with strata := { base.strata with avail := true, nextSeq := 40 } }
def failing : State := { base with safety := { base.safety with pfailLow := true } }
def aRec (st : Fin 4) : StrataRec := { stratum := st, typ := 1, gtc := 5, pay := [1], seq := 39 }
def breathing : State := { logOpen with strata := { logOpen.strata with lbBusy := true, queue := [aRec 3, aRec 1] } }
def writing (again : Bool) : State := { logOpen with strata := { logOpen.strata with queue := [aRec 2, aRec 1], retried := again } }
def mcOn (s : State) : State := { s with mc := { s.mc with run := true, image := true, state := 3, kickAt := 0 } }
def porUp (s : State) : State := { s with safety := { s.safety with porHigh := true } }
theorem witness_PowerFailAndStrata : base.safety.porHigh = false ∧ (porUp logOpen).safety.porHigh = true ∧ (porUp base).safety.pfailLow = false ∧ base.strata.avail = false ∧ logOpen.strata.avail = true ∧
    failing.safety.pfailLow = true ∧ breathing.strata.lbBusy = true ∧ breathing.strata.queue = [aRec 3, aRec 1] ∧
    (∀ x ∈ [aRec 1], x.stratum ≠ 3) ∧ (writing true).strata.avail = true ∧ (writing true).strata.lbBusy = false ∧
    (writing true).strata.queue = [aRec 2, aRec 1] ∧ (writing true).strata.retried = true ∧ (writing false).strata.retried = false ∧
    (writing true).strata.errAt = [] ∧ mcRunning (mcOn logOpen) = true ∧ (mcOn logOpen).strata.queue.length < 16 := by decide +kernel
/-- The strata writer with a field changed. -/
def strata (s : State) (f : Strata → Strata) : State := { s with strata := f s.strata }
def norDev : Sfdp :=
  { revB := true, bytes := 64 * 2 ^ 20, page := 256, erases := [(0x1000, 0x20), (0x10000, 0xD8)], readMHz := 100, progUs := 250, instr4 := true, quad := 1,
    esusp := some { suspend := 0x75, resume := 0x7A, us := 30 }, psusp := some { suspend := 0xB0, resume := 0x30, us := 30 } }
/-- An erase of S1 in progress on a device that can suspend both. -/
def erasing1 (again : Bool) : State := strata logOpen (fun r => { r with erasing := some (1, 16384), dev := some norDev, eraseRetried := again })
theorem witness_PowerFailAndStrata_suspend : (erasing1 false).strata.lbBusy = false ∧ (erasing1 false).strata.queue = [] ∧
    (erasing1 false).strata.erasing = some (1, 16384) ∧ (1 : Fin 4) ≠ 3 ∧ (erasing1 false).strata.dev = some norDev ∧
    norDev.esusp = some { suspend := 0x75, resume := 0x7A, us := 30 } ∧ (writing false).strata.lbBusy = false ∧ (writing false).strata.erasing = none ∧
    (aRec 2).stratum ≠ 3 ∧ (clocked' (fun c => { c with crstBusy := true })).clk.crstBusy = true := by decide +kernel
theorem witness_PowerFailAndStrata_erase : (erasing1 false).strata.avail = true ∧ (erasing1 false).strata.eraseRetried = false ∧
    (erasing1 true).strata.eraseRetried = true ∧ (erasing1 true).strata.errAt = [] ∧ (erasing1 true).strata.erasing = some (1, 16384) := by decide +kernel
/-- The last breath: alone with an erase suspended, waiting, tried again, and with a program ready to fail. -/
def breathAlone : State := strata (erasing1 false) (fun r => { r with lbBusy := true, queue := [aRec 3] })
theorem witness_PowerFailAndStrata_breath : breathing.strata.lbWait = false ∧ breathing.strata.lbRetried = false ∧ breathing.strata.avail = true ∧
    (strata breathing (fun r => { r with lbWait := true })).strata.lbWait = true ∧ (strata breathing (fun r => { r with lbRetried := true })).strata.lbRetried = true ∧
    breathing.strata.errAt = [] ∧ breathAlone.strata.queue = [aRec 3] ∧ (aRec 3).stratum = 3 ∧ breathAlone.strata.lbWait = false ∧
    breathAlone.strata.dev = some norDev := by decide +kernel
/-- A head whose next block must be erased, one that needs none, a head before a block whose erase failed, and the third error within 1 s. -/
theorem witness_PowerFailAndStrata_heads : (0 / 256 * 256 + 0x4000 < (16384 / 256 + Nat.max 1 logOpen.strata.ahead.toNat) * 256) ∧
    ¬(0 / 256 * 256 + 0x4000 < (1 / 256 + Nat.max 1 logOpen.strata.ahead.toNat) * 256) ∧ logOpen.strata.spoiled = [] ∧
    ((1, 256) ∈ [((1 : Fin 4), 256)] ∧ ((1 : Fin 4), 512) ∉ [((1 : Fin 4), 256)]) ∧
    (strata (writing true) (fun r => { r with errAt := [0, 0] })).strata.errAt = [0, 0] ∧ (now 0 (writing true)).time.run < 0 + 1000000000 := by decide +kernel
/-- An early kick, one inside the window, its upper bound, and the time-out. -/
theorem witness_Watchdog : mcRunning (mcOn base) = true ∧ (now 1076562 (mcOn base)).time.run = 1076562 - 100000 ∧ (mcOn base).mc.kickAt = 0 ∧
    2 ≤ (mcOn base).mc.timeout.toNat ∧ (mcOn base).mc.timeout.toNat ≤ 10 ∧ (mcOn base).mc.openW.toNat < (mcOn base).mc.timeout.toNat ∧
    (mcOn base).mc.fails = 0 ∧ (0xC3000A10 : Word).toNat / 2 ^ 24 = 0xC3 ∧ 2 * (1076562 - 100000) < (mcOn base).mc.openW.toNat * 1953125 ∧
    (mcOn base).mc.openW.toNat * 1953125 ≤ 2 * (1076563 - 100000) ∧ 2 * (9865625 - 100000) ≤ (mcOn base).mc.timeout.toNat * 1953125 ∧
    (mcOn base).mc.timeout.toNat * 1953125 ≤ 2 * (9865625 - 100000) ∧ (mcOn base).mc.lastFail + 1000000000 ≤ (now 1000100000 (mcOn base)).time.run ∧
    (now 9865625 (mcOn base)).time.run ≤ 5 + 1000000000 := by decide +kernel

/-! ### Buses -/

def onBus (op : BusOp) (again : Bool) : State := { base with bus := { base.bus with cur := some { op := op, conv := 2, retried := again, data := 0 } } }
/-- A converter with its VOUT_MODE exponent read, commanded to 900 mV: READ_VOUT 230 / 2^8 V is within 30 mV, 0 is not. -/
def modeKnown (s : State) : State := setConv s 2 (fun c => { c with expo := -8, cmdMv := 900, badPolls := 2 })
theorem witness_Pmbus_vout : let x := modeKnown (onBus (.poll .vout) false)
    x.bus.cur = some { op := .poll .vout, conv := 2, retried := false, data := 0 } ∧ x.bus.waitRetry = false ∧ x.bus.queue = [] ∧
    convPresent x 2 = true ∧ (convOf x 2).expo ≠ 0 ∧ (convOf x 2).cmdMv ≠ 0 ∧ (convOf x 2).badPolls = 2 ∧
    (((230 : BitVec 16).toNat * 1000 : Int) - (convOf x 2).cmdMv * 2 ^ (convOf x 2).expo.natAbs).natAbs ≤ 30 * 2 ^ (convOf x 2).expo.natAbs ∧
    ¬(((0 : BitVec 16).toNat * 1000 : Int) - (convOf x 2).cmdMv * 2 ^ (convOf x 2).expo.natAbs).natAbs ≤ 30 * 2 ^ (convOf x 2).expo.natAbs ∧
    (convOf (onBus (.poll .vout) false) 2).expo = 0 := by decide +kernel
/-- A repetition on a live converter, on an absent one, and a bus with the safe state's OPERATION 0x00 behind a trim. -/
theorem witness_Pmbus_queue : convPresent (modeKnown (onBus .offNow true)) 2 = true ∧ (convOf (modeKnown (onBus .offNow true)) 2).expo ≠ 0 ∧
    (let x : State := { onBus .offNow true with bus := { (onBus .offNow true).bus with convEn := 0, waitRetry := true } }
     convPresent x 2 = false ∧ x.bus.waitRetry = true ∧ x.bus.queue = []) ∧
    (let x : State := { onBus (.trim 900) true with bus := { (onBus (.trim 900) true).bus with queue := [{ op := .offNow, conv := 1, retried := false, data := 0 }] } }
     (∃ y ∈ x.bus.queue, y.op = .offNow ∧ convPresent x y.conv = true)) := by decide +kernel
theorem witness_Pmbus_bad : (onBus .offNow true).bus.cur = some { op := .offNow, conv := 2, retried := true, data := 0 } ∧ BusOp.offNow ≠ .ara ∧
    (onBus .offNow true).safety.queue.length ≤ 768 ∧ (onBus .offNow true).bus.waitRetry = false ∧ (onBus .offNow true).bus.queue = [] :=
  ⟨rfl, by decide, by decide +kernel, rfl, rfl⟩
theorem witness_Pmbus_offNow_is_no_trim_or_poll : (∀ mv, BusOp.offNow ≠ .trim mv) ∧ (∀ k, BusOp.offNow ≠ .poll k) :=
  ⟨(fun _ h => by cases h), (fun _ h => by cases h)⟩
theorem witness_Pmbus_poll : vget base.clk.run 0 = true ∧ base.clk.pwrCur ≠ 2 ∧ base.bus.cur = none ∧ base.bus.waitRetry = false ∧
    base.bus.queue = [] ∧ convPresent base 2 = true ∧ (onBus .offNow true).bus.alert = false ∧ (porUp (onBus .offNow true)).safety.porHigh = true ∧
    base.safety.porHigh = false := by decide +kernel
/-- The second failure of a trim. -/
theorem witness_Pmbus_trim : (convOf (modeKnown (onBus (.trim 900) true)) 2).expo ≠ 0 ∧ (onBus (.trim 900) true).bus.cur = some { op := .trim 900, conv := 2, retried := true, data := 0 } ∧
    convPresent (onBus (.trim 900) true) 2 = true ∧ vget (onBus (.trim 900) true).clk.run 0 = true ∧ (onBus (.trim 900) true).clk.pwrCur ≠ 2 ∧
    (onBus (.trim 900) true).bus.waitRetry = false ∧ (onBus (.trim 900) true).bus.queue = [] := by decide +kernel
def trimming (again : Bool) : State := setConv (onBus .offNow false) 2 (fun c => { c with want := some 900, avsOut := true, avsRetry := again })
theorem witness_BusRegistersAndAvs : setupOpen (trimming true) = true ∧ (0x1F002 : Word).toNat % 4 ≠ 3 ∧
    (∀ k : Fin 5, k < 2 → (convOf (trimming true) k).avsOut = false) ∧ (convOf (trimming true) 2).avsOut = true ∧
    (convOf (trimming true) 2).want = some 900 ∧ (convOf (trimming true) 2).avsRetry = true ∧
    (convOf (trimming false) 2).avsRetry = false ∧ (trimming true).safety.queue.length ≤ 768 ∧ (trimming true).bus.cur ≠ none := by
  decide +kernel
/-- An admitted address, and one refused for each reason. -/
theorem witness_BusRegistersAndAvs_address :
    let clash := fun a : Nat => ∃ k : Fin 5, k ≠ 2 ∧ base.bus.convEn.getLsbD k = true ∧ (convOf base k).addr.toNat = a
    ¬(0x50 < 8 ∨ 0x50 = 0x0C ∨ 0x78 ≤ 0x50 ∨ clash 0x50) ∧ 7 < 8 ∧ 0x78 ≤ 0x78 ∧ clash 0x41 := by decide +kernel

/-! ### Cells and stations -/

/-- D05 LIT, its enables on, its comparators armed. -/
def lit5 (f : Domain → Domain) : State :=
  dom5 (fun D => f { D with state := .lit, en := true, vmeas := 24000, droop := { D.droop with armed := true, uvstop := false, flare := .armed },
                            prof := { D.prof with vref := 750 * 65536 } })
/-- The same with its cell 2 (physical cell 72) changed. -/
def cell72 (f : Cell → Cell) : State := lit5 (fun D => setCell D 2 f)

theorem witness_CellReportsAndOverload : isAbsent (lit5 id) (cellDom (72 : CellNo)) = false ∧
    ((List.range 32).countP (fun i => (0x10000001 : Word).getLsbD i)) % 2 = 0 ∧ ((List.range 32).countP (fun i => (0x10000000 : Word).getLsbD i)) % 2 = 1 ∧
    (lit5 id).safety.queue.length ≤ 768 ∧ cellWorks (cellAt (lit5 id) (5, 2)) = true ∧ (cellAt (lit5 id) (5, 2)).ovldSeen = false ∧
    (cellAt (cell72 (fun c => { c with ovldSeen := true })) (5, 2)).ovldSeen = true ∧
    (cellAt (cell72 (fun c => { c with ovTimer := 2000 })) (5, 2)).ovTimer = 2000 ∧ (cellAt (lit5 id) (5, 2)).ovTimer = 0 ∧ (cellDom (72 : CellNo), cellIdx (72 : CellNo)) = (5, 2) := by
  decide +kernel

/-- Cell 2 silent, with k cells of D05 out of service. -/
def silentWith (k : Nat) : State :=
  lit5 (fun D => { D with cells := vmapIdx D.cells (fun i c => if i = 2 then { c with silent := 12 } else if 14 - k ≤ i then { c with st := .offline } else c) })
theorem witness_CellIsolation : (∀ k ∈ [0, 3, 5], isAbsent (silentWith k) (cellDom (72 : CellNo)) = false ∧
    (silentWith k).safety.queue.length ≤ 768 ∧ cellWorks (cellAt (silentWith k) (5, 2)) = true ∧
    cellCauses (now 0 (silentWith k)) (cellStation (now 0 (silentWith k)) (cellDom (72 : CellNo))) (5, 2) = [0]) ∧
    (domOf (silentWith 5) 5).en = true := by decide +kernel
/-- The same with the cells still disabled, as a soft start waits. -/
def waitingDark : State := setDom (silentWith 5) 5 (fun D => { D with en := false, tr := { D.tr with ph := .startWait, goal := .lit } })
theorem witness_CellIsolation_waiting : inSoftStart (domOf waitingDark 5) = true ∧ (domOf waitingDark 5).en = false ∧
    cellCauses (now 0 waitingDark) (cellStation (now 0 waitingDark) (cellDom (72 : CellNo))) (5, 2) = [0] := by decide +kernel
def isolated72 : State := cell72 (fun c => { c with st := .isolated, failed := some 0, isoAt := 96001 })
theorem witness_CellIsolation_check : (cellAt isolated72 (5, 2)).st = .isolated ∧ (cellAt isolated72 (5, 2)).failed = some 0 ∧ (0 : BitVec 4) ≠ 5 ∧
    (cellAt isolated72 (5, 2)).isoAt + 4000 ≤ 100001 ∧ (cellAt isolated72 (5, 2)).isoRep = false := by decide +kernel
/-- Reports since the isolation: 0.502 A, or SINK clear over a drop of 0x011, against 0.5 A, a drop of 0x010, and both with SINK set. -/
theorem witness_CellIsolation_reports :
    let bad (w : Word) : Bool := decide (256 < repI w) || (!w.getLsbD 30 && decide (0x010 < w.toNat / 2 ^ 12 % 2 ^ 10))
    bad 0x00000101 = true ∧ bad 0x00011000 = true ∧ bad 0x00000100 = false ∧ bad 0x00010000 = false ∧ bad 0x40011101 = false := by decide

def parkable : State := lit5 (fun D => { D with park := { D.park with qual := some 1000 } })
theorem witness_ParkingAndDerating : parkable.time.gtc ≤ 100000 ∧ (domOf parkable 5).park.qual = some 1000 ∧ stationActs (now 100000 parkable) 5 = true ∧
    parks parkable 5 = true ∧ 1000 + 1000 * (cfgAt parkable (leader parkable 5)).lim.parkQual ≤ 100000 ∧ (domOf parkable 5).park.last = 0 ∧
    cellsIn (now 100000 parkable) 5 .ramp = [] ∧ parkCond (now 100000 parkable) 5 = true ∧
    parkMinOf parkable 5 < (cellsIn (now 100000 parkable) 5 .active).length := by decide +kernel
def warm72 : State := cell72 (fun c => { c with st := .warm, warmAt := 1 })
theorem witness_ParkingAndDerating_warm : (cellAt warm72 (5, 2)).st = .warm ∧
    (cellAt warm72 (5, 2)).warmAt + 10000 * (cfgAt warm72 (leader warm72 5)).lim.warmHold ≤ 100001 := by decide +kernel
def derating : State := lit5 (fun D => { D with arb := { D.arb with derRun := 8 },
                                                cells := vmapIdx D.cells (fun i c => if 11 ≤ i then { c with st := .offline } else c) })
theorem witness_ParkingAndDerating_derate : isOdd derating 5 = false ∧ isTile 5 = true ∧ ratingOf derating 5 (workingOf derating 5) = .derated ∧
    (domOf derating 5).arb.derate = false ∧ 8 ≤ (domOf derating 5).arb.derRun ∧ modeOn derating 0 = false ∧
    modeOn { derating with mode := { derating.mode with force := 0x31 } } 0 = true := by decide +kernel

def shortWindow : State := cell72 (fun c => { c with nWin := 255, sumI := 5, sumDrop := 6 })
theorem witness_Cracks_window : stationActs (now 0 shortWindow) 5 = true ∧ ∀ x ∈ stationCells (now 0 shortWindow) 5, (cellAt shortWindow x).nWin < 256 := by
  decide +kernel
def cracking : State := { cell72 (fun c => { c with nWin := 256, crackRun := 2, sumI := 200, sumDrop := 1000 }) with char := some (record16 goodMap) }
theorem witness_Cracks_flagged : cellDom (72 : CellNo) = 5 ∧ (domOf cracking 5).pair = .none ∧ stationActs (now 0 cracking) 5 = true ∧
    cracking.safety.queue.length ≤ 768 ∧
    (∀ y ∈ stationCells (now 0 cracking) 5, y ≠ (5, 2) → (cellAt cracking y).nWin < 256) ∧ 256 ≤ (cellAt cracking (5, 2)).nWin ∧
    cellWorks (cellAt cracking (5, 2)) = true ∧ (cellAt cracking (5, 2)).crack = false ∧ (cellAt cracking (5, 2)).crackRun = 2 ∧
    crackOver (cellAt cracking (5, 2)) (Max.max (domOf cracking 5).winT (domOf cracking 5).winT) (vget (record16 goodMap).rChar 72) 130 = true := by
  decide +kernel

theorem witness_Cracks_flagged_record : cracking.char = some (record16 goodMap) := rfl

/-! ### Transitions -/

/-- D05 in a phase of a transition to LIT. -/
def phase5 (ph : Trans) (f : TransSt → TransSt) : State :=
  lit5 (fun D => { D with tr := f { D.tr with ph := ph, goal := .lit, attempt := 1 } })
theorem witness_OvervoltageAndShort : isAbsent (lit5 id) 5 = false ∧ isOdd (lit5 id) 5 = false ∧ (domOf (lit5 id) 5).en = true ∧
    (lit5 id).time.gtc ≤ 100000 ∧ (domOf (phase5 .leg1 (fun x => { x with shortRun := 80 })) 5).tr.ph = .leg1 ∧
    (domOf (phase5 .leg2 (fun x => { x with shortRun := 80 })) 5).tr.ph = .leg2 ∧ (domOf (phase5 .settle (fun x => { x with shortRun := 80 })) 5).tr.ph = .settle ∧
    80 ≤ (domOf (phase5 .leg2 (fun x => { x with shortRun := 80 })) 5).tr.shortRun ∧
    isOdd (phase5 .leg1 (fun x => { x with shortRun := 80 })) 5 = false := by decide +kernel
def retrying : State := phase5 .idle (fun x => { x with retryAt := some 100000 })
def stuckRail : State := phase5 .discharge (fun x => { x with since := 1 })
def forcing : State := setDom (setDom (lit5 id) 4 (fun D => { D with droop := { D.droop with forced := true, forcedTo := 100000 } })) 6
  (fun D => { D with droop := { D.droop with forced := true, forcedTo := 100001 } })
def settling : State := phase5 .settle (fun x => { x with within := 8 })
theorem witness_Transitions : isOdd retrying 5 = false ∧ retrying.time.gtc ≤ 100000 ∧ (domOf retrying 5).tr.retryAt = some 100000 ∧
    (domOf stuckRail 5).tr.ph = .discharge ∧ (domOf stuckRail 5).tr.fed = false ∧ (domOf stuckRail 5).tr.since + 1000000 ≤ 1000001 ∧
    4 ∈ (membersOf forcing 5).flatMap neighbours1 ∧ 6 ∈ (membersOf forcing 5).flatMap neighbours1 ∧
    4 ∈ membersOf forcing (leader forcing 4) ∧ (domOf forcing 4).droop.forcedTo ≤ 100000 ∧ 100000 < (domOf forcing 6).droop.forcedTo := by decide +kernel
def shading : State := phase5 .settle (fun x => { x with goal := .shade })
/-- Tiles whose clock is released, and a SHADE soft start and an HBM station, whose clocks are not. -/
theorem witness_Transitions_end : isOdd settling 5 = false ∧ isAbsent settling 5 = false ∧ (domOf settling 5).state = .lit ∧
    (domOf settling 5).tr.ph = .settle ∧ (domOf settling 5).held = false ∧ isTile 5 = true ∧ 100000 % 250 = 0 ∧ 100001 % 250 ≠ 0 ∧
    (domOf settling 5).tr.goal = .lit ∧ 8 ≤ (domOf settling 5).tr.within ∧ freqReady settling 5 = true ∧
    (domOf shading 5).tr.goal = .shade ∧ (domOf shading 5).tr.ph = .settle ∧ isTile 70 = false := by decide +kernel

/-! ### Droop and flare banks -/

def dtOf (f : Droop → Droop) : State := lit5 (fun D => { D with droop := f D.droop })
theorem witness_DroopCrossings : levelsAct (lit5 id) 5 = true ∧ (domOf (lit5 id) 5).droop.in1 = false ∧ (domOf (lit5 id) 5).droop.in2 = false ∧
    (domOf (lit5 id) 5).droop.in3 = false ∧ (domOf (lit5 id) 5).droop.inF = false ∧ modeOn (lit5 id) 0 = false ∧ clockActs (lit5 id) 5 = true ∧
    (domOf (lit5 id) 5).droop.flare = .armed ∧ (cfgAt (lit5 id) 5).lim.flareEn ≠ 0 ∧ fireAtDt1 100000 (domOf (lit5 id) 5) = false ∧
    fireAtDt1 100000 (domOf (lit5 (fun D => { D with flareArm := true, armAt := 1 })) 5) = true ∧ levelsAct (dtOf (fun r => { r with flare := .failed })) 5 = true ∧
    (domOf (dtOf (fun r => { r with flare := .recharging })) 5).droop.flare = .recharging := by decide +kernel
theorem witness_DroopCrossings_missed : ∀ f ∈ [Flare.conducting, .recharging], let x := dtOf (fun r => { r with flare := f })
    levelsAct x 5 = true ∧ anyBank x 5 (fun f => f == .armed) = false ∧ fireAtDt1 100000 (domOf x 5) = false ∧ (cfgAt x 5).lim.flareEn ≠ 0 := by decide +kernel
/-- A FAB of die 0, its levels acting, beside a LIT tile of that die. -/
def fabLow : State := setDom (lit5 id) 64 (fun D => { D with state := .lit, en := true, droop := { D.droop with armed := true } })
theorem witness_DroopCrossings_fab : levelsAct fabLow 64 = true ∧ (domOf fabLow 64).droop.inF = false ∧ isTile 5 = true ∧ dieOf 5 = dieOf 64 ∧
    (domOf fabLow 5).state = .lit ∧ isOdd fabLow 5 = false := by decide +kernel
def stopped : State := dtOf (fun r => { r with stops := [50000, 99000, 60000] })
theorem witness_DroopCrossings_third : levelsAct stopped 5 = true ∧
    2 ≤ ((domOf stopped 5).droop.stops.filter (fun k => decide ((now 100000 stopped).time.gtc < k + 1000000))).length := by decide +kernel
theorem witness_DroopEndsAndFlareBanks : (domOf (dtOf (fun r => { r with glint := true })) 5).droop.glint = true ∧
    (domOf (dtOf (fun r => { r with glint := true })) 5).droop.in1 = false ∧
    (domOf (dtOf (fun r => { r with dt3 := true, dt3Good := 40 })) 5).droop.dt3 = true ∧
    (domOf (dtOf (fun r => { r with dt3 := true, dt3Good := 40 })) 5).droop.in3 = false ∧
    40 ≤ (domOf (dtOf (fun r => { r with dt3 := true, dt3Good := 40 })) 5).droop.dt3Good ∧
    (domOf (dtOf (fun r => { r with flare := .conducting })) 5).droop.flare = .conducting ∧
    (domOf (dtOf (fun r => { r with flare := .recharging, chkAt := some 1000 })) 5).droop.flare = .recharging ∧
    (domOf (dtOf (fun r => { r with flare := .recharging, chkAt := some 1000 })) 5).droop.chkAt = some 1000 ∧
    1000 ≤ (now 101000 (dtOf id)).time.run ∧ ¬(1000 ≤ (now 100999 (dtOf id)).time.run) ∧ (domOf (dtOf id) 5).droop.flare = .armed ∧
    (domOf (dtOf id) 5).droop.chkAt = none := by decide +kernel

/-! ### Supervision and slots -/

def plausible : State := lit5 (fun D => { D with sup := { D.sup with plant := true, cnt := 80, vp := 700 * 65536, resid := -40 * 65536, onset := 90000 } })
def following : State := lit5 (fun D => { D with sup := { D.sup with fcnt := 80, fonset := 90000 } })
theorem witness_Supervision : isOdd plausible 5 = false ∧ supRuns (domOf plausible 5) = true ∧ plausible.time.gtc ≤ 100000 ∧
    (domOf plausible 5).sup.plant = true ∧ 80 ≤ (domOf plausible 5).sup.cnt ∧ supRuns (domOf following 5) = true ∧
    (domOf following 5).sup.plant = false ∧ (cfgAt following 5).lim.followT ≤ (domOf following 5).sup.fcnt := by decide +kernel

/-- "LDC g1, 0; OUT VSET, g1; END" with one constant, bound to D05 (encodings of Table 07-7); 760 mV is 49,807,360. -/
def vsetProg (v : Word) : Program :=
  { ident := 2, crc := 0, init := [], consts := [v], sections := [[cleWord 0x0A 1 0 0 0, cleWord 0x11 0 1 0 0, cleWord 0x02 0 0 0 0]], unusable := false }
def slotting (v : Word) : State :=
  let s := lit5 (fun D => { D with overruns := 2, use := ⟨true, true, true⟩ })
  { s with cfg := vupd s.cfg 5 (fun c => { c with prog := 3 }), progs := vset s.progs 3 (some (vsetProg v)) }
theorem witness_SlotSetsCode : let x := slotting 49807360
    slotDom (5 : Fin 16) (0 : Fin 5) = 5 ∧ joined (now 0 x) 5 = false ∧ (domOf x 5).use.runs = true ∧ (domOf x 5).use.applied = true ∧
    (domOf x 5).use.kept = true ∧ (domOf x 5).fallback = false ∧ (domOf x 5).downBad = false ∧ (domOf x 5).stHeld = false ∧ x.clk.stretch = false ∧
    floorClampActs x 5 = false ∧ x.clk.crstBusy = false ∧ x.mism = [] ∧ 4 ≤ slotBudget x ∧ vget x.laneOf (5 : Fin 16) = some 5 ∧
    boundProg x 5 = some (vsetProg 49807360) ∧ (vsetProg 49807360).unusable = false := by decide +kernel
/-- Its section ends with both lanes alike, also with an upset that both never see and a corrected word. -/
theorem witness_SlotSetsCode_ends : ∀ errs ∈ [[], [StoreErr.corrProg 3]],
    let x := slotRan (errs.foldl (storeErr 5) (slotLearn (now 0 (slotting 49807360)) 5 0)) 5 0 5 0 errs.length (vsetProg 49807360) []
    errs.any errAborts = false ∧ x.slot.mismatch = none ∧ x.slot.a.ended = true ∧ x.slot.a = x.slot.b := by decide +kernel
def laneless : State := { slotting 49807360 with laneOf := vset (slotting 49807360).laneOf 5 none }
def overrun3 : State := lit5 (fun D => { D with overruns := 3 })
def unusableProg : State :=
  { slotting 49807360 with progs := vset (slotting 49807360).progs 3 (some { vsetProg 49807360 with unusable := true }) }
def softOverrun : State := lit5 (fun D => { D with overruns := 3, tr := { D.tr with ph := .leg1, goal := .lit } })
theorem witness_SlotOverrun : (domOf laneless 5).use.runs = true ∧ laneless.clk.crstBusy = false ∧ joined (now 0 laneless) 5 = false ∧
    floorClampActs laneless 5 = false ∧ laneless.mism = [] ∧ vget laneless.laneOf (5 : Fin 16) = none ∧ (domOf laneless 5).noLane = false ∧
    (domOf (setDom laneless 5 (fun D => { D with noLane := true })) 5).noLane = true ∧
    boundProg unusableProg 5 = some { vsetProg 49807360 with unusable := true } ∧ vget unusableProg.laneOf (5 : Fin 16) = some 5 ∧
    3 ≤ (domOf overrun3 5).overruns ∧ isOdd overrun3 5 = false ∧ (domOf overrun3 5).state = .lit ∧ (domOf overrun3 5).held = false ∧
    inSoftStart (domOf overrun3 5) = false ∧ (domOf overrun3 5).tr.ph ≠ .discharge ∧ overrun3.time.gtc ≤ 100000 ∧
    inSoftStart (domOf softOverrun 5) = true ∧ 3 ≤ (domOf softOverrun 5).overruns := by decide +kernel
/-- 760 mV is code (760 − 400) / 0.625 = 576 (R157). -/
theorem test_slot_code : (match exec (.cleSlot 0 5 0 [] []) (slotting 49807360) with | .next u => (domOf u 5).code | _ => 0) = 576 := by decide +kernel

/-! ### Lantern, RC and the tile inputs -/

/-- A model of zero weights whose output biases give the predictions 100, −200, 0 and 32767. -/
def zeroModel : Model :=
  let z (r c : Nat) : List (List Int) := List.replicate r (List.replicate c 0)
  { ident := 3, crc := 0, ffGain := 0, norm := List.replicate 48 (0, 1, 1), w1 := z 64 48, w2 := z 32 64, w3 := z 4 32,
    b1 := List.replicate 64 0, b2 := List.replicate 32 0, b3 := [100, -200, 0, 40000], req := List.replicate 96 (1, 1) ++ List.replicate 4 (1, 0),
    ck1 := List.replicate 48 0, ck2 := List.replicate 64 0, ck3 := List.replicate 32 0, cb1 := 0, cb2 := 0, cb3 := 39900, unusable := false }
def predicting : State :=
  let s := lit5 id
  { s with cfg := vupd s.cfg 5 (fun c => { c with model := some 2 }), models := vset s.models 2 (some zeroModel),
           mode := { s.mode with force := 0x30 } }
theorem witness_LanternAndRc : predicting.clk.crstBusy = false ∧ predicting.lanternFail = false ∧ lanternRuns predicting predicting.lanternFail 5 = true ∧
    lanternRuns predicting predicting.lanternFail 6 = false ∧ isAbsent predicting 5 = false ∧ isOdd predicting 5 = false := by decide +kernel
theorem witness_LanternAndRc_model : boundModel predicting 5 = some zeroModel := by rfl
/-- The verdicts of an interval on it: the predictions, and an upset of the first layer's sums, which the checksum pass finds. -/
theorem witness_LanternAndRc_verdicts : let x := normFeatures zeroModel (rawFeatures (now 1000 predicting) 5)
    (match checkedInfer (upsetsOf [] 5) zeroModel x with | .ok y => y == [100, -200, 0, 32767] | .error _ => false) = true ∧
    (match checkedInfer [.incomplete] zeroModel x with | .ok _ => false | .error e => e == (3, 3)) = true := by decide +kernel
theorem witness_LanternAndRc_absent : isAbsent (dom5 (fun D => { D with state := .absent })) 5 = true ∧
    isOdd (dom5 (fun D => { D with pair := .odd })) 5 = true := by decide +kernel
/-- An RC at bin 8 (and at 4,095) whose RC_L is 2: bin 6 holds 1,000. -/
def binning (i : Nat) : State :=
  let s := lit5 (fun D => { D with rc := { D.rc with bins := (⟨[]⟩ : Mem 16).write (i - 2) 1000, idx := i, cnt := 256, locked := true, esum := 40000 } })
  { s with cfg := vupd s.cfg 5 (fun c => { c with rc := { c.rc with on := 1, l := 2 } }), mode := { s.mode with force := 0x30 } }
theorem witness_LanternAndRc_bin : ∀ i ∈ [8, 4095], (binning i).clk.crstBusy = false ∧ isAbsent (binning i) 5 = false ∧ isOdd (binning i) 5 = false ∧
    (domOf (binning i) 5).rc.locked = true ∧ 2 ^ (cfgAt (binning i) 5).rc.k ≤ (domOf (binning i) 5).rc.cnt ∧ rcActive (binning i) 5 = true ∧
    (domOf (binning i) 5).rc.excl = false ∧ (cfgAt (binning i) 5).rc.l ≤ (domOf (binning i) 5).rc.idx ∧ (domOf (binning i) 5).rc.bins.wf = true ∧
    (1000 - rne 1000 (cfgAt (binning i) 5).rc.f + rne (rne 40000 (cfgAt (binning i) 5).rc.k) (cfgAt (binning i) 5).rc.g : Int) ≤ 32767 ∧
    (cfgAt (binning i) 5).rc.f = 10 ∧ (cfgAt (binning i) 5).rc.g = 3 ∧ (cfgAt (binning i) 5).rc.k = 8 := by decide +kernel

/-- Bins whose updates leave the 16 bits, either way, for the first time in their step. -/
theorem witness_LanternAndRc_saturates : (∀ e ∈ [(2 ^ 40 : Int), -(2 ^ 40)], let x := setDom (binning 8) 5 (fun D => { D with rc := { D.rc with esum := e } })
      let v := 1000 - rne 1000 (cfgAt x 5).rc.f + rne (rne e (cfgAt x 5).rc.k) (cfgAt x 5).rc.g
      (v < -32768 ∨ 32767 < v) ∧ (domOf x 5).rc.satStep = 0 ∧ x.safety.queue.length ≤ 768) ∧
    (clocked' (fun c => { c with crstBusy := true })).clk.crstBusy = true := by decide +kernel

/-- D05 with its tile site changed. -/
def tile5 (f : Tile → Tile) : State := lit5 (fun D => { D with tile := f D.tile })
theorem witness_TileBoundary : isAbsent (tile5 id) 5 = false ∧ (domOf (tile5 id) 5).tile.hintQ.length < 8 ∧
    8 ≤ ((domOf (tile5 (fun x => { x with hintQ := List.replicate 8 100020 })) 5).tile.hintQ.filter (fun g => decide (100000 < g))).length ∧
    takesMarksOf (tile5 id) 5 6 = false ∧ waiting (tile5 id) (leader (tile5 id) 5) = false ∧
    waiting (tile5 (fun x => { x with wait := true })) (leader (tile5 id) 5) = true := by decide +kernel
def change5 : FreqChange := { code := 9, swGtc := 1000, job := false, req := true, reqAt := 1000, rdy := false, go := false, attempt := 1,
                              held := false, missed := false, deferred := true, uvAt := false }
def changing (c : FreqChange) : State := tile5 (fun x => { x with change := some c, freqIn := 4, freqCode := 9 })
theorem witness_TileBoundary_change : isAbsent (changing change5) 5 = false ∧ (domOf (changing change5) 5).tile.change = some change5 ∧
    change5.req = true ∧ { change5 with go := true }.go = true ∧ withdrawDue (now 21000 (changing change5)) change5 = true ∧
    deferDue (now 100000 (changing change5)) 5 change5 = true ∧ (domOf (changing change5) 5).pair = .none ∧
    (domOf (changing change5) 5).tile.withdrawn ≠ some change5.code := by decide +kernel

/-! ### Frames and links -/

theorem single_of_reset (s : State) (d : Nat) (h : ∀ e, (domOf s e).pair = .none) : Single s d :=
  ⟨h d, fun e _ => by simp [isEven, h e]⟩
/-- Single, as a test of the two sites that the definition names. -/
theorem single_iff {s : State} {d : Nat} (h1 : (domOf s (d + 1)).pair = .none) (h2 : isEven s d = false) : Single s (d + 1) :=
  ⟨h1, fun e he => by have : e = d := by omega
                      rw [this]; exact h2⟩
theorem single5 : Single (lit5 id) (4 + 1) := single_iff (by decide +kernel) (by decide +kernel)
theorem witness_Frames : isAbsent (lit5 id) 5 = false ∧ (lit5 id).clk.stretch = false ∧ (lit5 id).clk.crstBusy = false ∧ (lit5 id).mism = [] ∧
    (∀ p : Fin 16, ∃ l, vget (lit5 id).laneOf p = some l ∧ (vget (lit5 id).lanes l).retired = false) := by decide +kernel
/-- Samples of two stations, one each; the same on stretched links. -/
def senses : List SenseSample := [{ dom := 5, vmeas := 24000, energy := 900 }, { dom := 6, vmeas := 24100, energy := 0 }]
theorem witness_Frames_sense : (senses.map (fun x => x.dom)).Nodup ∧ (∀ x ∈ senses, isAbsent (lit5 id) x.dom = false) ∧
    ({ lit5 id with clk := { (lit5 id).clk with stretch := true } } : State).clk.stretch = true ∧ (∀ x ∈ senses, x.dom ≠ 7) := by decide +kernel
def linked (f : Link → Link) : State :=
  let s := lit5 id
  { s with links := vupd s.links 0 (fun l => f { l with trained := true }) }
/-- The same in use on FOSC, and on PLL-C. -/
def carrying : State := let s := linked id; { s with clk := { s.clk with ccur := 1 } }
def someUp : UpFrame := { num := 7, status := 0, recs := List.replicate 18 ⟨1200, 24000, 0, 1, 14⟩, chan := 0 }
def someDown (order : BitVec 3) : DownFrame := { num := 7, marks := 1, recs := List.replicate 18 ⟨560, true, 1, 0xFFFE, order, 3⟩, chan := 0 }
theorem witness_StationLinks : (linkOf carrying 0).trained = true ∧ linkFits carrying = true ∧ linkFits (linked id) = false ∧
    (linkOf (linked id) 0).upBad = 0 ∧ (linked id).safety.queue.length ≤ 768 ∧ 4 ≤ (linkOf (linked (fun l => { l with upBad := 4 })) 0).upBad ∧
    (linkOf (linked (fun l => { l with upBad := 4 })) 0).trained = true ∧ (∀ x : Site, dieOf x = 0 → takesMarksOf carrying x 20 = false) ∧
    dieOf 20 ≠ 0 ∧ takesMarksOf carrying (5 : Site) 5 = true ∧ dieOf (5 : Site) = 0 ∧ isAbsent carrying 5 = false ∧ (domsOfDie 0)[5]? = some 5 ∧ (domOf (linked id) 5).tr.ph ≠ .discharge ∧
    dieOf 5 = 0 ∧ (domOf (linked id) 5).state = .lit ∧ (domOf (linked id) 5).held = false ∧ inSoftStart (domOf (linked id) 5) = false ∧
    (linkOf base 0).trained = false ∧ 64 ≤ (linkOf (linked (fun l => { l with lost := true, good := 64 })) 0).good ∧
    (linkOf (linked (fun l => { l with lost := true, good := 64 })) 0).lost = true ∧
    (linkOf (linked (fun l => { l with lost := true, good := 64 })) 0).trained = true := by decide +kernel

set_option maxRecDepth 1000000 in
/-- Frames that the manual's layout gives back, and bits that fail their CRC. -/
theorem witness_StationLinks_up : readUp someUp.bits = some someUp := by decide +kernel
set_option maxRecDepth 1000000 in
theorem witness_StationLinks_down : ∀ o ∈ [(2 : BitVec 3), 3], readDown (someDown o).bits = some (someDown o) := by decide +kernel
set_option maxRecDepth 1000000 in
theorem witness_StationLinks_bad : readUp 1 = none ∧ readDown 1 = none := by decide +kernel

/-! ### Thermal -/

/-- D05's four sensors read 70, 71, 72 and 73 °C; sensor 40 fails. -/
def convs : Vector Conv 320 := Vector.ofFn (fun i => if i.val = 40 then .error else if i.val / 4 = 5 then .reading (1120 + 16 * (i.val % 4)) else .reading 800)
def sampled : State := { lit5 id with links := (lit5 id).links.map (fun l => { l with trained := true }) }
theorem witness_ThermalSample : (∀ e : Fin 5, (linkOf sampled e).trained = true) ∧ (sensorAt sampled 20).live = false ∧ vget convs 20 = .reading 1120 ∧
    vget convs 40 = .error ∧ isAbsent sampled 5 = false ∧
    (∀ x ∈ sensorsOf 5, (sensorAt sampled x).live = false ∧ sampled.therm.excl.getLsbD x = false ∧ vget convs x = .reading (1120 + 16 * (x % 4))) ∧
    (∀ x ∈ dieSensors 4, (sensorAt sampled x).live = false ∧ sampled.therm.excl.getLsbD x = false ∧ vget convs x = .reading 800) ∧
    (∀ e : Dom, 72 ≤ e.val → isAbsent sampled e = false) ∧ (∀ x ∈ sensorsOf 5, sensAbsent sampled x = false) := by decide +kernel
/-- D05's sensors have all been declared failed; its die has others. -/
theorem witness_ThermalSample_failed :
    let s : State := { sampled with therm := { sampled.therm with excl := 0xF00000 } }
    (∀ x ∈ sensorsOf 5, ¬(s.therm.excl.getLsbD x = false ∧ sensAbsent s x = false)) ∧
    (∃ x ∈ dieSensors (dieOf 5), s.therm.excl.getLsbD x = false ∧ sensAbsent s x = false) := by decide +kernel
def candidate (tripAt : Option Nat) : State := { lit5 id with therm := { (lit5 id).therm with cands := [20, 21], tripAt := tripAt, pinLow := false } }
theorem witness_ThermalTripAndLimits : (candidate none).therm.tripped = false ∧ (20 : Fin 320) ∈ (candidate none).therm.cands ∧
    ((candidate none).therm.act.crit : Int) - 16 ≤ 1984 ∧ (1983 : Int) < ((candidate none).therm.act.crit : Int) - 16 ∧
    (sensorAt (candidate none) 20).fails = 0 ∧ (sensorAt (candidate none) 20).critFails = 0 ∧ (sensorAt (candidate none) 20).valid = false ∧
    (candidate none).clk.crstBusy = false ∧ ({ candidate none with clk := { (candidate none).clk with crstBusy := true } } : State).clk.crstBusy = true ∧
    isAbsent (candidate none) 5 = false ∧ (domOf (candidate none) 5).en = true ∧ (candidate (some 5)).therm.tripAt = some 5 ∧ (now 100000 (candidate (some 5))).time.run < 5 + 3600000000000 ∧
    vget (candidate none).therm.dieOut 2 = false ∧ vget (candidate none).therm.dieAt 2 + 1000000 ≤ (now 1100000 (candidate none)).time.run := by decide +kernel
def cooled : State := { base with therm := { base.therm with tripped := true, coolAt := some 5 } }
/-- The ranges and the order of the limits, as `ThermalTripAndLimits` states them (Table 11-4). -/
def limitsOk (k : Thermal) : Bool := decide (
  (960 ≤ k.warn.toNat ∧ k.warn.toNat ≤ 2000) ∧ (1280 ≤ k.throt.toNat ∧ k.throt.toNat ≤ 2048) ∧
  (0x6E0 ≤ k.crit.toNat ∧ k.crit.toNat ≤ 0x820) ∧ (640 ≤ k.restart.toNat ∧ k.restart.toNat ≤ 1920) ∧
  (1 ≤ k.hold.toNat ∧ k.hold.toNat ≤ 600) ∧ (16 ≤ k.rise.toNat ∧ k.rise.toNat ≤ 480) ∧ (16 ≤ k.hyst.toNat ∧ k.hyst.toNat ≤ 160) ∧
  (∀ j < 3, k.bands.toNat / 2 ^ (8 * j) % 256 < k.bands.toNat / 2 ^ (8 * (j + 1)) % 256) ∧
  k.restart.toNat + 32 ≤ k.warn.toNat ∧ k.warn.toNat ≤ k.throt.toNat ∧ k.throt.toNat + 32 ≤ k.crit.toNat)
theorem witness_ThermalTripAndLimits_timers : base.therm.fastAt + 1000000 ≤ (now 1100000 base).time.run ∧
    (now 1099999 base).time.run < base.therm.fastAt + 1000000 ∧ (domOf (lit5 id) 5).riseHold ≤ (now 100000 (lit5 id)).time.run ∧
    cooled.therm.tripped = true ∧ cooled.therm.noRestart = false ∧ cooled.therm.coolAt = some 5 ∧
    5 + 100000000 * cooled.therm.act.hold ≤ (now 1000100005 cooled).time.run ∧ vget cooled.clk.run 6 = true ∧
    vget (clocked' (fun c => { c with run := vset c.run 6 false })).clk.run 6 = false ∧ setupOpen base = true ∧ base.therm.critLock = false ∧
    limitsOk base.therm = true ∧ limitsOk { base.therm with warn := 0x6C0 } = true ∧ limitsOk { base.therm with warn := 0x6C1 } = false ∧
    limitsOk { base.therm with crit := 0x6C0 } = false ∧ ({ base with therm := { base.therm with critLock := true } } : State).therm.critLock = true := by decide +kernel

/-! ### The meter -/

def metering (f : Meter → Meter) : State := { base with meter := f { base.meter with mask := 0b1000000000110, gain := Vector.replicate 16 0x400000 } }
theorem witness_MeterScan : setupOpen (metering id) = true ∧ (3 : Word).getLsbD 0 = true ∧ (3 : Word).toNat / 16 % 16 = 0 ∧
    (3 : Word).toNat / 4 % 4 = (metering id).meter.mains.toNat ∧ calBusy (metering id).meter = false ∧ (metering id).meter.go = false ∧
    (metering id).meter.gated = false ∧ (metering id).meter.mask.getLsbD 1 = true ∧ (∀ j < 1, (metering id).meter.mask.getLsbD j = false) := by
  decide +kernel
def windowing (ch : BitVec 4) : State := metering (fun m => { m with go := true, phase := .window, ch := ch, c0 := some 5000000, winN := 81920, scanCnt := 3 })
theorem witness_MeterScan_window : (∀ ch ∈ [(1 : BitVec 4), 2, 12], (windowing ch).meter.phase = .window ∧ (windowing ch).meter.calPend = 0 ∧
      (windowing ch).meter.gated = false) ∧ (windowing 2).meter.mask.getLsbD 12 = true ∧ (∀ j < 12, 2 < j → (windowing 2).meter.mask.getLsbD j = false) ∧
    (∀ n, 12 < n → n < 16 → (windowing 12).meter.mask.getLsbD n = false) ∧ (windowing 12).meter.cont = false ∧ (windowing 1).meter.ch.toNat = 1 ∧
    (windowing 1).meter.c0 = some 5000000 ∧ (windowing 1).safety.queue.length ≤ 768 ∧ (8388607 : Int) < rdiv (90000 * 2 ^ 23) 81920 := by
  refine ⟨by decide +kernel, by decide +kernel, by decide +kernel, ?_, by decide +kernel, by decide +kernel, rfl, by decide +kernel, by decide +kernel⟩
  intro n h1 h2
  interval_cases n <;> decide +kernel
def edging : State := metering (fun m => { m with mains := 2, lastEdge := some 1000, edges := 1 })
theorem witness_MeterScan_edges : edging.meter.mains = 2 ∧ edging.meter.lastEdge = some 1000 ∧
    (let r := fun t => (now t edging).time.run
     1000 + 15400000 ≤ r 15501000 ∧ r 15501000 ≤ 1000 + 22200000 ∧ r 15500999 < 1000 + 15400000 ∧ 1000 + 40000000 ≤ r 40101000) ∧ (metering (fun m => { m with phase := .settle })).meter.phase = .settle := by
  decide +kernel
/-- A new mains selection, a scan in progress, a calibration that waits, one that runs, and a gated meter. -/
theorem witness_MeterScan_states : (7 : Word).toNat / 4 % 4 ≠ (metering id).meter.mains.toNat ∧ (windowing 1).meter.go = true ∧
    (windowing 1).meter.phase ≠ .cal ∧ (metering (fun m => { m with phase := .cal })).meter.phase = .cal ∧ (metering (fun m => { m with mask := 0 })).meter.mask = 0 ∧
    (metering (fun m => { m with phase := .window, calPend := 4 })).meter.calPend ≠ 0 ∧ (metering (fun m => { m with phase := .window, gated := true })).meter.gated = true ∧
    (metering (fun m => { m with phase := .settle, chMains := 2, chLost := true, syncLost := true })).meter.chMains = 2 ∧
    ((100000 + 120) % 250 ≤ 125 ∧ 125 < (100010 + 120) % 250) ∧ (metering (fun m => { m with mains := 2 })).meter.lastEdge = none ∧
    (windowing 12).meter.mask.getLsbD 1 = true := by decide +kernel
theorem witness_MeterCalibration : setupOpen (metering id) = true ∧ (0x110 : Word).getLsbD 0 = false ∧ (0x110 : Word).extractLsb' 4 4 = 1 ∧
    (0x120 : Word).extractLsb' 4 4 = 2 ∧ (0x140 : Word).extractLsb' 4 4 = 4 ∧ (0x150 : Word).extractLsb' 4 4 = 5 ∧
    (metering id).meter.phase = .idle ∧ (metering id).meter.calPend = 0 ∧ (windowing 1).meter.phase = .window := by decide +kernel
/-- A write that also starts a scan, one without GO, a calibration that already waits, and a closed path. -/
theorem witness_MeterCalibration_starts : (0x111 : Word).getLsbD 0 = true ∧ (metering id).meter.go = false ∧ (metering id).meter.mask ≠ 0 ∧
    (metering id).meter.gated = false ∧ (metering (fun m => { m with calPend := 2 })).meter.calPend ≠ 0 ∧
    (metering (fun m => { m with phase := .settle })).meter.phase = .settle ∧
    setupOpen { base with clk := { base.clk with pwrCur := 2 } } = false := by decide +kernel
def calibrating (k : BitVec 4) : State := metering (fun m => { m with phase := .cal, calCmd := k, calOn := 1, calTo := 10000 })
def raws : List CalRaw := [{ ch := 1, rawZ := 83886, rawR := 6000000 }, { ch := 2, rawZ := -83887, rawR := 5 }]
theorem witness_MeterCalibration_done : (calibrating 1).meter.phase = .cal ∧ (calibrating 1).meter.go = false ∧ (raws.map (fun r => r.ch)).Nodup ∧
    (calibrating 1).meter.calOn.toNat = 1 ∧ (83886 : Int).natAbs ≤ 83886 ∧ 83886 < (-83887 : Int).natAbs ∧ (83886 : Int) < 6000000 ∧
    (windowing 1).meter.go = true := by decide +kernel
/-- A system full scale at each side of its range: the gain for 3,000,000 steps is in it, that for 400,000 above it. -/
theorem witness_MeterCalibration_range : let g (cal : Nat) (y : Int) : Int := rdiv (cal * 256 * 2 ^ 22 : Nat) y
    (0x300000 ≤ g 10000 2560000 ∧ g 10000 2560000 ≤ 0x500000) ∧ 0x500000 < g 10000 400000 ∧ g 10000 7000000 < 0x300000 ∧
    (calibrating 2).meter.calCmd = 2 := by decide +kernel

/-! ### Clocks, power modes and resets -/

def clocked (f : Clocks → Clocks) : State := clocked' f
/-- PLL-C runs at 1,600 MHz / 2: R = 1, N = 64, P = 2 (Table 15-1's bounds). -/
def pll800 : PllCfg := { en := true, rdiv := 1, ndiv := 64, pdiv := 2 }
def locked : State := clocked (fun c => { c with csrc := 0, pllC := pll800, lockC := true })
theorem witness_ClocksAndPlls : setupOpen locked = true ∧ (0x111 : Word).getLsbD 8 = locked.clk.men ∧ (0x111 : Word).extractLsb' 4 2 = locked.clk.ssrc ∧
    (0x111 : Word).extractLsb' 0 2 ≠ locked.clk.csrc ∧ (0x111 : Word).extractLsb' 0 2 = 1 ∧ locked.clk.cBusy = false ∧
    (locked.clk.lockC && locked.clk.pllC.en && vget locked.clk.run 0) = true ∧ locked.clk.swMode = false ∧
    (clocked (fun c => { c with pllC := pll800 })).clk.lockC = false ∧ (clocked (fun c => { c with cBusy := true })).clk.cBusy = true ∧
    base.clk.lost = false ∧ base.safety.queue.length ≤ 768 ∧ (clocked (fun c => { c with swMode := true, sBusy := true })).clk.sBusy = true := by
  decide +kernel
def pllVal : Word := 0x81010002
theorem witness_ClocksAndPlls_config : pllSelected locked.clk .c = false ∧
    pllOk .c { en := true, rdiv := pllVal.extractLsb' 24 7, ndiv := pllVal.extractLsb' 10 14, pdiv := pllVal.extractLsb' 2 8 } = false ∧
    pllOk .c pll800 = true ∧ pll800 ≠ pllOf (clocked (fun c => { c with csrc := 0 })).clk .c ∧ (pllOf locked.clk .c).en = true ∧ locked.clk.pwrCur ≠ 2 ∧ pllLocked locked.clk .c = true ∧
    pllSelected (clocked (fun c => { c with ccur := 1 })).clk .c = true := by decide +kernel
/-- The SCLK mux: a locked PLL-T, a stopped FOSC, and a switch whose old clock has stopped. -/
theorem witness_ClocksAndPlls_sclk : let c := (clocked (fun c => { c with ssrc := 0, pllT := pll800, lockT := true, csrc := 0, ccur := 0 })).clk
    (0x010 : Word).extractLsb' 4 2 = 1 ∧ (0x010 : Word).extractLsb' 4 2 ≠ c.ssrc ∧ c.sBusy = false ∧ (c.lockT && c.pllT.en && vget c.run 0) = true ∧
    (0x020 : Word).extractLsb' 4 2 = 2 ∧ (clocked (fun c => { c with cBusy := true, swMode := true })).clk.swMode = true ∧
    setupOpen { base with clk := { base.clk with pwrCur := 2 } } = false := by decide +kernel
/-- Switches begun under WAITLOW whose old clock, and whose new clock, has stopped; one under CHECKED; forced clocks with PLL-M locking. -/
theorem witness_ClocksAndPlls_waits : let w := (clocked (fun c => { c with cBusy := true, cWait := true, csrc := 1, pllC := pll800 })).clk
    let x := (clocked (fun c => { c with sBusy := true, sWait := true, ssrc := 0, run := vset c.run 5 false })).clk
    (w.cBusy = true ∧ w.cWait = true ∧ w.lost = false ∧ ¬(w.pllC.en = false ∨ vget w.run 0 = false)) ∧
    (x.sBusy = true ∧ x.sWait = true ∧ x.ssrc = 0 ∧ vget x.run 5 = false) ∧
    (clocked (fun c => { c with cBusy := true })).clk.cWait = false ∧
    (let m := (clocked (fun c => { c with men := true, lost := true, pllM := pll800 })).clk
     m.men = true ∧ m.lost = true ∧ m.pllM.en = true) := by decide +kernel
theorem witness_ClockMonitors : (∀ c ∈ [MonClock.xa, .xb, .cclk, .sclk, .hclk, .fosc, .mclk],
      monitored (clocked (fun c => { c with mon := 7 })).clk c = true ∧ vget (clocked (fun c => { c with mon := 7 })).clk.run (clockInst c) = true) ∧
    (clocked (fun c => { c with ccur := 1, scur := 1 })).clk.ccur ≠ 0 ∧ (clocked (fun c => { c with ccur := 1, scur := 1 })).clk.scur ≠ 0 := by
  decide +kernel
theorem witness_ClockMonitors_fosc : base.clk.ccur = 0 ∧ monitored (clocked (fun c => { c with mon := 7 })).clk .fosc = true ∧
    monitored (clocked (fun c => { c with mon := 0 })).clk .fosc = false ∧ (clocked (fun c => { c with lockC := true })).clk.lockC = true ∧
    (clocked (fun c => { c with crstBusy := true, lost := true })).clk.crstBusy = true ∧ (clocked (fun c => { c with lost := true })).clk.lost = true := by decide +kernel
/-- A LIT domain that a forced clock holds. -/
theorem witness_ClockMonitors_held : (domOf (lit5 id) 5).state = .lit ∧ (domOf (lit5 id) 5).held = false ∧ inSoftStart (domOf (lit5 id) 5) = false ∧
    (domOf (lit5 id) 5).tr.ph ≠ .discharge ∧ monitored (lit5 id).clk .xa = true ∧ vget (lit5 id).clk.run (clockInst .xa) = true := by decide +kernel
theorem all_dom {p : Domain → Bool} {v : Vector Domain 80} (h : v.all p = true) (d : Dom) : p (vget v d) = true := by
  rw [Laws.vget_lt _ d.isLt]; exact (Vector.all_eq_true.mp h) d.val d.isLt
theorem witness_PowerModesAndCounter : base.clk.crstBusy = false ∧ base.clk.pwrCur ≠ 2 ∧ base.clk.pwrMode ≠ 2 ∧
    ((∀ d : Dom, (vget base.dom d).state = .dark ∨ (vget base.dom d).state = .absent) ∧ (∀ x ∈ base.cmds, dAt x.d = false) ∧
      base.meter.phase = .idle ∧ base.strata.queue = [] ∧ base.strata.erasing = none ∧ base.strata.lbBusy = false ∧ strataRead base = false) ∧
    (clocked (fun c => { c with pwrMode := 1 })).clk.pwrMode ≠ (clocked (fun c => { c with pwrMode := 1 })).clk.pwrCur ∧
    (0x80000A08 : Word).getLsbD 31 = true ∧ gateOn base 3 = true ∧ (0x80000A08 : Word).toNat % 16 ≤ 8 ∧
    (clocked (fun c => { c with fmcGo := true })).clk.fmcGo = true := by
  refine ⟨rfl, by decide, by decide, ⟨fun d => ?_, by decide, rfl, rfl, rfl, rfl, rfl⟩, by decide, by decide, by decide +kernel, by decide, rfl⟩
  have h : base.dom.all (fun D => D.state == .dark || D.state == .absent) = true := by decide +kernel
  simpa using all_dom h d
theorem witness_PowerModesAndCounter_busy : ¬((lit5 id).clk.pwrCur = 2) ∧ (vget (lit5 id).dom 5).state = .lit := by decide +kernel
/-- A transition that goes and one that waits for a completion; a deep sleeper; a gated MC. -/
theorem witness_PowerModesAndCounter_goes : (clocked (fun c => { c with pwrMode := 2 })).clk.pwrMode ≠ (clocked (fun c => { c with pwrMode := 2 })).clk.pwrCur ∧
    (∀ p : Fin 8, awaiting (clocked (fun c => { c with pwrMode := 2 })) p = false) ∧ awaiting { (clocked (fun c => { c with pwrMode := 2 })) with cmds := [waitingCmd] } 0 = true ∧
    base.clk.pwrMode = base.clk.pwrCur ∧ base.mc.gated = false ∧ (clocked (fun c => { c with pwrCur := 2, pwrMode := 0, leaveDeep := true })).clk.pwrCur = 2 ∧
    (clocked (fun c => { c with pwrCur := 2, pwrMode := 0, leaveDeep := true })).clk.leaveDeep = true ∧ base.clk.leaveDeep = false ∧
    (clocked (fun c => { c with crstBusy := true })).clk.crstBusy = true := by decide +kernel
def mcFailed : State := { base with mc := { base.mc with state := 4, image := true } }
theorem witness_ControlAndMcReset : setupOpen (lit5 id) = true ∧ (0x5A01 : Word).toNat / 256 % 256 = 0x5A ∧ (0x5A01 : Word).getLsbD 0 = true ∧
    (0x5A02 : Word).toNat / 256 % 256 = 0x5A ∧ (0x5A02 : Word).getLsbD 0 = false ∧ (0x5A02 : Word).getLsbD 1 = true ∧
    (0x5B03 : Word).toNat / 256 % 256 ≠ 0x5A ∧ mcFailed.mc.image = true ∧ mcFailed.mc.run = false ∧ mcFailed.mc.state ≠ 5 := by decide +kernel
theorem witness_ControlAndMcReset_held : (lit5 id).safety.safe = false ∧ (domOf (lit5 id) 5).state = .lit ∧ (domOf (lit5 id) 5).held = false ∧
    inSoftStart (domOf (lit5 id) 5) = false ∧ (domOf (lit5 id) 5).tr.ph ≠ .discharge ∧ mcFailed.clk.crstBusy = false ∧ base.mc.image = false ∧
    setupOpen (clocked (fun c => { c with crstBusy := true })) = false := by decide +kernel
/-- A safe state after a trip that has been restarted, one whose trip repeats, and a fatal message that waits for the collector. -/
def tripped (again : Bool) : State :=
  { base with safety := { base.safety with safe := true, causes := [faultWord 2 0x20 0x8 5 9 0] }, therm := { base.therm with noRestart := again } }
theorem tripped_causes (again : Bool) : (tripped again).safety.causes = [faultWord 2 0x20 0x8 5 9 0] := rfl
theorem witness_ControlAndMcReset_safe : (tripped false).safety.safe = true ∧ (∀ m ∈ (tripped false).safety.causes, fKindOf m = 0x20) ∧
    (tripped false).therm.tripped = false ∧ (tripped false).therm.noRestart = false ∧ (∀ q ∈ (tripped false).safety.queue, fClass q.bits ≠ 2) ∧
    (∃ m ∈ (tripped true).safety.causes, fKindOf m = 0x20) ∧ (tripped true).therm.noRestart = true ∧ (∃ q ∈ fatalMsg.safety.queue, fClass q.bits = 2) ∧
    setupOpen (tripped false) = true ∧ setupOpen (tripped true) = true ∧ setupOpen fatalMsg = true := by
  have k : fKindOf (faultWord 2 0x20 0x8 5 9 0) = 0x20 := by decide +kernel
  refine ⟨rfl, ?_, by decide +kernel, by decide +kernel, by decide +kernel, ⟨_, by rw [tripped_causes]; exact List.mem_singleton_self _, k⟩, rfl,
    by decide +kernel, by decide +kernel, by decide +kernel, by decide +kernel⟩
  intro m h
  rw [tripped_causes, List.mem_singleton] at h
  rw [h, k]
/-- The header of an image of 4,096 bytes, version 0x0102. -/
def fwHeader : List Byte := ascii "DGFW" ++ [1, 0, 0, 0, 2, 1, 0, 0, 0, 0x10, 0, 0, 0, 0, 0, 0]
def loading : State := { base with mc := { base.mc with go := true, state := 1, len := 4256 } }
theorem witness_FirmwareAndRecord : setupOpen base = true ∧ (1 : Word).getLsbD 0 = true ∧ base.mc.state = 0 ∧ loading.mc.go = true ∧
    (let n := loading.mc.len.toNat; 4256 ≤ n ∧ n ≤ 524448 ∧ n % 64 = 32) ∧ leAt fwHeader 12 4 + 160 = loading.mc.len.toNat ∧
    (slice fwHeader 0 4 = ascii "DGFW" ∧ leAt fwHeader 4 1 = 1 ∧ leAt fwHeader 16 4 % 4 = 0 ∧ leAt fwHeader 16 4 < leAt fwHeader 12 4) := by decide +kernel
/-- A length below the range, another length in the header, and a wrong magic. -/
theorem witness_FirmwareAndRecord_bad : ¬(4256 ≤ 4255) ∧ leAt [] 12 4 + 160 ≠ loading.mc.len.toNat ∧ slice ([] : List Byte) 0 4 ≠ ascii "DGFW" ∧
    leAt (ascii "DGFX" ++ fwHeader.drop 4) 12 4 + 160 = loading.mc.len.toNat ∧ slice (ascii "DGFX" ++ fwHeader.drop 4) 0 4 ≠ ascii "DGFW" := by decide +kernel
/-- Two system calibrations of channel 2: the later one counts. -/
theorem witness_FirmwareAndRecord_cals : let a : SysCal := { ch := 2, ofs := 5, gain := 0x400000 }
    let b : SysCal := { ch := 2, ofs := 6, gain := 0x400001 }
    [a, b] = [a] ++ b :: [] ∧ (∀ x ∈ ([] : List SysCal), x.ch ≠ b.ch) := by decide
def starting : State := { base with mc := { base.mc with run := true, state := 3, image := true, coldStart := true }, strata := { base.strata with avail := true } }
theorem witness_FirmwareAndRecord_record : mcRunning starting = true ∧ starting.mc.coldStart = true ∧ starting.strata.avail = true ∧
    (∀ x ∈ (record16 goodMap).siteMap, x ≠ (5 : Site)) ∧ (4 : Site) ∈ (record16 goodMap).siteMap ∧ (cfgOf starting 4).tgtSet = false ∧
    (cfgOf (setCfg starting 4 (fun c => { c with tgtSet := true })) 4).tgtSet = true := by decide +kernel
theorem witness_FirmwareAndRecord_none : base.strata.avail = false ∧ mcRunning base = false ∧ { starting with mc := { starting.mc with coldStart := false } }.mc.coldStart = false ∧
    ((0 : Word).getLsbD 0 = false) ∧ ((2 : Fin 16) ≠ 1) := by decide +kernel
def norGood : NorInfo := { sfdp := some norDev, image := [] }
/-- The same device without erase suspend. -/
def norSlow : NorInfo := { norGood with sfdp := some { norDev with esusp := none } }
/-- What `PowerOnAndGtc` asks of the device (R57). -/
def norFit (nor : NorInfo) : Prop :=
  ∃ x, nor.sfdp = some x ∧ x.revB = true ∧ 64 * 2 ^ 20 ≤ x.bytes ∧ x.page = 256 ∧ (∃ e ∈ x.erases, e.1 = 0x1000) ∧ 100 ≤ x.readMHz ∧
    x.progUs ≤ 250 ∧ ∃ y, x.esusp = some y ∧ y.us ≤ 30
def powered : State := { State.reset with time := { State.reset.time with vld := true, vldSince := 5000 } }
theorem witness_PowerOnAndGtc : norFit norGood ∧ ¬norFit { norGood with sfdp := none } ∧ ¬norFit norSlow ∧ State.reset.time.vld = false ∧ powered.time.vld = true ∧
    powered.time.vldSince + 10000 ≤ 15000 ∧ (∃ d : Dom, (vget (lit5 id).dom d).state = .lit ∨ (vget (lit5 id).dom d).state = .held) ∧
    (∀ d : Dom, (vget base.dom d).state = .dark ∨ (vget base.dom d).state = .shade ∨ (vget base.dom d).state = .absent) ∧
    base.cmds = [] ∧ base.safety.queue.length ≤ 768 := by
  refine ⟨⟨_, rfl, rfl, by decide, rfl, by decide, by decide, by decide, _, rfl, by decide⟩, (fun ⟨_, h, _⟩ => nomatch h),
    (fun ⟨_, h, _, _, _, _, _, _, _, h2, _⟩ => by cases h; cases h2), rfl, rfl, by decide, ⟨5, by decide +kernel⟩, fun d => ?_, rfl, by decide⟩
  have h : base.dom.all (fun D => D.state == .dark || (D.state == .shade || D.state == .absent)) = true := by decide +kernel
  simpa using all_dom h d
/-- A device whose last boot record, at the first slot of S2, has the sequence 40 and the power-on count 3. -/
def bootSlot : List Byte := recordPage 3 { stratum := 2, typ := 4, gtc := 5, pay := [], seq := 40 }
theorem bootSlot_good : recordGood 2 bootSlot = true := recordPage_good 3 _
theorem bootSlot_slots : goodSlots [(0x500000, bootSlot)] 1 = [] ∧ goodSlots [(0x500000, bootSlot)] 2 = [(0, bootSlot)] ∧ goodSlots [(0x500000, bootSlot)] 3 = [] := by
  simp [goodSlots, stratumOf, bootSlot_good]
theorem bootSlot_fields : recordSeq bootSlot = 40 ∧ leAt bootSlot 4 2 = 4 ∧ leAt bootSlot 28 4 = 3 := by decide +kernel
theorem witness_PowerOnAndGtc_found : highestSeq [(0x500000, bootSlot)] = 40 ∧ lastBoot [(0x500000, bootSlot)] = some (0, bootSlot) ∧
    leAt bootSlot 28 4 = 3 ∧ lastBoot [] = none ∧ (logEnds [(0x500000, bootSlot)] 2).1 = slotsOf 2 + 1 := by
  have n1 : newestOf [(0x500000, bootSlot)] 1 = none := by rw [newestOf, bootSlot_slots.1]; rfl
  have n2 : newestOf [(0x500000, bootSlot)] 2 = some (0, bootSlot) := by rw [newestOf, bootSlot_slots.2.1]; rfl
  have n3 : newestOf [(0x500000, bootSlot)] 3 = none := by rw [newestOf, bootSlot_slots.2.2]; rfl
  refine ⟨?_, ?_, bootSlot_fields.2.2, rfl, ?_⟩
  · simp [highestSeq, n1, n2, n3, bootSlot_fields.1]
  · rw [lastBoot, bootSlot_slots.2.1]; simp [bootSlot_fields.2.1, newest]
  · rw [logEnds, n2, bootSlot_slots.2.1]; rfl
def resuming : State := { powered with time := { powered.time with resume := true }, therm := { powered.therm with valid := true } }
/-- Samples on FOSC: 16 later is none, 17 later, one earlier and a fall are jumps; on PLL-C 8 is the limit. -/
theorem witness_PowerOnAndGtc_jumps : base.clk.ccur = 0 ∧ ¬(100000 < Nat.max 99000 base.time.gtc) ∧ Nat.max 99000 base.time.gtc + 16 ≤ 100016 ∧
    Nat.max 99000 base.time.gtc + 16 < 100017 ∧ 99999 < Nat.max 99000 base.time.gtc ∧
    ((clocked (fun c => { c with ccur := 1 })).clk.ccur = 1 ∧ (clocked (fun c => { c with ccur := 1 })).clk.cBusy = false) ∧
    powered.time.resume = false ∧ (resuming.therm.valid = true ∧ resuming.clk.pwrCur ≠ 2) := by decide +kernel
theorem witness_RegisterWrites : setupOpen base = true ∧ base.mc.gated = false ∧ (portOf base 0).en = true ∧ (portOf base 1).en = false ∧
    (ringOf (portOf ready 0) 1).en = true ∧ (ringOf (portOf base 1) 1).en = false := by decide +kernel

theorem witness_RegisterWrites_closed : setupOpen (clocked (fun c => { c with pwrCur := 2 })) = false ∧ deepWritable 0x0030 = false := by decide +kernel

/-! ### Host commands -/

/-- A machine whose characterisation record is in place, with the MC running; the domains of the sites in its map are dark. -/
def chard : State :=
  { ready with char := some (record16 ((List.range 16).map (fun i => Fin.ofNat 64 i))), mc := { ready.mc with run := true, state := 3, image := true } }
/-- Operand bytes from offset 16: (offset, value, size) entries over zeros. -/
def ops (l : List (Nat × Nat × Nat)) : List Byte :=
  (List.range 40).map (fun i => BitVec.ofNat 8 ((l.map (fun x => if x.1 ≤ i + 16 ∧ i + 16 < x.1 + x.2.2 then x.2.1 / 256 ^ (i + 16 - x.1) else 0)).sum))
def lit1 : State := setDom chard 1 (fun D => { D with state := .lit, en := true, vmeas := 24000, prof := { D.prof with vref := 750 * 65536 } })
/-- Site 1 in LIT, site 2 in SHADE, site 3 in DARK. -/
def threeStates : State := setDom lit1 2 (fun D => { D with state := .shade })
/-- The same with the converter of die 0 verified. -/
def verified : State := let s := threeStates; { s with bus := { s.bus with conv := vset s.bus.conv 0 { vget s.bus.conv 0 with verified := true } } }
def jobbing : State := { chard with mode := { chard.mode with force := 0x04 } }
def paired : State := setDom (setDom chard 2 (fun D => { D with pair := .even })) 3 (fun D => { D with pair := .odd })
def sieving : State :=
  { chard with sieve := some { dom := 1, port := 0, tag := 7, e0 := 560, step := 1, maxS := 3, dwell := 1000, vlow := 0, glBase := 0, uvBase := 0,
                               fail := false, abandon := false, since := 0 } }
def logged : State := { chard with strata := { chard.strata with avail := true } }
def twoPorts : State := setPort chard 1 (fun P => { P with en := true })
def coded : State := setCfg chard 1 (fun c => { c with freq := 20 })
theorem witness_ConfigurationCommands : Admits 0x11 (desc 0x11 1 (ops [(16, 600, 2)])) coded ∧ Admits 0x12 (desc 0x12 1 (ops [(16, 20, 1)])) chard ∧
    Admits 0x13 (desc 0x13 1 (ops [(16, 1, 4), (20, 200, 2)])) chard ∧ Admits 0x20 (desc 0x20 1 (ops [(16, 4, 4), (24, 300, 2)])) chard ∧
    Admits 0x21 (desc 0x21 1 (ops [(16, 1, 4), (20, 5000, 2)])) chard ∧ Admits 0x22 (desc 0x22 1 (ops [(16, 20, 1), (24, 200000, 8)])) jobbing ∧
    Admits 0x23 (desc 0x23 1 (ops [(16, 1, 4), (20, 1, 1)])) chard :=
  ⟨admits_iff (by decide +kernel), admits_iff (by decide +kernel), admits_iff (by decide +kernel), admits_iff (by decide +kernel),
   admits_iff (by decide +kernel), admits_iff (by decide +kernel), admits_iff (by decide +kernel)⟩
theorem witness_ConfigurationCommands_now : (1 : Byte).toNat < 0x40 ∧ firstSlot (now 100000 jobbing) + 2000 ≤ 200000 ∧
    opN (desc 0x22 1 (ops [(16, 20, 1), (24, 200000, 8)])) 24 8 = 200000 ∧ isAbsent chard (physOf chard 1) = false ∧
    logOf chard (physOf chard 1) = 1 := by decide +kernel
/-- The map names every logical domain once, and the domains that each command of those names is one. -/
theorem witness_ConfigurationCommands_named : (∀ l < 64, logOf chard (physOf chard l) = l) ∧ presentOf chard 0x12 (desc 0x12 1 []) = [1] ∧
    targetsOf chard 0x13 (desc 0x13 1 []) = [1] := by decide +kernel
theorem witness_StateCommands : Admits 0x10 (desc 0x10 1 (ops [(16, 0, 1)])) verified ∧ Admits 0x10 (desc 0x10 3 (ops [(16, 1, 1)])) verified ∧
    Admits 0x10 (desc 0x10 3 (ops [(16, 2, 1)])) verified ∧ Admits 0x10 (desc 0x10 1 (ops [(16, 1, 1)])) verified ∧
    Admits 0x10 (desc 0x10 2 (ops [(16, 2, 1)])) verified ∧ Admits 0x14 (desc 0x14 2 []) (setCfg chard 2 (fun c => { c with freq := 20 })) ∧ Admits 0x15 (desc 0x15 2 []) paired ∧
    Admits 0x16 (desc 0x16 1 (ops [(16, 1, 4), (24, 3, 1)])) chard ∧ Admits 0x16 (desc 0x16 1 (ops [(16, 1, 4), (20, 1, 1)])) chard :=
  ⟨admits_iff (by decide +kernel), admits_iff (by decide +kernel), admits_iff (by decide +kernel), admits_iff (by decide +kernel),
   admits_iff (by decide +kernel), admits_iff (by decide +kernel), admits_iff (by decide +kernel), admits_iff (by decide +kernel),
   admits_iff (by decide +kernel)⟩
/-- The domains of those commands at a commit in the same states. -/
theorem witness_StateCommands_now : isAbsent verified 1 = false ∧ (domOf verified 1).held = false ∧ (domOf verified 1).tr.ph = .idle ∧
    (domOf verified 1).state = .lit ∧ (domOf verified 2).state = .shade ∧ (domOf verified 3).state = .dark ∧ (∀ l < 4, physOf verified l = l) ∧
    isEven chard 1 = false := by decide +kernel
theorem witness_StateCommands_sets : (∀ x : Dom, isEven paired x = true → isOdd paired (x + 1) = true) ∧ (∀ l < 64, logOf paired (physOf paired l) = l) ∧
    presentOf verified 0x10 (desc 0x10 1 []) = [1] ∧ presentOf paired 0x15 (desc 0x15 2 []) = [2] ∧ isOdd verified 1 = false ∧
    (∀ m ∈ presentOf paired 0x15 (desc 0x15 2 []), physOf paired m + 1 ≠ 2 ∧ physOf paired m ≠ 2 + 1) := by decide +kernel
/-- A soft start that a command replaces, and a descent that one turns round. -/
theorem witness_StateCommands_replace : let x := setDom verified 1 (fun D => { D with tr := { D.tr with ph := .leg2, goal := .lit } })
    inSoftStart (domOf x 1) = true ∧ (domOf x 1).state ≠ .dark ∧ (domOf x 1).state ≠ .held ∧
    (domOf (setDom verified 1 (fun D => { D with tr := { D.tr with ph := .descent } })) 1).tr.ph = .descent ∧
    (domOf (setDom verified 1 (fun D => { D with tr := { D.tr with ph := .lift } })) 1).tr.ph = .lift := by decide +kernel
theorem witness_StateCommands_single : Single verified 1 ∧ Single verified 2 ∧ Single verified 3 := by
  refine ⟨single_iff (d := 0) ?_ ?_, single_iff (d := 1) ?_ ?_, single_iff (d := 2) ?_ ?_⟩ <;> decide +kernel
theorem witness_HintAndRcCommands : Admits 0x30 (desc 0x30 1 (ops [(16, 1, 1), (18, 100, 2), (20, 5, 1), (22, 9, 2)])) chard ∧
    Admits 0x31 (desc 0x31 1 []) chard ∧ Admits 0x54 (desc 0x54 1 (ops [(16, 2, 4), (21, 9, 1)])) chard ∧ Admits 0x55 (desc 0x55 1 []) chard :=
  ⟨admits_iff (by decide +kernel), admits_iff (by decide +kernel), admits_iff (by decide +kernel), admits_iff (by decide +kernel)⟩
/-- The domain that the hint names, with an empty table; another domain. -/
theorem witness_HintAndRcCommands_hint : let d := desc 0x30 1 (ops [(16, 1, 1), (18, 100, 2), (20, 5, 1), (22, 9, 2)])
    presentOf chard 0x30 d = [1] ∧ physOf chard 1 = 1 ∧ (∀ l ∈ presentOf chard 0x30 d, physOf chard l ≠ 2) ∧ (domOf chard 1).lant.hints.length < 4 := by
  decide +kernel
theorem witness_HintAndRcCommands_now : isAbsent chard 1 = false ∧ isOdd chard 1 = false ∧
    (cfgOf (setCfg chard 1 (fun c => { c with rc := { c.rc with src := 5 } })) 1).rc.src ≠ 0x80 ∧ (cfgOf chard 1).rc.src = 0x80 ∧
    selects (desc 0x54 1 (ops [(16, 2, 4), (21, 9, 1)])) 1 = true ∧ opN (desc 0x54 1 (ops [(16, 2, 4), (21, 9, 1)])) 21 1 ≠ (cfgOf chard 1).rc.k := by
  decide +kernel
def snapDesc : Desc := desc 0x61 0xFF (ops [(24, 0x1000, 8), (32, 65536, 4)])
theorem witness_PortCommands : Admits 0x40 (desc 0x40 1 (ops [(16, 5, 1), (17, 1, 1), (20, 100, 4)])) chard ∧
    Admits 0x41 (desc 0x41 0xFF (ops [(16, 5, 1)])) chard ∧ Admits 0x60 (desc 0x60 0xFF (ops [(16, 1, 1), (17, 1, 1), (20, 0xFEFEFEFE, 4)])) chard ∧
    Admits 0x61 snapDesc chard ∧ Admits 0x81 (desc 0x81 0xFF []) logged ∧ Admits 0x90 (desc 0x90 0xFF (ops [(16, 1, 1), (20, 3, 10), (32, 7, 2)])) chard ∧
    Admits 0x91 (desc 0x91 0xFF (ops [(16, 1, 1)])) twoPorts :=
  ⟨admits_iff (by decide +kernel), admits_iff (by decide +kernel), admits_iff (by decide +kernel), admits_iff (by decide +kernel),
   admits_iff (by decide +kernel), admits_iff (by decide +kernel), admits_iff (by decide +kernel)⟩
theorem witness_PortCommands_now : opB (desc 0x40 1 (ops [(16, 5, 1), (17, 1, 1), (20, 100, 4)])) 16 < 32 ∧ (portOf chard 0).fabErr = false ∧
    logged.strata.avail = true ∧ logged.strata.queue.length < 16 ∧ opB (desc 0x90 0xFF (ops [(16, 1, 1), (20, 3, 10), (32, 7, 2)])) 16 < 8 := by
  decide +kernel
def loadDesc : Desc := desc 0x50 0xFF (ops [(16, 5, 1), (24, 0x1000, 8), (32, 320, 4)])
def modelDesc : Desc := desc 0x52 0xFF (ops [(16, 5, 1), (24, 0x1000, 8), (32, 6304, 4)])
theorem witness_ImageCommands : Admits 0x50 loadDesc chard ∧ Admits 0x52 modelDesc chard ∧ Admits 0x51 (desc 0x51 1 (ops [(16, 32, 1)])) chard ∧
    Admits 0x53 (desc 0x53 1 (ops [(16, 15, 1)])) chard ∧ opB loadDesc 16 < 32 ∧ opB modelDesc 16 < 8 :=
  ⟨admits_iff (by decide +kernel), admits_iff (by decide +kernel), admits_iff (by decide +kernel), admits_iff (by decide +kernel), by decide +kernel,
   by decide +kernel⟩
theorem witness_TestCommands : Admits 0x70 (desc 0x70 1 (ops [(16, 3, 1), (20, 1000, 4)])) verified ∧ Admits 0x71 (desc 0x71 1 []) sieving ∧
    Admits 0x72 (desc 0x72 1 (ops [(17, 16, 1)])) chard ∧ Admits 0x72 (desc 0x72 1 (ops [(16, 3, 1), (18, 20, 2)])) chard ∧
    Admits 0x72 (desc 0x72 1 (ops [(16, 4, 1)])) chard :=
  ⟨admits_iff (by decide +kernel), admits_iff (by decide +kernel), admits_iff (by decide +kernel), admits_iff (by decide +kernel),
   admits_iff (by decide +kernel)⟩
/-- "NOP; END" in one section, no constants, the identifier 77. -/
def progBytes : List Byte :=
  let b : List Byte := ascii "DGCP" ++ [1, 1, 0, 0, 2] ++ List.replicate 15 0 ++ [2, 0, 0, 0, 77] ++ List.replicate 31 0
  let z : List Byte := List.replicate 256 0 ++ (leBytes 4 (cleWord 0x01 0 0 0 0).toNat ++ leBytes 4 (cleWord 0x02 0 0 0 0).toNat)
  b ++ leBytes 4 (crc32c (b ++ z)).toNat ++ z
def progOf : Program :=
  { ident := 77, crc := BitVec.ofNat 32 (leAt progBytes 60 4), init := List.replicate 64 0, consts := [],
    sections := [[cleWord 0x01 0 0 0 0, cleWord 0x02 0 0 0 0]], unusable := false }
def bulkWaiting (op : Byte) : Cmd := cmdOf op.toNat .bulkWait 0 (desc op 0xFF (ops [(16, 5, 1), (24, 0x1000, 8), (32, 328, 4)]))
set_option maxRecDepth 1000000 in
theorem witness_ImageCommands_data : (bulkWaiting 0x50).stage = .bulkWait ∧ (bulkWaiting 0x50).grp = none ∧ (∀ p : Fin 8, vget chard.groups p = none) ∧
    dAt (bulkWaiting 0x50).d = false ∧ (match loadProgramImage progBytes with | .ok g => g == progOf | .error _ => false) = true ∧
    (let x : Cmd := { bulkWaiting 0x50 with stage := .waiting, bulk := some (.program progOf) }
     let s1 : State := { now 100000 chard with cmds := [x] }
     unitsFit s1 x = true ∧ stateCheck s1 false x = none) ∧
    (match loadModelImage [] with | .error f => f.reason == 2 | .ok _ => false) = true ∧
    (match loadModelImage [1] with | .error f => f.reason == 1 | .ok _ => false) = true ∧
    (match loadProgramImage [1] with | .error f => f.reason == 1 | .ok _ => false) = true ∧
    (match loadProgramImage [] with | .error f => f.reason == 2 | .ok _ => false) = true := by decide +kernel
/-- The head and the body of a model image of zero weights: FF_GAIN 0x0010, each requantisation 1 / 2. -/
def modelHead : List Byte := ascii "DGLM" ++ [1, 0, 0, 0, 3, 0, 0, 0, 0x10, 0] ++ List.replicate 46 0
def modelReqs : List Byte := (List.replicate 100 [1, 0, 1, 0]).flatten
def zeros (n : Nat) : List Byte := List.replicate n 0
theorem zeros_length (n : Nat) : (zeros n).length = n := List.length_replicate
def modelBody : List Byte := zeros 5440 ++ (zeros 400 ++ modelReqs)
def modelBytes : List Byte := modelHead ++ (leBytes 4 (crc32c (modelHead ++ modelBody)).toNat ++ modelBody)
theorem modelBytes_drop : modelBytes.drop 5504 = zeros 400 ++ modelReqs ∧ modelBytes.drop 5904 = modelReqs := by
  have h : modelHead.length = 60 := by decide
  have e : modelBytes = (modelHead ++ leBytes 4 (crc32c (modelHead ++ modelBody)).toNat ++ zeros 5440) ++ (zeros 400 ++ modelReqs) := by
    simp only [modelBytes, modelBody, List.append_assoc]
  constructor
  · rw [e, List.drop_left' (by simp [h, zeros_length])]
  · rw [e, ← List.append_assoc, List.drop_left' (by simp [h, zeros_length])]
theorem modelBytes_fields (i : Nat) (h : i < 100) : leAt modelBytes (5904 + 4 * i) 2 = 1 ∧ leAt modelBytes (5906 + 4 * i) 1 = 1 ∧
    leAt modelBytes (5907 + 4 * i) 1 = 0 ∧ leAtS modelBytes (5504 + 4 * i) 4 = 0 := by
  have d := modelBytes_drop
  rw [show 5906 + 4 * i = 5904 + (2 + 4 * i) by omega, show 5907 + 4 * i = 5904 + (3 + 4 * i) by omega, leAtS, leAt_drop _ 5904 (4 * i), leAt_drop _ 5904 (2 + 4 * i),
    leAt_drop _ 5904 (3 + 4 * i), leAt_drop _ 5504 (4 * i),
    d.1, d.2]
  revert i
  decide +kernel
theorem modelBytes_checks : (modelChecks modelBytes).findSome? id = none := by
  have f := modelBytes_fields
  have n : (List.range 48).find? (fun i => decide (31 < leAt modelBytes (66 + 4 * i) 1)) = none := by decide +kernel
  have z : (leNat (slice modelBytes 5 3) != 0 || leNat (slice modelBytes 14 46) != 0) = false ∧ leAt modelBytes 12 2 = 16 := by decide +kernel
  have c : ∀ p : Nat → Bool, (∀ i < 100, p i = false) → (List.range 100).find? p = none := by
    intro p h; rw [List.find?_eq_none]; intro i hi; simpa using h i (List.mem_range.mp hi)
  simp only [modelChecks, firstField, qmulAt, qshAt, n, z.1, z.2]
  rw [c _ (fun i h => by simp [(f i h).2.2.1]), c _ (fun i h => by simp [(f i h).2.2.2]), c _ (fun i h => by simp [(f i h).1, (f i h).2.1])]
  decide
theorem witness_ImageCommands_model : (match loadModelImage modelBytes with | .ok m => m.ident == 3 | .error _ => false) = true ∧
    (bulkWaiting 0x52).stage = .bulkWait ∧ (let x : Cmd := { bulkWaiting 0x52 with stage := .waiting, bulk := some (.model zeroModel) }
     stateCheck { now 100000 chard with cmds := [x] } false x = none) := by
  refine ⟨?_, rfl, by decide +kernel⟩
  have h := loadModelImage_built modelHead modelBody (by decide) (by simp only [modelBody, List.length_append, zeros_length]; decide +kernel)
  dsimp only at h
  rw [← modelBytes] at h
  rw [h, modelBytes_checks, if_neg (by decide +kernel)]
  decide +kernel
def runningTest (u : TestUnit) : State := { chard with tests := [{ unit := u, by_ := some (0, 7) }] }
theorem witness_TestCommands_done : (runningTest .meter).cmds = [] ∧ (portOf chard 0).en = true ∧ (ringOf (portOf chard 0) 2).en = true ∧
    (portOf chard 0).fabErr = false ∧ (portOf chard 0).backlog = [] ∧ (portOf chard 0).ovfDrops = 0 ∧ evRoom (portOf chard 0) = true ∧
    chard.therm.excl.getLsbD 20 = false ∧ chard.safety.queue.length < 768 ∧ chard.meter.phase = .idle := by decide +kernel
theorem witness_TestCommands_sieve : (domOf verified 1).gwFloor + 8 ≤ 328 ∧ effTarget (setCfg verified 1 (fun c => { c with freq := 20 })) 1 = 328 := by
  decide +kernel
theorem witness_ImmediateAndFailedCommands : Admits 0x01 (desc 0x01 0xFF []) chard ∧
    Admits 0x80 (desc 0x80 0xFF (ops [(28, 1, 2), (32, 0x1000, 8), (40, 256, 4)])) logged ∧ Admits 0xA0 (desc 0xA0 0xFF []) chard :=
  ⟨admits_iff (by decide +kernel), admits_iff (by decide +kernel), admits_iff (by decide +kernel)⟩
def logCmd : Cmd := cmdOf 0x80 .running 0 (desc 0x80 0xFF (ops [(28, 1, 2), (32, 0x1000, 8), (40, 256, 4)]))
/-- A read of S2 for one record, of two records that are there; the first two slots of the stratum are live. -/
def logCmd2 : Cmd := cmdOf 0x80 .running 0 (desc 0x80 0xFF (ops [(16, 2, 1), (28, 1, 2), (32, 0x1000, 8), (40, 256, 4)]))
def slotRec (seq : DWord) : List Byte := recordPage 3 { stratum := 2, typ := 2, gtc := 5, pay := [1, 2], seq := seq }
def logged2 : State := { chard with strata := { chard.strata with avail := true, heads := vset chard.strata.heads 2 2 }, cmds := [logCmd2] }
theorem slotRec_good (n : DWord) : recordGood 2 (slotRec n) = true := recordPage_good 3 _
theorem witness_ImmediateAndFailedCommands_read : logCmd2.stage = .running ∧ opB logCmd2.d 16 = 2 ∧ opB logCmd.d 16 = 0 ∧
    ((([(1, slotRec 41), (0, slotRec 40)].filter (fun e => recordGood 2 e.2 && slotLive (now 0 logged2) 2 e.1)).map (fun e => e.2)) = [slotRec 41, slotRec 40]) ∧
    [slotRec 40, slotRec 41].Pairwise (fun a b => leAt a 8 8 < leAt b 8 8) ∧
    ([slotRec 40, slotRec 41].filter (fun b => opN logCmd2.d 20 8 ≤ leAt b 8 8)).take (opN logCmd2.d 28 2) = [slotRec 40] := by
  have l : slotLive (now 0 logged2) 2 0 = true ∧ slotLive (now 0 logged2) 2 1 = true := by decide +kernel
  have o : opN logCmd2.d 20 8 = 0 ∧ opN logCmd2.d 28 2 = 1 := by decide +kernel
  refine ⟨rfl, by decide +kernel, by decide +kernel, ?_, by decide +kernel, ?_⟩
  · simp [slotRec_good, l.1, l.2]
  · simp [o.1, o.2]
theorem witness_ImmediateAndFailedCommands_perm : [slotRec 40, slotRec 41].Perm [slotRec 41, slotRec 40] := List.Perm.swap _ _ _
/-- A CHAR_LOAD in progress. -/
theorem witness_ImmediateAndFailedCommands_char : (cmdOf 0xA0 .running 0 (desc 0xA0 0xFF [])).stage = .running ∧
    (⟨none, some (record16 goodMap)⟩ : S0Read).copy1 = none ∧ (⟨some (record16 goodMap), none⟩ : S0Read).copy1 = some (record16 goodMap) ∧
    (⟨none, none⟩ : S0Read).copy2 = none := ⟨rfl, rfl, rfl, rfl⟩
theorem witness_ImmediateAndFailedCommands_done : logCmd.stage = .running ∧ 0 < opN logCmd.d 28 2 ∧ (portOf chard logCmd.d.port).fabErr = false := by
  decide +kernel
/-- A state above 2 fails step 7 with the offset of its field and its domain (R324). -/
theorem witness_ImmediateAndFailedCommands_bad : dGroup (desc 0x10 3 (ops [(16, 3, 1)])) = false ∧
    fetchOk (now 100000 chard) 0 = true ∧ linkCheck (now 100000 chard) (desc 0x10 3 (ops [(16, 3, 1)])) = none ∧
    fetchVerdict (now 100000 chard) 0x10 (desc 0x10 3 (ops [(16, 3, 1)])) = some (0x11, 0x90000003) := by decide +kernel
def grouped : State :=
  { chard with groups := vset chard.groups 0 (some { id := 4, since := 1000, size := 1, at_ := false, atGtc := 0, abort := none }),
               cmds := [{ waitingCmd with grp := some 4 }] }
theorem witness_ImmediateAndFailedCommands_group : (vget grouped.groups 0).isSome = true ∧ 1000 + 128000 ≤ 129000 ∧
    waitingCmd.d.port = 0 ∧ waitingCmd.stage = .waiting := by decide +kernel

/-! ### Shutters, grants, traces and the stores -/

def commitsAt (s : State) : Latch × State :=
  let s0 := now 102000 s
  let b := beforeCommits 102000 [] { s0 with time := { s0.time with fired := true, epoch := epochOf 102000 } }
  (withGrants 102000 b.1 b.2, noteAcks 102000 b.2)
/-- A command that every die has acknowledged. -/
def targetCmd : Cmd := { cmdOf 0x11 .accepted 102000 (desc 0x11 1 (ops [(16, 600, 2)])) with acked := Vector.replicate 5 true }
def accepted1 : State := { coded with cmds := [targetCmd] }
theorem witness_ShutterCommits : base.time.started = true ∧ base.clk.pwrCur ≠ 2 ∧ base.clk.crstBusy = false ∧ 2000 * 51 = 102000 ∧
    (∀ p : Fin 8, (portOf (commitsAt base).2 p).rstAt = none) ∧ (commitsAt base).2.cmds = [] := by decide +kernel
/-- A part before the shutters start, one in a control reset, and an energy sample of a single domain. -/
theorem witness_ShutterCommits_none : State.reset.time.started = false ∧ (clocked' (fun c => { c with crstBusy := true })).clk.crstBusy = true ∧
    isAbsent base 5 = false ∧ (domOf base 5).pair = .none := by decide +kernel
theorem witness_ShutterCommits_commit : (∀ p : Fin 8, (portOf (commitsAt accepted1).2 p).rstAt = none) ∧
    (commitsAt accepted1).2.cmds = [targetCmd] ∧ targetCmd.stage = .accepted ∧ targetCmd.refuse = false ∧ targetCmd.moved = false ∧
    targetCmd.grp = none ∧ targetCmd.shutter = 2000 * 51 ∧ dAt targetCmd.d = false ∧ targetCmd.op ≠ 0x61 ∧
    acknowledged (commitsAt accepted1).2 targetCmd = true ∧ commitCheck (commitsAt accepted1).2 targetCmd = none := by decide +kernel
theorem witness_ShutterCommits_completion :
    let e := applyEffect 102000 (commitsAt accepted1).1 { (commitsAt accepted1).2 with cmds := [] } targetCmd
    e.1.cmds = [] ∧ (portOf e.1 targetCmd.d.port).rstAt = none := by decide +kernel

/-- A record of the epoch that ends at 100,000. -/
def aRecord : Record := { (default : Record) with gtc := 100000, epoch := 49 }
def recorded : State := { base with records := [aRecord] }
theorem witness_Regrant : recorded.clk.crstBusy = false ∧ recorded.records = [aRecord] := ⟨by decide +kernel, rfl⟩
theorem witness_Regrant_none : base.records = [] ∧ (clocked (fun c => { c with crstBusy := true })).clk.crstBusy = true := by decide +kernel
/-- Port 1 with a producer index of its trace ring (64 is a full ring), in mode 1 from the reset on, with all modes on. -/
def tracing (prod : Nat) : State :=
  let s := setPort recorded 1 (fun P => { P with en := true, trace := { P.trace with en := true, mode := 1, waves := Vector.replicate 4 0xFE },
                                                 rings := Vector.ofFn (fun i : Fin 4 => { ringOf P i with en := true, prod := prod }) })
  { s with mode := { s.mode with force := 0x7F } }
theorem witness_TraceHandoff : ∀ n ∈ [0, 64], modeOn (tracing n) 6 = true ∧ gateOn (tracing n) 2 = true ∧ (portOf (tracing n) 1).en = true ∧
    (ringOf (portOf (tracing n) 1) 3).en = true ∧ (portOf (tracing n) 1).fabErr = false ∧
    (portOf (tracing n) 1).trace.lastAt ≠ aRecord.gtc.toNat ∧ aRecord.gtc.toNat = 2000 * 50 ∧ Nat.max (tracing n).time.gtc 100500 < aRecord.gtc.toNat + 2000 ∧
    (chunkPar (portOf (tracing n) 1).trace aRecord.gtc.toNat).isSome = true ∧ vget (tracing n).clk.run 4 = true := by decide +kernel
def params : ChunkPar := { mode := 1, qs := 0, k := 0, waves := [], resync := true, idx := 0 }
theorem witness_TraceHandoff_fits : chunkPar (portOf (tracing 0) 1).trace 100000 = some params ∧
    (chunkFits (ringOf (portOf (tracing 0) 1) 3) ((buildChunk (now 100500 (tracing 0)) 1 100000 params).bytes.length / 64),
     chunkFits (ringOf (portOf (tracing 64) 1) 3) ((buildChunk (now 100500 (tracing 64)) 1 100000 params).bytes.length / 64)) = (true, false) :=
  ⟨rfl, by decide +kernel⟩
/-- A write queue with room for the chunk, and a full one. -/
theorem witness_TraceHandoff_room :
    let queued := (chunkWrites 1 (ringOf (portOf (tracing 0) 1) 3) (buildChunk (now 100500 (tracing 0)) 1 100000 params)).2
    ((tracing 0).wq.map writeUnits).sum + (queued.map writeUnits).sum ≤ 64 ∧ 0 < (queued.map writeUnits).sum ∧
    64 ≤ ((List.replicate 64 { port := 1, ring := none, addr := 0, data := [0], prod := 0, cpl := [] : WriteReq }).map writeUnits).sum := by decide +kernel
/-- A stream that does not run, and one without a chunk due. -/
theorem witness_TraceHandoff_off : (portOf recorded 1).en = false ∧ chunkPar (portOf recorded 1).trace 100000 = none := by decide +kernel
def stored : State :=
  { base with progs := vset base.progs 3 (some constProg), models := vset base.models 2 (some zeroModel),
              cfg := vupd base.cfg 5 (fun c => { c with model := some 2 }) }
theorem witness_ScrubFinds : stored.safety.queue.length ≤ 768 ∧ vget stored.progs 3 = some constProg ∧ (vget stored.models 2).isSome = true ∧
    isAbsent stored 5 = false ∧ isOdd stored 5 = false ∧ (cfgAt stored 5).model = some 2 ∧ (domOf stored 5).rc.bins.wf = true := by decide +kernel

/-- The one accepted AT command, whose store word is lost. -/
def atCmd : Cmd := let d := desc 0x11 1 []; { cmdOf 0x11 .accepted 200000 { d with flags := 8, atGtc := 200000 } with accAt := 100000 }
theorem witness_ScrubFinds_at : { stored with cmds := [atCmd] }.cmds = [atCmd] ∧ atCmd.stage = .accepted ∧ dAt atCmd.d = true ∧ atCmd.grp = none ∧
    (∀ p : Fin 8, vget stored.groups p = none) ∧ vget stored.progs (3 : Fin 32) ≠ none ∧ (domOf stored 5).rc.bins.wf = true := by decide +kernel

/-! ### Worked examples of the manual -/

/-- Table 07-11's program on the inputs that follow it: s0 and the code. -/
def exampleProg : Program :=
  { ident := 1, crc := 0, init := List.replicate 64 0, consts := [0x51F, 0xFFEC0000, 0x140000, 0x8000],
    sections := [[0x40400002, 0x40800000, 0x64C48000, 0x31000000, 0x29400000, 0x890D4000, 0x29800001, 0x29C00002, 0x8119C000, 0x34100000, 0x2A000003,
                  0x864E0000, 0x62650000, 0x62644000, 0x42800008, 0x62668000, 0x44240000, 0x08000000]], unusable := false }
def exampleSlot : State :=
  let s := lit5 (fun D => { D with vmeas := 24680, vFr := 24680, use := ⟨true, true, true⟩, prof := { D.prof with vref := 51118080 }, sw := D.sw.write 0 98304,
                                   rc := { D.rc with locked := true, bins := D.rc.bins.write 0 (-128) } })
  { s with cfg := vupd s.cfg 5 (fun c => { c with prog := 3, rc := { c.rc with on := 1, auth := 20 } }), progs := vset s.progs 3 (some exampleProg),
           clk := { s.clk with csrc := 1, ccur := 1, lockC := true }, mode := { s.mode with force := 0x30 } }
/-- It computes the code 617 and keeps 109,775 in s0. -/
theorem test_example_program : (match exec (.cleSlot 0 5 0 [] []) exampleSlot with
    | .next u => ((domOf u 5).code, (domOf u 5).sw.read 0) | _ => (0, 0)) = (617, 109775) := by decide +kernel
/-- R105's message. -/
theorem test_fault_word : faultWord 0 0x04 0x7 37 0x00699A0C 0 = 0x011C9401A6683001 := by decide +kernel
/-- The epochs of R31's and Table 04-9's examples. -/
theorem test_epochs : epochOf 9000000000750 = 205032704 ∧ epochOf 9600000000310 = 505032704 := by decide +kernel
/-- The move of Table 08-6: its plan, its length and the reference's codes at eight of its steps. -/
def move86 : Prof := profStart (cfgOf base 5).lim 0 55705600 { (domOf base 5).prof with cond := .settled, vref := 45875200 }
theorem test_table_08_6_plan : planMove (cfgOf base 5).lim 9830400 = (16, 2, 0, 9792) ∧ moveLen move86 = 68 := by decide +kernel
theorem test_table_08_6_codes : ([1, 9, 16, 18, 34, 50, 52, 68].map (fun k =>
    vsetCode ((List.range (k - 1)).foldl (fun p i => profStep (250 * (i + 1)) p) move86).vref)) = [480, 483, 497, 504, 600, 696, 703, 720] := by
  decide +kernel
/-- The numbers of chapter 09's example: a requantisation, a normalised feature, and the update of bin 2,968. -/
theorem test_lantern_rc_example : rne (32790 * 20480) 20 = 640 ∧ sat8 (rnes 256 2 - 100) = -36 ∧ rne 5581 3 = 698 ∧
    rcUpdate { on := 1, k := 8, f := 10, g := 3, l := 1, auth := 20, src := 0 } 1536 209700 = 1636 := by decide +kernel
/-- The levels and the unthrottled power of chapter 10's example. -/
theorem test_arbiter_example : levelFor 40 224 200 = 3 ∧ levelFor 40 241 200 = 4 ∧ unthrottled 203 40 24 = 241 := by decide +kernel
/-- Table 12-7: code, decoded value and carry of four chunks. -/
theorem test_table_12_7 : codeBounded 2 false 9574 9572 1 = ⟨1, 9576, -1⟩ ∧ codeBounded 2 false 9577 9576 (-1) = ⟨0, 9576, 0⟩ ∧
    codeBounded 2 false 9571 9576 0 = ⟨-1, 9572, -1⟩ ∧ codeBounded 2 true 9580 9572 (-1) = ⟨7, 9579, 0⟩ := by decide +kernel
/-- The power, the energy and the ratio of chapter 12's example. -/
theorem test_meter_example : pIn 6794772 65767 = 25401 ∧ eIn 6794772 65767 81920 = 31752149 ∧ ratioK 31752149 25975000000 = 20508668 := by
  decide +kernel

end Sys2Proof.Tests
end

section
/-! The MC image: what a write of `FW_GO` and the end of a load do (R367, Table 15-6). -/

namespace Sys2Proof.Laws
open Sys2Proof Sys2Proof.Machine

/-! ### Header fields and the error of a load -/

theorem leNat_lt (l : List Byte) : leNat l < 256 ^ l.length := by
  induction l with
  | nil => simp [leNat]
  | cons b bs ih =>
    have hb : b.toNat < 256 := b.isLt
    rw [leNat, List.length_cons, pow_succ']
    omega

/-- A field of n bytes holds a number of n bytes. -/
theorem leAt_lt (bs : List Byte) (off n : Nat) : leAt bs off n < 256 ^ n := by
  simpa [leAt] using leNat_lt (slice bs off n)

/-- The lengths of Table 15-6: the signature and header add 160 bytes to a payload of whole 64-byte blocks. -/
theorem fwLenOk_iff (n : Nat) : fwLenOk n = true ↔ 4256 ≤ n ∧ n ≤ 524448 ∧ n % 64 = 32 := by
  simp only [fwLenOk, decide_eq_true_eq]
  omega

theorem fwHdrOk_iff (h : List Byte) : fwHdrOk h = true ↔
    slice h 0 4 = ascii "DGFW" ∧ leAt h 4 1 = 1 ∧ leAt h 16 4 % 4 = 0 ∧ leAt h 16 4 < leAt h 12 4 := by
  simp only [fwHdrOk, Bool.and_eq_true, beq_iff_eq, decide_eq_true_eq, and_assoc]

section
variable {n : Nat} {hdr : List Byte} {signed : Bool}

theorem fwError_of_bad_length (img : FwImage) (hn : fwLenOk n ≠ true) : fwError n img = 1 := by
  cases img <;> simp [fwError, hn]

theorem fwError_fabricError (hn : fwLenOk n = true) : fwError n .fabricError = 2 := by simp [fwError, hn]

theorem fwError_of_length_mismatch (hf : leAt hdr 12 4 + 160 ≠ n) : fwError n (.image hdr signed) = 1 := by simp [fwError, hf]

theorem fwError_unsigned (hn : fwLenOk n = true) (hf : leAt hdr 12 4 + 160 = n) : fwError n (.image hdr false) = 4 := by
  simp [fwError, hn, hf]

theorem fwError_signed (hn : fwLenOk n = true) (hf : leAt hdr 12 4 + 160 = n) :
    fwError n (.image hdr true) = if fwHdrOk hdr then 0 else 3 := by
  simp [fwError, hn, hf]

end

/-! ### `FW_GO` and `FW_LOAD_DONE` -/

/-- `GO` acts through an open setup window while `STATE` is EMPTY or FAIL, and is acknowledged in any case. -/
theorem exec_fwGo (val : Word) (t : Nat) (s : State) : exec (.fwGo val t) s = .next
    (if setupOpen s = true ∧ val.getLsbD 0 = true ∧ (s.mc.state = 0 ∨ s.mc.state = 4) then
      { ackWrite (now t s) with mc := { s.mc with go := true, state := 1, err := 0 } } else ackWrite (now t s)) := by
  have ho : setupOpen (ackWrite (now t s)) = setupOpen s := rfl
  change execFwGo val t s = _
  simp only [execFwGo, ho, bitOf, ackWrite_mc, now_mc, Bool.and_eq_true, Bool.or_eq_true, beq_iff_eq, and_assoc,
    apply_ite Host.Outcome.next]

/-- A good image starts the MC with the header's version. -/
theorem exec_fwLoadDone_good {hdr : List Byte} {signed : Bool} {t : Nat} {s : State} (hgo : s.mc.go = true)
    (he : fwError s.mc.len.toNat (.image hdr signed) = 0) :
    exec (.fwLoadDone (.image hdr signed) t) s = .next (startMc { now t s with
      mc := { s.mc with go := false, image := true, version := BitVec.ofNat 16 (leAt hdr 8 2) } }) := by
  change execFwLoadDone (.image hdr signed) t s = _
  simp [execFwLoadDone, hgo, he]

/-- A bad image leaves FAIL with its error, and FW_AUTH waits at the collector. -/
theorem exec_fwLoadDone_bad {img : FwImage} {t : Nat} {s : State} (hgo : s.mc.go = true)
    (he : fwError s.mc.len.toNat img ≠ 0) :
    exec (.fwLoadDone img t) s = .next (raise { now t s with
      freeIdx := s.freeIdx + 1
      mc := { s.mc with go := false, state := 4, err := BitVec.ofNat 4 (fwError s.mc.len.toNat img) } }
      1 0x71 0xD (Config.fresh s.freeIdx % 256) 0) := by
  change execFwLoadDone img t s = _
  simp [execFwLoadDone, hgo, he, freshBelow]

theorem fwLoadDone_good_answers {hdr : List Byte} {t : Nat} {s : State} (hgo : s.mc.go = true)
    (he : fwError s.mc.len.toNat (.image hdr true) = 0) :
    Answers (.fwLoadDone (.image hdr true) t) s (fun u =>
      u.mc.run = true ∧ u.mc.state = 3 ∧ u.mc.image = true ∧ u.mc.version.toNat = leAt hdr 8 2 ∧
      u.mc.kickAt = (now t s).time.run ∧ u = { now t s with mc := u.mc }) := by
  have hv : (BitVec.ofNat 16 (leAt hdr 8 2)).toNat = leAt hdr 8 2 := Nat.mod_eq_of_lt (leAt_lt hdr 8 2)
  exact ⟨_, exec_fwLoadDone_good hgo he, rfl, rfl, rfl, hv, rfl, rfl⟩

theorem fwLoadDone_bad_answers {img : FwImage} {t : Nat} {s : State} {e : BitVec 4} (hgo : s.mc.go = true)
    (he : fwError s.mc.len.toNat img = e.toNat) (h0 : e.toNat ≠ 0) :
    Answers (.fwLoadDone img t) s (fun u =>
      u.mc.state = 4 ∧ u.mc.err = e ∧ u.mc.go = false ∧ u.mc.run = s.mc.run ∧
      (∃ m, u.safety.queue = s.safety.queue ++ [m] ∧ fKindOf m.bits = 0x71 ∧ fClass m.bits = 1 ∧ fUnit m.bits = 0xD) ∧
      u = { now t s with mc := u.mc, safety := { s.safety with queue := u.safety.queue }, freeIdx := u.freeIdx }) := by
  refine ⟨_, exec_fwLoadDone_bad hgo (he ▸ h0), ?_⟩
  rw [raise_eq _ _ _ _ _ _ (by omega), he]
  exact ⟨rfl, by simp, rfl, rfl,
    ⟨_, rfl, fKindOf_faultWord .., fClass_faultWord .., fUnit_faultWord ..⟩, rfl⟩

end Sys2Proof.Laws
end

section
/-! The characterisation record: what its installation writes and what it leaves (R9, R26, R40, R368). -/

namespace Sys2Proof.Laws
open Sys2Proof Sys2Proof.Machine

/-! ### The converters' bring-up and the boot record -/

theorem busStart_frame (s : State) : busStart s = { s with bus := (busStart s).bus } := by
  unfold busStart
  split
  · rfl
  · split <;> rfl

/-- The converters' bring-up concerns the bus alone. -/
theorem busInit_frame (s : State) : busInit s = { s with bus := (busInit s).bus } := by
  rw [busInit, busBack, busStart_frame]

theorem queueRecord_frame (s : State) (k : Fin 4) (typ gtc : Nat) (pay : List Byte) :
    (queueRecord s k typ gtc pay).1 = { s with strata := (queueRecord s k typ gtc pay).1.strata } := by
  unfold queueRecord
  split
  · rfl
  · split <;> rfl

/-- The boot record concerns the strata log alone. -/
theorem bootRecord_frame (s : State) : bootRecord s = { s with strata := (bootRecord s).strata } :=
  queueRecord_frame ..

/-! ### The meter values of a record and of the log's system calibrations -/

/-- A system calibration replaces the values of its channel. -/
def calibrate (m : Meter) (c : SysCal) : Meter :=
  { m with ofs := vset m.ofs c.ch c.ofs, gain := vset m.gain c.ch c.gain }

theorem calibrate_same (m : Meter) (c : SysCal) :
    vget (calibrate m c).ofs c.ch = c.ofs ∧ vget (calibrate m c).gain c.ch = c.gain :=
  ⟨vget_vset_same _ _ c.ch.isLt, vget_vset_same _ _ c.ch.isLt⟩

theorem calibrate_other (m : Meter) {c : SysCal} {ch : Fin 16} (h : c.ch ≠ ch) :
    vget (calibrate m c).ofs ch = vget m.ofs ch ∧ vget (calibrate m c).gain ch = vget m.gain ch :=
  have hv : c.ch.val ≠ ch.val := Fin.val_ne_of_ne h
  ⟨vget_vset_ne _ _ hv, vget_vset_ne _ _ hv⟩

/-- Calibrations of other channels leave a channel's values. -/
theorem foldl_calibrate_other {ch : Fin 16} : ∀ (cals : List SysCal) (m : Meter), (∀ c ∈ cals, c.ch ≠ ch) →
    vget (cals.foldl calibrate m).ofs ch = vget m.ofs ch ∧ vget (cals.foldl calibrate m).gain ch = vget m.gain ch
  | [], _, _ => ⟨rfl, rfl⟩
  | c :: cals, m, h => by
    obtain ⟨ho, hg⟩ := calibrate_other m (h c List.mem_cons_self)
    obtain ⟨io, ig⟩ := foldl_calibrate_other cals (calibrate m c) (fun x hx => h x (List.mem_cons_of_mem c hx))
    exact ⟨io.trans ho, ig.trans hg⟩

/-- The last calibration of a channel stands. -/
theorem foldl_calibrate_last (m : Meter) (older newer : List SysCal) (c : SysCal) (h : ∀ x ∈ newer, x.ch ≠ c.ch) :
    vget ((older ++ c :: newer).foldl calibrate m).ofs c.ch = c.ofs ∧
    vget ((older ++ c :: newer).foldl calibrate m).gain c.ch = c.gain := by
  rw [List.foldl_append, List.foldl_cons]
  obtain ⟨io, ig⟩ := foldl_calibrate_other newer (calibrate (older.foldl calibrate m) c) h
  obtain ⟨ho, hg⟩ := calibrate_same (older.foldl calibrate m) c
  exact ⟨io.trans ho, ig.trans hg⟩

/-! ### The domains and the configuration after a record -/

theorem domOf_setDoms (s : State) (f : Nat → Domain → Domain) {d : Nat} (h : d < 80) :
    domOf (setDoms s f) d = f d (domOf s d) := vget_vmapIdx s.dom f h

theorem absentSites_frame (r : CharRecord) (s : State) : absentSites r s = { s with dom := (absentSites r s).dom } := by
  simp only [absentSites, setDoms]

/-- A site that the record marks absent (R26, R40). -/
theorem domOf_absentSites_absent (r : CharRecord) (s : State) (d : Site) (h : ∀ x ∈ r.siteMap, x ≠ d) :
    domOf (absentSites r s) d = outputsReset { domOf s d with state := .absent } := by
  have hm : r.siteMap.any (fun x => x.val == d.val) = false := by
    simpa [Fin.val_inj] using h
  rw [absentSites, domOf_setDoms s _ (by omega), hm]
  simp

/-- A site of the record's map. -/
theorem domOf_absentSites_present (r : CharRecord) (s : State) {d : Site} (h : d ∈ r.siteMap) :
    domOf (absentSites r s) d = domOf s d := by
  have hm : r.siteMap.any (fun x => x.val == d.val) = true := List.any_eq_true.mpr ⟨d, h, beq_self_eq_true _⟩
  rw [absentSites, domOf_setDoms s _ (by omega), hm]
  simp

/-- An absent site's tile clock is stopped (R26). -/
theorem outputsReset_uvstop (D : Domain) : (outputsReset D).droop.uvstop = true := by
  simp [outputsReset, stopLevel]

/-- The record's tables write cells and targets, and the meter takes the log's calibrations after the record's. -/
theorem recordTables_frame (r : CharRecord) (s : State) : recordTables r s = { s with
    dom := (recordTables r s).dom
    cfg := (recordTables r s).cfg
    meter := s.strata.cals.foldl calibrate { s.meter with ofs := r.mtrOfs, gain := r.mtrGain } } := by
  simp only [recordTables, setDoms]
  rfl

/-- The record's tables change nothing of a domain but its cells. -/
theorem domOf_recordTables (r : CharRecord) (s : State) {d : Nat} (h : d < 80) :
    domOf (recordTables r s) d = { domOf s d with
      cells := vmapIdx (domOf s d).cells (fun k c => { c with ctrim := vget r.ctrim (cellNoOf d k) }) } := by
  simp only [recordTables, domOf, setDoms_dom]
  exact vget_vmapIdx s.dom _ h

theorem ctrim_recordTables (r : CharRecord) (s : State) (d : Dom) (k : Fin 14) :
    (cellOf (domOf (recordTables r s) d) k).ctrim = vget r.ctrim (cellNoOf d k) := by
  rw [domOf_recordTables r s d.isLt, cellOf, vget_vmapIdx _ _ k.isLt]

/-- A configuration whose target a host has set stays as it is. -/
theorem cfgOf_recordTables_of_tgtSet (r : CharRecord) (s : State) (l : Fin 80) (h : (cfgOf s l).tgtSet = true) :
    cfgOf (recordTables r s) l = cfgOf s l := by
  simp only [recordTables, cfgOf, setDoms_cfg]
  rw [vget_vmapIdx s.cfg _ l.isLt]
  exact if_pos h

/-- Beside its tables and absent sites, an installation sets excluded sensors and begins the converters' bring-up. -/
theorem installRecord_frame (r : CharRecord) (s : State) : installRecord r s =
    { recordTables r (absentSites r { s with char := some r }) with
      therm := (installRecord r s).therm, bus := (installRecord r s).bus } := by
  unfold installRecord
  generalize recordTables r (absentSites r { s with char := some r }) = T
  simp only
  split
  · rw [busInit_frame]; rfl
  · rfl

/-- The state that an installation leaves, boot record written: the tables' domains, configurations and meter, the record itself, and
the command processor as it was. -/
theorem bootRecord_installRecord (r : CharRecord) (s : State) :
    let u := bootRecord (installRecord r s)
    let T := recordTables r (absentSites r { s with char := some r })
    (∀ d, domOf u d = domOf T d) ∧ (∀ l, cfgOf u l = cfgOf T l) ∧
    u.meter = s.strata.cals.foldl calibrate { s.meter with ofs := r.mtrOfs, gain := r.mtrGain } ∧
    u.char = some r ∧ u.mc = s.mc ∧ u.ports = s.ports ∧ u.cmds = s.cmds := by
  intro u T
  have hu : u = { T with therm := u.therm, bus := u.bus, strata := u.strata } := by
    simp only [u, T]
    rw [bootRecord_frame, installRecord_frame]
  have hT : T = { s with
      char := some r, dom := T.dom, cfg := T.cfg
      meter := s.strata.cals.foldl calibrate { s.meter with ofs := r.mtrOfs, gain := r.mtrGain } } := by
    simp only [T]
    rw [recordTables_frame, absentSites_frame]
  clear_value u T
  rw [hu]
  refine ⟨fun _ => rfl, fun _ => rfl, ?_⟩
  rw [hT]
  exact ⟨rfl, rfl, rfl, rfl, rfl⟩

/-! ### `CHAR_RECORD_INSTALL` -/

@[simp] theorem mcRunning_now (s : State) (t : Nat) : mcRunning (now t s) = mcRunning s := rfl

/-- The state in which the first start meets the record: the start is over, and S1's calibrations are read where there is a log. -/
def firstStart (cals : List SysCal) (s : State) : State :=
  { s with
    mc := { s.mc with coldStart := false }
    strata := if s.strata.avail then { s.strata with cals := cals, lbNew := s.strata.lbNew || s.strata.lbFound } else s.strata }

theorem exec_charRecordInstall_ignored {c1 c2 : Option CharRecord} {cals : List SysCal} {t : Nat} {s : State}
    (h : mcRunning s = false ∨ s.mc.coldStart = false) : exec (.charRecordInstall c1 c2 cals t) s = .next (now t s) := by
  have hc : (!mcRunning (now t s) || !(now t s).mc.coldStart) = true := by
    simpa only [mcRunning_now, now_mc, Bool.or_eq_true, Bool.not_eq_true'] using h
  exact if_pos hc

theorem exec_charRecordInstall_good {c1 c2 : Option CharRecord} {cals : List SysCal} {t : Nat} {s : State} {r : CharRecord}
    (hr : mcRunning s = true) (hc : s.mc.coldStart = true) (ha : s.strata.avail = true) (h : s0Choice ⟨c1, c2⟩ = some r) :
    exec (.charRecordInstall c1 c2 cals t) s = .next (bootRecord (installRecord r (firstStart cals (now t s)))) := by
  change execCharRecordInstall c1 c2 cals t s = _
  simp [execCharRecordInstall, firstStart, hr, hc, ha, h]

theorem exec_charRecordInstall_bad {c1 c2 : Option CharRecord} {cals : List SysCal} {t : Nat} {s : State}
    (hr : mcRunning s = true) (hc : s.mc.coldStart = true) (h : s.strata.avail = false ∨ s0Choice ⟨c1, c2⟩ = none) :
    exec (.charRecordInstall c1 c2 cals t) s = .next (bootRecord (charBad (firstStart cals (now t s)))) := by
  change execCharRecordInstall c1 c2 cals t s = _
  cases ha : s.strata.avail with
  | false => simp [execCharRecordInstall, firstStart, hr, hc, ha]
  | true =>
    have h0 : s0Choice ⟨c1, c2⟩ = none := h.resolve_left (by simp [ha])
    simp [execCharRecordInstall, firstStart, hr, hc, ha, h0]

/-- The record installed at the first start is copy 1, or else copy 2. -/
theorem s0Choice_eq_some {c1 c2 : Option CharRecord} {r : CharRecord} (h : c1 = some r ∨ (c1 = none ∧ c2 = some r)) :
    s0Choice ⟨c1, c2⟩ = some r := by
  rcases h with rfl | ⟨rfl, rfl⟩ <;> rfl

/-- With no record to install, CHAR_BAD waits at the collector and the machine's domains, configurations and meter stay. -/
theorem charRecordInstall_bad_answers {c1 c2 : Option CharRecord} {cals : List SysCal} {t : Nat} {s : State}
    (hr : mcRunning s = true) (hc : s.mc.coldStart = true) (h : s.strata.avail = false ∨ s0Choice ⟨c1, c2⟩ = none) :
    Answers (.charRecordInstall c1 c2 cals t) s (fun u =>
      u.char = s.char ∧ u.mc.coldStart = false ∧ u.dom = s.dom ∧ u.cfg = s.cfg ∧ u.meter = s.meter ∧
      (∃ m, u.safety.queue = s.safety.queue ++ [m] ∧ fKindOf m.bits = 0x72 ∧ fClass m.bits = 1 ∧ fUnit m.bits = 0xD)) := by
  refine ⟨_, exec_charRecordInstall_bad hr hc h, ?_⟩
  rw [bootRecord_frame, charBad, raise_eq _ _ _ _ _ _ (by omega)]
  exact ⟨rfl, rfl, rfl, rfl, rfl, _, rfl, fKindOf_faultWord .., fClass_faultWord .., fUnit_faultWord ..⟩

/-- The chosen record is installed: sites, trims, targets and meter values. -/
theorem charRecordInstall_good_answers {c1 c2 : Option CharRecord} {cals : List SysCal} {t : Nat} {s : State} {r : CharRecord}
    (hr : mcRunning s = true) (hc : s.mc.coldStart = true) (ha : s.strata.avail = true) (h : s0Choice ⟨c1, c2⟩ = some r) :
    Answers (.charRecordInstall c1 c2 cals t) s (fun u =>
      u.char = some r ∧ u.mc.coldStart = false ∧
      (∀ d : Site, (∀ x ∈ r.siteMap, x ≠ d) → (domOf u d).state = .absent ∧ (domOf u d).droop.uvstop = true ∧
        (domOf u d).tile.thrDiv = 0 ∧ (domOf u d).tile.thrSkip = 0 ∧ (domOf u d).tile.freqCode = 0) ∧
      (∀ x ∈ r.siteMap, (domOf u x).state = (domOf s x).state) ∧
      (∀ (d : Dom) (k : Fin 14), (cellOf (domOf u d) k).ctrim = vget r.ctrim (cellNoOf d k)) ∧
      (∀ l : Fin 80, (cfgOf s l).tgtSet = true → cfgOf u l = cfgOf s l) ∧
      (∀ ch : Fin 16, (∀ c ∈ cals, c.ch ≠ ch) → vget u.meter.ofs ch = vget r.mtrOfs ch ∧ vget u.meter.gain ch = vget r.mtrGain ch) ∧
      (∀ (older newer : List SysCal) (c : SysCal), cals = older ++ c :: newer → (∀ x ∈ newer, x.ch ≠ c.ch) →
        vget u.meter.ofs c.ch = c.ofs ∧ vget u.meter.gain c.ch = c.gain) ∧
      u.ports = s.ports ∧ u.cmds = s.cmds) := by
  refine ⟨_, exec_charRecordInstall_good hr hc ha h, ?_⟩
  obtain ⟨hdom, hcfg, hmeter, hchar, hmc, hports, hcmds⟩ := bootRecord_installRecord r (firstStart cals (now t s))
  have hcals : (firstStart cals (now t s)).strata.cals = cals := by simp [firstStart, ha]
  rw [hcals] at hmeter
  generalize bootRecord (installRecord r (firstStart cals (now t s))) = u at *
  refine ⟨hchar, by rw [hmc]; rfl, fun d hd => ?_, fun x hx => ?_, fun d k => ?_, fun l hl => ?_, fun ch hch => ?_,
    fun older newer c hsplit hnewer => ?_, hports, hcmds⟩
  · rw [hdom, domOf_recordTables _ _ (by omega), domOf_absentSites_absent r _ d hd]
    exact ⟨rfl, outputsReset_uvstop _, rfl, rfl, rfl⟩
  · rw [hdom, domOf_recordTables _ _ (by omega), domOf_absentSites_present r _ hx]
    rfl
  · rw [hdom, ctrim_recordTables]
  · have hA : cfgOf (absentSites r { firstStart cals (now t s) with char := some r }) l = cfgOf s l := by
      rw [absentSites, cfgOf_setDoms]; rfl
    rw [hcfg, cfgOf_recordTables_of_tgtSet r _ l (by rw [hA, hl]), hA]
  · rw [hmeter]
    exact foldl_calibrate_other cals _ hch
  · rw [hmeter, hsplit]
    exact foldl_calibrate_last _ older newer c hnewer

end Sys2Proof.Laws
end

section
/-! The statement about firmware and the characterisation record. -/

namespace Sys2Proof.Proofs
open Sys2Proof Sys2Proof.Machine Sys2Proof.Laws

/-- Settles O47: the errors of a load case by case, and the record's tables field by field. -/
theorem firmwareAndRecord : Obligations.FirmwareAndRecord := by
  intro val img t s
  refine ⟨fun ho hb hst => ?_, fun h => ?_, fun hgo hdr signed => ⟨fun hn hf hg => ?_, fun e he => ?_⟩,
    fun c1 c2 cals => ⟨exec_charRecordInstall_ignored, fun hr hc ha r h => ?_, fun hr hc h => ?_⟩⟩
  · rw [exec_fwGo, if_pos ⟨ho, hb, hst⟩]
  · rw [exec_fwGo, if_neg]
    rintro ⟨ho, hb, hst⟩
    rcases h with h | h | ⟨h0, h4⟩
    · exact Bool.false_ne_true (h.symm.trans ho)
    · exact Bool.false_ne_true (h.symm.trans hb)
    · exact hst.elim h0 h4
  · refine fwLoadDone_good_answers hgo ?_
    rw [fwError_signed ((fwLenOk_iff _).mpr hn) hf, if_pos ((fwHdrOk_iff hdr).mpr hg)]
  · rcases he with ⟨hn, rfl⟩ | ⟨hn, rfl, rfl⟩ | ⟨-, rfl, hf, rfl⟩ | ⟨hn, rfl, hf, hg, rfl⟩ | ⟨hn, rfl, hf, rfl⟩
    · exact fwLoadDone_bad_answers hgo (fwError_of_bad_length img (mt (fwLenOk_iff _).mp hn)) (by decide)
    · exact fwLoadDone_bad_answers hgo (fwError_fabricError ((fwLenOk_iff _).mpr hn)) (by decide)
    · exact fwLoadDone_bad_answers hgo (fwError_of_length_mismatch hf) (by decide)
    · refine fwLoadDone_bad_answers hgo ?_ (by decide)
      rw [fwError_signed ((fwLenOk_iff _).mpr hn) hf, if_neg (mt (fwHdrOk_iff hdr).mp hg)]
      rfl
    · exact fwLoadDone_bad_answers hgo (fwError_unsigned ((fwLenOk_iff _).mpr hn) hf) (by decide)
  · exact charRecordInstall_good_answers hr hc ha (s0Choice_eq_some h)
  · exact charRecordInstall_bad_answers hr hc (h.imp_right (by rintro ⟨rfl, rfl⟩; rfl))

end Sys2Proof.Proofs
end

section
/-! The hand-off of a trace chunk (R24, R274, R275, R299). -/

namespace Sys2Proof.Laws
open Sys2Proof Sys2Proof.Machine
set_option Elab.async false

theorem exec_traceChunkHandoff (p : PortNo) (k t : Nat) (s : State) :
    exec (.traceChunkHandoff p k t) s = execTraceChunkHandoff p k t s := rfl

/-- A hand-off acts: trace is on and its clock runs, the port and its trace ring are in order, and the shutter is the last one and not yet
handed off. -/
def HandsOff (p : PortNo) (k t : Nat) (s : State) (r : Record) : Prop :=
  modeOn s 6 = true ∧ gateOn s 2 = true ∧ (portOf s p).en = true ∧ (ringOf (portOf s p) 3).en = true ∧ (portOf s p).fabErr = false ∧
    (portOf s p).trace.lastAt ≠ r.gtc.toNat ∧ r.gtc.toNat = 2000 * k ∧ Nat.max s.time.gtc t < r.gtc.toNat + 2000

/-- The records older than the span of a chunk. -/
def beforeSpan (s : State) (sh : Nat) (q : ChunkPar) : List Record := s.records.drop (spanRecs s (sh - spanOf q.k) sh).length

/-- A port's stream drops the chunk of a shutter. -/
def dropChunk (s : State) (p : PortNo) (sh : Nat) (q : ChunkPar) (full : Bool) : State :=
  setPort s p (fun P => { P with trace := droppedChunk sh full (beforeSpan s sh q) P.trace })

/-- A port's stream hands a chunk to the write queue. -/
def handChunk (s : State) (p : PortNo) (r : Record) (q : ChunkPar) (c : Chunk) : State :=
  let w := chunkWrites p (ringOf (portOf s p) 3) c
  let s1 := setPort s p (fun P => { setRing P 3 (fun _ => w.1) with trace := delivered r.gtc.toNat q c r P.trace })
  { s1 with wq := s1.wq ++ w.2 }

section
variable {p : PortNo} {k t : Nat} {s : State} {r : Record} {rest : List Record} (hrec : s.records = r :: rest)
include hrec

theorem exec_traceChunkHandoff_idle (h : ¬HandsOff p k t s r ∨ chunkPar (portOf s p).trace r.gtc.toNat = none) :
    exec (.traceChunkHandoff p k t) s = .next (now t s) := by
  rw [exec_traceChunkHandoff]
  simp only [execTraceChunkHandoff, now_records, hrec]
  split
  · rfl
  · rename_i hg
    have hruns : HandsOff p k t s r := by
      simpa [HandsOff, modeOn, gateOn, and_assoc] using hg
    rw [portOf_now, h.resolve_left (not_not_intro hruns)]

theorem exec_traceChunkHandoff_due {q : ChunkPar} {c : Chunk} (h : HandsOff p k t s r)
    (hq : chunkPar (portOf s p).trace r.gtc.toNat = some q) (hc : buildChunk (now t s) p r.gtc.toNat q = c) :
    exec (.traceChunkHandoff p k t) s =
      if chunkFits (ringOf (portOf s p) 3) (c.bytes.length / 64) = false then .next (dropChunk (now t s) p r.gtc.toNat q true)
      else if 64 < (s.wq.map writeUnits).sum + ((chunkWrites p (ringOf (portOf s p) 3) c).2.map writeUnits).sum then
        .next (dropChunk (now t s) p r.gtc.toNat q false)
      else .next (handChunk (now t s) p r q c) := by
  rw [exec_traceChunkHandoff, execTraceChunkHandoff, now_records, hrec]
  dsimp -zeta only
  extract_lets sh
  rw [if_neg (by simpa [HandsOff, modeOn, gateOn, and_assoc] using h), portOf_now, hq]
  dsimp -zeta only
  rw [← hrec]
  subst hc
  extract_lets c before drop w s2
  simp only [Bool.not_eq_true']
  rfl

end

/-- A dropped chunk is counted for its cause and the stream starts afresh; everything outside the port stays. -/
theorem dropChunk_trace (s : State) (p : PortNo) (sh : Nat) (q : ChunkPar) (full : Bool) :
    (portOf (dropChunk s p sh q full) p).trace = droppedChunk sh full (beforeSpan s sh q) (portOf s p).trace := by
  rw [dropChunk, portOf_setPort_fin]

theorem dropChunk_frame (s : State) (p : PortNo) (sh : Nat) (q : ChunkPar) (full : Bool) :
    dropChunk s p sh q full = { s with ports := (dropChunk s p sh q full).ports } := rfl

theorem portOf_dropChunk_ne (s : State) {p e : PortNo} (sh : Nat) (q : ChunkPar) (full : Bool) (h : e ≠ p) :
    portOf (dropChunk s p sh q full) e = portOf s e :=
  portOf_setPort_ne s _ (Fin.val_ne_of_ne h.symm)

theorem portOf_handChunk (s : State) (p : PortNo) (r : Record) (q : ChunkPar) (c : Chunk) :
    portOf (handChunk s p r q c) p = { setRing (portOf s p) 3 (fun _ => (chunkWrites p (ringOf (portOf s p) 3) c).1) with
      trace := delivered r.gtc.toNat q c r (portOf s p).trace } :=
  portOf_setPort_fin s p _

theorem portOf_handChunk_ne (s : State) {p e : PortNo} (r : Record) (q : ChunkPar) (c : Chunk) (h : e ≠ p) :
    portOf (handChunk s p r q c) e = portOf s e :=
  portOf_setPort_ne s _ (Fin.val_ne_of_ne h.symm)

theorem ringOf_handChunk (s : State) (p : PortNo) (r : Record) (q : ChunkPar) (c : Chunk) :
    ringOf (portOf (handChunk s p r q c) p) 3 = (chunkWrites p (ringOf (portOf s p) 3) c).1 := by
  rw [portOf_handChunk]
  exact ringOf_setRing_same _ _ (by omega)

/-- The first unit of a chunk is written last, and its write publishes the producer index (R299). -/
theorem chunkWrites_last (p : PortNo) (r : Ring) (c : Chunk) : ∃ l w, (chunkWrites p r c).2 = l ++ [w] ∧ w.port = p ∧ w.ring = some .trq ∧
    w.data = c.bytes.take 64 ∧ w.prod = (chunkWrites p r c).1.prod :=
  ⟨_, _, rfl, rfl, rfl, rfl, rfl⟩

end Sys2Proof.Laws
end

section
/-! The statement about the hand-off of a trace chunk. -/

namespace Sys2Proof.Proofs
open Sys2Proof Sys2Proof.Machine Sys2Proof.Laws
set_option Elab.async false

/-- Settles O59: the three outcomes of a chunk that is due, and the hand-offs that leave everything as it is. -/
theorem traceHandoff : Obligations.TraceHandoff := by
  intro p k t s r rest hrec
  refine ⟨exec_traceChunkHandoff_idle hrec, fun q hruns hq => ?_⟩
  intro c fits queued room others
  have hexec := exec_traceChunkHandoff_due hrec hruns hq (rfl : _ = c)
  refine ⟨fun hfits hroom => ?_, fun hfits => ?_, fun hfits hroom => ?_⟩
  · rw [if_neg (Bool.eq_false_iff.not_left.mpr hfits), if_neg (Nat.not_lt.mpr hroom)] at hexec
    refine ⟨_, hexec, ?_⟩
    have hring := ringOf_handChunk (now t s) p r q c
    simp only [hring]
    simp only [portOf_handChunk]
    exact ⟨rfl, rfl, rfl, rfl, rfl, rfl, rfl, chunkWrites_last _ _ _, fun e he => portOf_handChunk_ne _ _ _ _ he, rfl⟩
  · rw [if_pos hfits] at hexec
    refine ⟨_, hexec, ?_⟩
    simp only [dropChunk_trace]
    exact ⟨rfl, rfl, rfl, rfl, rfl, fun e he => portOf_dropChunk_ne _ _ _ _ he, dropChunk_frame ..⟩
  · rw [if_neg (Bool.eq_false_iff.not_left.mpr hfits), if_pos (Nat.not_le.mp hroom)] at hexec
    refine ⟨_, hexec, ?_⟩
    simp only [dropChunk_trace]
    exact ⟨rfl, rfl, rfl, rfl, rfl, fun e he => portOf_dropChunk_ne _ _ _ _ he, dropChunk_frame ..⟩

end Sys2Proof.Proofs
end

section
/-! Changes of single domains: what a change of one domain, of a pair's members or of every domain in turn leaves. -/

namespace Sys2Proof.Laws
open Sys2Proof Sys2Proof.Machine
set_option Elab.async false

/-- Nothing but domains has changed. -/
def OnlyDoms (s u : State) : Prop := u = { s with dom := u.dom }

theorem OnlyDoms.refl (s : State) : OnlyDoms s s := rfl

theorem OnlyDoms.trans {s u v : State} (h : OnlyDoms s u) (k : OnlyDoms u v) : OnlyDoms s v := by
  rw [OnlyDoms] at *
  rw [k, h]

theorem onlyDoms_setDom (s : State) (d : Nat) (f : Domain → Domain) : OnlyDoms s (setDom s d f) := rfl

theorem OnlyDoms.therm {s u : State} (h : OnlyDoms s u) : u.therm = s.therm := by rw [h]

/-- Two states that differ in their domains alone are equal when those are. -/
theorem OnlyDoms.ext {s u v : State} (hu : OnlyDoms s u) (hv : OnlyDoms s v) (h : ∀ e < 80, domOf u e = domOf v e) : u = v := by
  have hd : u.dom = v.dom := vector_ext h
  rw [OnlyDoms] at hu hv
  rw [hu, hv, hd]

theorem vupd_congr {α : Type} [Inhabited α] {n : Nat} (v : Vector α n) (i : Nat) {f g : α → α} (h : f (vget v i) = g (vget v i)) :
    vupd v i f = vupd v i g := by
  unfold vupd
  split
  · rename_i hi
    rw [vget_lt v hi] at h
    rw [h]
  · rfl

theorem setTile_congr {s : State} {d : Nat} {f g : Tile → Tile} (h : f (domOf s d).tile = g (domOf s d).tile) :
    setTile s d f = setTile s d g := by
  have hv : vupd s.dom d (fun D => { D with tile := f D.tile }) = vupd s.dom d (fun D => { D with tile := g D.tile }) :=
    vupd_congr s.dom d (congrArg (fun T => { domOf s d with tile := T }) h)
  rw [setTile, setTile, setDom, setDom, hv]

theorem leader_lt (s : State) {d : Nat} (h : d < 80) : leader s d < 80 := by
  unfold leader
  split <;> omega

/-- A change of every member of a leader. -/
theorem domOf_setMembers (s : State) (d : Nat) (f : Domain → Domain) {e : Nat} (he : e < 80) :
    domOf (setMembers s d f) e = if e ∈ membersOf s d then f (domOf s e) else domOf s e := by
  unfold setMembers
  by_cases hp : isEven s d = true
  · have hm : membersOf s d = [d, d + 1] := by simp [membersOf, hp]
    rw [hm, List.foldl_cons, List.foldl_cons, List.foldl_nil]
    by_cases h1 : e = d + 1
    · subst h1
      rw [domOf_setDom_same _ _ he, domOf_setDom_ne _ _ (by omega), if_pos (by simp)]
    · rw [domOf_setDom_ne _ _ (Ne.symm h1)]
      by_cases h0 : e = d
      · subst h0
        rw [domOf_setDom_same _ _ he, if_pos (by simp)]
      · rw [domOf_setDom_ne _ _ (Ne.symm h0), if_neg (by simp [h0, h1])]
  · rw [membersOf_of_not_even (by simpa using hp), List.foldl_cons, List.foldl_nil]
    by_cases h0 : e = d
    · subst h0
      rw [domOf_setDom_same _ _ he, if_pos (by simp)]
    · rw [domOf_setDom_ne _ _ (Ne.symm h0), if_neg (by simp [h0])]

theorem onlyDoms_setMembers (s : State) (d : Nat) (f : Domain → Domain) : OnlyDoms s (setMembers s d f) := by
  unfold setMembers
  generalize membersOf s d = l
  induction l generalizing s with
  | nil => exact OnlyDoms.refl s
  | cons x l ih => exact (onlyDoms_setDom s x f).trans (ih (setDom s x f))

/-- Whether a domain is the even member of a pair depends on its own role alone. -/
theorem membersOf_congr {s u : State} {d : Nat} (h : (domOf u d).pair = (domOf s d).pair) : membersOf u d = membersOf s d := by
  rw [membersOf, membersOf, isEven, isEven, h]

theorem domOf_ge (s : State) {d : Nat} (h : 80 ≤ d) : domOf s d = default := vget_ge s.dom h

theorem membersOf_setTiles (s : State) (d : Nat) (f : Tile → Tile) (e : Nat) : membersOf (setTiles s d f) e = membersOf s e := by
  refine membersOf_congr ?_
  by_cases he : e < 80
  · rw [setTiles, domOf_setMembers s d _ he]
    split <;> rfl
  · rw [domOf_ge _ (by omega), domOf_ge _ (by omega)]

theorem domOf_setTiles (s : State) (d : Nat) (f : Tile → Tile) {e : Nat} (he : e < 80) :
    domOf (setTiles s d f) e = if e ∈ membersOf s d then { domOf s e with tile := f (domOf s e).tile } else domOf s e :=
  domOf_setMembers s d _ he

theorem onlyDoms_setTiles (s : State) (d : Nat) (f : Tile → Tile) : OnlyDoms s (setTiles s d f) := onlyDoms_setMembers s d _

/-- Two changes of a leader's tiles are one. -/
theorem setTiles_setTiles (s : State) (d : Nat) (f g : Tile → Tile) :
    setTiles (setTiles s d f) d g = setTiles s d (fun x => g (f x)) := by
  refine ((onlyDoms_setTiles s d f).trans (onlyDoms_setTiles _ d g)).ext (onlyDoms_setTiles s d _) fun e he => ?_
  rw [domOf_setTiles _ _ _ he, domOf_setTiles _ _ _ he, domOf_setTiles _ _ _ he, membersOf_setTiles]
  by_cases hm : e ∈ membersOf s d <;> simp [hm]

theorem mem_membersOf_self (s : State) (d : Nat) : d ∈ membersOf s d := by
  unfold membersOf
  split <;> simp

section
variable {σ α β : Type} {g : σ → α → σ} {I : σ → Prop} {P : σ → β} {d : α}

theorem foldl_inv (hI : ∀ v e, I v → I (g v e)) (l : List α) {s : σ} (hs : I s) : I (l.foldl g s) := by
  induction l generalizing s with
  | nil => exact hs
  | cons x l ih => exact ih (hI s x hs)

theorem foldl_proj_of_not_mem (hI : ∀ v e, I v → I (g v e)) (hP : ∀ v e, I v → d ≠ e → P (g v e) = P v) {l : List α} (hd : d ∉ l) {s : σ}
    (hs : I s) : P (l.foldl g s) = P s := by
  induction l generalizing s with
  | nil => rfl
  | cons x l ih =>
    rw [List.mem_cons, not_or] at hd
    rw [List.foldl_cons, ih hd.2 (hI s x hs), hP s x hs hd.1]

/-- In a pass over things that each change their own part alone, each one is changed once, from its old value. -/
theorem foldl_at (hI : ∀ v e, I v → I (g v e)) (hP : ∀ v e, I v → d ≠ e → P (g v e) = P v) {l : List α} (hl : l.Nodup) (hd : d ∈ l) {s : σ}
    (hs : I s) : ∃ v, I v ∧ P v = P s ∧ P (l.foldl g s) = P (g v d) := by
  induction l generalizing s with
  | nil => cases hd
  | cons x l ih =>
    obtain ⟨hx, hl⟩ := List.nodup_cons.mp hl
    rcases List.mem_cons.mp hd with rfl | hd
    · exact ⟨s, hs, rfl, foldl_proj_of_not_mem hI hP hx (hI s d hs)⟩
    · obtain ⟨v, hv, hold, hnew⟩ := ih hl hd (hI s x hs)
      have hne : d ≠ x := fun he => hx (he ▸ hd)
      exact ⟨v, hv, hold.trans (hP s x hs hne), hnew⟩

end

/-- A change that concerns one domain alone. -/
def DomOnly (s u : State) (d : Nat) : Prop := OnlyDoms s u ∧ ∀ e, e ≠ d → domOf u e = domOf s e

theorem domOnly_setDom (s : State) (d : Nat) (f : Domain → Domain) : DomOnly s (setDom s d f) d :=
  ⟨onlyDoms_setDom s d f, fun _ he => domOf_setDom_ne s f he.symm⟩

theorem DomOnly.refl (s : State) (d : Nat) : DomOnly s s d := ⟨OnlyDoms.refl s, fun _ _ => rfl⟩

section
variable {g : State → Nat → State} (hg : ∀ s d, DomOnly s (g s d) d)
include hg

theorem onlyDoms_foldl (l : List Nat) (s : State) : OnlyDoms s (l.foldl g s) := by
  induction l generalizing s with
  | nil => exact OnlyDoms.refl s
  | cons x l ih => exact (hg s x).1.trans (ih (g s x))

theorem onlyDoms_foldDoms (s : State) : OnlyDoms s (foldDoms s g) := onlyDoms_foldl hg _ s

theorem domOf_foldDoms (s : State) {d : Nat} (h : d < 80) :
    ∃ v, OnlyDoms s v ∧ domOf v d = domOf s d ∧ domOf (foldDoms s g) d = domOf (g v d) d :=
  foldl_at (I := OnlyDoms s) (P := fun v => domOf v d) (fun v e hv => hv.trans (hg v e).1) (fun v e _ he => (hg v e).2 d he)
    List.nodup_range (List.mem_range.mpr h) (OnlyDoms.refl s)

end

end Sys2Proof.Laws
end

section
/-! What a tile site delivers, and its frequency handshake (R24, R40, R42 to R44, R147, R193, R210, R231). -/

namespace Sys2Proof.Laws
open Sys2Proof Sys2Proof.Machine
set_option Elab.async false

theorem exec_tileHint_invalid (x : Site) (h : Hint) (t : Nat) (s : State) : exec (.tileHint x h false t) s = .next (now t s) :=
  if_pos (Bool.or_true _)

section
variable {x : Site} {t : Nat} {s : State} (ha : isAbsent s x = false)
include ha

theorem exec_tileWait : exec (.tileWait x t) s = .next (setTile (now t s) x (fun y => { y with wait := true })) :=
  if_neg (Bool.eq_false_iff.mp ha)

/-- A domain that wakes: its reclaim is due, from the earlier fall if that still is, and parking aborts (R99, R231). -/
def wakeDom (g : Nat) (D : Domain) : Domain :=
  { D with arb := { D.arb with waitRun := 0, wakeAt := some (D.arb.wakeAt.getD g), woke := D.arb.lender || D.arb.woke },
           park := { D.park with abort := true } }

theorem exec_tileWake_idle (h : waiting s (leader s x) = false) :
    exec (.tileWake x t) s = .next (setTile (now t s) x (fun y => { y with wait := false })) := by
  refine (if_neg (Bool.eq_false_iff.mp ha)).trans (congrArg Host.Outcome.next ?_)
  exact if_neg (Bool.eq_false_iff.mp h)

theorem exec_tileWake_waiting (h : waiting s (leader s x) = true) :
    exec (.tileWake x t) s = .next (setDom (setTile (now t s) x (fun y => { y with wait := false })) (leader s x)
      (wakeDom (now t s).time.gtc)) := by
  refine (if_neg (Bool.eq_false_iff.mp ha)).trans (congrArg Host.Outcome.next ?_)
  exact if_pos h

theorem exec_actSample (counts : Vector (BitVec 16) 8) :
    exec (.actSample x counts t) s = .next (setTile (now t s) x (takeCounts counts)) :=
  if_neg (Bool.eq_false_iff.mp ha)

theorem exec_tileHint_full {h : Hint} (hq : 8 ≤ (hintsIn (domOf s x).tile t).length) :
    exec (.tileHint x h true t) s = .next (setTile (now t s) x (fun y => { y with hintDrop := y.hintDrop + 1 })) := by
  have hr : hintRdy (domOf s x).tile t = false := decide_eq_false (by simpa using hq)
  have hn : isAbsent (now t s) x = false := ha
  change execTileHint x h true t s = _
  unfold execTileHint
  rw [if_neg (by simp [hn]), if_pos (by simp [hr])]
  rfl

/-- What a site's crossing takes of a hint that stays a time. -/
def crossHint (t stay : Nat) (T : Tile) : Tile := { T with hintAcc := true, hintQ := hintsIn T t ++ [t + stay] }

theorem exec_tileHint_taken {h : Hint} (hq : (hintsIn (domOf s x).tile t).length < 8) :
    exec (.tileHint x h true t) s = .next (setDom (setTile { now t s with freeIdx := s.freeIdx + 1 } x
      (crossHint t (Config.fresh s.freeIdx % (hintBound s (domOf s x).tile + 1)))) (leader s x) (addHint h)) := by
  have hr : hintRdy (domOf s x).tile t = true := decide_eq_true hq
  have hn : isAbsent (now t s) x = false := ha
  change execTileHint x h true t s = _
  unfold execTileHint
  rw [if_neg (by simp [hn]), if_neg (by simp [hr])]
  rfl

theorem exec_tileStepMark : exec (.tileStepMark x t) s = .next (
    let s1 := setTile (now t s) x (fun y => { y with stepTog := !y.stepTog })
    if isOdd s x then s1 else foldDoms s1 (fun s d => if takesMarksOf s x d then pendMark s d else s)) := by
  change execTileStepMark x t s = _
  unfold execTileStepMark
  have hn : ¬isAbsent (now t s) x = true := Bool.eq_false_iff.mp ha
  rw [if_neg hn, apply_ite Host.Outcome.next]
  rfl

theorem exec_freqRdy {c : FreqChange} (hc : (domOf s x).tile.change = some c) (hr : c.req = true) :
    exec (.freqRdy x t) s = .next (setTile (now t s) x (fun y => { y with change := some { c with rdy := true } })) := by
  refine (if_neg (Bool.eq_false_iff.mp ha)).trans (congrArg Host.Outcome.next (setTile_congr ?_))
  simp [hc, hr]

theorem exec_freqAck {c : FreqChange} (hc : (domOf s x).tile.change = some c) (hg : c.go = true) :
    exec (.freqAck x t) s = .next (setTile (now t s) x (fun y => { y with pendIn := some c.code })) := by
  refine (if_neg (Bool.eq_false_iff.mp ha)).trans (congrArg Host.Outcome.next (setTile_congr ?_))
  simp [hc, hg]

end

/-! ### Step marks -/

theorem domOnly_pendMark (s : State) (d : Nat) : DomOnly s (pendMark s d) d := by
  unfold pendMark
  split
  · exact DomOnly.refl s d
  · split
    · exact domOnly_setDom ..
    · exact domOnly_setDom ..

/-- A pending mark changes no tile. -/
theorem tile_pendMark (s : State) (d e : Nat) : (domOf (pendMark s d) e).tile = (domOf s e).tile := by
  by_cases he : e = d
  · subst he
    by_cases h : e < 80
    · unfold pendMark
      split
      · rfl
      · split
        · rw [domOf_setDom_same _ _ h]; rfl
        · rw [setRc, domOf_setDom_same _ _ h]
    · rw [domOf_ge _ (by omega), domOf_ge _ (by omega)]
  · rw [(domOnly_pendMark s d).2 e he]

theorem mark_pendMark {s : State} {d : Nat} (hd : d < 80) (ha : isAbsent s d = false) (ho : isOdd s d = false) :
    (domOf (pendMark s d) d).rc.mark = true := by
  unfold pendMark
  rw [if_neg (by simp [ha, ho])]
  split
  · rename_i hm
    rwa [domOf_setDom_same _ _ hd]
  · rw [setRc, domOf_setDom_same _ _ hd]

/-- Which RC takes a site's marks is a matter of configuration. -/
theorem OnlyDoms.takesMarksOf {s u : State} (h : OnlyDoms s u) (x d : Nat) : Machine.takesMarksOf u x d = Machine.takesMarksOf s x d := by
  rw [h]; rfl

/-- The RC of one domain meets the mark of a site. -/
def markDom (x : Nat) (s : State) (d : Nat) : State := if takesMarksOf s x d then pendMark s d else s

theorem domOnly_markDom (x : Nat) (s : State) (d : Nat) : DomOnly s (markDom x s d) d := by
  unfold markDom
  split
  · exact domOnly_pendMark s d
  · exact DomOnly.refl s d

theorem tileStepMark_answers {x : Site} {t : Nat} {s : State} (ha : isAbsent s x = false) :
    Answers (.tileStepMark x t) s (fun u =>
      (domOf u x).tile.stepTog = !(domOf s x).tile.stepTog ∧
      (isOdd s x = false → (cfgAt s x).rc.src = 0x80 → (domOf u x).rc.mark = true) ∧
      (∀ e : Dom, e.val ≠ x.val → takesMarksOf s x e = false → vget u.dom e = vget s.dom e) ∧ u = { now t s with dom := u.dom }) := by
  refine ⟨_, exec_tileStepMark ha, ?_⟩
  have hx : x.val < 80 := by omega
  set s1 := setTile (now t s) x (fun y => { y with stepTog := !y.stepTog }) with hs1
  have hdx : domOf s1 x = { domOf s x with tile := { (domOf s x).tile with stepTog := !(domOf s x).tile.stepTog } } := by
    rw [hs1, setTile, domOf_setDom_same _ _ hx]; rfl
  have hne : ∀ e : Dom, e.val ≠ x.val → domOf s1 e = domOf s e := fun e he => domOf_setDom_ne _ _ he.symm
  cases ho : isOdd s x with
  | true => exact ⟨congrArg (fun D => D.tile.stepTog) hdx, fun h => Bool.noConfusion h, fun e he _ => hne e he, rfl⟩
  | false =>
    have hfold : ∀ {d : Nat}, d < 80 → _ := fun h => domOf_foldDoms (domOnly_markDom x) s1 h
    refine ⟨?_, fun _ hsrc => ?_, fun e he htake => ?_, (onlyDoms_setDom (now t s) x _).trans (onlyDoms_foldDoms (domOnly_markDom x) s1)⟩
    · obtain ⟨v, -, hv, hu⟩ := hfold hx
      have ht : (domOf (markDom x v x) x).tile = (domOf v x).tile := by
        unfold markDom
        split
        · exact tile_pendMark v x x
        · rfl
      exact (congrArg (fun D => D.tile.stepTog) hu).trans (by rw [ht, hv, hdx])
    · obtain ⟨v, hov, hv, hu⟩ := hfold hx
      have htake : takesMarksOf v x x = true := by
        rw [hov.takesMarksOf]
        have hcfg : (cfgAt s1 x).rc.src = 0x80 := hsrc
        simp [takesMarksOf, hcfg, isTile]
      refine (congrArg (fun D => D.rc.mark) hu).trans ?_
      rw [markDom, if_pos htake]
      refine mark_pendMark hx ?_ ?_
      · rw [isAbsent, hv, hdx]; exact ha
      · rw [isOdd, hv, hdx]; exact ho
    · obtain ⟨v, hov, hv, hu⟩ := hfold e.isLt
      refine hu.trans ?_
      have hn : takesMarksOf v x e = false := (hov.takesMarksOf x e).trans htake
      rw [markDom, hn, if_neg Bool.false_ne_true, hv]
      exact hne e he

/-! ### Wake and hints -/

theorem tileWake_answers {x : Site} {t : Nat} {s : State} (ha : isAbsent s x = false) (h : waiting s (leader s x) = true) :
    Answers (.tileWake x t) s (fun u =>
      (domOf u x).tile.wait = false ∧ (domOf u (leader s x)).arb.wakeAt = some ((domOf s (leader s x)).arb.wakeAt.getD (now t s).time.gtc) ∧
      (domOf u (leader s x)).arb.waitRun = 0 ∧ (domOf u (leader s x)).park.abort = true ∧
      (∀ e : Dom, e.val ≠ x.val → e.val ≠ leader s x → vget u.dom e = vget s.dom e) ∧ u = { now t s with dom := u.dom }) := by
  refine ⟨_, exec_tileWake_waiting ha h, ?_⟩
  have hx : x.val < 80 := by omega
  have hl : leader s x < 80 := leader_lt s hx
  set s1 := setTile (now t s) x (fun y => { y with wait := false }) with hs1
  have hw : (domOf s1 x).tile.wait = false := by rw [hs1, setTile, domOf_setDom_same _ _ hx]
  have harb : (domOf s1 (leader s x)).arb = (domOf s (leader s x)).arb := by
    by_cases he : leader s x = x
    · rw [he, hs1, setTile, domOf_setDom_same _ _ hx]; rfl
    · rw [hs1, setTile, domOf_setDom_ne _ _ (Ne.symm he)]; rfl
  refine ⟨?_, ?_, ?_, ?_, fun e hex hel => ?_, rfl⟩
  · by_cases he : leader s x = x
    · rw [he] at *
      rw [domOf_setDom_same _ _ hx]
      exact hw
    · rw [domOf_setDom_ne _ _ he]
      exact hw
  · rw [domOf_setDom_same _ _ hl, wakeDom, harb]
  · rw [domOf_setDom_same _ _ hl, wakeDom]
  · rw [domOf_setDom_same _ _ hl, wakeDom]
  · exact (domOf_setDom_ne s1 _ hel.symm).trans (domOf_setDom_ne (now t s) _ hex.symm)

theorem tile_addHint (h : Hint) (D : Domain) : (addHint h D).tile = D.tile := by
  unfold addHint
  dsimp only
  split <;> rfl

theorem hints_addHint (h : Hint) (D : Domain) : ∃ e : LiveHint,
    (addHint h D).lant.hints = (if 4 ≤ D.lant.hints.length then D.lant.hints.drop 1 else D.lant.hints) ++ [e] ∧ e.cls = h.cls ∧
    e.eta = h.eta.toNat ∧ e.inten = h.inten.toNat ∧ e.dur = h.dur.toNat := by
  refine ⟨{ cls := h.cls, eta := h.eta.toNat, inten := h.inten.toNat, dur := h.dur.toNat, seq := D.lant.hintSeq, new := true }, ?_,
    rfl, rfl, rfl, rfl⟩
  unfold addHint
  by_cases hl : 4 ≤ D.lant.hints.length <;> simp [hl, bump]

theorem tileHint_taken_answers {x : Site} {h : Hint} {t : Nat} {s : State} (ha : isAbsent s x = false)
    (hq : (hintsIn (domOf s x).tile t).length < 8) :
    Answers (.tileHint x h true t) s (fun u =>
      (∃ e, (domOf u (leader s x)).lant.hints =
          (if 4 ≤ (domOf s (leader s x)).lant.hints.length then (domOf s (leader s x)).lant.hints.drop 1 else (domOf s (leader s x)).lant.hints) ++ [e] ∧
        e.cls = h.cls ∧ e.eta = h.eta.toNat ∧ e.inten = h.inten.toNat ∧ e.dur = h.dur.toNat) ∧
      (∃ stay ≤ hintBound s (domOf s x).tile, (domOf u x).tile.hintQ = hintsIn (domOf s x).tile t ++ [t + stay]) ∧
      (domOf u x).tile.hintAcc = true ∧
      (∀ e : Dom, e.val ≠ x.val → e.val ≠ leader s x → vget u.dom e = vget s.dom e) ∧
      u = { now t s with dom := u.dom, freeIdx := u.freeIdx }) := by
  refine ⟨_, exec_tileHint_taken ha hq, ?_⟩
  have hx : x.val < 80 := by omega
  have hl : leader s x < 80 := leader_lt s hx
  set stay := Config.fresh s.freeIdx % (hintBound s (domOf s x).tile + 1) with hstay
  have hle : stay ≤ hintBound s (domOf s x).tile := Nat.lt_succ_iff.mp (Nat.mod_lt _ (Nat.succ_pos _))
  clear_value stay
  set s1 := setTile { now t s with freeIdx := s.freeIdx + 1 } x (crossHint t stay) with hs1
  have hT : (domOf s1 x).tile = crossHint t stay (domOf s x).tile := by rw [hs1, setTile, domOf_setDom_same _ _ hx]; rfl
  have hL : (domOf s1 (leader s x)).lant = (domOf s (leader s x)).lant := by
    by_cases he : leader s x = x
    · rw [he, hs1, setTile, domOf_setDom_same _ _ hx]; rfl
    · rw [hs1, setTile, domOf_setDom_ne _ _ (Ne.symm he)]; rfl
  have hTu : (domOf (setDom s1 (leader s x) (addHint h)) x).tile = crossHint t stay (domOf s x).tile := by
    by_cases he : leader s x = x
    · rw [he, domOf_setDom_same _ _ hx, tile_addHint, hT]
    · rw [domOf_setDom_ne _ _ he, hT]
  refine ⟨?_, ⟨stay, hle, ?_⟩, ?_, fun e hex hel => ?_, rfl⟩
  · rw [domOf_setDom_same _ _ hl, ← hL]
    exact hints_addHint h _
  · rw [hTu]; rfl
  · rw [hTu]; rfl
  · exact (domOf_setDom_ne s1 _ hel.symm).trans (domOf_setDom_ne _ _ hex.symm)

/-! ### Withdrawals of a frequency change -/

/-- A withdrawal of a requested change at one tile: the code in force is requested again. -/
def withdrawTile (old code : Nat) (T : Tile) : Tile :=
  { T with change := none, withdrawn := some code, freqCode := old, freqReq := !T.freqReq }

theorem withdrawChange_eq {s : State} {d code : Nat} {c : FreqChange} (hc : (domOf s d).tile.change = some c) (hr : c.req = true) :
    withdrawChange s d code =
      let s1 := setTiles s d (withdrawTile (domOf s d).tile.freqIn code)
      if (domOf s d).tile.withdrawn = some code then s1 else raise s1 1 0x31 0xA (0x40 + d) 0 := by
  have hdrop : setTiles (dropChange s d) d (fun x => { x with withdrawn := some code }) =
      setTiles s d (withdrawTile (domOf s d).tile.freqIn code) := by
    have h : dropChange s d = driveReq (setTiles s d (fun x => { x with change := none })) d (domOf s d).tile.freqIn := by
      simp [dropChange, hc, hr]
    rw [h, driveReq, setTiles_setTiles, setTiles_setTiles]
    rfl
  rw [withdrawChange]
  dsimp only
  rw [hdrop]
  by_cases hw : (domOf s d).tile.withdrawn = some code <;> simp [hw]

/-- The two rows by which a change of a leader is withdrawn. -/
theorem exec_withdraw {x : Site} {t : Nat} {s : State} {c : FreqChange} {row : Instr} (hc : (domOf s (leader s x)).tile.change = some c)
    (h : (row = .freqWithdraw x t ∧ withdrawDue (now t s) c = true) ∨
      (row = .freqDeferTimeout x t ∧ deferDue (now t s) (leader s x) c = true)) :
    exec row s = .next (withdrawChange (now t s) (leader s x) c.code) := by
  have hl : leader (now t s) x = leader s x := rfl
  rcases h with ⟨rfl, hd⟩ | ⟨rfl, hd⟩
  · change execFreqWithdraw x t s = _
    simp only [execFreqWithdraw, hl, domOf_now, hc, hd, if_true]
  · change execFreqDeferTimeout x t s = _
    simp only [execFreqDeferTimeout, hl, domOf_now, hc, hd, if_true]

theorem withdraw_answers {x : Site} {t : Nat} {s : State} {c : FreqChange} {row : Instr} (hc : (domOf s (leader s x)).tile.change = some c)
    (hr : c.req = true)
    (h : (row = .freqWithdraw x t ∧ withdrawDue (now t s) c = true) ∨
      (row = .freqDeferTimeout x t ∧ deferDue (now t s) (leader s x) c = true)) :
    let d := leader s x
    Answers row s (fun u =>
      (∀ y ∈ membersOf s d, y < 80 → (domOf u y).tile = withdrawTile (domOf s d).tile.freqIn c.code (domOf s y).tile) ∧
      u.safety.queue = s.safety.queue ++ (if (domOf s d).tile.withdrawn = some c.code then []
        else [{ bits := faultWord 1 0x31 0xA (0x40 + d) 0 (epochIn (now t s)), from_ := none, ext := 0 }]) ∧
      (∀ e : Dom, e.val ∉ membersOf s d → vget u.dom e = vget s.dom e) ∧
      u = { now t s with dom := u.dom, safety := { s.safety with queue := u.safety.queue } }) := by
  intro d
  have hexec := (exec_withdraw hc h).trans (congrArg Host.Outcome.next (withdrawChange_eq (s := now t s) hc hr))
  dsimp only at hexec
  rw [domOf_now] at hexec
  set s1 := setTiles (now t s) (leader s x) (withdrawTile (domOf s (leader s x)).tile.freqIn c.code) with hs1
  have hframe : s1 = { now t s with dom := s1.dom } := onlyDoms_setTiles ..
  have hmem : ∀ y ∈ membersOf s d, y < 80 → (domOf s1 y).tile = withdrawTile (domOf s d).tile.freqIn c.code (domOf s y).tile :=
    fun y hy hlt => by rw [hs1, domOf_setTiles _ _ _ hlt]; exact congrArg Domain.tile (if_pos hy)
  have hout : ∀ e : Dom, e.val ∉ membersOf s d → vget s1.dom e = vget s.dom e :=
    fun e he => (domOf_setTiles (now t s) (leader s x) _ e.isLt).trans (if_neg he)
  clear_value s1
  by_cases hw : (domOf s d).tile.withdrawn = some c.code
  · rw [if_pos hw] at hexec ⊢
    refine ⟨_, hexec, hmem, ?_, hout, ?_⟩
    · rw [hframe]
      exact (List.append_nil _).symm
    · rw [hframe]
      rfl
  · rw [if_neg hw, raise_eq s1 1 0x31 0xA _ 0 (fun h => absurd h (by decide))] at hexec
    rw [if_neg hw]
    refine ⟨_, hexec, hmem, ?_, hout, ?_⟩
    · rw [hframe]
      rfl
    · rw [hframe]
      rfl

end Sys2Proof.Laws
end

section
/-! The statement about what a tile site delivers. -/

namespace Sys2Proof.Proofs
open Sys2Proof Sys2Proof.Machine Sys2Proof.Laws
set_option Elab.async false

/-- Settles O36: each input of a site by the one function of the model that it runs. -/
theorem tileBoundary : Obligations.TileBoundary := by
  refine ⟨fun x counts h t s ha => ⟨exec_tileWait ha, exec_tileWake_idle ha, tileWake_answers ha,
    (exec_actSample ha counts).trans (congrArg _ (setTile_congr rfl)),
    ⟨exec_tileHint_invalid x h t s, exec_tileHint_full ha, fun hq => ?_⟩, tileStepMark_answers ha⟩,
    fun x t s c => ⟨fun ha hc => ⟨exec_freqRdy ha hc, exec_freqAck ha hc⟩, fun hc hr row hrow => withdraw_answers hc hr hrow⟩⟩
  obtain ⟨u, hu, hhint, ⟨stay, hle, hcross⟩, hrest⟩ := tileHint_taken_answers (h := h) ha hq
  exact ⟨u, hu, hhint, ⟨stay, (Nat.mul_le_mul_right _ hle).trans (Nat.div_mul_le_self _ _), hcross⟩, hrest⟩

end Sys2Proof.Proofs
end

section
/-! A thermal sample: what its completion leaves of sensors and domains, stage by stage (R243 to R251). -/

namespace Sys2Proof.Laws
open Sys2Proof Sys2Proof.Machine
set_option Elab.async false

/-! ### The hottest of a list of sensors -/

/-- An entry is the hottest reading of a list, or the list is empty. -/
def IsHottest (s : State) (l : List Nat) : Option (Nat × Int) → Prop
  | none => l = []
  | some y => y.1 ∈ l ∧ (sensorAt s y.1).rd = y.2 ∧ ∀ x ∈ l, (sensorAt s x).rd ≤ y.2

theorem isHottest_hottest (s : State) (l : List Nat) : IsHottest s (l.filter (readsNow s)) (hottest s l) := by
  unfold hottest
  generalize l.filter (readsNow s) = l
  induction l using List.reverseRecOn with
  | nil => rfl
  | append_singleton l a ih =>
    rw [List.foldl_append, List.foldl_cons, List.foldl_nil]
    revert ih
    cases l.foldl _ none with
    | none => rintro rfl; simp [IsHottest]
    | some y =>
      rintro ⟨hmem, hrd, hle⟩
      dsimp only
      split
      · rename_i hlt
        refine ⟨by simp, rfl, fun x hx => ?_⟩
        rcases List.mem_append.mp hx with hx | hx
        · exact (hle x hx).trans hlt.le
        · rw [List.mem_singleton.mp hx]
      · rename_i hge
        refine ⟨List.mem_append_left _ hmem, hrd, fun x hx => ?_⟩
        rcases List.mem_append.mp hx with hx | hx
        · exact hle x hx
        · rw [List.mem_singleton.mp hx]
          exact not_lt.mp hge

theorem hottest_eq_none {s : State} {l : List Nat} (h : ∀ x ∈ l, readsNow s x = false) : hottest s l = none := by
  have hl : l.filter (readsNow s) = [] := List.filter_eq_nil_iff.mpr (fun x hx => by simp [h x hx])
  rw [hottest, hl, List.foldl_nil]

theorem hottest_eq_some {s : State} {l : List Nat} {x : Nat} (hx : x ∈ l) (h : readsNow s x = true) :
    ∃ y, hottest s l = some y ∧ y.1 ∈ l ∧ readsNow s y.1 = true ∧ (sensorAt s y.1).rd = y.2 ∧
      ∀ z ∈ l, readsNow s z = true → (sensorAt s z).rd ≤ y.2 := by
  have hs := isHottest_hottest s l
  cases hy : hottest s l with
  | none =>
    rw [hy] at hs
    have hm : x ∈ l.filter (readsNow s) := List.mem_filter.mpr ⟨hx, h⟩
    rw [show l.filter (readsNow s) = [] from hs] at hm
    cases hm
  | some y =>
    rw [hy] at hs
    obtain ⟨hmem, hrd, hle⟩ := hs
    obtain ⟨hl, hr⟩ := List.mem_filter.mp hmem
    exact ⟨y, rfl, hl, hr, hrd, fun z hz hrz => hle z (List.mem_filter.mpr ⟨hz, hrz⟩)⟩

/-! ### What the stages of a completion keep -/

/-- A domain has changed in nothing but what a sample derives for it. -/
def TempOnly (D E : Domain) : Prop :=
  E = { D with tempNew := E.tempNew, bandNew := E.bandNew, throt := E.throt, hot := E.hot, riseHold := E.riseHold, riseMsg := E.riseMsg }

theorem TempOnly.trans {D E F : Domain} (h : TempOnly D E) (k : TempOnly E F) : TempOnly D F := by
  rw [TempOnly] at *
  rw [k, h]

/-- A sensor keeps its reading and its failures; a check of it may end. -/
structure SensorKept (c e : Sensor) : Prop where
  rd : e.rd = c.rd
  valid : e.valid = c.valid
  fails : e.fails = c.fails
  excl : e.excl = c.excl
  gone : e.gone = c.gone
  live : c.live = false → e.live = false

theorem SensorKept.refl (c : Sensor) : SensorKept c c := ⟨rfl, rfl, rfl, rfl, rfl, id⟩

theorem SensorKept.trans {c e f : Sensor} (h : SensorKept c e) (k : SensorKept e f) : SensorKept c f :=
  ⟨k.rd.trans h.rd, k.valid.trans h.valid, k.fails.trans h.fails, k.excl.trans h.excl, k.gone.trans h.gone, fun hl => k.live (h.live hl)⟩

/-- A stage after the conversions: readings, limits and the trip stay. -/
structure SampleStep (s u : State) : Prop where
  frame : u = { s with therm := u.therm, dom := u.dom, safety := u.safety, ports := u.ports, tests := u.tests }
  dom : ∀ d, TempOnly (domOf s d) (domOf u d)
  act : u.therm.act = s.therm.act
  tripped : u.therm.tripped = s.therm.tripped
  sens : ∀ x, SensorKept (sensorAt s x) (sensorAt u x)

theorem SampleStep.refl (s : State) : SampleStep s s := ⟨rfl, fun _ => rfl, rfl, rfl, fun _ => SensorKept.refl _⟩

theorem SampleStep.trans {s u v : State} (h : SampleStep s u) (k : SampleStep u v) : SampleStep s v where
  frame := by
    have hf := h.frame
    have kf := k.frame
    rw [kf, hf]
  dom d := (h.dom d).trans (k.dom d)
  act := k.act.trans h.act
  tripped := k.tripped.trans h.tripped
  sens x := (h.sens x).trans (k.sens x)

/-- A stage that keeps the maxima and bands of the domains too. -/
structure QuietStep (s u : State) : Prop extends SampleStep s u where
  temps : ∀ d, (domOf u d).tempNew = (domOf s d).tempNew ∧ (domOf u d).bandNew = (domOf s d).bandNew

theorem QuietStep.refl (s : State) : QuietStep s s := ⟨SampleStep.refl s, fun _ => ⟨rfl, rfl⟩⟩

theorem QuietStep.trans {s u v : State} (h : QuietStep s u) (k : QuietStep u v) : QuietStep s v :=
  ⟨h.toSampleStep.trans k.toSampleStep, fun d => ⟨(k.temps d).1.trans (h.temps d).1, (k.temps d).2.trans (h.temps d).2⟩⟩

theorem quietStep_raise (s : State) (cls kind unit inst detail : Nat) : QuietStep s (raise s cls kind unit inst detail) := by
  rw [raise_frame]
  exact ⟨⟨rfl, fun _ => rfl, rfl, rfl, fun _ => SensorKept.refl _⟩, fun _ => ⟨rfl, rfl⟩⟩

theorem quietStep_setPort (s : State) (p : Nat) (f : Port → Port) : QuietStep s (setPort s p f) :=
  ⟨⟨rfl, fun _ => rfl, rfl, rfl, fun _ => SensorKept.refl _⟩, fun _ => ⟨rfl, rfl⟩⟩

theorem quietStep_postEvent (s : State) (p : Nat) (e : Event) : QuietStep s (postEvent s p e) := by
  unfold postEvent
  dsimp only
  split
  · exact QuietStep.refl s
  · split
    · exact quietStep_setPort ..
    · split
      · exact quietStep_setPort ..
      · split
        · exact (quietStep_setPort s p _).trans (quietStep_raise ..)
        · exact quietStep_setPort ..

/-- A change of the thermal part that keeps limits, trip and sensors. -/
theorem quietStep_setTherm {s : State} {f : Thermal → Thermal} (ha : (f s.therm).act = s.therm.act)
    (ht : (f s.therm).tripped = s.therm.tripped) (hs : ∀ x, SensorKept (vget s.therm.sens x) (vget (f s.therm).sens x)) :
    QuietStep s (setTherm s f) :=
  ⟨⟨rfl, fun _ => rfl, ha, ht, hs⟩, fun _ => ⟨rfl, rfl⟩⟩

/-- A change of every sensor that keeps its reading. -/
theorem sensorKept_vmapIdx {v : Vector Sensor 320} {f : Nat → Sensor → Sensor} (h : ∀ i c, SensorKept c (f i c)) (x : Nat) :
    SensorKept (vget v x) (vget (vmapIdx v f) x) := by
  by_cases hx : x < 320
  · rw [vget_vmapIdx v f hx]
    exact h x _
  · rw [vget_ge _ (by omega), vget_ge _ (by omega)]
    exact SensorKept.refl _

theorem sensorKept_map {v : Vector Sensor 320} {f : Sensor → Sensor} (h : ∀ c, SensorKept c (f c)) (x : Nat) :
    SensorKept (vget v x) (vget (v.map f) x) := by
  by_cases hx : x < 320
  · rw [vget_lt _ hx, vget_lt _ hx, Vector.getElem_map]
    exact h _
  · rw [vget_ge _ (by omega), vget_ge _ (by omega)]
    exact SensorKept.refl _

theorem sensorKept_vupd {v : Vector Sensor 320} {i : Nat} {f : Sensor → Sensor} (h : ∀ c, SensorKept c (f c)) (x : Nat) :
    SensorKept (vget v x) (vget (vupd v i f) x) := by
  by_cases hx : i = x
  · subst hx
    by_cases hi : i < 320
    · rw [vget_vupd_same v f hi]
      exact h _
    · rw [vupd_ge _ _ (by omega)]
      exact SensorKept.refl _
  · rw [vget_vupd_ne v f hx]
    exact SensorKept.refl _

/-- A change of a leader's members in what a sample derives. -/
theorem sampleStep_setMembers {s : State} {d : Nat} {f : Domain → Domain} (h : ∀ D, TempOnly D (f D)) : SampleStep s (setMembers s d f) := by
  have hf : setMembers s d f = { s with dom := (setMembers s d f).dom } := onlyDoms_setMembers s d f
  refine ⟨?_, fun e => ?_, ?_, ?_, fun x => ?_⟩
  · rw [hf]
  · by_cases he : e < 80
    · rw [domOf_setMembers s d f he]
      split
      · exact h _
      · rfl
    · rw [domOf_ge _ (by omega), domOf_ge _ (by omega)]
      rfl
  · rw [hf]
  · rw [hf]
  · rw [hf]
    exact SensorKept.refl _

theorem quietStep_setMembers {s : State} {d : Nat} {f : Domain → Domain} (h : ∀ D, TempOnly D (f D))
    (ht : ∀ D, (f D).tempNew = D.tempNew ∧ (f D).bandNew = D.bandNew) : QuietStep s (setMembers s d f) := by
  refine ⟨sampleStep_setMembers h, fun e => ?_⟩
  by_cases he : e < 80
  · rw [domOf_setMembers s d f he]
    split
    · exact ht _
    · exact ⟨rfl, rfl⟩
  · rw [domOf_ge _ (by omega), domOf_ge _ (by omega)]
    exact ⟨rfl, rfl⟩

theorem quietStep_foldl {α : Type} {g : State → α → State} {l : List α} (h : ∀ v, ∀ e ∈ l, QuietStep v (g v e)) (s : State) :
    QuietStep s (l.foldl g s) := by
  induction l generalizing s with
  | nil => exact QuietStep.refl s
  | cons x l ih => exact (h s x List.mem_cons_self).trans (ih (fun v e he => h v e (List.mem_cons_of_mem x he)) (g s x))

/-! ### The stages after the conversions -/

theorem quietStep_keepRefs (s : State) : QuietStep s (setTherm s keepRefs) := by
  refine quietStep_setTherm rfl rfl (sensorKept_map fun c => ?_)
  split
  · split
    · exact SensorKept.refl _
    · exact ⟨rfl, rfl, rfl, rfl, rfl, id⟩
  · exact ⟨rfl, rfl, rfl, rfl, rfl, id⟩

theorem quietStep_declareFailed (s : State) (x cause : Nat) : QuietStep s (declareFailed s x cause) := by
  unfold declareFailed
  split
  · exact QuietStep.refl s
  · exact (quietStep_setTherm rfl rfl (fun _ => SensorKept.refl _)).trans (quietStep_raise ..)

theorem quietStep_failSensors (s : State) : QuietStep s (failSensors s) := by
  unfold failSensors
  extract_lets low s1
  have h : QuietStep s s1 := by
    have hs := sensorKept_vmapIdx (v := s.therm.sens) (f := fun i c => { c with lows := if low i then c.lows + 1 else 0 })
      fun i c => ⟨rfl, rfl, rfl, rfl, rfl, id⟩
    exact quietStep_setTherm rfl rfl hs
  refine h.trans (quietStep_foldl (fun v x _ => ?_) s1)
  dsimp only
  split
  · exact quietStep_declareFailed ..
  · split
    · exact quietStep_declareFailed ..
    · exact QuietStep.refl v

theorem quietStep_riseSensor (s : State) (x : Nat) : QuietStep s (riseSensor s x) := by
  unfold riseSensor
  extract_lets c d g due s1
  have h : QuietStep s s1 := quietStep_setMembers (fun _ => rfl) (fun _ => ⟨rfl, rfl⟩)
  split
  · exact QuietStep.refl s
  · split
    · exact QuietStep.refl s
    · extract_lets det
      split
      · split
        · exact h.trans (quietStep_raise ..)
        · exact h
      · split
        · exact (quietStep_setTherm rfl rfl (fun _ => SensorKept.refl _)).trans (quietStep_raise ..)
        · exact QuietStep.refl s

/-- The end of a sensor's live check. -/
theorem quietStep_endTest {s : State} {r : TestRun} {x : Fin 320} (hr : r.unit = .sensor x) (outcome : Nat) (detail : List Byte) :
    QuietStep s (endTest s r outcome detail) := by
  have hlive : QuietStep s (laneTested { s with tests := s.tests.filter (fun y => y != r) } (.sensor x)) :=
    ⟨⟨rfl, fun _ => rfl, rfl, rfl, sensorKept_vupd (i := x) fun c => ⟨rfl, rfl, rfl, rfl, rfl, fun _ => rfl⟩⟩, fun _ => ⟨rfl, rfl⟩⟩
  unfold endTest
  rw [hr]
  dsimp only
  split
  · exact hlive.trans (quietStep_postEvent ..)
  · exact hlive

theorem quietStep_abandonSensors (s : State) (f : Nat → Bool) :
    QuietStep s (abandonTests s (fun u => match u with | .sensor x => f x | _ => false)) := by
  refine quietStep_foldl (fun v r hr => ?_) s
  have hf := (List.mem_filter.mp hr).2
  cases hu : r.unit with
  | sensor x => exact quietStep_endTest hu 2 []
  | lane l => rw [hu] at hf; cases hf
  | lantern => rw [hu] at hf; cases hf
  | station d => rw [hu] at hf; cases hf
  | meter => rw [hu] at hf; cases hf

theorem quietStep_thMax (s : State) : QuietStep s (thMax s) := by
  unfold thMax
  exact quietStep_setTherm rfl rfl (fun _ => SensorKept.refl _)

theorem quietStep_throtDom (s : State) (d : Nat) : QuietStep s (throtDom s d) := by
  unfold throtDom
  extract_lets was hot s1 y
  have h : QuietStep s s1 := by
    unfold s1
    split
    · exact quietStep_setMembers (fun _ => rfl) (fun _ => ⟨rfl, rfl⟩)
    · exact quietStep_setTherm rfl rfl (fun _ => SensorKept.refl _)
  split
  · exact QuietStep.refl s
  · split
    · exact h.trans (quietStep_raise ..)
    · exact h

theorem quietStep_coolCheck (s : State) : QuietStep s (coolCheck s) := by
  unfold coolCheck
  exact quietStep_setTherm rfl rfl (fun _ => SensorKept.refl _)

/-! ### The conversions -/

/-- The state with the written limits in force at a completion. -/
def limited (t : Nat) (s : State) : State := setTherm (now t s) limitsInForce

/-- The state with the conversions of a completion taken. -/
def converted (convs : Vector Conv 320) (t : Nat) (s : State) : State :=
  setTherm (limited t s) (fun h => { h with
    sens := vmapIdx h.sens (fun i c => takeConv (limited t s) i c (vget convs i)),
    dieAt := vmapIdx h.dieAt (fun e u => if dieLost (limited t s) e then u else (limited t s).time.run),
    dieOut := vmapIdx h.dieOut (fun e o => o && dieLost (limited t s) e) })

theorem sens_limited (t : Nat) (s : State) :
    (limited t s).therm.sens = vmapIdx s.therm.sens (fun i c => { c with excl := s.therm.excl.getLsbD i }) := by
  rw [limited, setTherm, limitsInForce, now_therm]

theorem sens_converted (convs : Vector Conv 320) (t : Nat) (s : State) : (converted convs t s).therm.sens =
    vmapIdx (limited t s).therm.sens (fun i c => takeConv (limited t s) i c (vget convs i)) := by
  rw [converted, setTherm]

theorem sensorAt_converted (convs : Vector Conv 320) (t : Nat) (s : State) {x : Nat} (hx : x < 320) :
    sensorAt (converted convs t s) x =
      takeConv (limited t s) x { sensorAt s x with excl := s.therm.excl.getLsbD x } (vget convs x) := by
  rw [sensorAt, sens_converted, vget_vmapIdx _ _ hx, sens_limited, vget_vmapIdx _ _ hx]
  rfl

/-- A sensor whose link carries its readings and that no live check holds. -/
def Plain (s : State) (x : Nat) : Prop := (x < 304 → (linkOf s (sensDie x)).trained = true) ∧ (sensorAt s x).live = false

section
variable {s : State} {x : Nat} {c : Sensor} {v : Conv} (hl : c.live = false) (hs : sensLost s x = false)
include hl hs

theorem takeConv_kept : (takeConv s x c v).excl = c.excl ∧ (takeConv s x c v).live = false ∧ (takeConv s x c v).gone = false := by
  unfold takeConv
  rw [hl, hs, if_neg Bool.false_ne_true, if_neg Bool.false_ne_true]
  split
  · dsimp only
    split
    · exact ⟨rfl, rfl, rfl⟩
    · exact ⟨rfl, rfl, rfl⟩
  · exact ⟨rfl, rfl, rfl⟩

theorem takeConv_good {raw : Int} (h : -640 ≤ internalReading s x raw) :
    (takeConv s x c (.reading raw)).rd = internalReading s x raw ∧ (takeConv s x c (.reading raw)).valid = true := by
  unfold takeConv
  rw [hl, hs, if_neg Bool.false_ne_true, if_neg Bool.false_ne_true]
  dsimp only
  rw [if_neg (not_lt.mpr h)]
  exact ⟨rfl, rfl⟩

theorem takeConv_bad (h : v = .error ∨ ∃ raw, v = .reading raw ∧ internalReading s x raw < -640) :
    (takeConv s x c v).rd = c.rd ∧ (takeConv s x c v).valid = false ∧ (takeConv s x c v).fails = c.fails + 1 := by
  unfold takeConv
  rw [hl, hs, if_neg Bool.false_ne_true, if_neg Bool.false_ne_true]
  rcases h with rfl | ⟨raw, rfl, hr⟩
  · exact ⟨rfl, rfl, rfl⟩
  · dsimp only
    rw [if_pos hr]
    exact ⟨rfl, rfl, rfl⟩

end

theorem Plain.sensLost {s : State} {x : Nat} (h : Plain s x) (t : Nat) : Machine.sensLost (limited t s) x = false := by
  rw [Machine.sensLost, Bool.and_eq_false_imp]
  intro hx
  exact congrArg (fun b => !b) (h.1 (of_decide_eq_true hx))

/-! ### The bands -/

/-- The sensors judged: failures and rises. -/
def risen (s1 : State) : State := (List.range 320).foldl riseSensor (failSensors (setTherm s1 keepRefs))

/-- Fast sampling, where a condition holds, and the end of the live checks that it concerns. -/
def hastened (s3 : State) : State :=
  let fast := (List.range 320).any (fastCond s3)
  let s4 := abandonTests s3 (fun u => match u with | .sensor x => (groupSensors s3 (sensLeader s3 x)).any (fastCond s3) | _ => false)
  setTherm s4 (fun h => { h with fast := h.fast || fast, fastAt := if fast then h.startAt else h.fastAt })

/-- What a completion does between the conversions and the domains' maxima. -/
def judged (s1 : State) : State := hastened (risen s1)

/-- What a completion does after the domains' bands. -/
def banded (s5 : State) : State :=
  let s6 := (List.range 81).foldl throtDom (thMax s5)
  let c := tripCands s6
  coolCheck (setTherm s6 (fun h => { h with cands := if h.tripped then [] else c ++ h.cands.filter (fun x => !c.contains x) }))

/-- The state that a completion leaves. -/
def completed (convs : Vector Conv 320) (t : Nat) (s : State) : State :=
  banded ((List.range 80).foldl bandDom (judged (converted convs t s)))

theorem exec_thermalSampleComplete (convs : Vector Conv 320) (t : Nat) (s : State) :
    exec (.thermalSampleComplete convs t) s = .next (completed convs t s) := rfl

theorem quietStep_risen (s1 : State) : QuietStep s1 (risen s1) :=
  ((quietStep_keepRefs s1).trans (quietStep_failSensors _)).trans (quietStep_foldl (fun v x _ => quietStep_riseSensor v x) _)

theorem quietStep_hastened (s3 : State) : QuietStep s3 (hastened s3) := by
  unfold hastened
  extract_lets fast s4
  have h : QuietStep s3 s4 := quietStep_abandonSensors s3 (fun x => (groupSensors s3 (sensLeader s3 x)).any (fastCond s3))
  clear_value s4 fast
  exact h.trans (quietStep_setTherm rfl rfl (fun _ => SensorKept.refl _))

theorem quietStep_judged (s1 : State) : QuietStep s1 (judged s1) := (quietStep_risen s1).trans (quietStep_hastened _)

theorem quietStep_banded (s5 : State) : QuietStep s5 (banded s5) := by
  unfold banded
  extract_lets s6 c
  have h6 : QuietStep s5 s6 := (quietStep_thMax s5).trans
    (quietStep_foldl (g := throtDom) (l := List.range 81) (fun v d _ => quietStep_throtDom v d) _)
  clear_value s6 c
  exact (h6.trans (quietStep_setTherm rfl rfl (fun _ => SensorKept.refl _))).trans (quietStep_coolCheck _)

theorem banded_valid (s5 : State) : (banded s5).therm.valid = true := rfl

/-- A maximum and a band derived: sensors and the rest of the thermal part stay. -/
theorem sampleStep_bandDom (s : State) (d : Nat) : SampleStep s (bandDom s d) ∧ (bandDom s d).therm = s.therm := by
  unfold bandDom
  split
  · refine ⟨⟨rfl, fun e => ?_, rfl, rfl, fun _ => SensorKept.refl _⟩, rfl⟩
    by_cases he : d = e
    · subst he
      by_cases h : d < 80
      · rw [domOf_setDom_same _ _ h]; rfl
      · rw [domOf_ge _ (by omega), domOf_ge _ (by omega)]; rfl
    · rw [domOf_setDom_ne _ _ he]; rfl
  · split
    · exact ⟨SampleStep.refl s, rfl⟩
    · dsimp only
      exact ⟨sampleStep_setMembers fun _ => rfl, (onlyDoms_setMembers s d _).therm⟩

/-- Another domain's maximum and band are not those of a domain outside pairs. -/
theorem domOf_bandDom_ne {s : State} {d e : Nat} (hs : Single s d) (hd : d < 80) (he : d ≠ e) : domOf (bandDom s e) d = domOf s d := by
  unfold bandDom
  split
  · exact domOf_setDom_ne _ _ he.symm
  · split
    · rfl
    · rw [domOf_setMembers _ _ _ hd, if_neg]
      unfold membersOf
      split
      · rename_i hev
        have hne : d ≠ e + 1 := fun h => by
          rw [hs.2 e h.symm] at hev
          exact Bool.false_ne_true hev
        simp [he, hne]
      · simpa using he

theorem domOf_bandDom_same {s : State} {d : Nat} (hs : Single s d) (ha : isAbsent s d = false) (hd : d < 80) :
    (domOf (bandDom s d) d).tempNew = domMax s d ∧
    (domOf (bandDom s d) d).bandNew = nextBand s.therm.act.bands s.therm.act.hyst (domOf s d).bandNew (domMax s d) := by
  have hm : d ∈ membersOf s d := mem_membersOf_self s d
  rw [bandDom, if_neg (Bool.eq_false_iff.mp ha), if_neg (Bool.eq_false_iff.mp (not_odd_of_none hs.1))]
  dsimp only
  rw [domOf_setMembers _ _ _ hd, if_pos hm]
  exact ⟨rfl, rfl⟩

theorem SampleStep.pair {s u : State} (h : SampleStep s u) (d : Nat) : (domOf u d).pair = (domOf s d).pair := by rw [h.dom d]

theorem SampleStep.single {s u : State} (h : SampleStep s u) {d : Nat} (hs : Single s d) : Single u d :=
  ⟨(h.pair d).trans hs.1, fun e he => by rw [isEven, h.pair e]; exact hs.2 e he⟩

theorem SampleStep.isAbsent {s u : State} (h : SampleStep s u) (d : Nat) : Machine.isAbsent u d = Machine.isAbsent s d := by
  rw [Machine.isAbsent, Machine.isAbsent, h.dom d]

/-- The pass over the domains derives each one's maximum and band from the sensors as the sample left them. -/
theorem bandDom_foldl {s4 : State} {d : Nat} (hs : Single s4 d) (ha : isAbsent s4 d = false) (hd : d < 80) :
    ∃ v, SampleStep s4 v ∧ v.therm = s4.therm ∧ (domOf v d).tempNew = (domOf s4 d).tempNew ∧
      (domOf ((List.range 80).foldl bandDom s4) d).tempNew = domMax v d ∧
      (domOf ((List.range 80).foldl bandDom s4) d).bandNew =
        nextBand s4.therm.act.bands s4.therm.act.hyst (domOf s4 d).bandNew (domMax v d) := by
  obtain ⟨v, ⟨hv, hth⟩, hold, hnew⟩ := foldl_at (g := bandDom) (I := fun v => SampleStep s4 v ∧ v.therm = s4.therm)
    (P := fun v => domOf v d) (l := List.range 80) (s := s4)
    (fun v e hv => ⟨hv.1.trans (sampleStep_bandDom v e).1, (sampleStep_bandDom v e).2.trans hv.2⟩)
    (fun v e hv he => domOf_bandDom_ne (hv.1.single hs) hd he) List.nodup_range (List.mem_range.mpr hd) ⟨SampleStep.refl s4, rfl⟩
  obtain ⟨htemp, hband⟩ := domOf_bandDom_same (hv.single hs) ((hv.isAbsent d).trans ha) hd
  refine ⟨v, hv, hth, congrArg Domain.tempNew hold, (congrArg Domain.tempNew hnew).trans htemp, ?_⟩
  rw [← hth, ← show (domOf v d).bandNew = (domOf s4 d).bandNew from congrArg Domain.bandNew hold]
  exact (congrArg Domain.bandNew hnew).trans hband

theorem sampleStep_bandDom_foldl (s : State) : SampleStep s ((List.range 80).foldl bandDom s) :=
  foldl_inv (I := SampleStep s) (fun v e hv => hv.trans (sampleStep_bandDom v e).1) _ (SampleStep.refl s)

/-! ### The outcome of a completion -/

/-- A sensor that counts (R247). -/
def Counted (s : State) (x : Nat) : Prop := s.therm.excl.getLsbD x = false ∧ sensAbsent s x = false

theorem sampleStep_completed (convs : Vector Conv 320) (t : Nat) (s : State) : SampleStep (converted convs t s) (completed convs t s) :=
  ((quietStep_judged _).toSampleStep.trans (sampleStep_bandDom_foldl _)).trans (quietStep_banded _).toSampleStep

theorem completed_valid (convs : Vector Conv 320) (t : Nat) (s : State) : (completed convs t s).therm.valid = true := banded_valid _

theorem act_converted (convs : Vector Conv 320) (t : Nat) (s : State) : (converted convs t s).therm.act =
    { warn := s.therm.warn.toNat, throt := s.therm.throt.toNat, crit := s.therm.crit.toNat, restart := s.therm.restart.toNat,
      hold := s.therm.hold.toNat, rise := s.therm.rise.toNat, bands := s.therm.bands, hyst := s.therm.hyst.toNat } := rfl

theorem tripped_converted (convs : Vector Conv 320) (t : Nat) (s : State) : (converted convs t s).therm.tripped = s.therm.tripped := by
  rw [converted, setTherm, limited, setTherm, limitsInForce, now_therm]

theorem domOf_converted (convs : Vector Conv 320) (t : Nat) (s : State) (d : Nat) : domOf (converted convs t s) d = domOf s d := rfl

theorem converted_frame (convs : Vector Conv 320) (t : Nat) (s : State) :
    converted convs t s = { now t s with therm := (converted convs t s).therm } := rfl

theorem sensAbsent_of_step {convs : Vector Conv 320} {t : Nat} {s u : State} (h : SampleStep (converted convs t s) u) (x : Nat) :
    sensAbsent u x = sensAbsent s x := by
  rw [sensAbsent, h.isAbsent, isAbsent, domOf_converted]
  rfl

theorem lt_of_mem_sensorsOf {d x : Nat} (hd : d < 80) (hx : x ∈ sensorsOf d) : x < 320 := by
  unfold sensorsOf at hx
  split at hx
  · obtain ⟨i, hi, rfl⟩ := List.mem_map.mp hx
    have := List.mem_range.mp hi
    omega
  · obtain ⟨i, hi, rfl⟩ := List.mem_map.mp hx
    have := List.mem_range.mp hi
    omega

theorem lt_of_mem_dieSensors {e x : Nat} (hx : x ∈ dieSensors e) : x < 320 :=
  List.mem_range.mp (List.mem_filter.mp hx).1

section
variable {convs : Vector Conv 320} {t : Nat} {s v : State} (hv : SampleStep (converted convs t s) v)
include hv

/-- After the conversions a plain sensor reads when it counts. -/
theorem readsNow_iff_counted {x : Nat} (hx : x < 320) (hp : Plain s x) : readsNow v x = true ↔ Counted s x := by
  obtain ⟨hexcl, hlive, hgone⟩ := takeConv_kept (s := limited t s) (c := { sensorAt s x with excl := s.therm.excl.getLsbD x })
    (v := vget convs x) hp.2 (hp.sensLost t)
  rw [← sensorAt_converted convs t s hx] at hexcl hlive hgone
  have hk := hv.sens x
  rw [readsNow, countedSens, hk.excl, hexcl, hk.live hlive, hk.gone, hgone, sensAbsent_of_step hv]
  simp [Counted]

theorem hottest_none_of_uncounted {l : List Nat} (hlt : ∀ x ∈ l, x < 320) (hp : ∀ x ∈ l, Plain s x) (h : ∀ x ∈ l, ¬Counted s x) :
    hottest v l = none :=
  hottest_eq_none fun x hx => Bool.eq_false_iff.mpr fun hr => h x hx ((readsNow_iff_counted hv (hlt x hx) (hp x hx)).mp hr)

/-- Where a list has a counted sensor, its hottest is the highest reading of the counted ones. -/
theorem hottest_of_counted {l : List Nat} (hlt : ∀ x ∈ l, x < 320) (hp : ∀ x ∈ l, Plain s x) (h : ∃ x ∈ l, Counted s x) :
    ∃ y, hottest v l = some y ∧ (∀ x ∈ l, Counted s x → (sensorAt v x).rd ≤ y.2) ∧ ∃ x ∈ l, Counted s x ∧ (sensorAt v x).rd = y.2 := by
  obtain ⟨x, hx, hc⟩ := h
  obtain ⟨y, hy, hmem, hr, hrd, hle⟩ := hottest_eq_some hx ((readsNow_iff_counted hv (hlt x hx) (hp x hx)).mpr hc)
  exact ⟨y, hy, fun z hz hcz => hle z hz ((readsNow_iff_counted hv (hlt z hz) (hp z hz)).mpr hcz),
    y.1, hmem, (readsNow_iff_counted hv (hlt y.1 hmem) (hp y.1 hmem)).mp hr, hrd⟩

end

theorem groupSensors_of_single {s : State} {d : Nat} (hs : Single s d) (hd : d < 80) : groupSensors s d = sensorsOf d := by
  rw [groupSensors, if_pos hd, membersOf_of_not_even (not_even_of_none hs.1), List.flatMap_singleton]

/-- The maximum and band of a domain outside pairs at a completion, from the readings that it took. -/
theorem bands_completed (convs : Vector Conv 320) (t : Nat) {s : State} {d : Nat} (hs : Single s d) (ha : isAbsent s d = false) (hd : d < 80) :
    ∃ v, SampleStep (converted convs t s) v ∧ Single v d ∧ (domOf v d).tempNew = (domOf s d).tempNew ∧
      (domOf (completed convs t s) d).tempNew = domMax v d ∧
      (domOf (completed convs t s) d).bandNew = nextBand s.therm.bands s.therm.hyst.toNat (domOf s d).bandNew (domMax v d) := by
  have h4 : QuietStep (converted convs t s) (judged (converted convs t s)) := quietStep_judged _
  have hs4 : Single (judged (converted convs t s)) d := h4.toSampleStep.single hs
  obtain ⟨v, hv, -, hold, htemp, hband⟩ := bandDom_foldl hs4 ((h4.toSampleStep.isAbsent d).trans ha) hd
  obtain ⟨htu, hbu⟩ := (quietStep_banded ((List.range 80).foldl bandDom (judged (converted convs t s)))).temps d
  obtain ⟨ht4, hb4⟩ := h4.temps d
  refine ⟨v, h4.toSampleStep.trans hv, hv.single hs4, hold.trans ht4, htu.trans htemp, ?_⟩
  refine (hbu.trans hband).trans ?_
  rw [h4.act, act_converted, hb4, domOf_converted]

section
variable {convs : Vector Conv 320} {t : Nat} {s v : State} (hv : SampleStep (converted convs t s) v) {d : Nat} (hs : Single v d) (hd : d < 80)
  (hp : ∀ x ∈ sensorsOf d, Plain s x)
include hv hs hd hp

theorem domMax_own (h : ∃ x ∈ sensorsOf d, Counted s x) :
    (∀ x ∈ sensorsOf d, Counted s x → (sensorAt v x).rd ≤ domMax v d) ∧
      ∃ x ∈ sensorsOf d, Counted s x ∧ (sensorAt v x).rd = domMax v d := by
  obtain ⟨y, hy, hle, hex⟩ := hottest_of_counted hv (fun x hx => lt_of_mem_sensorsOf hd hx) hp h
  rw [domMax, groupSensors_of_single hs hd, hy]
  exact ⟨hle, hex⟩

variable (hn : ∀ x ∈ sensorsOf d, ¬Counted s x) (hpd : ∀ x ∈ dieSensors (dieOf d), Plain s x)
include hn hpd

theorem domMax_die (h : ∃ x ∈ dieSensors (dieOf d), Counted s x) :
    (∀ x ∈ dieSensors (dieOf d), Counted s x → (sensorAt v x).rd ≤ domMax v d) ∧
      ∃ x ∈ dieSensors (dieOf d), Counted s x ∧ (sensorAt v x).rd = domMax v d := by
  obtain ⟨y, hy, hle, hex⟩ := hottest_of_counted hv (fun x hx => lt_of_mem_dieSensors hx) hpd h
  rw [domMax, groupSensors_of_single hs hd, hottest_none_of_uncounted hv (fun x hx => lt_of_mem_sensorsOf hd hx) hp hn, hy]
  exact ⟨hle, hex⟩

theorem domMax_stays (h : ∀ x ∈ dieSensors (dieOf d), ¬Counted s x) : domMax v d = (domOf v d).tempNew := by
  rw [domMax, groupSensors_of_single hs hd, hottest_none_of_uncounted hv (fun x hx => lt_of_mem_sensorsOf hd hx) hp hn,
    hottest_none_of_uncounted hv (fun x hx => lt_of_mem_dieSensors hx) hpd h]

end

section
variable {convs : Vector Conv 320} {t : Nat} {s : State} {x : Nat} (hx : x < 320) (hp : Plain s x)
include hx hp

/-- A good conversion becomes the sensor's reading. -/
theorem completed_good {raw : Int} (hc : vget convs x = .reading raw) (h : -640 ≤ internalReading (limited t s) x raw) :
    (sensorAt (completed convs t s) x).rd = internalReading (limited t s) x raw ∧ (sensorAt (completed convs t s) x).valid = true := by
  have hk := (sampleStep_completed convs t s).sens x
  have hg := takeConv_good (c := { sensorAt s x with excl := s.therm.excl.getLsbD x }) hp.2 (hp.sensLost t) h
  rw [← hc, ← sensorAt_converted convs t s hx] at hg
  exact ⟨hk.rd.trans hg.1, hk.valid.trans hg.2⟩

/-- A failed conversion keeps the last reading and counts. -/
theorem completed_bad (h : vget convs x = .error ∨ ∃ raw, vget convs x = .reading raw ∧ internalReading (limited t s) x raw < -640) :
    (sensorAt (completed convs t s) x).rd = (sensorAt s x).rd ∧ (sensorAt (completed convs t s) x).valid = false ∧
      (sensorAt (completed convs t s) x).fails = (sensorAt s x).fails + 1 := by
  have hk := (sampleStep_completed convs t s).sens x
  obtain ⟨hrd, hvalid, hfails⟩ := takeConv_bad (c := { sensorAt s x with excl := s.therm.excl.getLsbD x }) hp.2 (hp.sensLost t) h
  rw [← sensorAt_converted convs t s hx] at hrd hvalid hfails
  exact ⟨hk.rd.trans hrd, hk.valid.trans hvalid, hk.fails.trans hfails⟩

end

end Sys2Proof.Laws
end

section
/-! The statement about a thermal sample. -/

namespace Sys2Proof.Proofs
open Sys2Proof Sys2Proof.Machine Sys2Proof.Laws
set_option Elab.async false

/-- Settles O39: the conversions sensor by sensor, then the pass that derives each domain's maximum and band from them. -/
theorem thermalSample : Obligations.ThermalSample := by
  intro convs t s
  refine ⟨rfl, _, exec_thermalSampleComplete convs t s, ?_⟩
  have hu := sampleStep_completed convs t s
  have hact := hu.act.trans (act_converted convs t s)
  dsimp only
  refine ⟨completed_valid convs t s, ?_, ?_, ?_, ?_, hu.tripped.trans (tripped_converted convs t s),
    fun x raw hp hc hr => completed_good x.isLt hp hc hr, fun x hp hbad => completed_bad x.isLt hp hbad, fun d hs ha hp => ?_,
    fun d => ?_, ?_⟩
  · rw [hact]
  · rw [hact]
  · rw [hact]
  · rw [hact]
  · obtain ⟨v, hv, hsv, hold, htemp, hband⟩ := bands_completed convs t hs ha d.isLt
    have hrd : ∀ x, (sensorAt (completed convs t s) x).rd = (sensorAt v x).rd := fun x => (hu.sens x).rd.trans (hv.sens x).rd.symm
    simp only [htemp, hrd]
    refine ⟨domMax_own hv hsv d.isLt hp, fun hn hpd => ⟨domMax_die hv hsv d.isLt hp hn hpd, fun hnd => ?_⟩, hband⟩
    exact (domMax_stays hv hsv d.isLt hp hn hpd hnd).trans hold
  · have hd := hu.dom d
    rw [domOf_converted] at hd
    exact hd
  · have hf := hu.frame
    rw [converted_frame] at hf
    exact hf

end Sys2Proof.Proofs
end

section
/-! What the work of stations and hub at a latch or a frame start leaves: the measurements, the values brought to the hub and the CLE, and the
hub's own tables. One lemma for each operation. -/

namespace Sys2Proof.Laws
open Sys2Proof Sys2Proof.Machine
set_option Elab.async false

/-- What a frame latch measures of a domain and a frame start brings to the CLE. -/
def measured (D : Domain) : BitVec 16 × Nat × Nat × BitVec 16 × Nat × BitVec 16 × Nat × Nat × Int × Nat × Bool :=
  (D.vmeas, D.imeas, D.eFrame, D.vPrev, D.iPrev, D.vHub, D.iHub, D.band, D.maxT, D.codeFrame, D.downBad)

/-- The hub's tables, which stations do not change. -/
def hubTables (s : State) :=
  (s.laneOf, s.lanes, s.mism, s.records, s.cmds, s.cfg, s.ports, s.clk, s.time.gtc, s.links)

theorem hubTables_iff {s u : State} : hubTables u = hubTables s ↔ u.laneOf = s.laneOf ∧ u.lanes = s.lanes ∧ u.mism = s.mism ∧
    u.records = s.records ∧ u.cmds = s.cmds ∧ u.cfg = s.cfg ∧ u.ports = s.ports ∧ u.clk = s.clk ∧ u.time.gtc = s.time.gtc ∧
    u.links = s.links := by
  simp [hubTables]

/-- Two states that agree in a view of every domain and in the hub's tables. -/
def SameView {β : Type} (m : Domain → β) (s u : State) : Prop := (∀ d, m (domOf u d) = m (domOf s d)) ∧ hubTables u = hubTables s

/-- Two states with the same measurements and tables. -/
abbrev SameFrame (s u : State) : Prop := SameView measured s u

section
variable {β : Type} {m : Domain → β}

theorem SameView.refl (s : State) : SameView m s s := ⟨fun _ => rfl, rfl⟩

theorem SameView.trans {s u v : State} (h : SameView m s u) (k : SameView m u v) : SameView m s v :=
  ⟨fun d => (k.1 d).trans (h.1 d), k.2.trans h.2⟩

theorem sameView_of_ite {s a b : State} {c : Prop} [Decidable c] (ha : SameView m s a) (hb : SameView m s b) :
    SameView m s (if c then a else b) := by
  split
  · exact ha
  · exact hb

theorem sameView_foldl {α : Type} {f : State → α → State} (h : ∀ s x, SameView m s (f s x)) (l : List α) (s : State) :
    SameView m s (l.foldl f s) := by
  induction l generalizing s with
  | nil => exact .refl s
  | cons x l ih => exact (h s x).trans (ih _)

/-- A change of one domain that its view does not show. -/
theorem sameView_setDom (s : State) (d : Nat) (f : Domain → Domain) (h : ∀ D, m (f D) = m D := by intro; rfl) :
    SameView m s (setDom s d f) := by
  refine ⟨fun e => ?_, by simp only [hubTables, setDom]⟩
  by_cases he : e < 80
  · by_cases hd : e = d
    · subst hd
      rw [domOf_setDom_same _ _ he, h]
    · rw [domOf_setDom_ne _ _ (Ne.symm hd)]
  · rw [domOf_ge _ (by omega), domOf_ge _ (by omega)]

theorem sameView_setDoms (s : State) (f : Nat → Domain → Domain) (h : ∀ d D, m (f d D) = m D := by intros; rfl) :
    SameView m s (setDoms s f) := by
  refine ⟨fun e => ?_, by simp only [hubTables, setDoms]⟩
  by_cases he : e < 80
  · rw [domOf_setDoms s f he, h]
  · rw [domOf_ge _ (by omega), domOf_ge _ (by omega)]

theorem sameView_setMembers (s : State) (d : Nat) (f : Domain → Domain) (h : ∀ D, m (f D) = m D := by intro; rfl) :
    SameView m s (setMembers s d f) :=
  sameView_foldl (fun s x => sameView_setDom s x f h) _ s

/-- A change of neither domains nor tables. -/
theorem sameView_of_eq {s u : State} (hd : u.dom = s.dom) (hh : hubTables u = hubTables s) : SameView m s u :=
  ⟨fun e => by rw [domOf, hd, domOf], hh⟩

theorem sameView_raise (s : State) (cls kind unit inst detail : Nat) : SameView m s (raise s cls kind unit inst detail) := by
  rw [raise_frame]
  exact sameView_of_eq rfl rfl

theorem sameView_setMeter (s : State) (f : Meter → Meter) : SameView m s (setMeter s f) := sameView_of_eq rfl rfl

end

theorem sameFrame_setCellAt (s : State) (x : Nat × Nat) (f : Cell → Cell) : SameFrame s (setCellAt s x f) :=
  sameView_setDom s x.1 _

theorem sameFrame_setDroop (s : State) (d : Nat) (f : Droop → Droop) : SameFrame s (setDroop s d f) :=
  sameView_setDom s d _

theorem sameFrame_setRc (s : State) (d : Nat) (f : RcSt → RcSt) : SameFrame s (setRc s d f) :=
  sameView_setDom s d _

theorem sameFrame_setArb (s : State) (d : Nat) (f : Arb → Arb) : SameFrame s (setArb s d f) :=
  sameView_setDom s d _

theorem sameFrame_setLevel (s : State) (d l : Nat) : SameFrame s (setLevel s d l) :=
  sameView_setDom s d _

theorem sameFrame_setTiles (s : State) (d : Nat) (f : Tile → Tile) : SameFrame s (setTiles s d f) :=
  sameView_setMembers s d _

theorem sameFrame_setArbChip (s : State) (f : ArbChip → ArbChip) : SameFrame s (setArbChip s f) := sameView_of_eq rfl rfl

theorem sameFrame_report (s : State) (d : Nat) (w : IntWhat) : SameFrame s (report s d w) := by
  unfold report
  split <;> exact .refl s

/-! ### Stations -/

theorem sameFrame_driveThr (s : State) (d : Nat) : SameFrame s (driveThr s d) := by
  unfold driveThr
  split
  · exact .refl s
  · exact sameView_setMembers s d _

theorem sameFrame_setStops (s : State) (d : Nat) (f : Droop → Droop) : SameFrame s (setStops s d f) :=
  (sameView_setMembers s d _).trans (sameFrame_driveThr _ d)

theorem sameFrame_holdClock (s : State) (d : Nat) (b : Bool) : SameFrame s (holdClock s d b) := sameFrame_setStops s d _

theorem sameFrame_unparkAll (s : State) (d : Nat) : SameFrame s (unparkAll s d) := by
  refine sameView_foldl (fun s x => ?_) _ s
  dsimp only
  exact sameView_of_ite (sameFrame_setCellAt s x _) (.refl s)

theorem sameFrame_abortPark (s : State) (d : Nat) : SameFrame s (abortPark s d) := by
  unfold abortPark
  extract_lets n
  exact sameView_of_ite ((sameFrame_unparkAll s d).trans (sameView_setDom _ d _)) (.refl s)

theorem sameFrame_stationHold (s : State) (d : Nat) : SameFrame s (stationHold s d) := by
  unfold stationHold
  exact sameView_of_ite (.refl s) ((sameFrame_unparkAll s d).trans (sameView_setMembers _ d _))

theorem sameFrame_reportOvld (s : State) (x : Nat × Nat) : SameFrame s (reportOvld s x) := by
  unfold reportOvld
  extract_lets d
  exact sameView_of_ite (.refl s) ((sameFrame_setCellAt s x _).trans (sameView_raise ..))

theorem sameFrame_parkLatch (s : State) (d : Nat) : SameFrame s (parkLatch s d) := by
  unfold parkLatch
  extract_lets lim g n s0
  have h0 : SameFrame s s0 := sameView_foldl (fun s x => sameFrame_setCellAt s x _) _ s
  clear_value s0
  split
  · exact (h0.trans (sameFrame_abortPark s0 d)).trans (sameView_setDom _ d _)
  · exact (h0.trans (sameView_foldl (fun s x => sameFrame_setCellAt s x _) _ s0)).trans (sameView_setDom _ d _)

theorem sameFrame_parkAll (s : State) (d : Nat) : SameFrame s (parkAll s d) := by
  unfold parkAll
  extract_lets arm s1 s2 allActive
  have h1 : SameFrame s s1 := sameView_of_ite (sameView_setDom s d _) (.refl s)
  have h2 : SameFrame s1 s2 := sameView_of_ite (sameFrame_parkLatch s1 d) (sameView_setDom s1 d _)
  exact sameView_of_ite ((h1.trans h2).trans (sameFrame_setDroop s2 d _)) (h1.trans h2)

theorem sameFrame_shareLatch (s : State) (d : Nat) : SameFrame s (shareLatch s d) := by
  unfold shareLatch
  extract_lets D act wsum
  exact sameView_of_ite (.refl s) (sameView_foldl (fun s x => sameFrame_setCellAt s x _) _ s)

theorem sameFrame_ovldLatch (s : State) (d : Nat) : SameFrame s (ovldLatch s d) :=
  sameView_foldl (fun s x => sameView_of_ite (sameFrame_reportOvld s x) (.refl s)) _ s

theorem sameFrame_droopLatch (s : State) (d : Nat) : SameFrame s (droopLatch s d) :=
  (sameView_setMembers s d _).trans (sameFrame_setDroop _ d _)

theorem sameFrame_transLatch (s : State) (d : Nat) : SameFrame s (transLatch s d) := sameView_setMembers s d _

theorem sameFrame_derateLatch (s : State) (d : Nat) : SameFrame s (derateLatch s d) := by
  unfold derateLatch
  extract_lets D n der s1 a
  have h1 : SameFrame s s1 := sameFrame_setArb s d _
  exact sameView_of_ite (h1.trans ((sameFrame_setArb s1 d _).trans (sameFrame_driveThr _ d))) h1

theorem sameFrame_supStart (s : State) (d : Nat) : SameFrame s (supStart s d) := sameView_setDom s d _

theorem sameFrame_supAgain (s : State) (d : Nat) : SameFrame s (supAgain s d) :=
  sameView_of_ite (sameFrame_supStart s d) (.refl s)

theorem sameFrame_supLatch (s : State) (d : Nat) : SameFrame s (supLatch s d) := by
  unfold supLatch
  extract_lets D lim changed s1 p
  have h1 : SameFrame s s1 := sameView_of_ite (sameFrame_supStart s d) (.refl s)
  clear_value s1
  split
  · exact .refl s
  · exact sameView_of_ite (sameView_of_ite h1 (h1.trans (sameView_setDom s1 d _)))
      (h1.trans (sameView_setDom s1 d _))

theorem sameFrame_stationLatch (s : State) (d : Nat) : SameFrame s (stationLatch s d) := by
  unfold stationLatch
  extract_lets s1 us s2 s3
  have h1 : SameFrame s s1 := sameFrame_shareLatch s d
  have h2 : SameFrame s1 s2 := sameView_foldl (fun s x => sameFrame_setCellAt s x _) _ s1
  have h3 : SameFrame s s3 := (h1.trans h2).trans ((sameFrame_ovldLatch s2 d).trans (sameFrame_parkAll _ d))
  clear_value s3
  have h4 : SameFrame s3 (supLatch (derateLatch (transLatch (droopLatch s3 d) d) d) d) :=
    (sameFrame_droopLatch s3 d).trans ((sameFrame_transLatch _ d).trans ((sameFrame_derateLatch _ d).trans (sameFrame_supLatch _ d)))
  exact sameView_of_ite (.refl s) (sameView_of_ite h3 (h3.trans h4))

/-! ### The hub's and the stations' work at a frame start -/

theorem sameFrame_beginLeg1 (s : State) (d : Nat) (slow : Bool) : SameFrame s (beginLeg1 s d slow) := by
  unfold beginLeg1
  extract_lets g v0 s1
  have h1 : SameFrame s s1 := sameView_setMembers s d _
  clear_value s1
  exact sameView_of_ite h1 (h1.trans (sameView_foldl (fun s x => sameView_setMembers s (leader s x) _) _ s1))

theorem sameFrame_softStartFrame (s : State) (d : Nat) : SameFrame s (softStartFrame s d) := by
  unfold softStartFrame
  extract_lets D g
  split
  · exact sameView_of_ite (sameFrame_beginLeg1 s d _) (sameView_of_ite (sameFrame_beginLeg1 s d _) (.refl s))
  · exact sameView_of_ite (sameView_setMembers s d _) (sameView_setMembers s d _)
  · exact .refl s

theorem sameFrame_uvRelease (s : State) (d : Nat) : SameFrame s (uvRelease s d) := by
  unfold uvRelease
  extract_lets r
  exact sameView_of_ite (.refl s) (sameFrame_setStops s d _)

theorem sameFrame_profFrame (s : State) (d : Nat) : SameFrame s (profFrame s d) := by
  unfold profFrame
  extract_lets D g lim tgt p q
  exact sameView_of_ite (sameView_setDom s d _) (sameView_of_ite (.refl s) (sameView_setDom s d _))

theorem sameFrame_rampDone (s : State) (d : Nat) : SameFrame s (rampDone s d) :=
  sameView_of_ite (sameView_setMembers s d _) (.refl s)

theorem sameFrame_descentDone (s : State) (d : Nat) : SameFrame s (descentDone s d) :=
  sameView_of_ite ((sameView_setDom s d _).trans (sameFrame_report _ d _)) (.refl s)

theorem sameFrame_profileFrame (s : State) (d : Nat) : SameFrame s (profileFrame s d) := by
  unfold profileFrame
  extract_lets was s1
  have h1 : SameFrame s s1 := (sameFrame_softStartFrame s d).trans
    ((sameFrame_profFrame _ d).trans ((sameFrame_rampDone _ d).trans (sameFrame_descentDone _ d)))
  exact sameView_of_ite (.refl s) (h1.trans (sameFrame_setDroop s1 d _))

theorem sameFrame_releaseClock (s : State) (d : Nat) : SameFrame s (releaseClock s d) :=
  sameView_of_ite (sameFrame_holdClock s d false) (.refl s)

theorem sameFrame_presentPred (s : State) (d n : Nat) : SameFrame s (presentPred s d n) := by
  unfold presentPred
  extract_lets fresh raw shown lim out
  refine sameView_setDom s d _ fun D => ?_
  extract_lets D1
  split <;> rfl

theorem sameFrame_errFrame (s : State) (d : Nat) : SameFrame s (errFrame s d) := sameView_setDom s d _

theorem sameFrame_rcFrame (s : State) (d : Nat) : SameFrame s (rcFrame s d) := by
  unfold rcFrame
  extract_lets R s1
  have h1 : SameFrame s s1 := sameView_of_ite (sameView_setDom s d _) (.refl s)
  exact sameView_of_ite (.refl s) (sameView_of_ite (sameView_setDom s d _) (h1.trans (sameFrame_setRc s1 d _)))

theorem sameFrame_driveReq (s : State) (d code : Nat) : SameFrame s (driveReq s d code) := sameFrame_setTiles s d _

theorem sameFrame_dropChange (s : State) (d : Nat) : SameFrame s (dropChange s d) := by
  unfold dropChange
  split
  · exact .refl s
  · exact sameView_of_ite ((sameFrame_setTiles s d _).trans (sameFrame_driveReq _ d _)) (sameFrame_setTiles s d _)

theorem sameFrame_planChange (s : State) (d code sw : Nat) (job : Bool) (kind : Nat) : SameFrame s (planChange s d code sw job kind) := by
  unfold planChange
  extract_lets x c s1 s2
  have h1 : SameFrame s s1 := sameFrame_setTiles s d _
  have h2 : SameFrame s s2 := sameFrame_setTiles s d _
  split
  · exact sameView_of_ite (sameFrame_setTiles s d _)
      (sameView_of_ite (h1.trans (sameFrame_dropChange s1 d)) (h1.trans (sameFrame_setTiles s1 d _)))
  · exact sameView_of_ite h2 (h2.trans (sameFrame_setTiles s2 d _))

theorem sameFrame_editChange (s : State) (d : Nat) (f : FreqChange → FreqChange) : SameFrame s (editChange s d f) :=
  sameFrame_setTiles s d _

theorem sameFrame_pulseGo (s : State) (d : Nat) : SameFrame s (pulseGo s d) := sameFrame_setTiles s d _

theorem sameFrame_tryGo (s : State) (d : Nat) (c : FreqChange) : SameFrame s (tryGo s d c) := by
  have edit (f : FreqChange → FreqChange) : SameFrame s (editChange s d f) := sameFrame_editChange s d f
  unfold tryGo
  extract_lets D g rdy up fixed uv
  refine sameView_of_ite (.refl s) (sameView_of_ite (sameView_of_ite (.refl s) (edit _))
    (sameView_of_ite (sameView_of_ite (sameFrame_pulseGo s d) (.refl s)) (sameView_of_ite (.refl s) (sameView_of_ite (edit _) ?_))))
  exact sameView_of_ite (sameView_of_ite (edit _) (.refl s)) (sameView_of_ite (sameView_of_ite (edit _) (.refl s))
    ((edit _).trans (sameFrame_pulseGo _ d)))

theorem sameFrame_tryRequest (s : State) (d : Nat) (c : FreqChange) : SameFrame s (tryRequest s d c) :=
  sameView_of_ite (.refl s) ((sameFrame_editChange s d _).trans (sameFrame_driveReq _ d _))

theorem sameFrame_takeAck (s : State) (d : Nat) : SameFrame s (takeAck s d) := by
  unfold takeAck
  extract_lets g s1
  have h1 : SameFrame s s1 := sameFrame_setTiles s d _
  clear_value s1
  refine sameView_of_ite (.refl s) ?_
  split
  · exact h1.trans (sameFrame_driveReq s1 d _)
  · exact h1

theorem sameFrame_freqFrame (s : State) (d : Nat) : SameFrame s (freqFrame s d) := by
  unfold freqFrame
  extract_lets s0 D want s1
  have h0 : SameFrame s s0 := (sameFrame_setTiles s d _).trans ((sameFrame_takeAck _ d).trans (sameFrame_releaseClock _ d))
  have h1 : SameFrame s s1 := sameView_of_ite (h0.trans (sameFrame_planChange ..)) h0
  clear_value s1
  refine sameView_of_ite (.refl s) ?_
  split
  · exact h1
  · exact h1.trans ((sameFrame_tryGo s1 d _).trans (sameFrame_tryRequest _ d _))

theorem sameFrame_joinFrame (s : State) (d : Nat) : SameFrame s (joinFrame s d) := by
  unfold joinFrame
  extract_lets s1
  have h1 : SameFrame s s1 := sameFrame_unparkAll s d
  exact sameView_of_ite (sameView_of_ite (h1.trans (sameFrame_supAgain s1 d)) h1) (.refl s)

theorem sameFrame_loadInit (s : State) (d : Nat) : SameFrame s (loadInit s d) := by
  unfold loadInit
  split
  · exact sameView_setDom s d _
  · exact .refl s

theorem sameFrame_legImage (s : State) (d : Nat) (was : Trans) : SameFrame s (legImage s d was) :=
  sameView_of_ite (sameFrame_loadInit s d) (.refl s)

theorem sameFrame_domFrame (n : Nat) (s : State) (d : Nat) : SameFrame s (domFrame n s d) := by
  unfold domFrame
  extract_lets was s1
  have h1 : SameFrame s s1 := (sameFrame_joinFrame s d).trans (sameFrame_profileFrame _ d)
  clear_value s1
  have h2 := (sameFrame_legImage s1 d was).trans ((sameFrame_errFrame _ d).trans ((sameFrame_presentPred _ d n).trans
    ((sameFrame_rcFrame _ d).trans (sameFrame_freqFrame _ d))))
  exact sameView_of_ite (.refl s) (sameView_of_ite h1 (h1.trans h2))

theorem sameFrame_cancelFor (s : State) (p : Loan → Bool) : SameFrame s (cancelFor s p) := by
  unfold cancelFor
  extract_lets gone s1 s2
  have h2 : SameFrame s s2 := (sameFrame_setArbChip s _).trans (sameView_foldl (fun s x => sameFrame_setArb s x.borrower _) gone s1)
  clear_value s2
  refine h2.trans (sameView_foldl (fun s x => ?_) gone s2)
  extract_lets a
  exact sameView_of_ite ((sameFrame_setArb s _ _).trans (sameFrame_setLevel _ _ _)) (.refl s)

theorem sameFrame_endOffer (s : State) (d : Nat) : SameFrame s (endOffer s d) :=
  (sameFrame_setArbChip s _).trans (sameFrame_setArb _ d _)

theorem sameFrame_reclaim (s : State) (d : Nat) : SameFrame s (reclaim s d) := by
  unfold reclaim
  extract_lets s2 s3
  have h2 : SameFrame s s2 := (sameFrame_cancelFor s _).trans (sameFrame_endOffer _ d)
  have h3 : SameFrame s s3 := h2.trans (sameFrame_setArb s2 d _)
  exact sameView_of_ite (h3.trans (sameFrame_setLevel s3 d _)) h3

theorem sameFrame_arbFrame (s : State) (d : Nat) : SameFrame s (arbFrame s d) := by
  unfold arbFrame
  extract_lets D s0 s1
  have h0 : SameFrame s s0 := sameFrame_cancelFor s _
  have h1 : SameFrame s s1 := sameView_of_ite (sameView_of_ite (h0.trans (sameFrame_endOffer s0 d)) h0) (.refl s)
  clear_value s1
  split
  · have h2 := h1.trans (sameFrame_setArb s1 d (fun a => { a with wakeAt := none, woke := false }))
    exact sameView_of_ite (sameView_of_ite (h2.trans (sameFrame_reclaim _ d)) h2) h1
  · exact h1

theorem sameFrame_domArb (s : State) (d : Nat) : SameFrame s (domArb s d) := sameView_of_ite (.refl s) (sameFrame_arbFrame s d)

theorem sameFrame_domCount (s : State) (d : Nat) : SameFrame s (domCount s d) :=
  sameView_of_ite (.refl s) ((sameFrame_setArb s d _).trans (sameFrame_setArb _ d _))

theorem sameFrame_takeRecord (s : State) (d : Nat) (r : DownRec) : SameFrame s (takeRecord s d r) := by
  unfold takeRecord
  extract_lets s1
  have h1 : SameFrame s s1 := sameView_of_ite (sameFrame_stationHold s d) (.refl s)
  refine h1.trans (sameView_setMembers s1 d _ fun M => ?_)
  dsimp only
  split <;> rfl

theorem measured_stationArm (g : Nat) (arm : Bool) (D : Domain) : measured (stationArm g arm D) = measured D := by
  unfold stationArm
  split <;> rfl

theorem measured_stationCode (code : Nat) (D : Domain) : measured (stationCode code D) = measured D := by
  unfold stationCode
  split <;> rfl

theorem sameFrame_takeWhole (s : State) (d : Nat) (r : DownRec) : SameFrame s (takeWhole s d r) :=
  (sameFrame_takeRecord s d r).trans (sameView_setMembers _ d _ fun M => (measured_stationCode _ _).trans (measured_stationArm _ _ M))

theorem sameFrame_hubRecord (s : State) (n d : Nat) : SameFrame s (hubRecord s n d) :=
  sameView_of_ite (.refl s) (sameView_of_ite (sameFrame_takeRecord s d _) (sameView_of_ite (sameFrame_takeWhole s d _) (.refl s)))

theorem sameFrame_stationFrame (n : Nat) (s : State) (d : Nat) : SameFrame s (stationFrame n s d) :=
  sameView_of_ite (.refl s) ((sameFrame_uvRelease s d).trans ((sameFrame_hubRecord _ n d).trans
    ((sameView_setMembers _ d _).trans (sameFrame_driveThr _ d))))

theorem sameFrame_forwardReports (n : Nat) (s : State) : SameFrame s (forwardReports n s) := by
  refine sameView_foldl (fun s e => ?_) _ s
  extract_lets cells
  exact sameView_of_ite (.refl s) (sameView_foldl (fun s x => sameFrame_setCellAt s x _) _ s)

theorem sameFrame_pulseStart (s : State) : SameFrame s (pulseStart s) := sameView_setDoms s _

theorem sameFrame_siteFrame (n : Nat) (s : State) : SameFrame s (siteFrame n s) := by
  unfold siteFrame
  extract_lets l i s1
  have h1 : SameFrame s s1 := sameView_of_eq rfl rfl
  clear_value s1
  exact h1.trans (sameView_setDoms s1 _)

/-! ### The frame latch -/

/-- What the sums of a latch read of a domain. -/
def latchInputs (D : Domain) : Vector Cell 14 × PairRole × DState × BitVec 16 × Nat × BitVec 16 × Nat :=
  (D.cells, D.pair, D.state, D.vHub, D.iHub, D.vmeas, D.eFrame)

theorem sameInputs_flushWindow (s : State) : SameView latchInputs s (flushWindow s) := by
  unfold flushWindow
  extract_lets k one s1 m e
  have h1 : SameView latchInputs s s1 := sameView_setDoms s _
  clear_value s1
  exact h1.trans (sameView_setMeter s1 _)

theorem sameInputs_staleUpdate (s : State) : SameView latchInputs s (staleUpdate s) := by
  unfold staleUpdate
  extract_lets n s1
  have h1 : SameView latchInputs s s1 := sameView_of_ite (sameInputs_flushWindow s) (.refl s)
  clear_value s1
  exact h1.trans (sameView_setMeter s1 _)

theorem sameInputs_plausCond (s : State) (cond inst code : Nat) (bad : Bool) : SameView latchInputs s (plausCond s cond inst code bad) := by
  unfold plausCond
  extract_lets was s1
  have h1 : SameView latchInputs s s1 := sameView_setMeter s _
  clear_value s1
  exact sameView_of_ite (h1.trans (sameView_raise s1 _ _ _ _ _)) h1

theorem sameInputs_plausRatio (s : State) (ein ecells n : Nat) : SameView latchInputs s (plausRatio s ein ecells n) := by
  unfold plausRatio
  extract_lets e bad s1
  have h1 : SameView latchInputs s s1 := sameView_setMeter s _
  exact h1.trans (sameInputs_plausCond s1 _ _ _ _)

theorem sameInputs_windowRatio (s : State) (ein n : Nat) (stale : Bool) : SameView latchInputs s (windowRatio s ein n stale) := by
  unfold windowRatio
  extract_lets ec s1
  have h1 : SameView latchInputs s s1 := sameView_of_ite (.refl s) ((sameView_setMeter s _).trans (sameInputs_flushWindow _))
  clear_value s1
  exact h1.trans (sameInputs_plausRatio s1 _ _ _)

theorem sameInputs_meterLatch (nj : Nat) (s : State) : SameView latchInputs s (meterLatch nj s) := by
  unfold meterLatch
  extract_lets s1 s2
  have h1 : SameView latchInputs s s1 := sameView_setMeter s _
  have h2 : SameView latchInputs s s2 := by
    show SameView latchInputs s (match s1.meter.eWait with | some x => _ | none => _)
    split
    · exact h1.trans ((sameInputs_windowRatio s1 _ _ _).trans ((sameView_setMeter _ _).trans (sameInputs_staleUpdate _)))
    · exact h1
  clear_value s2
  exact sameView_of_ite (h2.trans (sameView_setMeter s2 _)) h2

theorem sameInputs_latchEnergy (s : State) : SameView latchInputs s (latchEnergy s) := by
  unfold latchEnergy
  extract_lets s1
  have h1 : SameView latchInputs s s1 := sameView_foldl (fun v d => sameView_setDom v _ _) _ s
  clear_value s1
  exact h1.trans (sameInputs_meterLatch _ s1)

theorem sameInputs_attributeDom (s : State) (d : Nat) : SameView latchInputs s (attributeDom s d) := sameView_setDom s d _

/-- The attribution of the frame before clears its energy and keeps what the latch reads. -/
theorem attributeAll_frame (s : State) : hubTables (attributeAll s) = hubTables s ∧
    ∀ d < 80, latchInputs (domOf (attributeAll s) d) = latchInputs { domOf s d with eFrame := 0 } := by
  unfold attributeAll
  extract_lets s1
  have h1 : SameView latchInputs s (attributeShared s1) :=
    (sameView_foldl sameInputs_attributeDom _ s).trans (sameView_of_eq rfl rfl)
  generalize attributeShared s1 = v at h1 ⊢
  refine ⟨by rw [← h1.2]; simp only [hubTables, setDoms], fun d hd => ?_⟩
  rw [domOf_setDoms v _ hd]
  have h := h1.1 d
  simp only [latchInputs, Prod.mk.injEq] at h ⊢
  obtain ⟨hc, hp, hs, hv, hi, hm, -⟩ := h
  exact ⟨hc, hp, hs, hv, hi, hm, trivial⟩

/-- A domain with what a station has measured. -/
def sensed (x : SenseSample) (D : Domain) : Domain := { D with vmeas := x.vmeas, eFrame := x.energy }

theorem takeSense_ne {s : State} {x : SenseSample} {d : Nat} (h : x.dom.val ≠ d) : domOf (takeSense s x) d = domOf s d := by
  unfold takeSense
  split
  · rfl
  · exact domOf_setDom_ne s _ h

theorem takeSense_same (s : State) (x : SenseSample) :
    domOf (takeSense s x) x.dom = if isAbsent s x.dom then domOf s x.dom else sensed x (domOf s x.dom) := by
  unfold takeSense
  split
  · rfl
  · exact domOf_setDom_same s _ x.dom.isLt

theorem takeSenses_ne {l : List SenseSample} {d : Nat} (h : ∀ x ∈ l, x.dom.val ≠ d) (s : State) :
    domOf (l.foldl takeSense s) d = domOf s d := by
  induction l generalizing s with
  | nil => rfl
  | cons x l ih =>
    rw [List.foldl_cons, ih (fun y hy => h y (List.mem_cons_of_mem x hy)), takeSense_ne (h x List.mem_cons_self)]

theorem takeSenses_mem {l : List SenseSample} (hl : (l.map (fun x => x.dom)).Nodup) {x : SenseSample} (hx : x ∈ l) {s : State}
    (ha : isAbsent s x.dom = false) : domOf (l.foldl takeSense s) x.dom = sensed x (domOf s x.dom) := by
  induction l generalizing s with
  | nil => cases hx
  | cons y l ih =>
    obtain ⟨hy, hl⟩ := List.nodup_cons.mp hl
    rw [List.foldl_cons]
    rcases List.mem_cons.mp hx with rfl | hx
    · rw [takeSenses_ne (fun z hz he => hy (List.mem_map.mpr ⟨z, hz, Fin.ext he⟩)), takeSense_same, if_neg (by simp [ha])]
    · have hne : y.dom.val ≠ x.dom.val := fun he => hy (List.mem_map.mpr ⟨x, hx, (Fin.ext he).symm⟩)
      have hs : domOf (takeSense s y) x.dom = domOf s x.dom := takeSense_ne hne
      rw [ih hl hx (by rw [isAbsent, hs]; exact ha), hs]

/-- What samples leave of a domain. -/
def latchBase (D : Domain) : Vector Cell 14 × PairRole × BitVec 16 × Nat := (D.cells, D.pair, D.vHub, D.iHub)

theorem sameBase_takeSense (s : State) (x : SenseSample) : SameView latchBase s (takeSense s x) :=
  sameView_of_ite (.refl s) (sameView_setDom s _ _)

theorem SameView.base {s u : State} (h : SameView latchInputs s u) : SameView latchBase s u := by
  refine ⟨fun d => ?_, h.2⟩
  have hd := h.1 d
  simp only [latchInputs, latchBase, Prod.mk.injEq] at hd ⊢
  obtain ⟨hc, hp, -, hv, hi, -, -⟩ := hd
  exact ⟨hc, hp, hv, hi⟩

/-- The sums of a pair change its own fields alone. -/
theorem sameView_latchSums (n : Nat) (s : State) : SameView (fun D => { D with imeas := 0, vmeas := 0 }) s (latchSums n s) := by
  unfold latchSums
  extract_lets s1
  have h1 : SameView (fun D => { D with imeas := 0, vmeas := 0 }) s s1 := sameView_setDoms s _
  clear_value s1
  refine h1.trans (sameView_foldl (fun v d => ?_) _ s1)
  exact sameView_of_ite (sameView_setDom v d _) (.refl v)

/-- A domain that is not the even member of a pair has the sum of its own cells. -/
theorem latchSums_single (n : Nat) {s : State} {d : Nat} (hd : d < 80) (h : isEven s d = false) :
    domOf (latchSums n s) d = { domOf s d with imeas := ownCurrent d (domOf s d) } := by
  unfold latchSums
  extract_lets s1
  have h1 : domOf s1 d = { domOf s d with imeas := ownCurrent d (domOf s d) } := domOf_setDoms s _ hd
  clear_value s1
  refine foldl_inv (I := fun v => domOf v d = { domOf s d with imeas := ownCurrent d (domOf s d) }) (fun v e hv => ?_) _ h1
  split
  · rename_i he
    have hev : isEven v d = false := by
      rw [isEven, hv]
      exact h
    have hne : e ≠ d := by
      rintro rfl
      simp [hev] at he
    dsimp only
    rw [domOf_setDom_ne v _ hne]
    exact hv
  · exact hv

/-- The values of a latch as the hub takes them. -/
def hubTakes (held : Bool) (D : Domain) : Domain :=
  if held then { D with vPrev := D.vHub, iPrev := D.iHub } else { D with vPrev := D.vHub, vHub := D.vmeas, iPrev := D.iHub, iHub := D.imeas }

theorem measured_toHub (n : Nat) (s : State) {d : Nat} (hd : d < 80) :
    measured (domOf (toHub n s) d) = measured (hubTakes (s.clk.stretch && n % 2 == 1) (domOf s d)) := by
  unfold toHub hubTakes
  split <;> rw [domOf_setDoms s _ hd] <;> rfl

theorem hubTables_toHub (n : Nat) (s : State) : hubTables (toHub n s) = hubTables s := by
  unfold toHub
  split <;> simp only [hubTables, setDoms]

theorem sameBase_attributeAll (s : State) : SameView latchBase s (attributeAll s) := by
  unfold attributeAll
  extract_lets s1
  have h1 : SameView latchBase s (attributeShared s1) :=
    ((sameView_foldl sameInputs_attributeDom _ s).trans (sameView_of_eq rfl rfl)).base
  generalize attributeShared s1 = v at h1 ⊢
  exact h1.trans (sameView_setDoms v _)

/-- The values that a latch takes, before the sums. -/
def latchTaken (sense : List SenseSample) (s : State) : State := latchEnergy (sense.foldl takeSense (attributeAll s))

theorem sameBase_latchTaken (sense : List SenseSample) (s : State) : SameView latchBase s (latchTaken sense s) :=
  (sameBase_attributeAll s).trans ((sameView_foldl sameBase_takeSense sense _).trans (sameInputs_latchEnergy _).base)

theorem latchTaken_inputs (sense : List SenseSample) (s : State) (d : Nat) :
    (domOf (latchTaken sense s) d).vmeas = (domOf (sense.foldl takeSense (attributeAll s)) d).vmeas ∧
    (domOf (latchTaken sense s) d).eFrame = (domOf (sense.foldl takeSense (attributeAll s)) d).eFrame := by
  have h := (sameInputs_latchEnergy (sense.foldl takeSense (attributeAll s))).1 d
  simp only [latchInputs, Prod.mk.injEq] at h
  obtain ⟨-, -, -, -, -, hv, he⟩ := h
  exact ⟨hv, he⟩

theorem attributeAll_inputs (s : State) {d : Nat} (hd : d < 80) : (domOf (attributeAll s) d).vmeas = (domOf s d).vmeas ∧
    (domOf (attributeAll s) d).eFrame = 0 ∧ (domOf (attributeAll s) d).state = (domOf s d).state := by
  have h := (attributeAll_frame s).2 d hd
  simp only [latchInputs, Prod.mk.injEq] at h
  obtain ⟨-, -, hs, -, -, hv, he⟩ := h
  exact ⟨hv, he, hs⟩

theorem latchTaken_sampled {sense : List SenseSample} (hl : (sense.map (fun x => x.dom)).Nodup) {x : SenseSample} (hx : x ∈ sense) {s : State}
    (ha : isAbsent s x.dom = false) :
    (domOf (latchTaken sense s) x.dom).vmeas = x.vmeas ∧ (domOf (latchTaken sense s) x.dom).eFrame = x.energy := by
  obtain ⟨hv, he⟩ := latchTaken_inputs sense s x.dom
  have ha' : isAbsent (attributeAll s) x.dom = false := by
    rw [isAbsent, (attributeAll_inputs s x.dom.isLt).2.2]
    exact ha
  rw [hv, he, takeSenses_mem hl hx ha']
  exact ⟨rfl, rfl⟩

theorem latchTaken_unsampled {sense : List SenseSample} {d : Nat} (hd : d < 80) (h : ∀ x ∈ sense, x.dom.val ≠ d) (s : State) :
    (domOf (latchTaken sense s) d).vmeas = (domOf s d).vmeas ∧ (domOf (latchTaken sense s) d).eFrame = 0 := by
  obtain ⟨hv, he⟩ := latchTaken_inputs sense s d
  obtain ⟨hva, hea, -⟩ := attributeAll_inputs s hd
  rw [hv, he, takeSenses_ne h, hva, hea]
  exact ⟨rfl, rfl⟩

/-- The values of a latch as the hub's step reads them. -/
def latchValues (n : Nat) (sense : List SenseSample) (s : State) : State := latchSums n (latchTaken sense s)

theorem latchValues_tables (n : Nat) (sense : List SenseSample) (s : State) : hubTables (latchValues n sense s) = hubTables s :=
  (sameView_latchSums n _).2.trans (sameBase_latchTaken sense s).2

theorem latchValues_hub (n : Nat) (sense : List SenseSample) (s : State) (d : Nat) :
    (domOf (latchValues n sense s) d).vHub = (domOf s d).vHub ∧ (domOf (latchValues n sense s) d).iHub = (domOf s d).iHub := by
  have h1 := (sameView_latchSums n (latchTaken sense s)).1 d
  have h2 := (sameBase_latchTaken sense s).1 d
  simp only [latchBase, Prod.mk.injEq] at h2
  obtain ⟨-, -, hv, hi⟩ := h2
  exact ⟨(congrArg (fun D => D.vHub) h1).trans hv, (congrArg (fun D => D.iHub) h1).trans hi⟩

theorem latchValues_single (n : Nat) (sense : List SenseSample) {s : State} {d : Nat} (hd : d < 80) (h : isEven s d = false) :
    (domOf (latchValues n sense s) d).vmeas = (domOf (latchTaken sense s) d).vmeas ∧
    (domOf (latchValues n sense s) d).eFrame = (domOf (latchTaken sense s) d).eFrame ∧
    (domOf (latchValues n sense s) d).imeas = ((List.range (nCells d)).map (fun k => repI (cellOf (domOf s d) k).rep)).sum := by
  have hb := (sameBase_latchTaken sense s).1 d
  simp only [latchBase, Prod.mk.injEq] at hb
  obtain ⟨hc, hp, -, -⟩ := hb
  have he : isEven (latchTaken sense s) d = false := by
    rw [isEven, hp]
    exact h
  have hi : ownCurrent d (domOf (latchTaken sense s) d) = ((List.range (nCells d)).map (fun k => repI (cellOf (domOf s d) k).rep)).sum := by
    simp only [ownCurrent, cellOf, hc]
  rw [latchValues, latchSums_single n hd he, hi]
  exact ⟨rfl, rfl, rfl⟩

/-- The rest of a latch changes none of the values that the hub has taken. -/
theorem sameFrame_execFrameLatch (n : Nat) (sense : List SenseSample) (s : State) : ∃ u, exec (.frameLatch n sense) s = .next u ∧
    SameFrame (toHub n (latchValues n sense (now (250 * n - 120) s))) u := by
  refine ⟨_, rfl, ?_⟩
  have h (v : State) : SameFrame v (foldDoms (setDoms (pulseEnd (errLatch v)) (fun _ D => latchedFields D)) stationLatch) :=
    (sameView_setDoms v _).trans ((sameView_setDoms _ _).trans ((sameView_setDoms _ _).trans (sameView_foldl sameFrame_stationLatch _ _)))
  exact h _

/-- The domains of the state that a latch leaves. -/
theorem execFrameLatch_domains (n : Nat) (sense : List SenseSample) (s : State) : ∃ u, exec (.frameLatch n sense) s = .next u ∧
    hubTables u = hubTables (now (250 * n - 120) s) ∧ ∀ d : Dom, measured (vget u.dom d) =
      measured (hubTakes (s.clk.stretch && n % 2 == 1) (domOf (latchValues n sense (now (250 * n - 120) s)) d)) := by
  obtain ⟨u, hu, hm, ht⟩ := sameFrame_execFrameLatch n sense s
  have htab := latchValues_tables n sense (now (250 * n - 120) s)
  refine ⟨u, hu, ht.trans ((hubTables_toHub n _).trans htab), fun d => ?_⟩
  obtain ⟨-, -, -, -, -, -, -, hclk, -, -⟩ := hubTables_iff.mp htab
  have h := hm d
  rw [measured_toHub n _ d.isLt, hclk, now_clk] at h
  exact h

/-! ### The frame start -/

/-- A change of tests, lanes and ports that keeps the domains and the hub's other tables. -/
structure TestsOnly (s u : State) : Prop where
  dom : u.dom = s.dom
  tables : hubTables u = hubTables { s with lanes := u.lanes, ports := u.ports }

theorem TestsOnly.refl (s : State) : TestsOnly s s := ⟨rfl, rfl⟩

theorem TestsOnly.trans {s u v : State} (h : TestsOnly s u) (k : TestsOnly u v) : TestsOnly s v := by
  refine ⟨k.dom.trans h.dom, ?_⟩
  have h1 := h.tables
  have k1 := k.tables
  simp only [hubTables, Prod.mk.injEq] at h1 k1 ⊢
  obtain ⟨h1, -, h3, h4, h5, h6, -, h8, h9, h10⟩ := h1
  obtain ⟨k1, -, k3, k4, k5, k6, -, k8, k9, k10⟩ := k1
  exact ⟨k1.trans h1, trivial, k3.trans h3, k4.trans h4, k5.trans h5, k6.trans h6, trivial, k8.trans h8, k9.trans h9, k10.trans h10⟩

theorem TestsOnly.kept {s u : State} (h : TestsOnly s u) : u.laneOf = s.laneOf ∧ u.mism = s.mism ∧ u.records = s.records ∧
    u.cmds = s.cmds ∧ u.clk = s.clk ∧ u.time.gtc = s.time.gtc ∧ u.links = s.links := by
  obtain ⟨hl, -, hm, hr, hc, -, -, hk, hg, hn⟩ := hubTables_iff.mp h.tables
  exact ⟨hl, hm, hr, hc, hk, hg, hn⟩

theorem testsOnly_setPort (s : State) (p : Nat) (f : Port → Port) : TestsOnly s (setPort s p f) :=
  ⟨rfl, by simp only [hubTables, setPort]⟩

theorem testsOnly_raise (s : State) (cls kind unit inst detail : Nat) : TestsOnly s (raise s cls kind unit inst detail) := by
  rw [raise_frame]
  exact ⟨rfl, rfl⟩

theorem testsOnly_of_ite {s a b : State} {c : Prop} [Decidable c] (ha : TestsOnly s a) (hb : TestsOnly s b) :
    TestsOnly s (if c then a else b) := by
  split
  · exact ha
  · exact hb

theorem testsOnly_postEvent (s : State) (p : Nat) (e : Event) : TestsOnly s (postEvent s p e) := by
  unfold postEvent
  extract_lets P first s1
  have h1 : TestsOnly s s1 := testsOnly_setPort s p _
  exact testsOnly_of_ite (.refl s) (testsOnly_of_ite (testsOnly_setPort s p _) (testsOnly_of_ite (testsOnly_setPort s p _)
    (testsOnly_of_ite (h1.trans (testsOnly_raise ..)) h1)))

theorem testsOnly_laneTested (s : State) (u : TestUnit) : TestsOnly s (laneTested s u) := by
  unfold laneTested
  split
  · exact ⟨rfl, rfl⟩
  · exact ⟨rfl, rfl⟩
  · exact .refl s

theorem testsOnly_endTest (s : State) (r : TestRun) (outcome : Nat) (detail : List Byte) : TestsOnly s (endTest s r outcome detail) := by
  unfold endTest
  extract_lets s1
  have h0 : TestsOnly s { s with tests := s.tests.filter (fun x => x != r) } := ⟨rfl, rfl⟩
  have h1 : TestsOnly s s1 := h0.trans (testsOnly_laneTested _ r.unit)
  clear_value s1
  split
  · exact h1.trans (testsOnly_postEvent ..)
  · exact h1

theorem testsOnly_abandonTests (s : State) (f : TestUnit → Bool) : TestsOnly s (abandonTests s f) := by
  unfold abandonTests
  generalize s.tests.filter _ = l
  induction l generalizing s with
  | nil => exact .refl s
  | cons r l ih => exact (testsOnly_endTest s r 2 []).trans (ih _)

/-- Whether a position has no lane at work. -/
def vacant (s : State) (x : Option (Fin 17)) : Bool := match x with | some l => (vget s.lanes l).retired | none => true

/-- The positions without their retired lanes. -/
def leaveRetired (s : State) : State :=
  { s with laneOf := vmapIdx s.laneOf (fun _ x => if vacant s x then none else x), mism := [] }

/-- The position that a spare lane takes: the one of the first mismatch, or the lowest vacant one. -/
def takeoverAt (s : State) : Option Nat :=
  match firstMism s.mism with
  | some m => some m.pos
  | none => ((List.range 16).filter (fun p => vacant s (vget s.laneOf p))).head?

theorem laneTakeover_eq (s : State) : laneTakeover s = match spareLane s, takeoverAt s with
    | some l, some p =>
      let s2 := abandonTests (leaveRetired s) (fun u => match u with | .lane x => x.val == l | _ => false)
      { s2 with laneOf := vset s2.laneOf p (some (Fin.ofNat 17 l)) }
    | _, _ => leaveRetired s := rfl

theorem spareLane_works {s : State} {l : Nat} (h : spareLane s = some l) : l < 17 ∧ (vget s.lanes l).retired = false := by
  have hl : l < 17 := List.mem_range.mp (List.mem_of_find?_eq_some h)
  have hp := List.find?_some h
  simp only [Bool.and_eq_true, Bool.not_eq_true'] at hp
  obtain ⟨⟨-, hr⟩, -⟩ := hp
  exact ⟨hl, hr⟩

theorem takeoverAt_eq_none {s : State} (hm : s.mism = []) (h : ∀ p < 16, vacant s (vget s.laneOf p) = false) : takeoverAt s = none := by
  have ho : (List.range 16).filter (fun p => vacant s (vget s.laneOf p)) = [] :=
    List.filter_eq_nil_iff.mpr fun p hp => by simp [h p (List.mem_range.mp hp)]
  rw [takeoverAt, hm, ho]
  rfl

theorem vget_leaveRetired (s : State) {p : Nat} (hp : p < 16) :
    vget (leaveRetired s).laneOf p = if vacant s (vget s.laneOf p) then none else vget s.laneOf p := by
  unfold leaveRetired
  dsimp only
  rw [vget_vmapIdx _ _ hp]

/-- A takeover leaves the positions as they are but for their retired lanes, or gives one of them a lane at work. -/
theorem laneTakeover_cases (s : State) : laneTakeover s = leaveRetired s ∨
    ∃ p l u, takeoverAt s = some p ∧ l < 17 ∧ (vget s.lanes l).retired = false ∧ TestsOnly (leaveRetired s) u ∧
      laneTakeover s = { u with laneOf := vset u.laneOf p (some (Fin.ofNat 17 l)) } := by
  rw [laneTakeover_eq]
  split
  · rename_i l p hl hp
    obtain ⟨hlt, hr⟩ := spareLane_works hl
    exact .inr ⟨p, l, _, hp, hlt, hr, testsOnly_abandonTests _ _, rfl⟩
  · exact .inl rfl

/-- What a takeover keeps. -/
theorem laneTakeover_frame (s : State) : (laneTakeover s).dom = s.dom ∧ (laneTakeover s).mism = [] ∧
    (laneTakeover s).records = s.records ∧ (laneTakeover s).cmds = s.cmds ∧ (laneTakeover s).clk = s.clk ∧
    (laneTakeover s).time.gtc = s.time.gtc ∧ (laneTakeover s).links = s.links := by
  rcases laneTakeover_cases s with h | ⟨p, l, u, -, -, -, hu, h⟩
  · rw [h]
    unfold leaveRetired
    exact ⟨rfl, rfl, rfl, rfl, rfl, rfl, rfl⟩
  · obtain ⟨-, hm, hr, hc, hk, hg, hl⟩ := hu.kept
    have hd := hu.dom
    rw [h]
    unfold leaveRetired at *
    exact ⟨hd, hm, hr, hc, hk, hg, hl⟩

theorem leaveRetired_works {s : State} {p : Fin 16} {l : Fin 17} (h : vget (leaveRetired s).laneOf p = some l) :
    (vget s.lanes l).retired = false := by
  rw [vget_leaveRetired s p.isLt] at h
  by_cases hv : vacant s (vget s.laneOf p) = true
  · rw [if_pos hv] at h
    cases h
  · rw [if_neg hv] at h
    rw [h] at hv
    simpa [vacant] using hv

/-- After a takeover no position has a retired lane. -/
theorem laneTakeover_works {s : State} {p : Fin 16} {l : Fin 17} (h : vget (laneTakeover s).laneOf p = some l) :
    (vget s.lanes l).retired = false := by
  rcases laneTakeover_cases s with ht | ⟨q, k, u, -, hk, hr, hu, ht⟩
  · rw [ht] at h
    exact leaveRetired_works h
  · obtain ⟨hlane, -⟩ := hu.kept
    rw [ht] at h
    dsimp only at h
    by_cases hq : q = p
    · subst hq
      rw [vget_vset_same _ _ p.isLt] at h
      have hl : l.val = k := by
        rw [← Option.some.inj h]
        exact Nat.mod_eq_of_lt hk
      rw [hl]
      exact hr
    · rw [vget_vset_ne _ _ hq, hlane] at h
      exact leaveRetired_works h

/-- Without a mismatch, and with a lane at work in every position, every lane stays. -/
theorem laneTakeover_same {s : State} (hm : s.mism = []) (h : ∀ p : Fin 16, ∃ l, vget s.laneOf p = some l ∧ (vget s.lanes l).retired = false) :
    (laneTakeover s).laneOf = s.laneOf := by
  have hv (p : Nat) (hp : p < 16) : vacant s (vget s.laneOf p) = false := by
    obtain ⟨l, hl, hr⟩ := h ⟨p, hp⟩
    rw [hl]
    exact hr
  rcases laneTakeover_cases s with ht | ⟨q, -, -, hq, -⟩
  · rw [ht]
    refine vector_ext fun p hp => ?_
    rw [vget_leaveRetired s hp, hv p hp]
    rfl
  · rw [takeoverAt_eq_none hm hv] at hq
    cases hq

/-- What a frame start brings to one domain before the hub's and the station's work. -/
def frameDom (g : Nat) (D : Domain) : Domain := hintFrame (fallbackFrame (tempFrame (tieFrame (frameCounts g D))))

/-- Temperature, band and code reach the CLE; the latched values stay. -/
theorem measured_frameDom (g : Nat) (D : Domain) : measured (frameDom g D) =
    (D.vmeas, D.imeas, D.eFrame, D.vPrev, D.iPrev, D.vHub, D.iHub, D.bandNew, clampInt (-2048) 2047 D.tempNew, D.stCode, D.downBad) := by
  have htie (D : Domain) : measured (tempFrame (tieFrame D)) =
      (D.vmeas, D.imeas, D.eFrame, D.vPrev, D.iPrev, D.vHub, D.iHub, D.bandNew, clampInt (-2048) 2047 D.tempNew, D.codeFrame, D.downBad) := by
    unfold tieFrame
    split
    · rfl
    · split <;> rfl
  have hfall (D : Domain) : measured (fallbackFrame D) = measured D := by
    unfold fallbackFrame
    split <;> rfl
  exact (hfall _).trans (htie _)

/-- The state whose records the down frames of a frame start bring. -/
def frameBegun (n : Nat) (s : State) : State :=
  if n % 8 = 0 then now (250 * n) s else waveCapture (n % 8 - 1) (now (250 * n) s)

/-- What a frame start reads of a domain. -/
def frameReads (D : Domain) : Int × BitVec 16 × Nat × Nat × Nat := (D.tempNew, D.vHub, D.iHub, D.bandNew, D.stCode)

theorem sameReads_frameBegun (n : Nat) (s : State) : SameView frameReads (now (250 * n) s) (frameBegun n s) := by
  unfold frameBegun
  generalize now (250 * n) s = v
  refine sameView_of_ite (.refl v) ?_
  unfold waveCapture
  extract_lets l i s1
  have h1 : SameView frameReads v s1 := sameView_of_eq rfl rfl
  clear_value s1
  exact h1.trans (sameView_setDoms s1 _)

/-- The lanes as a frame start leaves them: at rest while a control reset is in progress (R365). -/
def lanesBegun (s : State) : State := if s.clk.crstBusy then s else laneTakeover s

/-- The state with every domain's share of the frame start, before the work of hub and stations. -/
def frameTaken (n : Nat) (s : State) : State :=
  markLost (setDoms (lanesBegun (frameBegun n s)) (fun _ D => frameDom (frameBegun n s).time.gtc D))

/-- The work of hub and stations at a frame start changes none of the values that the slots read. -/
theorem sameFrame_execFrameStart (n : Nat) (s : State) : ∃ v, SameFrame (frameTaken n s) v ∧ exec (.frameStart n) s = .next (frameInputs v) := by
  have h (w : State) : SameFrame w (siteFrame n (pulseStart (forwardReports n (foldDoms (foldDoms (foldDoms (foldDoms w (domFrame n)) domArb)
      domCount) (stationFrame n))))) := by
    have h3 := (sameView_foldl (sameFrame_domFrame n) (List.range 80) w).trans ((sameView_foldl sameFrame_domArb (List.range 80) _).trans
      (sameView_foldl sameFrame_domCount (List.range 80) _))
    exact h3.trans ((sameView_foldl (sameFrame_stationFrame n) (List.range 80) _).trans ((sameFrame_forwardReports n _).trans
      ((sameFrame_pulseStart _).trans (sameFrame_siteFrame n _))))
  exact ⟨_, h (frameTaken n s), rfl⟩


theorem lanesBegun_frame (s : State) : (lanesBegun s).dom = s.dom ∧ (lanesBegun s).records = s.records ∧ (lanesBegun s).cmds = s.cmds ∧
    (lanesBegun s).time.gtc = s.time.gtc ∧ (lanesBegun s).links = s.links := by
  obtain ⟨hd, -, hr, hc, -, hg, hl⟩ := laneTakeover_frame s
  unfold lanesBegun
  split
  · exact ⟨rfl, rfl, rfl, rfl, rfl⟩
  · exact ⟨hd, hr, hc, hg, hl⟩

theorem hubTables_frameTaken (n : Nat) (s : State) : hubTables (frameTaken n s) = hubTables (lanesBegun (frameBegun n s)) := by
  simp only [frameTaken, markLost, hubTables, setDoms]

/-- A domain after its share of a frame start. -/
theorem domOf_frameTaken (n : Nat) (s : State) {d : Nat} (hd : d < 80) : domOf (frameTaken n s) d =
    { frameDom (frameBegun n s).time.gtc (domOf (frameBegun n s) d) with
      downBad := !downWhole (linkOf s (dieOf d)) (now (250 * n) s).time.gtc } := by
  obtain ⟨hdom, -, -, hg, hl⟩ := lanesBegun_frame (frameBegun n s)
  obtain ⟨-, -, -, -, -, -, -, -, hgtc, hlinks⟩ := hubTables_iff.mp (sameReads_frameBegun n s).2
  rw [now_links] at hlinks
  rw [frameTaken, markLost, domOf_setDoms _ _ hd, domOf_setDoms _ _ hd]
  simp only [domOf, linkOf, setDoms_links, setDoms_time, hdom, hg, hl, hgtc, hlinks]

/-- The values that the CLE and a domain's slots will read. -/
theorem frameTaken_reads (n : Nat) (s : State) (d : Dom) : let E := domOf (frameTaken n s) d
    E.band = (domOf s d).bandNew ∧ E.codeFrame = (domOf s d).stCode ∧ E.maxT = clampInt (-2048) 2047 (domOf s d).tempNew ∧
    E.vHub = (domOf s d).vHub ∧ E.iHub = (domOf s d).iHub ∧
    E.downBad = !downWhole (linkOf s (dieOf d)) (now (250 * n) s).time.gtc := by
  intro E
  have hreads := (sameReads_frameBegun n s).1 d
  have hm := measured_frameDom (frameBegun n s).time.gtc (domOf (frameBegun n s) d)
  simp only [frameReads, measured, Prod.mk.injEq] at hreads hm
  obtain ⟨ht, hv, hi, hb, hc⟩ := hreads
  obtain ⟨-, -, -, -, -, hv', hi', hb', ht', hc', -⟩ := hm
  have hE : E = _ := domOf_frameTaken n s d.isLt
  rw [hE]
  exact ⟨hb'.trans hb, hc'.trans hc, ht'.trans (by rw [ht]; rfl), hv'.trans hv, hi'.trans hi, rfl⟩

/-- The values that a latch leaves in station and hub (R16, R39, R354). -/
theorem execFrameLatch_values (n : Nat) (sense : List SenseSample) (s : State) : ∃ u, exec (.frameLatch n sense) s = .next u ∧
    hubTables u = hubTables (now (250 * n - 120) s) ∧
    ∀ d : Dom, let V := domOf (latchValues n sense (now (250 * n - 120) s)) d
      ((vget u.dom d).vmeas = V.vmeas ∧ (vget u.dom d).eFrame = V.eFrame ∧ (vget u.dom d).imeas = V.imeas) ∧
      (vget u.dom d).vPrev = (vget s.dom d).vHub ∧ (vget u.dom d).iPrev = (vget s.dom d).iHub ∧
      if s.clk.stretch = true ∧ n % 2 = 1 then (vget u.dom d).vHub = (vget s.dom d).vHub ∧ (vget u.dom d).iHub = (vget s.dom d).iHub
      else (vget u.dom d).vHub = (vget u.dom d).vmeas ∧ (vget u.dom d).iHub = (vget u.dom d).imeas := by
  obtain ⟨u, hu, htab, hm⟩ := execFrameLatch_domains n sense s
  refine ⟨u, hu, htab, fun d => ?_⟩
  intro V
  obtain ⟨hv, hi⟩ : V.vHub = (vget s.dom d).vHub ∧ V.iHub = (vget s.dom d).iHub := latchValues_hub n sense (now (250 * n - 120) s) d
  have h : measured (vget u.dom d) = measured (hubTakes (s.clk.stretch && n % 2 == 1) V) := hm d
  clear_value V
  unfold hubTakes at h
  by_cases hs : s.clk.stretch = true ∧ n % 2 = 1
  · rw [if_pos (by simpa using hs)] at h
    rw [if_pos hs]
    simp only [measured, Prod.mk.injEq] at h
    obtain ⟨h1, h2, h3, h4, h5, h6, h7, -⟩ := h
    exact ⟨⟨h1, h3, h2⟩, h4.trans hv, h5.trans hi, h6.trans hv, h7.trans hi⟩
  · rw [if_neg (by simpa using hs)] at h
    rw [if_neg hs]
    simp only [measured, Prod.mk.injEq] at h
    obtain ⟨h1, h2, h3, h4, h5, h6, h7, -⟩ := h
    exact ⟨⟨h1, h3, h2⟩, h4.trans hv, h5.trans hi, h6.trans h1.symm, h7.trans h2.symm⟩

/-- A down frame leaves a station without the hub's record where its link is down, or the frame bad or taken already. -/
theorem downWhole_eq_not_false {l : Link} {g : Nat} : (!downWhole l g) = false ↔ l.trained = true ∧ g ∉ l.badDn ∧ l.taken ≠ some g := by
  simp [downWhole, linkCarries, and_assoc]

/-- The state that a frame start leaves (R17). -/
theorem execFrameStart_values (n : Nat) (s : State) : ∃ u, exec (.frameStart n) s = .next u ∧
    (hubTables u = hubTables (lanesBegun (frameBegun n s))) ∧
    ∀ d : Dom, let E := domOf (frameTaken n s) d
      measured (vget u.dom d) = measured E ∧ (vget u.dom d).vFr = E.vHub ∧ (vget u.dom d).iFr = E.iHub := by
  obtain ⟨v, ⟨hm, htab⟩, hu⟩ := sameFrame_execFrameStart n s
  refine ⟨_, hu, ?_, fun d => ?_⟩
  · rw [← hubTables_frameTaken, ← htab]
    simp only [frameInputs, hubTables, setDoms]
  · intro E
    have hd : vget (frameInputs v).dom d = { domOf v d with vFr := (domOf v d).vHub, iFr := (domOf v d).iHub, use := slotUse v d } :=
      domOf_setDoms v _ d.isLt
    have h := hm d
    have hE := h
    simp only [measured, Prod.mk.injEq] at hE
    obtain ⟨-, -, -, -, -, hv, hi, -⟩ := hE
    rw [hd]
    exact ⟨h, hv, hi⟩

end Sys2Proof.Laws
end

section
namespace Sys2Proof.Proofs
open Sys2Proof Sys2Proof.Machine Sys2Proof.Laws
set_option Elab.async false

/-- Settles O37: what stations and hub do after the latch, and before the slots, keeps the measurements (`SameFrame`), so that the values are
those that the latch takes (`latchValues`) and the frame start brings to the CLE (`measured_frameTaken`). -/
theorem frames : Obligations.Frames := by
  unfold Obligations.Frames
  refine ⟨fun n sense s hl => ?_, fun n s => ?_⟩
  · obtain ⟨u, hu, htab, hval⟩ := execFrameLatch_values n sense s
    obtain ⟨-, -, -, hrec, hcmds, hcfg, hports, -, -, -⟩ := hubTables_iff.mp htab
    have hnot {d : Dom} (h : Single s d) : isEven (now (250 * n - 120) s) d = false := not_even_of_none h.1
    refine ⟨u, hu, fun x hx ha hs => ?_, fun d hs => ⟨fun hno => ?_, ?_⟩, fun d => (hval d).2, hcfg, hports, hcmds, hrec⟩
    · obtain ⟨⟨hv, he, -⟩, -⟩ := hval x.dom
      obtain ⟨hv1, he1, -⟩ := latchValues_single n sense x.dom.isLt (hnot hs)
      obtain ⟨hv2, he2⟩ := latchTaken_sampled hl hx (s := now (250 * n - 120) s) ha
      exact ⟨hv.trans (hv1.trans hv2), he.trans (he1.trans he2)⟩
    · obtain ⟨⟨hv, he, -⟩, -⟩ := hval d
      obtain ⟨hv1, he1, -⟩ := latchValues_single n sense d.isLt (hnot hs)
      obtain ⟨hv2, he2⟩ := latchTaken_unsampled d.isLt (fun x hx he => hno x hx (Fin.ext he)) (now (250 * n - 120) s)
      exact ⟨hv.trans (hv1.trans hv2), he.trans (he1.trans he2)⟩
    · obtain ⟨⟨-, -, hi⟩, -⟩ := hval d
      obtain ⟨-, -, hi1⟩ := latchValues_single n sense d.isLt (hnot hs)
      exact hi.trans hi1
  · obtain ⟨u, hu, htab, hval⟩ := execFrameStart_values n s
    obtain ⟨hlane, -, hmism, hrec, hcmds, -⟩ := hubTables_iff.mp htab
    obtain ⟨-, hrec1, hcmds1, -⟩ := lanesBegun_frame (frameBegun n s)
    obtain ⟨hlane0, hlanes0, hmism0, hrec0, hcmds0, -, -, hclk0, -⟩ := hubTables_iff.mp (sameReads_frameBegun n s).2
    refine ⟨u, hu, fun d => ?_, fun hrun => ?_, hrec.trans (hrec1.trans hrec0), hcmds.trans (hcmds1.trans hcmds0)⟩
    · obtain ⟨hm, hvf, hif⟩ := hval d
      obtain ⟨hb, hc, ht, hv, hi, hlost⟩ := frameTaken_reads n s d
      simp only [measured, Prod.mk.injEq] at hm
      obtain ⟨-, -, -, -, -, -, -, hb1, ht1, hc1, hd1⟩ := hm
      refine ⟨hb1.trans hb, hc1.trans hc, ht1.trans ht, hvf.trans hv, hif.trans hi, ?_⟩
      rw [hd1, hlost]
      exact downWhole_eq_not_false
    · have htake : lanesBegun (frameBegun n s) = laneTakeover (frameBegun n s) :=
        if_neg (by rw [hclk0, now_clk, hrun]; exact Bool.false_ne_true)
      obtain ⟨-, hm, -⟩ := laneTakeover_frame (frameBegun n s)
      rw [htake] at hlane hmism
      refine ⟨fun p l h => ?_, fun hnone hall => ?_, hmism.trans hm⟩
      · rw [hlane] at h
        have hr := laneTakeover_works h
        rw [hlanes0] at hr
        exact hr
      · rw [hlane, ← now_laneOf s (250 * n), ← hlane0]
        refine laneTakeover_same (hmism0.trans hnone) fun p => ?_
        rw [hlane0, hlanes0]
        exact hall p

end Sys2Proof.Proofs
end

section
/-! A slot of the control-law engine, whole: what it begins with, what its section leaves, and what its end commits (R17, R152–R157). -/

namespace Sys2Proof.Laws
open Sys2Proof Sys2Proof.Machine
set_option Elab.async false

/-! ### The beginning of a slot -/

theorem slotDom_lt (pos : Fin 16) (slot : Fin 5) : slotDom pos slot < 80 := by
  unfold slotDom
  omega

/-- The error of a frame enters the RC of its domain alone (R213). -/
theorem slotLearn_domOnly (s : State) (d n : Nat) : DomOnly s (slotLearn s d n) d := by
  unfold slotLearn
  split
  · exact DomOnly.refl s d
  · exact domOnly_setDom s d _

theorem domOf_slotLearn (s : State) {d : Nat} (hd : d < 80) (n : Nat) : ∃ r, domOf (slotLearn s d n) d = { domOf s d with rc := r } := by
  unfold slotLearn
  split
  · exact ⟨(domOf s d).rc, rfl⟩
  · exact ⟨_, domOf_setDom_same s _ hd⟩

/-- Corrected store errors of a slot are messages alone (R173). -/
theorem storeErrs_safety (d : Nat) {errs : List StoreErr} (h : errs.any errAborts = false) (s : State) :
    errs.foldl (storeErr d) s = { s with safety := (errs.foldl (storeErr d) s).safety } := by
  induction errs generalizing s with
  | nil => rfl
  | cons e errs ih =>
    rw [List.any_cons, Bool.or_eq_false_iff] at h
    obtain ⟨he, h⟩ := h
    have hs : storeErr d s e = { s with safety := (storeErr d s e).safety } := by
      cases e with
      | corrProg a => exact raise_frame ..
      | corrState a => exact raise_frame ..
      | uncProg a => cases he
      | uncState a => cases he
    rw [List.foldl_cons, ih h, hs]

/-! ### The section -/

theorem mismatchFound_slot (s : State) (cyc : Nat) : (mismatchFound s cyc).slot.mismatch = some cyc := rfl

/-- A word of a section changes the slot alone, or ends in a mismatch. -/
theorem cleWordStep_slot (f : ClEnv → LaneCtx → ClEff) {s : State} (h : (cleWordStep f s).slot.mismatch = none) :
    cleWordStep f s = { s with slot := (cleWordStep f s).slot } := by
  unfold cleWordStep at *
  extract_lets at *
  split
  · rfl
  · rename_i hgo
    rw [if_neg hgo] at h
    split
    · rename_i hm
      rw [if_pos hm, mismatchFound_slot] at h
      cases h
    · rfl

theorem runSection_of_mismatch (words : List Word) (lastCycle : Nat) (ups : List Upset) (fuel : Nat) {s : State}
    (h : s.slot.mismatch ≠ none) : runSection words lastCycle ups fuel s = s := by
  cases fuel with
  | zero => rfl
  | succ fuel =>
    unfold runSection
    exact if_pos (by simp [Option.isSome_iff_ne_none.mpr h])

/-- One step of a section: it is over, or both lanes meet a word. -/
theorem runSection_succ (words : List Word) (lastCycle : Nat) (ups : List Upset) (fuel : Nat) (s : State) :
    runSection words lastCycle ups (fuel + 1) s = s ∨ ∃ f b, runSection words lastCycle ups (fuel + 1) s =
      runSection words lastCycle ups fuel (cleWordStep f { s with slot := { s.slot with b := b } }) := by
  rw [runSection]
  extract_lets c
  split
  · exact .inl rfl
  · split
    · exact .inl rfl
    · split
      · exact .inl rfl
      · exact .inr ⟨_, _, rfl⟩

/-- A section that ends without a mismatch has changed the slot alone. -/
theorem runSection_slot (words : List Word) (lastCycle : Nat) (ups : List Upset) (fuel : Nat) {s : State}
    (h : (runSection words lastCycle ups fuel s).slot.mismatch = none) :
    runSection words lastCycle ups fuel s = { s with slot := (runSection words lastCycle ups fuel s).slot } := by
  induction fuel generalizing s with
  | zero => rfl
  | succ fuel ih =>
    rcases runSection_succ words lastCycle ups fuel s with hs | ⟨f, b, hs⟩
    · rw [hs]
    · rw [hs] at h ⊢
      have hword : (cleWordStep f { s with slot := { s.slot with b := b } }).slot.mismatch = none := by
        by_contra hm
        rw [runSection_of_mismatch words lastCycle ups fuel hm] at h
        exact hm h
      rw [ih h, cleWordStep_slot f hword]

/-- An upset that does not strike changes nothing. -/
theorem applyUpsets_of_none {ups : List Upset} {strikes : Nat → Bool} (h : ∀ y ∈ ups, strikes y.cycle = false) (l : LaneCtx) :
    applyUpsets ups strikes l = l := by
  unfold applyUpsets
  induction ups with
  | nil => rfl
  | cons y ups ih =>
    rw [List.foldl_cons, if_pos (by simp [h y List.mem_cons_self])]
    exact ih fun z hz => h z (List.mem_cons_of_mem y hz)

/-! ### The end of a slot -/

/-- What the outputs of a slot leave of every domain, and everything but the domains. -/
structure OutputsOnly (s u : State) : Prop where
  doms : OnlyDoms s u
  kept : ∀ d, (domOf u d).sw = (domOf s d).sw ∧ (domOf u d).overruns = (domOf s d).overruns ∧ (domOf u d).noLane = (domOf s d).noLane

theorem OutputsOnly.refl (s : State) : OutputsOnly s s := ⟨OnlyDoms.refl s, fun _ => ⟨rfl, rfl, rfl⟩⟩

theorem OutputsOnly.trans {s u v : State} (h : OutputsOnly s u) (k : OutputsOnly u v) : OutputsOnly s v := by
  refine ⟨h.doms.trans k.doms, fun d => ?_⟩
  obtain ⟨h1, h2, h3⟩ := h.kept d
  obtain ⟨k1, k2, k3⟩ := k.kept d
  exact ⟨k1.trans h1, k2.trans h2, k3.trans h3⟩

theorem outputsOnly_setDom {s : State} {d : Nat} {f : Domain → Domain}
    (h : ∀ D, (f D).sw = D.sw ∧ (f D).overruns = D.overruns ∧ (f D).noLane = D.noLane) : OutputsOnly s (setDom s d f) := by
  refine ⟨onlyDoms_setDom s d f, fun e => ?_⟩
  by_cases he : e < 80
  · by_cases hd : d = e
    · subst hd
      rw [domOf_setDom_same s f he]
      exact h _
    · rw [domOf_setDom_ne s f hd]
      exact ⟨rfl, rfl, rfl⟩
  · rw [domOf_ge _ (by omega), domOf_ge _ (by omega)]
    exact ⟨rfl, rfl, rfl⟩

theorem outputsOnly_foldl {α : Type} {g : State → α → State} (h : ∀ s x, OutputsOnly s (g s x)) (l : List α) (s : State) :
    OutputsOnly s (l.foldl g s) := by
  induction l generalizing s with
  | nil => exact .refl s
  | cons x l ih => exact (h s x).trans (ih _)

theorem stationCode_kept (code : Nat) (D : Domain) : (stationCode code D).sw = D.sw ∧ (stationCode code D).overruns = D.overruns ∧
    (stationCode code D).noLane = D.noLane := by
  unfold stationCode
  split <;> exact ⟨rfl, rfl, rfl⟩

theorem stationArm_kept (g : Nat) (arm : Bool) (D : Domain) : (stationArm g arm D).sw = D.sw ∧ (stationArm g arm D).overruns = D.overruns ∧
    (stationArm g arm D).noLane = D.noLane := by
  unfold stationArm
  split <;> exact ⟨rfl, rfl, rfl⟩

theorem armFrom_kept (s : State) (arm : Bool) (D : Domain) : (armFrom s arm D).sw = D.sw ∧ (armFrom s arm D).overruns = D.overruns ∧
    (armFrom s arm D).noLane = D.noLane := by
  unfold armFrom
  extract_lets D1
  split
  · exact stationArm_kept _ arm D1
  · exact ⟨rfl, rfl, rfl⟩

theorem outputsOnly_sendCode (s : State) (d raw : Nat) (clamps : Bool) : OutputsOnly s (sendCode s d raw clamps) := by
  unfold sendCode
  extract_lets c s1
  have h1 : OutputsOnly s s1 := by
    show OutputsOnly s (if c.2 then _ else _)
    split
    · exact outputsOnly_setDom fun _ => ⟨rfl, rfl, rfl⟩
    · exact .refl s
  clear_value s1
  refine h1.trans (outputsOnly_foldl (fun v x => outputsOnly_setDom fun D => ?_) _ s1)
  extract_lets D1
  split
  · exact stationCode_kept _ D1
  · split <;> exact ⟨rfl, rfl, rfl⟩

theorem outputsOnly_outputsHeld (s : State) (d : Nat) : OutputsOnly s (outputsHeld s d) := by
  unfold outputsHeld
  extract_lets s1
  have h1 : OutputsOnly s s1 := outputsOnly_setDom fun D => armFrom_kept s false D
  exact h1.trans (outputsOnly_sendCode s1 d _ _)

theorem outputsOnly_applyOutputs (s : State) (d : Nat) (o : Vector (Option Word) 4) : OutputsOnly s (applyOutputs s d o) := by
  unfold applyOutputs
  extract_lets fb arm thr flg s1
  have h1 : OutputsOnly s s1 := by
    refine outputsOnly_setDom fun D => ?_
    extract_lets D1
    have hD : D1.sw = D.sw ∧ D1.overruns = D.overruns ∧ D1.noLane = D.noLane := armFrom_kept s arm D
    split <;> exact hD
  clear_value s1
  exact h1.trans (outputsOnly_sendCode s1 d _ true)

/-- The state words after a slot that has ended: the buffered ones enter where Table 07-3 keeps them, oldest first (R154). -/
def wordsAfter (m : Mem 32) (kept : Bool) (buf : List (Nat × Word)) : Mem 32 :=
  if kept then buf.reverse.foldl (fun m y => m.write y.1 y.2) m else m

/-- A slot with both lanes alike commits: the run of overruns ends, its words enter, and outputs follow. -/
theorem slotEnd_eq {s : State} (d : Nat) (u : SlotUse) {ups : List Upset} (hab : s.slot.a = s.slot.b)
    (hups : ∀ y ∈ ups, y.cycle < s.slot.cycle) :
    slotEnd s d u ups =
      let s1 := setDom s d (fun D => { D with overruns := 0, noLane := false })
      let s2 := if u.kept then commitWords s1 d s.slot.a.buf else s1
      if u.applied then applyOutputs s2 d s.slot.a.outs else outputsHeld s2 d := by
  have hb : applyUpsets ups (fun y => decide (s.slot.cycle ≤ y ∧ y ≤ 38)) s.slot.b = s.slot.b :=
    applyUpsets_of_none (fun y hy => by have := hups y hy; simp; omega) _
  unfold slotEnd
  extract_lets c b s1 s2
  have hb' : b = s.slot.b := hb
  have hbuf : c.a.buf = b.buf := by rw [hb']; exact congrArg LaneCtx.buf hab
  have houts : c.a.outs = b.outs := by rw [hb']; exact congrArg LaneCtx.outs hab
  exact if_neg (by simp [hbuf, houts])

theorem slotEnd_commits {s : State} {d : Nat} (hd : d < 80) (u : SlotUse) {ups : List Upset} (hab : s.slot.a = s.slot.b)
    (hups : ∀ y ∈ ups, y.cycle < s.slot.cycle) : OnlyDoms s (slotEnd s d u ups) ∧ (domOf (slotEnd s d u ups) d).overruns = 0 ∧
    (domOf (slotEnd s d u ups) d).noLane = false ∧
    (domOf (slotEnd s d u ups) d).sw = wordsAfter (domOf s d).sw u.kept s.slot.a.buf := by
  rw [slotEnd_eq d u hab hups]
  extract_lets s1 s2
  have h1 : domOf s1 d = { domOf s d with overruns := 0, noLane := false } := domOf_setDom_same s _ hd
  have h2 : OnlyDoms s s2 ∧ domOf s2 d = { domOf s d with overruns := 0, noLane := false, sw := wordsAfter (domOf s d).sw u.kept s.slot.a.buf } := by
    show OnlyDoms s (if u.kept then _ else _) ∧ domOf (if u.kept then _ else _) d = _
    unfold wordsAfter
    split
    · refine ⟨(onlyDoms_setDom s d _).trans (onlyDoms_setDom s1 d _), ?_⟩
      rw [commitWords, domOf_setDom_same s1 _ hd, h1]
    · exact ⟨onlyDoms_setDom s d _, h1⟩
  clear_value s2
  obtain ⟨ho2, hd2⟩ := h2
  have h3 : OutputsOnly s2 (if u.applied then applyOutputs s2 d s.slot.a.outs else outputsHeld s2 d) := by
    split
    · exact outputsOnly_applyOutputs s2 d _
    · exact outputsOnly_outputsHeld s2 d
  obtain ⟨hw, ho, hn⟩ := h3.kept d
  rw [hd2] at hw ho hn
  exact ⟨ho2.trans h3.doms, ho, hn, hw⟩


/-! ### The program of one set-point -/

/-- A word that both lanes execute takes one cycle. -/
theorem cleWordStep_of_runs (f : ClEnv → LaneCtx → ClEff) {s : State} (h : SlotRuns s) :
    cleWordStep f s = lanesNow s (applyEff s.slot.a (f (envOf s) s.slot.a)) := by
  obtain ⟨hm, hc, hab, he, hs⟩ := h
  have hlane : laneWord f (envOf s) s.slot.a = (applyEff s.slot.a (f (envOf s) s.slot.a), some (f (envOf s) s.slot.a)) := by
    rw [laneWord, if_neg (by simp [he]), if_neg (by simp [hs])]
  unfold cleWordStep
  extract_lets c env a b ran s1
  have ha : a = (applyEff s.slot.a (f (envOf s) s.slot.a), some (f (envOf s) s.slot.a)) := hlane
  have hb : b = a := congrArg (laneWord f (envOf s)) hab.symm
  have hran : ran = true := by
    show (a.2.isSome || b.2.isSome) = true
    rw [ha]
    rfl
  have hcyc : ¬((c.mismatch.isSome || decide (37 < c.cycle)) = true) := by
    have h1 : c.mismatch = none := hm
    have h2 : c.cycle ≤ 37 := hc
    simp [h1, h2]
  rw [if_neg hcyc, if_neg (by simp [hb])]
  show { s with slot := { c with a := a.1, b := b.1, cycle := if ran then c.cycle + 1 else c.cycle } } = _
  rw [hran, hb, ha]
  rfl

/-- A section goes on with the word at its pointer. -/
theorem runSection_of_runs {words : List Word} {lastCycle : Nat} {w : Word} {f : ClEnv → LaneCtx → ClEff} {s : State} (h : SlotRuns s)
    (hc : s.slot.cycle ≤ lastCycle) (hw : words[s.slot.a.ip]? = some w) (hf : (rawCle w).bind cleEff = some f) (k : Nat) :
    runSection words lastCycle [] (k + 1) s =
      runSection words lastCycle [] k (lanesNow s (applyEff s.slot.a (f (envOf s) s.slot.a))) := by
  rw [← cleWordStep_of_runs f h]
  obtain ⟨hm, -, -, he, -⟩ := h
  rw [runSection, if_neg (by simp only [hm, he]; simpa using hc), hw]
  dsimp only
  rw [hf]
  dsimp only
  have hb : (if s.slot.b.skip = 0 then applyUpsets [] (fun x => x == s.slot.cycle) s.slot.b else s.slot.b) = s.slot.b := ite_self _
  rw [hb]

/-- The slot in progress with both lanes alike, at a cycle. -/
def lanesAt (s : State) (l : LaneCtx) (c : Nat) : State := { s with slot := { s.slot with a := l, b := l, cycle := c } }

theorem runSection_lanesAt {words : List Word} {lastCycle : Nat} {w : Word} {f : ClEnv → LaneCtx → ClEff} {s : State} {l : LaneCtx} {c : Nat}
    (hm : s.slot.mismatch = none) (hc : c ≤ 37) (hlast : c ≤ lastCycle) (he : l.ended = false) (hs : l.skip = 0)
    (hw : words[l.ip]? = some w) (hf : (rawCle w).bind cleEff = some f) (k : Nat) :
    runSection words lastCycle [] (k + 1) (lanesAt s l c) = runSection words lastCycle [] k (lanesAt s (applyEff l (f (envOf s) l)) (c + 1)) :=
  runSection_of_runs (s := lanesAt s l c) ⟨hm, hc, rfl, he, hs⟩ hlast hw hf k

theorem runSection_of_ended {words : List Word} {lastCycle : Nat} {s : State} {l : LaneCtx} {c : Nat} (he : l.ended = true) (k : Nat) :
    runSection words lastCycle [] (k + 1) (lanesAt s l c) = lanesAt s l c := by
  rw [runSection, if_pos (by simp [lanesAt, he])]

/-- The lane of "LDC g1, 0; OUT VSET, g1; END" after its first word, its second, and at its end. -/
def loadedLane (v : Word) : LaneCtx := { LaneCtx.reset with ip := 1, g := vset LaneCtx.reset.g 1 v }

def sentLane (v : Word) : LaneCtx := { loadedLane v with ip := 2, outs := vset LaneCtx.reset.outs 0 (some v) }

def setPointLane (v : Word) : LaneCtx := { sentLane v with ip := 3, ended := true }

theorem applyEff_ldc (v : Word) (e : ClEnv) (h : e.consts = [v]) : applyEff .reset (effLdc 1 0 e .reset) = loadedLane v := by
  unfold effLdc
  rw [h]
  rfl

theorem gr_loadedLane (v : Word) : gr (loadedLane v) 1 = v := vget_vset_same _ _ (by decide)

theorem applyEff_out (v : Word) (e : ClEnv) : applyEff (loadedLane v) (effOut 1 0 e (loadedLane v)) = sentLane v := by
  unfold effOut
  rw [gr_loadedLane]
  rfl

theorem applyEff_end (v : Word) (e : ClEnv) : applyEff (sentLane v) (effEnd e (sentLane v)) = setPointLane v := rfl

/-- The words of that program. -/
def setPointWords : List Word := [cleWord 0x0A 1 0 0 0, cleWord 0x11 0 1 0 0, cleWord 0x02 0 0 0 0]

/-- The program runs to its end in three cycles, with its constant at port 0 and no state word written. -/
theorem runSection_setPoint {lastCycle : Nat} {s : State} {v : Word} (hlast : 5 ≤ lastCycle) (hm : s.slot.mismatch = none)
    (hv : (envOf s).consts = [v]) (k : Nat) :
    runSection setPointWords lastCycle [] (k + 4) (lanesAt s .reset 2) = lanesAt s (setPointLane v) 5 := by
  rw [runSection_lanesAt (w := cleWord 0x0A 1 0 0 0) (f := effLdc 1 0) hm (by omega) (by omega) rfl rfl rfl rfl, applyEff_ldc v _ hv,
    runSection_lanesAt (w := cleWord 0x11 0 1 0 0) (f := effOut 1 0) hm (by omega) (by omega) rfl rfl rfl rfl, applyEff_out,
    runSection_lanesAt (w := cleWord 0x02 0 0 0 0) (f := effEnd) hm (by omega) (by omega) rfl rfl rfl rfl, applyEff_end,
    runSection_of_ended rfl]

/-- A slot of that program, whole: three cycles, and no state word. -/
theorem slotRan_setPoint {s : State} {d n pos slot : Nat} {g : Program} {v : Word} (hd : d < 80) (hbudget : 4 ≤ slotBudget s)
    (hprog : boundProg s d = some g) (hsec : g.sections = [setPointWords]) (hconst : g.consts = [v]) :
    slotRan s d n pos slot 0 g [] = lanesAt (slotBegin s d n pos slot 0 g) (setPointLane v) 5 := by
  have hwords : g.sections.getD (sectionOf g n) [] = setPointWords := by
    have h0 : sectionOf g n = 0 := by
      rw [sectionOf, hsec]
      exact Nat.mod_one _
    rw [h0, hsec]
    rfl
  have hv : (envOf (slotBegin s d n pos slot 0 g)).consts = [v] := by
    have hdom : (slotBegin s d n pos slot 0 g).slot.dom.val = d := Nat.mod_eq_of_lt hd
    have hbound : boundProg (slotBegin s d n pos slot 0 g) d = some g := hprog
    rw [envOf, hdom, constsOf, hbound]
    exact hconst
  rw [slotRan, hwords]
  exact runSection_setPoint (s := slotBegin s d n pos slot 0 g) (by omega) rfl hv 316

/-! ### The outputs of one set-point -/

/-- `vset_code` is the rounding of R181, within 0 to 1,023 (R157). -/
theorem vsetCode_eq (x : Int) : (vsetCode x : Int) = clampInt 0 1023 (rdiv ((x - 26214400) * 8) 327680) := by
  refine Int.toNat_of_nonneg ?_
  unfold clampInt
  omega

theorem vget_outs_setPointLane (v : Word) : vget (setPointLane v).outs 0 = some v ∧ vget (setPointLane v).outs 1 = none ∧
    vget (setPointLane v).outs 2 = none ∧ vget (setPointLane v).outs 3 = none :=
  ⟨vget_vset_same _ _ (by decide), vget_vset_ne _ _ (by decide), vget_vset_ne _ _ (by decide), vget_vset_ne _ _ (by decide)⟩

/-- What a slot's set-point alone does to its domain before its code is sent. -/
def outsDom (s : State) (D : Domain) : Domain :=
  { armFrom s false D with thrReq := 0, flags := D.flags ||| 0, arb := { D.arb with fastTHR := Nat.max D.arb.fastTHR 0 } }

/-- A code without floor clamp reaches the hub, and the station where the slot's record does. -/
def codeDom (s : State) (code : Nat) (D : Domain) : Domain :=
  let D1 : Domain := { D with code := code }
  if slotReaches s D then stationCode code D1
  else if s.clk.stretch then D1
  else { D1 with cells := if sendsCode D1 then D1.cells.map (takeCode D1 true) else D1.cells }

theorem sendCode_single {s : State} {d : Nat} (hj : joined s d = false) (hf : floorClampActs s d = false) (raw : Nat) (clamps : Bool) :
    sendCode s d raw clamps = setDom s d (codeDom s raw) := by
  have hclamp : (if clamps then floorClamp s d raw else (raw, false)) = (raw, false) := by
    unfold floorClamp
    rw [hf]
    exact ite_self _
  unfold sendCode
  rw [hclamp, hj]
  rfl

/-- `FLARE_ARM` of a slot changes the arm's fields alone. -/
theorem armFrom_frame (s : State) (arm : Bool) (D : Domain) : armFrom s arm D =
    { D with hubArm := arm, flareArm := if slotReaches s D && !D.stHeld then arm else D.flareArm,
             armOld := (armFrom s arm D).armOld, armAt := (armFrom s arm D).armAt } := by
  unfold armFrom
  extract_lets D1
  by_cases hr : slotReaches s D = true
  · rw [if_pos hr, stationArm]
    by_cases hh : D.stHeld = true
    · have hh1 : D1.stHeld = true := hh
      rw [if_pos hh1, if_neg (by simp [hh])]
    · have hh1 : ¬D1.stHeld = true := hh
      rw [if_neg hh1, if_pos (by simp [hr, hh])]
  · rw [if_neg hr, if_neg (by simp [hr])]

theorem outsDom_frame (s : State) (D : Domain) : outsDom s D =
    { D with hubArm := false, flareArm := if slotReaches s D && !D.stHeld then false else D.flareArm,
             armOld := (armFrom s false D).armOld, armAt := (armFrom s false D).armAt, thrReq := 0,
             flags := D.flags ||| 0, arb := { D.arb with fastTHR := Nat.max D.arb.fastTHR 0 } } := by
  rw [outsDom, armFrom_frame]

/-- What the condition of a domain's outputs reads of it. -/
def outputState (D : Domain) : PairRole × Nat × DState × Bool × Bool := (D.pair, D.pairAt, D.state, D.lanternOff, D.fallback)

theorem joined_congr {s u : State} {d : Nat} (h : OnlyDoms s u) (hd : outputState (domOf u d) = outputState (domOf s d)) :
    joined u d = joined s d := by
  simp only [outputState, Prod.mk.injEq] at hd
  obtain ⟨hp, ha, -⟩ := hd
  have ht : u.time = s.time := by rw [h]
  rw [joined, joined, isEven, isEven, hp, ha, ht]

theorem floorClampActs_congr {s u : State} {d : Nat} (h : OnlyDoms s u) (hd : outputState (domOf u d) = outputState (domOf s d)) :
    floorClampActs u d = floorClampActs s d := by
  simp only [outputState, Prod.mk.injEq] at hd
  obtain ⟨-, -, hs, hl, hf⟩ := hd
  have hm : modeOn u 4 = modeOn s 4 := by rw [h]; rfl
  have hc : cfgAt u d = cfgAt s d := by rw [h]; rfl
  rw [floorClampActs, floorClampActs, lanternActive, lanternActive, hm, hc, hs, hl, hf]

/-- The outputs of a slot that writes a set-point alone. -/
theorem applyOutputs_setPoint {s : State} {d : Nat} (hd : d < 80) {o : Vector (Option Word) 4} {v : Word} (hfall : (domOf s d).fallback = false)
    (hj : joined s d = false) (hf : floorClampActs s d = false) (h0 : vget o 0 = some v) (h1 : vget o 1 = none) (h2 : vget o 2 = none)
    (h3 : vget o 3 = none) :
    applyOutputs s d o = setDom (setDom s d (outsDom s)) d (codeDom s (vsetCode v.toInt)) := by
  have hcode : slotCode s d (vget o 0) = vsetCode v.toInt := by
    unfold slotCode
    extract_lets D
    rw [if_neg (by rw [show D.fallback = false from hfall]; exact Bool.false_ne_true), h0]
  have hstate : outputState (domOf (setDom s d (outsDom s)) d) = outputState (domOf s d) := by
    rw [domOf_setDom_same s _ hd, outsDom_frame]
    rfl
  have honly : OnlyDoms s (setDom s d (outsDom s)) := onlyDoms_setDom s d _
  unfold applyOutputs
  rw [h1, h2, h3, hcode]
  exact sendCode_single ((joined_congr honly hstate).trans hj) ((floorClampActs_congr honly hstate).trans hf) _ true

/-- A code goes to the hub, and to a station that the record reaches and that does not hold its domain; it changes no state word. -/
theorem codeDom_frame (s : State) (code : Nat) (D : Domain) : codeDom s code D =
    { D with code := code, stCode := if slotReaches s D && !D.stHeld then code else D.stCode, cells := (codeDom s code D).cells } := by
  unfold codeDom
  extract_lets D1
  by_cases hr : slotReaches s D = true
  · rw [if_pos hr, stationCode]
    by_cases hh : D.stHeld = true
    · have hh1 : D1.stHeld = true := hh
      rw [if_pos hh1, if_neg (by simp [hh])]
    · have hh1 : ¬D1.stHeld = true := hh
      rw [if_neg hh1, if_pos (by simp [hr, hh])]
  · have hn : ¬(slotReaches s D && !D.stHeld) = true := by simp [hr]
    rw [if_neg hr, if_neg hn]
    split <;> rfl

/-- The domain of a slot that writes a set-point alone. -/
theorem setPoint_dom (s : State) (code : Nat) (D : Domain) : let E := codeDom s code (outsDom s D)
    E.code = code ∧ E.hubArm = false ∧ E.thrReq = 0 ∧ E.overruns = D.overruns ∧ E.sw = D.sw ∧
    E.stCode = (if slotReaches s D && !D.stHeld then code else D.stCode) ∧
    E.flareArm = if slotReaches s D && !D.stHeld then false else D.flareArm := by
  intro E
  have hE : E = codeDom s code (outsDom s D) := rfl
  rw [codeDom_frame, outsDom_frame] at hE
  rw [hE]
  exact ⟨rfl, rfl, rfl, rfl, rfl, rfl, rfl⟩

/-- The end of a slot that writes a set-point alone changes its domain alone. -/
theorem slotEnd_setPoint {s : State} {d : Nat} (hd : d < 80) {u : SlotUse} {v : Word} (happ : u.applied = true)
    (ha : s.slot.a = setPointLane v) (hab : s.slot.a = s.slot.b) (hfall : (domOf s d).fallback = false) (hj : joined s d = false)
    (hf : floorClampActs s d = false) : DomOnly s (slotEnd s d u []) d ∧ domOf (slotEnd s d u []) d =
      codeDom s (vsetCode v.toInt) (outsDom s { domOf s d with overruns := 0, noLane := false }) := by
  rw [slotEnd_eq d u hab (by simp)]
  extract_lets s1 s2
  have hbuf : s.slot.a.buf = [] := by
    rw [ha]
    rfl
  rw [if_pos happ, ha]
  have h2 : DomOnly s s2 d ∧ domOf s2 d = { domOf s d with overruns := 0, noLane := false } := by
    show DomOnly s (if u.kept then _ else _) d ∧ domOf (if u.kept then _ else _) d = _
    obtain ⟨honly, hothers⟩ := domOnly_setDom s d (fun D => { D with overruns := 0, noLane := false })
    have h1 : domOf s1 d = { domOf s d with overruns := 0, noLane := false } := domOf_setDom_same s _ hd
    split
    · refine ⟨⟨honly.trans (onlyDoms_setDom s1 d _), fun e he => ?_⟩, ?_⟩
      · rw [commitWords, domOf_setDom_ne s1 _ he.symm, hothers e he]
      · rw [commitWords, domOf_setDom_same s1 _ hd, h1, hbuf]
        rfl
    · exact ⟨⟨honly, hothers⟩, h1⟩
  clear_value s2
  obtain ⟨⟨honly, hothers⟩, hdom⟩ := h2
  have hstate : outputState (domOf s2 d) = outputState (domOf s d) := by
    rw [hdom]
    rfl
  obtain ⟨h0, h1, h2, h3⟩ := vget_outs_setPointLane v
  rw [applyOutputs_setPoint hd (by rw [hdom]; exact hfall) ((joined_congr honly hstate).trans hj)
    ((floorClampActs_congr honly hstate).trans hf) h0 h1 h2 h3]
  refine ⟨⟨(honly.trans (onlyDoms_setDom s2 d _)).trans (onlyDoms_setDom _ d _), fun e he => ?_⟩, ?_⟩
  · rw [domOf_setDom_ne _ _ he.symm, domOf_setDom_ne _ _ he.symm, hothers e he]
  · rw [domOf_setDom_same _ _ hd, domOf_setDom_same _ _ hd, hdom]
    rw [honly]
    rfl


/-! ### The whole slot -/

/-- The state in which a slot's section has run, its domain having learned and its errors been raised. -/
def slotRanAt (n : Nat) (pos : Fin 16) (slot : Fin 5) (ups : List Upset) (errs : List StoreErr) (g : Program) (s : State) : State :=
  slotRan (errs.foldl (storeErr (slotDom pos slot)) (slotLearn (now (250 * n + 50 * slot.val) s) (slotDom pos slot) n)) (slotDom pos slot) n pos
    slot errs.length g ups

section
variable {n : Nat} {pos : Fin 16} {slot : Fin 5} {ups : List Upset} {errs : List StoreErr} {s : State} {lane : Fin 17} {g : Program}

/-- A slot whose section ends in its cycles runs to its end. -/
theorem slotRun_of_ended {v : State} {d : Nat} {u : SlotUse} (herrs : errs.any errAborts = false)
    (hm : (slotRan (errs.foldl (storeErr d) v) d n pos slot errs.length g ups).slot.mismatch = none)
    (ha : (slotRan (errs.foldl (storeErr d) v) d n pos slot errs.length g ups).slot.a.ended = true)
    (hb : (slotRan (errs.foldl (storeErr d) v) d n pos slot errs.length g ups).slot.b.ended = true) :
    slotRun v d n pos slot lane u g ups errs =
      slotEnd (slotRan (errs.foldl (storeErr d) v) d n pos slot errs.length g ups) d u ups := by
  unfold slotRun
  extract_lets sect s1 s4
  have hm4 : s4.slot.mismatch = none := hm
  have ha4 : s4.slot.a.ended = true := ha
  have hb4 : s4.slot.b.ended = true := hb
  rw [if_neg (by simp [herrs]), if_neg (by simp [hm4]), if_pos (by simp [ha4, hb4])]

/-- A change of domains leaves the bound programs. -/
theorem OnlyDoms.boundProg {v w : State} (h : OnlyDoms v w) (d : Nat) : boundProg w d = boundProg v d := by
  rw [h]
  rfl

/-- A slot on a lane at work with a usable program, whose section ends without a mismatch. -/
theorem exec_cleSlot_of_ended (hruns : (domOf s (slotDom pos slot)).use.runs = true) (hreset : s.clk.crstBusy = false) (hmism : s.mism = [])
    (hlane : vget s.laneOf pos = some lane) (hprog : boundProg s (slotDom pos slot) = some g) (huse : g.unusable = false)
    (herrs : errs.any errAborts = false) (hm : (slotRanAt n pos slot ups errs g s).slot.mismatch = none)
    (ha : (slotRanAt n pos slot ups errs g s).slot.a.ended = true) (hb : (slotRanAt n pos slot ups errs g s).slot.b.ended = true) :
    exec (.cleSlot n pos slot ups errs) s = .next
      { slotEnd (slotRanAt n pos slot ups errs g s) (slotDom pos slot) (domOf s (slotDom pos slot)).use ups with
        slot := { SlotCtx.reset with dom := Fin.ofNat 80 (slotDom pos slot) } } := by
  show execCleSlot n pos slot ups errs s = _
  unfold execCleSlot
  extract_lets s0 d u w sect r
  have hu : u = (domOf s (slotDom pos slot)).use := rfl
  have hw : w = slotLearn s0 d n := if_neg (by rw [hu, hruns, show s0.clk = s.clk from rfl, hreset]; decide)
  have honly : OnlyDoms s0 w := by
    rw [hw]
    exact (slotLearn_domOnly s0 d n).1
  have hwclk : w.clk = s.clk := by rw [honly]; rfl
  have hwmism : w.mism = s.mism := by rw [honly]; rfl
  have hwlane : vget w.laneOf pos = some lane := by rw [honly]; exact hlane
  have hwprog : boundProg w d = some g := (honly.boundProg d).trans hprog
  have hr : r = slotEnd (slotRanAt n pos slot ups errs g s) d u ups := by
    show (match vget w.laneOf pos with | none => _ | some lane => _) = _
    simp only [hwlane, hwprog, huse]
    rw [if_neg Bool.false_ne_true, hw]
    exact slotRun_of_ended herrs hm ha hb
  rw [if_neg (by rw [hu, hruns, hwclk, hreset]; decide), if_neg (by rw [hwmism, hmism]; exact Bool.false_ne_true), hr]
  rfl

/-- A section that ends without a mismatch leaves all but the slot and the inputs kept for the record. -/
theorem slotRan_frame {v : State} {d k : Nat} (hm : (slotRan v d n pos slot k g ups).slot.mismatch = none) :
    slotRan v d n pos slot k g ups =
      { v with slot := (slotRan v d n pos slot k g ups).slot, input := (slotRan v d n pos slot k g ups).input } := by
  unfold slotRan at *
  rw [runSection_slot _ _ _ _ hm]
  rfl

theorem slotRanAt_frame (hm : (slotRanAt n pos slot ups errs g s).slot.mismatch = none) (herrs : errs.any errAborts = false) :
    (slotRanAt n pos slot ups errs g s).lanes = s.lanes ∧ (slotRanAt n pos slot ups errs g s).ports = s.ports ∧
    (slotRanAt n pos slot ups errs g s).cmds = s.cmds ∧ (slotRanAt n pos slot ups errs g s).cfg = s.cfg := by
  obtain ⟨honly, -⟩ := slotLearn_domOnly (now (250 * n + 50 * slot.val) s) (slotDom pos slot) n
  unfold slotRanAt at *
  rw [slotRan_frame hm, storeErrs_safety _ herrs, honly]
  exact ⟨rfl, rfl, rfl, rfl⟩

/-- A slot of the program of one set-point when its section has ended. -/
theorem slotRanAt_setPoint {v : Word} (hbudget : 4 ≤ slotBudget s) (hprog : boundProg s (slotDom pos slot) = some g)
    (hsec : g.sections = [setPointWords]) (hconst : g.consts = [v]) : slotRanAt n pos slot [] [] g s =
      lanesAt (slotBegin (slotLearn (now (250 * n + 50 * slot.val) s) (slotDom pos slot) n) (slotDom pos slot) n pos slot 0 g)
        (setPointLane v) 5 := by
  obtain ⟨honly, -⟩ := slotLearn_domOnly (now (250 * n + 50 * slot.val) s) (slotDom pos slot) n
  have hb : slotBudget (slotLearn (now (250 * n + 50 * slot.val) s) (slotDom pos slot) n) = slotBudget s := by
    rw [honly]
    rfl
  exact slotRan_setPoint (slotDom_lt pos slot) (hb.symm ▸ hbudget) ((honly.boundProg _).trans hprog) hsec hconst

theorem lanesAt_slotBegin (v : State) (d k : Nat) (l : LaneCtx) (c : Nat) : let x := lanesAt (slotBegin v d n pos slot k g) l c
    x.dom = v.dom ∧ x.safety = v.safety ∧ x.ports = v.ports ∧ x.cmds = v.cmds ∧ x.clk = v.clk ∧
    joined x d = joined v d ∧ floorClampActs x d = floorClampActs v d := ⟨rfl, rfl, rfl, rfl, rfl, rfl, rfl⟩

/-- Learning leaves what decides on a slot's outputs. -/
theorem slotLearn_outputs (v : State) {d : Nat} (hd : d < 80) : joined (slotLearn v d n) d = joined v d ∧
    floorClampActs (slotLearn v d n) d = floorClampActs v d := by
  obtain ⟨honly, -⟩ := slotLearn_domOnly v d n
  obtain ⟨r, hr⟩ := domOf_slotLearn v hd n
  have hstate : outputState (domOf (slotLearn v d n) d) = outputState (domOf v d) := by
    rw [hr]
    rfl
  exact ⟨joined_congr honly hstate, floorClampActs_congr honly hstate⟩

/-- The state at the end of that program's section. -/
theorem slotRanAt_setPoint_frame {v : Word} (hbudget : 4 ≤ slotBudget s) (hprog : boundProg s (slotDom pos slot) = some g)
    (hsec : g.sections = [setPointWords]) (hconst : g.consts = [v]) : let x := slotRanAt n pos slot [] [] g s
    let d := slotDom pos slot
    (x.slot.mismatch = none ∧ x.slot.a = setPointLane v ∧ x.slot.b = setPointLane v) ∧
    (∃ r, domOf x d = { domOf s d with rc := r }) ∧ (∀ e, e ≠ d → domOf x e = domOf s e) ∧
    joined x d = joined (now (250 * n + 50 * slot.val) s) d ∧ floorClampActs x d = floorClampActs s d ∧
    x.safety = s.safety ∧ x.ports = s.ports ∧ x.cmds = s.cmds ∧ x.clk = s.clk := by
  intro x d
  have hx : x = _ := slotRanAt_setPoint hbudget hprog hsec hconst
  have hd : d < 80 := slotDom_lt pos slot
  obtain ⟨honly, hothers⟩ := slotLearn_domOnly (now (250 * n + 50 * slot.val) s) d n
  obtain ⟨hj, hf⟩ := slotLearn_outputs (n := n) (now (250 * n + 50 * slot.val) s) hd
  obtain ⟨hdom, hsafe, hports, hcmds, hclk, hjx, hfx⟩ := lanesAt_slotBegin (n := n) (pos := pos) (slot := slot) (g := g)
    (slotLearn (now (250 * n + 50 * slot.val) s) d n) d 0 (setPointLane v) 5
  rw [← hx] at hdom hsafe hports hcmds hclk hjx hfx
  refine ⟨by rw [hx]; exact ⟨rfl, rfl, rfl⟩, ?_, fun e he => ?_, hjx.trans hj, hfx.trans hf, ?_, ?_, ?_, ?_⟩
  · rw [domOf, hdom]
    exact domOf_slotLearn (now (250 * n + 50 * slot.val) s) hd n
  · rw [domOf, hdom]
    exact hothers e he
  · rw [hsafe, honly]
    rfl
  · rw [hports, honly]
    rfl
  · rw [hcmds, honly]
    rfl
  · rw [hclk, honly]
    rfl

end

end Sys2Proof.Laws
end

section
namespace Sys2Proof.Proofs
open Sys2Proof Sys2Proof.Machine Sys2Proof.Laws
set_option Elab.async false

/-- Settles O33: the section changes the slot alone (`runSection_slot`), and the end of a slot whose lanes agree is a change of its domain
(`slotEnd_commits`); the program of one set-point runs in three cycles (`runSection_setPoint`), and its end puts the code in force
(`slotEnd_setPoint`). -/
theorem slotSetsCode : Obligations.SlotSetsCode := by
  unfold Obligations.SlotSetsCode
  refine ⟨fun n pos slot ups errs s lane g => ?_, fun n pos slot s lane g v => ?_⟩
  · intro d s1 x hruns hreset hmism hlane hprog huse herrs hm ha hab hups
    have hx : x = slotRanAt n pos slot ups errs g s := rfl
    clear_value x
    subst hx
    obtain ⟨honly, hover, hno, hsw⟩ := slotEnd_commits (slotDom_lt pos slot) (domOf s d).use hab hups
    obtain ⟨hlanes, hports, hcmds, hcfg⟩ := slotRanAt_frame hm herrs
    refine ⟨_, exec_cleSlot_of_ended hruns hreset hmism hlane hprog huse herrs hm ha (hab ▸ ha), hover, hno, hsw, ?_⟩
    rw [honly]
    exact ⟨rfl, hlanes, hports, hcmds, hcfg⟩
  · intro d D code arrives hj hruns happ hfall hf hreset hmism hbudget hlane hprog huse hsec hconst
    have hd : d < 80 := slotDom_lt pos slot
    obtain ⟨⟨hm, ha, hb⟩, ⟨r, hr⟩, hothers, hjx, hfx, hsafe, hports, hcmds, hclk⟩ :=
      slotRanAt_setPoint_frame (n := n) (pos := pos) (slot := slot) hbudget hprog hsec hconst
    obtain ⟨⟨honly, hends⟩, hdom⟩ := slotEnd_setPoint hd happ ha (ha.trans hb.symm) (by rw [hr]; exact hfall) (hjx.trans hj) (hfx.trans hf)
    have hexec := exec_cleSlot_of_ended hruns hreset hmism hlane hprog huse rfl hm (by rw [ha]; rfl) (by rw [hb]; rfl)
    generalize slotRanAt n pos slot [] [] g s = x at *
    generalize slotEnd x d D.use [] = w at *
    obtain ⟨hcode, harm, hthr, hover, hsw, hst, hflare⟩ := setPoint_dom x (vsetCode v.toInt)
      { domOf x d with overruns := 0, noLane := false }
    have hreach : slotReaches x
        { domOf x d with overruns := 0, noLane := false } = (!D.downBad && !s.clk.stretch) := by
      rw [slotReaches, hclk, hr]
    rw [← hdom] at hcode harm hthr hover hsw hst hflare
    rw [hreach, hr] at hst hflare
    rw [hr] at hsw
    have hcodeInt : ((vsetCode v.toInt : Nat) : Int) = code := vsetCode_eq v.toInt
    refine ⟨_, hexec, (congrArg Int.ofNat hcode).trans hcodeInt, harm, fun harr => ?_, fun hno => ?_, hover, hsw, hthr, fun e he => ?_, ?_⟩
    · obtain ⟨hbad, hstretch, hheld⟩ := harr
      have hgo : ((!D.downBad && !s.clk.stretch) && !D.stHeld) = true := by rw [hbad, hstretch, hheld]; rfl
      rw [if_pos hgo] at hst hflare
      exact ⟨(congrArg Int.ofNat hst).trans hcodeInt, hflare⟩
    · have hstay : ¬((!D.downBad && !s.clk.stretch) && !D.stHeld) = true := by
        simpa [arrives, and_assoc] using hno
      rw [if_neg hstay] at hst hflare
      exact ⟨hst, hflare⟩
    · exact (hends e he).trans (hothers e he)
    · rw [honly]
      exact ⟨hsafe, hports, hcmds⟩

end Sys2Proof.Proofs
end

section
/-! The energies that go on during a control reset (R365, Table 15-5), where a domain is marked as the odd member of no pair. -/

namespace Sys2Proof.Laws
open Sys2Proof Sys2Proof.Machine
set_option Elab.async false

/-- The cell energy of an odd member enters the domain below it (R239). -/
theorem energy_addEnergy_odd {s : State} {m : EpochMeas} {d : Nat} (hd : d < 80) (hm : m.dom.val = d + 1) (ha : isAbsent s m.dom = false)
    (ho : isOdd s m.dom = true) : (domOf (addEnergy [m] s) d).energy = (domOf s d).energy + m.energy := by
  have hl : leader s m.dom = d := by
    rw [leader, if_pos ho, hm]
    rfl
  rw [addEnergy, List.foldl_cons, List.foldl_nil, if_neg (by simp [ha]), hl, domOf_setDom_same s _ hd]

/-- What an epoch without a record leaves of a domain's energy. -/
theorem energy_busyEpoch (meas : List EpochMeas) (s : State) {d : Nat} (hd : d < 80) :
    (domOf (busyEpoch meas s) d).energy = (domOf (addEnergy meas (clearInput s)) d).energy := by
  rw [busyEpoch, domOf_setDoms _ _ hd]
  rfl

/-- During a control reset a shutter makes no record. -/
theorem exec_shutter_of_reset {k : Nat} {meas : List EpochMeas} {s : State} (hs : s.time.started = true) (hp : s.clk.pwrCur ≠ 2)
    (hc : s.clk.crstBusy = true) : exec (.shutter k meas) s =
      .next (busyEpoch meas { now (2000 * k) s with time := { (now (2000 * k) s).time with fired := true, epoch := epochOf (2000 * k) } }) := by
  have h : ¬((!(now (2000 * k) s).time.started || (now (2000 * k) s).clk.pwrCur == 2) = true) := by simpa [hs] using hp
  exact (if_neg h).trans (if_pos hc)

/-- A control path in reset, its shutters started, whose D01 is marked as an odd member while D00 belongs to no pair. -/
def oddAlone : State :=
  setDom { State.reset with time := { State.reset.time with started := true }, clk := { State.reset.clk with crstBusy := true, pwrCur := 0 } } 1
    (fun D => { D with pair := .odd })

/-- 5 nJ measured at D01. -/
def oddEnergy : EpochMeas := { dom := 1, samples := [], imean := 0, energy := 5 }

theorem oddAlone_dom0 : domOf oddAlone 0 = .reset := by
  rw [oddAlone, domOf_setDom_ne _ _ (by decide)]
  rfl

theorem oddAlone_dom1 : domOf oddAlone 1 = { Domain.reset with pair := .odd } := by
  rw [oddAlone, domOf_setDom_same _ _ (by decide)]
  rfl

end Sys2Proof.Laws
end

section
namespace Sys2Proof.Proofs
open Sys2Proof Sys2Proof.Machine Sys2Proof.Laws
set_option Elab.async false

/-- Refutes O57: in a state whose D01 is marked as an odd member while D00 belongs to no pair, the epoch of a control reset adds D01's energy to
D00, whose own measurements are none. `Single` asks of D00 only that the domain below it is no even member, not that the one above it is no
odd one. -/
theorem not_shutterCommits : ¬ Obligations.ShutterCommits := by
  unfold Obligations.ShutterCommits
  intro h
  obtain ⟨-, hbusy, -⟩ := h 1 [oddEnergy] oddAlone
  obtain ⟨u, hu, henergy, -⟩ := hbusy rfl (by decide) rfl
  have hsingle : Single oddAlone 0 := ⟨by rw [oddAlone_dom0]; rfl, fun e he => by omega⟩
  have hsum : (domOf u 0).energy = (domOf oddAlone 0).energy + 0 :=
    henergy 0 hsingle (by rw [Fin.val_zero, isAbsent, oddAlone_dom0]; rfl)
  rw [exec_shutter_of_reset rfl (by decide) rfl] at hu
  have hodd : isOdd oddAlone 1 = true := by
    rw [isOdd, oddAlone_dom1]
    rfl
  have hpresent : isAbsent oddAlone 1 = false := by
    rw [isAbsent, oddAlone_dom1]
    rfl
  cases hu
  rw [energy_busyEpoch _ _ (by decide), energy_addEnergy_odd (by decide) rfl hpresent hodd] at hsum
  exact absurd hsum (by decide)

end Sys2Proof.Proofs
end

section
/-! PMBus and AVSBus: the parts of the bus that one row changes, and where a transaction waits (R52 to R56, R129 to R131, R376, R421, R422). -/

namespace Sys2Proof.Laws
open Sys2Proof Sys2Proof.Machine
set_option Elab.async false

/-! ### Converters -/

theorem convOf_setConv_same (s : State) {i : Nat} (f : Conv5 → Conv5) (h : i < 5) : convOf (setConv s i f) i = f (convOf s i) :=
  vget_vupd_same s.bus.conv f h

@[simp] theorem convOf_setConv_fin (s : State) (i : Fin 5) (f : Conv5 → Conv5) : convOf (setConv s i f) i = f (convOf s i) :=
  convOf_setConv_same s f i.isLt

theorem convOf_setConv_ne (s : State) {i k : Nat} (f : Conv5 → Conv5) (h : i ≠ k) : convOf (setConv s i f) k = convOf s k :=
  vget_vupd_ne s.bus.conv f h

/-- Two changes of a converter are the same when they agree on its present value. -/
theorem setConv_congr {s : State} {i : Nat} {f g : Conv5 → Conv5} (h : f (convOf s i) = g (convOf s i)) : setConv s i f = setConv s i g := by
  rw [setConv, setConv, vupd_congr s.bus.conv i h]

/-! ### The queue -/

/-- While a transaction is on the bus or waits to be repeated none other starts. -/
theorem busStart_busy {s : State} (h : s.bus.cur ≠ none ∨ s.bus.waitRetry = true) : busStart s = s := by
  have hb : (s.bus.cur.isSome || s.bus.waitRetry || !(vget s.clk.run 0) || s.clk.pwrCur == 2) = true := by
    rcases h with h | h
    · simp [Option.isSome_iff_ne_none.mpr h]
    · simp [h]
  exact if_pos hb

/-- An empty queue starts nothing. -/
theorem busStart_empty {s : State} (h : s.bus.queue = []) : busStart s = s := by
  unfold busStart
  split
  · rfl
  · simp only [h, List.filter_nil]
    rw [← h]

/-- What starts leaves all but the transaction on the bus and the queue. -/
theorem busStart_queue (s : State) :
    busStart s = { s with bus := { s.bus with cur := (busStart s).bus.cur, queue := (busStart s).bus.queue } } := by
  unfold busStart
  split
  · rfl
  · split <;> rfl

theorem convOf_busStart (s : State) (i : Nat) : convOf (busStart s) i = convOf s i := by rw [busStart_queue, convOf, convOf]

/-- A free bus takes the first transaction of the queue that may still be sent. -/
theorem busStart_free {s : State} (hcur : s.bus.cur = none) (hwait : s.bus.waitRetry = false) (hrun : vget s.clk.run 0 = true)
    (hpwr : s.clk.pwrCur ≠ 2) {x : BusTxn} {rest : List BusTxn} (hq : s.bus.queue.filter (txnLive s) = x :: rest) :
    busStart s = { s with bus := { s.bus with cur := some { x with data := txnData s x }, queue := rest } } := by
  have hb : ¬(s.bus.cur.isSome || s.bus.waitRetry || !(vget s.clk.run 0) || s.clk.pwrCur == 2) = true := by
    simpa [hcur, hwait, hrun] using hpwr
  unfold busStart
  rw [if_neg hb, hq]

@[simp] theorem txn_conv (op : BusOp) (i : Fin 5) : (txn op i).conv = i := Fin.ext (Nat.mod_eq_of_lt i.isLt)

/-- On a busy bus a trim waits ahead of every poll (R54). -/
theorem busTrim_busy {s : State} (h : s.bus.cur ≠ none ∨ s.bus.waitRetry = true) (x : BusTxn) : busTrim s x = { s with bus := { s.bus with
    queue := s.bus.queue.takeWhile (fun y => !isPoll y) ++ x :: s.bus.queue.dropWhile (fun y => !isPoll y) } } :=
  busStart_busy h

/-- A fault message leaves the buses as they are. -/
theorem raise_bus (s : State) (cls kind unit inst detail : Nat) : (raise s cls kind unit inst detail).bus = s.bus := by rw [raise_frame]

theorem isOff_iff (x : BusTxn) : isOff x = true ↔ x.op = .offNow := by simp [isOff]

/-- A queue without an `OPERATION` 0x00 lets work put ahead go first. -/
theorem aheadOf_of_no_off {l q : List BusTxn} (h : ∀ y ∈ q, y.op ≠ .offNow) : aheadOf l q = l ++ q := by
  have hoff : ∀ y ∈ q, isOff y = false := fun y hy => by simpa [isOff] using h y hy
  have h1 : q.filter isOff = [] := List.filter_eq_nil_iff.mpr fun y hy => by simp [hoff y hy]
  have h2 : q.filter (fun y => !isOff y) = q := List.filter_eq_self.mpr fun y hy => by simp [hoff y hy]
  rw [aheadOf, h1, h2, List.nil_append]

/-! ### Bus registers (R421, R422) -/

theorem exec_pmbCfgWrite {val : Word} {t : Nat} {s : State} (h : setupOpen s = true) (hv : val.toNat % 4 ≠ 3) :
    exec (.pmbCfgWrite val t) s = .next { ackWrite (now t s) with bus := { s.bus with
      convEn := val.extractLsb' 12 5, speed := val.extractLsb' 0 2,
      conv := vmapIdx s.bus.conv (fun i c => if (val.extractLsb' 12 5).getLsbD i then c else { c with verified := false }) } } := by
  have ho : (!setupOpen (ackWrite (now t s))) = false := by rw [show setupOpen (ackWrite (now t s)) = setupOpen s from rfl, h]; rfl
  have hf : fld val 1 0 ≠ 3 := by simpa [fld] using hv
  show execPmbCfgWrite val t s = _
  simp only [execPmbCfgWrite, ho, Bool.false_eq_true, if_false, if_neg hf, ackWrite_bus, now_bus]

/-- A setup write is heard over either register path alike before and after its acknowledgement. -/
theorem setupOpen_ackWrite {s : State} (h : setupOpen s = true) (t : Nat) : setupOpen (ackWrite (now t s)) = true := h

/-- The test for another fitted converter at an address. -/
theorem any_addr_iff (s : State) (i : Fin 5) (a : Nat) :
    (List.range 5).any (fun k => k != i.val && s.bus.convEn.getLsbD k && (convOf s k).addr.toNat == a) = true ↔
      ∃ k : Fin 5, k ≠ i ∧ s.bus.convEn.getLsbD k = true ∧ (convOf s k).addr.toNat = a := by
  simp only [List.any_eq_true, List.mem_range, Bool.and_eq_true, bne_iff_ne, beq_iff_eq, and_assoc]
  constructor
  · rintro ⟨k, hk, hne, h⟩
    exact ⟨⟨k, hk⟩, Fin.ne_of_val_ne hne, h⟩
  · rintro ⟨k, hne, h⟩
    exact ⟨k, k.isLt, Fin.val_ne_of_ne hne, h⟩

/-- A write of a converter's address, by whether the address is reserved or taken (R422). -/
theorem exec_pmbAddrWrite (i : Fin 5) (val : Word) (t : Nat) {s : State} (h : setupOpen s = true) : exec (.pmbAddrWrite i val t) s = .next
    (if val.toNat % 128 < 8 ∨ val.toNat % 128 = 0x0C ∨ 0x78 ≤ val.toNat % 128 ∨
        ∃ k : Fin 5, k ≠ i ∧ s.bus.convEn.getLsbD k = true ∧ (convOf s k).addr.toNat = val.toNat % 128 then
      { ackWrite (now t s) with bus := { s.bus with cfgRej := true } }
    else setConv (ackWrite (now t s)) i (fun c => { c with addr := val.setWidth 7 })) := by
  have hfld : fld val 6 0 = val.toNat % 128 := by simp [fld]
  have haddr : BitVec.ofNat 7 (val.toNat % 128) = val.setWidth 7 := BitVec.eq_of_toNat_eq (by simp)
  have ho : (!setupOpen (ackWrite (now t s))) = false := by rw [setupOpen_ackWrite h]; rfl
  show execPmbAddrWrite i val t s = _
  simp only [execPmbAddrWrite, ho, Bool.false_eq_true, if_false, hfld, haddr, any_addr_iff, apply_ite Host.Outcome.next]
  rfl

/-! ### AVSBus responses (R56) -/

/-- The response is that of the lowest rail that waits for one. -/
theorem find_avsOut {s : State} {i : Fin 5} (hlow : ∀ k : Fin 5, k < i → (convOf s k).avsOut = false) (hout : (convOf s i).avsOut = true) :
    (List.range 5).find? (fun k => (convOf s k).avsOut) = some i.val := by
  rw [List.find?_range_eq_some]
  exact ⟨hout, List.mem_range.mpr i.isLt, fun k hk => by simpa using hlow ⟨k, hk.trans i.isLt⟩ hk⟩

section
variable {s : State} {i : Fin 5} (hlow : ∀ k : Fin 5, k < i → (convOf s k).avsOut = false) (hout : (convOf s i).avsOut = true)
include hlow hout

theorem exec_avsResponse_good {mv : Nat} (hwant : (convOf s i).want = some mv) (t : Nat) :
    exec (.avsResponse true t) s =
      .next (setConv (now t s) i (fun c => { c with cmdMv := mv, want := none, avsOut := false, avsRetry := false })) := by
  have hfind : (List.range 5).find? (fun k => (convOf (now t s) k).avsOut) = some i.val := find_avsOut hlow hout
  have hw : (convOf (now t s) i).want = some mv := hwant
  show execAvsResponse true t s = _
  simp only [execAvsResponse, hfind, if_true]
  refine congrArg Host.Outcome.next (setConv_congr ?_)
  simp only [hw, Option.getD_some]

theorem exec_avsResponse_retry (hretry : (convOf s i).avsRetry = false) (t : Nat) :
    exec (.avsResponse false t) s = .next (setConv (now t s) i (fun c => { c with avsRetry := true })) := by
  have hfind : (List.range 5).find? (fun k => (convOf (now t s) k).avsOut) = some i.val := find_avsOut hlow hout
  have hr : (convOf (now t s) i).avsRetry = false := hretry
  show execAvsResponse false t s = _
  simp [execAvsResponse, hfind, hr]

/-- A second bad response sends the trim over PMBus, behind the transaction on the bus. -/
theorem exec_avsResponse_bad {mv : Nat} (hwant : (convOf s i).want = some mv) (hretry : (convOf s i).avsRetry = true)
    (hroom : s.safety.queue.length ≤ 768) (hcur : s.bus.cur ≠ none) (t : Nat) :
    let v := setConv (now t s) i (fun c => { c with avsOut := false, avsRetry := false })
    let q := s.bus.queue
    exec (.avsResponse false t) s = .next { v with
      bus := { v.bus with queue := q.takeWhile (fun y => !isPoll y) ++ txn (.trim mv) i :: q.dropWhile (fun y => !isPoll y) }
      safety := { s.safety with queue := s.safety.queue ++
        [{ bits := faultWord 0 0x61 0xC (0x10 + i) 0 (epochIn (now t s)), from_ := none, ext := 0 }] } } := by
  intro v q
  have hfind : (List.range 5).find? (fun k => (convOf (now t s) k).avsOut) = some i.val := find_avsOut hlow hout
  have hr : (convOf (now t s) i).avsRetry = true := hretry
  have hw : (convOf (now t s) i).want = some mv := hwant
  show execAvsResponse false t s = _
  simp only [execAvsResponse, hfind, hr, hw, Bool.not_true, Bool.false_eq_true, if_false, Option.getD_some]
  have hb : (raise v 0 0x61 0xC (0x10 + i) 0).bus = v.bus := raise_bus ..
  have hbusy := busTrim_busy (s := raise v 0 0x61 0xC (0x10 + i) 0) (Or.inl (by rw [hb]; exact hcur)) (txn (.trim mv) i)
  rw [hb, raise_eq v 0 0x61 0xC (0x10 + i) 0 (fun _ => hroom)] at hbusy
  exact congrArg Host.Outcome.next ((congrArg (busTrim · _) (raise_eq v 0 0x61 0xC (0x10 + i) 0 (fun _ => hroom))).trans hbusy)

end

end Sys2Proof.Laws
end

section
/-! The statement about bus registers and AVSBus responses. -/

namespace Sys2Proof.Proofs
open Sys2Proof Sys2Proof.Machine Sys2Proof.Laws
set_option Elab.async false

/-- Settles O23: what each register write stores, and what a response brings the lowest rail that waits for one. -/
theorem busRegistersAndAvs : Obligations.BusRegistersAndAvs := by
  unfold Obligations.BusRegistersAndAvs
  intro val t s i hopen
  refine ⟨fun hspeed => ?_, ⟨fun hfree => ?_, fun htaken => ?_⟩, fun hlow hout mv hwant => ⟨exec_avsResponse_good hlow hout hwant t,
    fun hretry => exec_avsResponse_retry hlow hout hretry t, fun hretry hroom hcur => ?_⟩⟩
  · refine ⟨_, exec_pmbCfgWrite hopen hspeed, rfl, rfl, fun k => ?_, rfl⟩
    rw [convOf, vget_vmapIdx _ _ k.isLt, BitVec.getLsbD_extractLsb']
    cases val.getLsbD (12 + k.val) <;> simp [k.isLt, convOf]
  · rw [exec_pmbAddrWrite i val t hopen, if_neg hfree]
  · rw [exec_pmbAddrWrite i val t hopen, if_pos htaken]
  · refine ⟨_, exec_avsResponse_bad hlow hout hwant hretry hroom hcur t, ⟨txn (.trim mv) i, by simp, rfl, txn_conv _ i⟩, ?_, rfl, rfl⟩
    exact congrArg Conv5.avsOut (convOf_setConv_fin (now t s) i (fun c => { c with avsOut := false, avsRetry := false }))

end Sys2Proof.Proofs
end

section
/-! The rows of the PMBus queue: what each brings and which transaction starts (R53 to R55, R129 to R131, R376, R421). -/

namespace Sys2Proof.Laws
open Sys2Proof Sys2Proof.Machine
set_option Elab.async false

/-- The PMB_ERR of a converter, raised in an epoch (R54). -/
def pmbErrMsg (s : State) (i : Fin 5) : FaultMsg := { bits := faultWord 0 0x61 0xC i 0 (epochIn s), from_ := none, ext := 0 }

/-- The PMB_ERR of a transaction that addresses a converter. -/
theorem pmbErr_eq {s : State} {x : BusTxn} (hx : x.op ≠ .ara) (h : s.safety.queue.length ≤ 768) :
    pmbErr s x = { s with safety := { s.safety with queue := s.safety.queue ++ [pmbErrMsg s x.conv] } } := by
  rw [pmbErr, if_neg hx, raise_eq _ _ _ _ _ _ (fun _ => h)]
  rfl

theorem pmbErr_bus (s : State) (x : BusTxn) : (pmbErr s x).bus = s.bus := by
  unfold pmbErr
  split <;> exact raise_bus ..

theorem pmbErr_clk (s : State) (x : BusTxn) : (pmbErr s x).clk = s.clk := by
  by_cases h : x.op = .ara <;> unfold pmbErr
  · rw [if_pos h, raise_frame]
    rfl
  · rw [if_neg h, raise_frame]

/-- A present converter whose exponent is known gets every transaction. -/
theorem txnLive_of_present {s : State} {x : BusTxn} (hp : convPresent s x.conv = true) (he : (convOf s x.conv).expo ≠ 0 ∨ needsExpo x.op = false) :
    txnLive s x = true := by
  have he' : (needsExpo x.op && (vget s.bus.conv x.conv).expo == 0) = false := by
    rcases he with he | he
    · rw [show ((vget s.bus.conv x.conv).expo == 0) = false from beq_eq_false_iff_ne.mpr he, Bool.and_false]
    · rw [he, Bool.false_and]
  rw [txnLive, hp, he']
  simp

theorem aheadOf_eq (l q : List BusTxn) :
    aheadOf l q = q.filter (fun y => decide (y.op = .offNow)) ++ l ++ q.filter (fun y => decide (y.op ≠ .offNow)) := by
  have hoff : ∀ y, isOff y = decide (y.op = .offNow) := fun y => rfl
  simp only [aheadOf, hoff, decide_not]
  rfl

/-! ### Results of transactions -/

/-- The bus once its transaction has ended. -/
def freed (s : State) : State := { s with bus := { s.bus with cur := none } }

section
variable {s : State} {x : BusTxn} (hcur : s.bus.cur = some x) (hwait : s.bus.waitRetry = false) (t : Nat)
include hcur hwait

theorem exec_pmbusDone_ok (w : BitVec 16) : exec (.pmbusTransactionDone (.ok w) t) s =
    .next (busStart (txnGood (freed (now t s)) x w)) := by
  show execPmbusTransactionDone (.ok w) t s = _
  simp only [execPmbusTransactionDone, freed, now_bus, hcur, hwait, Bool.false_eq_true, if_false]

/-- The first failure keeps the transaction for its one repetition. -/
theorem exec_pmbusDone_first (h : x.retried = false) : exec (.pmbusTransactionDone .bad t) s =
    .next { now t s with bus := { s.bus with cur := some { x with retried := true }, waitRetry := true } } := by
  show execPmbusTransactionDone .bad t s = _
  simp only [execPmbusTransactionDone, now_bus, hcur, hwait, h, Bool.false_eq_true, if_false, Bool.not_false, if_true]

/-- The second failure of what is no trim. -/
theorem exec_pmbusDone_again (h : x.retried = true) (hx : ∀ mv, x.op ≠ .trim mv) : exec (.pmbusTransactionDone .bad t) s =
    .next (busStart (pmbErr (freed (now t s)) x)) := by
  show execPmbusTransactionDone .bad t s = _
  simp only [execPmbusTransactionDone, freed, now_bus, hcur, hwait, h, Bool.false_eq_true, if_false, Bool.not_true]

/-- A trim is never dropped. -/
theorem exec_pmbusDone_trim {mv : Nat} (h : x.retried = true) (hx : x.op = .trim mv) : exec (.pmbusTransactionDone .bad t) s =
    .next (busTrim (pmbErr (freed (now t s)) x) { x with retried := false }) := by
  show execPmbusTransactionDone .bad t s = _
  simp only [execPmbusTransactionDone, freed, now_bus, hcur, hwait, h, Bool.false_eq_true, if_false, Bool.not_true, hx]

end

/-- Whether a good `READ_VOUT` of a converter is judged (R129, R421). -/
def voutJudged (s : State) (i : Nat) : Prop := convPresent s i = true ∧ (convOf s i).expo ≠ 0 ∧ (convOf s i).cmdMv ≠ 0

theorem voutRead_skips {s : State} {i : Nat} (h : ¬voutJudged s i) (w : Nat) : voutRead s i w = s := by
  have hs : (!convPresent s i || (convOf s i).expo == 0 || (convOf s i).cmdMv == 0) = true := by
    rw [← Bool.not_eq_false]
    simpa [voutJudged, and_assoc] using h
  exact if_pos hs

/-- A rail whose third `READ_VOUT` in a row missed: unverified, and its `STATUS_WORD` ahead in the queue (R131). -/
def missedThrice (s : State) (i w : Nat) : State :=
  let s1 := setConv s i (fun c => { c with verified := false, badPolls := 3, voutMv := voutMvOf (convOf s i) w, mismPend := true })
  { s1 with bus := { s1.bus with queue := aheadOf [txn .statusWord i] s1.bus.queue } }

theorem voutRead_judges {s : State} {i : Nat} (h : voutJudged s i) (w : Nat) : voutRead s i w =
    if voutNear (convOf s i) w then
      setConv s i (fun c => { c with verified := true, badPolls := 0, voutMv := voutMvOf (convOf s i) w })
    else if (convOf s i).badPolls + 1 = 3 then missedThrice s i w
    else setConv s i (fun c => { c with badPolls := c.badPolls + 1, voutMv := voutMvOf (convOf s i) w }) := by
  obtain ⟨hp, he, hc⟩ := h
  have hs : (!convPresent s i || (convOf s i).expo == 0 || (convOf s i).cmdMv == 0) = false := by simp [hp, he, hc]
  exact if_neg (by rw [hs]; decide)

theorem voutNear_iff (c : Conv5) (w : Nat) : voutNear c w = true ↔
    ((w * 1000 : Int) - c.cmdMv * (2 ^ c.expo.natAbs : Nat)).natAbs ≤ 30 * 2 ^ c.expo.natAbs := by
  simp only [voutNear, decide_eq_true_eq]
  push_cast
  rfl

section
variable {s : State} {x : BusTxn} (hcur : s.bus.cur = some x) (hwait : s.bus.waitRetry = false) (hq : s.bus.queue = []) (t : Nat)
include hcur hwait hq

/-- A `READ_VOUT` near the last command verifies its rail (R129). -/
theorem pmbusDone_near {w : BitVec 16} (hx : x.op = .poll .vout) (hj : voutJudged s x.conv) (hn : voutNear (convOf s x.conv) w.toNat = true) :
    Answers (.pmbusTransactionDone (.ok w) t) s (fun u => (convOf u x.conv).verified = true ∧ (convOf u x.conv).badPolls = 0 ∧
      (∀ k : Fin 5, k ≠ x.conv → convOf u k = convOf s k) ∧
      u = { now t s with bus := { s.bus with cur := none, conv := u.bus.conv } }) := by
  refine ⟨_, exec_pmbusDone_ok hcur hwait t w, ?_⟩
  generalize hv : freed (now t s) = v
  have hjv : voutJudged v x.conv := by rw [← hv]; exact hj
  have hnv : voutNear (convOf v x.conv) w.toNat = true := by rw [← hv]; exact hn
  have hread : txnGood v x w = setConv v x.conv (fun c => { c with verified := true, badPolls := 0, voutMv := voutMvOf (convOf v x.conv) w.toNat }) := by
    rw [txnGood, hx]
    exact (voutRead_judges hjv _).trans (if_pos hnv)
  have hqv : (txnGood v x w).bus.queue = [] := by
    rw [hread, ← hv]
    exact hq
  rw [busStart_empty hqv, hread, convOf_setConv_fin]
  refine ⟨rfl, rfl, fun k hk => ?_, ?_⟩
  · rw [convOf_setConv_ne _ _ (Fin.val_ne_of_ne hk.symm), ← hv]
    rfl
  · rw [← hv]
    rfl

/-- The third `READ_VOUT` in a row too far off unverifies its rail, and `STATUS_WORD` is read (R131). -/
theorem pmbusDone_far {w : BitVec 16} (hx : x.op = .poll .vout) (hj : voutJudged s x.conv) (hn : voutNear (convOf s x.conv) w.toNat = false)
    (hbad : (convOf s x.conv).badPolls = 2) :
    Answers (.pmbusTransactionDone (.ok w) t) s (fun u => (convOf u x.conv).verified = false ∧
      (∀ k : Fin 5, k ≠ x.conv → convOf u k = convOf s k) ∧
      (vget s.clk.run 0 = true → s.clk.pwrCur ≠ 2 → ∃ y, u.bus.cur = some y ∧ y.op = .statusWord ∧ y.conv = x.conv) ∧
      u = { now t s with bus := { s.bus with cur := u.bus.cur, queue := u.bus.queue, conv := u.bus.conv } }) := by
  refine ⟨_, exec_pmbusDone_ok hcur hwait t w, ?_⟩
  generalize hv : freed (now t s) = v
  have hjv : voutJudged v x.conv := by rw [← hv]; exact hj
  have hnv : ¬voutNear (convOf v x.conv) w.toNat = true := by rw [← hv]; exact fun h => Bool.false_ne_true (hn.symm.trans h)
  have hbv : (convOf v x.conv).badPolls + 1 = 3 := by rw [← hv]; exact congrArg (· + 1) hbad
  have hread : txnGood v x w = missedThrice v x.conv w.toNat := by
    rw [txnGood, hx]
    exact (voutRead_judges hjv _).trans ((if_neg hnv).trans (if_pos hbv))
  have hqv : (missedThrice v x.conv w.toNat).bus.queue = [txn .statusWord x.conv] := by
    have h0 : v.bus.queue = [] := by rw [← hv]; exact hq
    rw [missedThrice, setConv_bus, h0]
    rfl
  have hconv (k : Fin 5) : convOf (busStart (missedThrice v x.conv w.toNat)) k = convOf (setConv v x.conv (fun c =>
      { c with verified := false, badPolls := 3, voutMv := voutMvOf (convOf v x.conv) w.toNat, mismPend := true })) k := by
    rw [convOf_busStart]
    rfl
  rw [hread]
  refine ⟨?_, fun k hk => ?_, fun hrun hpwr => ?_, ?_⟩
  · rw [hconv, convOf_setConv_fin]
  · rw [hconv, convOf_setConv_ne _ _ (Fin.val_ne_of_ne hk.symm), ← hv]
    rfl
  · have hp : convPresent (missedThrice v x.conv w.toNat) x.conv = true := by
      have hc := convOf_setConv_fin v x.conv
        (fun c => { c with verified := false, badPolls := 3, voutMv := voutMvOf (convOf v x.conv) w.toNat, mismPend := true })
      exact (congrArg (fun c : Conv5 => v.bus.convEn.getLsbD x.conv && !c.absent) hc).trans hjv.1
    have hlive : txnLive (missedThrice v x.conv w.toNat) (txn .statusWord x.conv) = true :=
      txnLive_of_present (by rw [txn_conv]; exact hp) (Or.inr rfl)
    have hfree : (missedThrice v x.conv w.toNat).bus.queue.filter (txnLive (missedThrice v x.conv w.toNat)) = [txn .statusWord x.conv] := by
      rw [hqv, List.filter_cons, if_pos hlive, List.filter_nil]
    rw [busStart_free (by rw [← hv]; rfl) (by rw [← hv]; exact hwait) (by rw [← hv]; exact hrun) (by rw [← hv]; exact hpwr) hfree]
    exact ⟨_, rfl, rfl, txn_conv _ x.conv⟩
  · rw [busStart_queue, ← hv]
    rfl

theorem pmbusDone_unjudged {w : BitVec 16} (hx : x.op = .poll .vout) (hj : ¬voutJudged s x.conv) :
    exec (.pmbusTransactionDone (.ok w) t) s = .next { now t s with bus := { s.bus with cur := none } } := by
  have hread : txnGood (freed (now t s)) x w = freed (now t s) := by
    rw [txnGood, hx]
    exact voutRead_skips (s := freed (now t s)) hj _
  rw [exec_pmbusDone_ok hcur hwait, hread]
  exact congrArg Host.Outcome.next (busStart_empty hq)

theorem pmbusDone_dropped (hr : x.retried = true) (ha : x.op ≠ .ara) (hx : ∀ mv, x.op ≠ .trim mv) (hroom : s.safety.queue.length ≤ 768) :
    exec (.pmbusTransactionDone .bad t) s = .next { now t s with
      bus := { s.bus with cur := none },
      safety := { s.safety with queue := s.safety.queue ++ [pmbErrMsg (now t s) x.conv] } } := by
  have hqe : (pmbErr (freed (now t s)) x).bus.queue = [] := by rw [pmbErr_bus]; exact hq
  rw [exec_pmbusDone_again hcur hwait t hr hx, busStart_empty hqe]
  exact congrArg Host.Outcome.next (pmbErr_eq ha hroom)

/-- A trim that has failed twice starts again, as new (R54). -/
theorem pmbusDone_trim {mv : Nat} (hr : x.retried = true) (hx : x.op = .trim mv) (hroom : s.safety.queue.length ≤ 768)
    (hp : convPresent s x.conv = true) (he : (convOf s x.conv).expo ≠ 0) (hrun : vget s.clk.run 0 = true) (hpwr : s.clk.pwrCur ≠ 2) :
    Answers (.pmbusTransactionDone .bad t) s (fun u => (∃ y, u.bus.cur = some y ∧ y.op = .trim mv ∧ y.conv = x.conv ∧ y.retried = false) ∧
      u = { now t s with
        bus := { s.bus with cur := u.bus.cur },
        safety := { s.safety with queue := s.safety.queue ++ [pmbErrMsg (now t s) x.conv] } }) := by
  refine ⟨_, exec_pmbusDone_trim hcur hwait t hr hx, ?_⟩
  have ha : x.op ≠ .ara := by simp [hx]
  generalize hv : pmbErr (freed (now t s)) x = v
  have herr : v = _ := hv.symm.trans (pmbErr_eq (s := freed (now t s)) ha hroom)
  clear hv
  have hbus : v.bus = { s.bus with cur := none } := by rw [herr]; rfl
  have hclk : v.clk = s.clk := by rw [herr]; rfl
  generalize hu : ({ v with bus := { v.bus with queue := [{ x with retried := false }] } } : State) = u
  have hstart : busTrim v { x with retried := false } = busStart u := by
    rw [← hu, busTrim, hbus, hq]
    rfl
  have hlive : txnLive u { x with retried := false } = true := by
    rw [← hu, hbus]
    exact txnLive_of_present hp (Or.inl he)
  have hfree : u.bus.queue.filter (txnLive u) = [{ x with retried := false }] := by
    have huq : u.bus.queue = [{ x with retried := false }] := by rw [← hu]
    rw [huq, List.filter_cons, if_pos hlive, List.filter_nil]
  have hub : u.bus = { s.bus with cur := none, queue := [{ x with retried := false }] } := by rw [← hu, hbus]
  have huc : u.clk = s.clk := by rw [← hu, hclk]
  rw [hstart, busStart_free (by rw [hub]) (by rw [hub]; exact hwait) (by rw [huc]; exact hrun) (by rw [huc]; exact hpwr) hfree]
  refine ⟨⟨_, rfl, hx, rfl, rfl⟩, ?_⟩
  rw [hub, ← hu, herr, ← hq]
  rfl

end

/-! ### Retries, stretches, polls and alerts -/

/-- A repetition goes on unless its converter has become absent meanwhile (R54, R421). -/
theorem pmbusRetry_goes {s : State} {x : BusTxn} (hcur : s.bus.cur = some x)
    (hx : x.op = .ara ∨ (convPresent s x.conv = true ∧ (convOf s x.conv).expo ≠ 0)) (t : Nat) :
    exec (.pmbusRetry t) s = .next { now t s with bus := { s.bus with waitRetry := false } } := by
  have hlive : txnLive (now t s) x = true := by
    rcases hx with ha | ⟨hp, he⟩
    · simp [txnLive, ha]
    · exact txnLive_of_present (s := now t s) hp (Or.inl he)
  have hkeep : (now t s).bus.cur.filter (fun y => !(now t s).bus.waitRetry || txnLive (now t s) y) = s.bus.cur := by
    rw [now_bus, hcur, Option.filter_some, hlive, Bool.or_true, if_pos rfl]
  show execPmbusRetry t s = _
  simp only [execPmbusRetry, hkeep]
  exact congrArg Host.Outcome.next (busStart_busy (Or.inl (by rw [hcur]; exact Option.some_ne_none x)))

theorem pmbusRetry_dropped {s : State} {x : BusTxn} (hcur : s.bus.cur = some x) (ha : x.op ≠ .ara) (hp : convPresent s x.conv = false)
    (hwait : s.bus.waitRetry = true) (hq : s.bus.queue = []) (t : Nat) :
    exec (.pmbusRetry t) s = .next { now t s with bus := { s.bus with waitRetry := false, cur := none } } := by
  have hlive : txnLive (now t s) x = false := by
    have hp' : convPresent (now t s) x.conv = false := hp
    simp [txnLive, ha, hp']
  have hdrop : (now t s).bus.cur.filter (fun y => !(now t s).bus.waitRetry || txnLive (now t s) y) = none := by
    rw [now_bus, hcur, Option.filter_some, hlive, hwait, if_neg (by decide)]
  show execPmbusRetry t s = _
  simp only [execPmbusRetry, hdrop]
  exact congrArg Host.Outcome.next (busStart_empty hq)

section
variable {s : State} {x : BusTxn} (hcur : s.bus.cur = some x) (ha : x.op ≠ .ara) (hpoll : ∀ k, x.op ≠ .poll k) (t : Nat)
include hcur hpoll

/-- What a stretch beyond 25 ms leaves of the bus: given up, the transaction ahead of all but the safe state's work. -/
def stretched25 (s : State) (x : BusTxn) : State :=
  { s with bus := { s.bus with cur := none, waitRetry := false, queue := aheadOf [{ x with retried := false }] s.bus.queue } }

theorem exec_pmbusStretch : exec (.pmbusStretchTimeout t) s = .next
    (if s.bus.queue.any isOff then busStart (pmbErr (stretched25 (now t s) x) x) else pmbErr (stretched25 (now t s) x) x) := by
  have hp : isPoll x = false := by
    unfold isPoll
    split
    · rename_i k hk
      exact absurd hk (hpoll k)
    · rfl
  show execPmbusStretchTimeout t s = _
  simp only [execPmbusStretchTimeout, now_bus, hcur, hp, Bool.false_eq_true, if_false]
  rfl

/-- An `OPERATION` 0x00 that waits starts at once (R376). -/
theorem pmbusStretch_off (hrun : vget s.clk.run 0 = true) (hpwr : s.clk.pwrCur ≠ 2)
    (hoff : ∃ y ∈ s.bus.queue, y.op = .offNow ∧ convPresent s y.conv = true) :
    Answers (.pmbusStretchTimeout t) s (fun u => ∃ z, u.bus.cur = some z ∧ z.op = .offNow) := by
  obtain ⟨y, hy, hop, hpres⟩ := hoff
  have hany : s.bus.queue.any isOff = true := List.any_eq_true.mpr ⟨y, hy, (isOff_iff y).mpr hop⟩
  refine ⟨_, exec_pmbusStretch hcur hpoll t, ?_⟩
  rw [if_pos hany]
  generalize hv : pmbErr (stretched25 (now t s) x) x = v
  have hbus : v.bus = (stretched25 (now t s) x).bus := by rw [← hv, pmbErr_bus]
  have hclk : v.clk = s.clk := by rw [← hv, pmbErr_clk]; rfl
  have hlive : txnLive v y = true := by
    refine txnLive_of_present ?_ (Or.inr (by rw [hop]; rfl))
    rw [convPresent, hbus]
    exact hpres
  have hmem : y ∈ (s.bus.queue.filter isOff).filter (txnLive v) :=
    List.mem_filter.mpr ⟨List.mem_filter.mpr ⟨hy, (isOff_iff y).mpr hop⟩, hlive⟩
  obtain ⟨z, rest, hz⟩ := List.exists_cons_of_ne_nil (List.ne_nil_of_mem hmem)
  have hzoff : z.op = .offNow := by
    have hzm : z ∈ (s.bus.queue.filter isOff).filter (txnLive v) := hz ▸ List.mem_cons_self
    exact (isOff_iff z).mp (List.mem_filter.mp (List.mem_filter.mp hzm).1).2
  have hfree : ∃ l, v.bus.queue.filter (txnLive v) = z :: l := by
    rw [hbus]
    show ∃ l, (aheadOf _ s.bus.queue).filter _ = _
    rw [aheadOf, List.filter_append, List.filter_append, hz]
    exact ⟨_, rfl⟩
  obtain ⟨l, hl⟩ := hfree
  rw [busStart_free (by rw [hbus]; rfl) (by rw [hbus]; rfl) (by rw [hclk]; exact hrun) (by rw [hclk]; exact hpwr) hl]
  exact ⟨_, rfl, hzoff⟩

include ha in
theorem pmbusStretch_keeps (hno : ∀ y ∈ s.bus.queue, y.op ≠ .offNow) (hroom : s.safety.queue.length ≤ 768) :
    exec (.pmbusStretchTimeout t) s = .next { now t s with
      bus := { s.bus with cur := none, waitRetry := false, queue := { x with retried := false } :: s.bus.queue },
      safety := { s.safety with queue := s.safety.queue ++ [pmbErrMsg (now t s) x.conv] } } := by
  have hany : ¬s.bus.queue.any isOff = true := by
    rw [List.any_eq_true]
    rintro ⟨y, hy, hoff⟩
    exact hno y hy ((isOff_iff y).mp hoff)
  have herr := pmbErr_eq (s := stretched25 (now t s) x) ha hroom
  rw [exec_pmbusStretch hcur hpoll, if_neg hany, herr, stretched25, now_bus, aheadOf_of_no_off hno]
  rfl

end

/-- A poll of a present converter starts on a free bus (R53). -/
theorem exec_pmbusPoll_free {s : State} {i : Fin 5} (hcur : s.bus.cur = none) (hwait : s.bus.waitRetry = false) (hq : s.bus.queue = [])
    (hp : convPresent s i = true) (hrun : vget s.clk.run 0 = true) (hpwr : s.clk.pwrCur ≠ 2) (kind : PollKind) (t : Nat) :
    exec (.pmbusPoll kind i t) s =
      .next { now t s with bus := { s.bus with cur := some { op := .poll kind, conv := i, retried := false, data := 0 } } } := by
  generalize hv : ({ now t s with bus := { s.bus with queue := s.bus.queue ++ [txn (.poll kind) i] } } : State) = v
  have hlive : txnLive v (txn (.poll kind) i) = true :=
    txnLive_of_present (by rw [← hv, txn_conv]; exact hp) (Or.inr rfl)
  have hfree : v.bus.queue.filter (txnLive v) = [txn (.poll kind) i] := by
    have hvq : v.bus.queue = [txn (.poll kind) i] := by rw [← hv, hq, List.nil_append]
    rw [hvq, List.filter_cons, if_pos hlive, List.filter_nil]
  have hstart := busStart_free (by rw [← hv]; exact hcur) (by rw [← hv]; exact hwait) (by rw [← hv]; exact hrun) (by rw [← hv]; exact hpwr) hfree
  have hexec : exec (.pmbusPoll kind i t) s = .next (busStart v) := by
    rw [← hv]
    rfl
  have htxn : ({ txn (.poll kind) i with data := txnData v (txn (.poll kind) i) } : BusTxn) =
      { op := .poll kind, conv := i, retried := false, data := 0 } := by
    rw [show txnData v (txn (.poll kind) i) = 0 from rfl]
    exact congrArg (fun c => ({ op := .poll kind, conv := c, retried := false, data := 0 } : BusTxn)) (txn_conv (.poll kind) i)
  rw [hexec, hstart, htxn, ← hv, ← hq]

/-- An alert puts the Alert Response read ahead of all but the safe state's work (R55, R376). -/
theorem exec_stage1Alert_busy {s : State} (hcur : s.bus.cur ≠ none) (ha : s.bus.alert = false) (hp : s.safety.porHigh = true) (t : Nat) :
    exec (.stage1Alert t) s = .next { now t s with bus := { s.bus with alert := true, queue := aheadOf [txn .ara 0] s.bus.queue } } := by
  show execStage1Alert t s = _
  simp only [execStage1Alert, now_bus, now_safety, ha, hp, Bool.not_true, Bool.or_self, Bool.false_eq_true, if_false]
  exact congrArg Host.Outcome.next (busStart_busy (Or.inl hcur))

theorem exec_stage1Alert_por {s : State} (hp : s.safety.porHigh = false) (t : Nat) : exec (.stage1Alert t) s = .next (now t s) := by
  show execStage1Alert t s = _
  simp only [execStage1Alert, now_safety, hp, Bool.not_false, Bool.or_true, if_true]

end Sys2Proof.Laws
end

section
/-! The statement about PMBus. -/

namespace Sys2Proof.Proofs
open Sys2Proof Sys2Proof.Machine Sys2Proof.Laws
set_option Elab.async false

/-- Settles O22: a result is judged, repeated or given up, and the bus takes the first transaction that may be sent. -/
theorem pmbus : Obligations.Pmbus := by
  unfold Obligations.Pmbus
  refine ⟨fun t s x w hcur hwait hq => ⟨fun hx => ?_, fun hr => exec_pmbusDone_first hcur hwait t hr,
    fun hr ha hx hroom => pmbusDone_dropped hcur hwait hq t hr ha hx hroom,
    fun mv hr hx hp he hrun hpwr hroom => pmbusDone_trim hcur hwait hq t hr hx hroom hp he hrun hpwr⟩, fun t s i kind hrun hpwr =>
    ⟨fun x hcur hx => pmbusRetry_goes hcur hx t, fun x hcur ha hp hwait hq => pmbusRetry_dropped hcur ha hp hwait hq t,
    fun x hcur _ hpoll hoff => pmbusStretch_off hcur hpoll t hrun hpwr hoff,
    fun x hcur ha hpoll hno hroom => pmbusStretch_keeps hcur ha hpoll t hno hroom,
    fun hcur hwait hq hp => exec_pmbusPoll_free hcur hwait hq hp hrun hpwr kind t, fun x hcur ha hp => ?_,
    fun hp => exec_stage1Alert_por hp t, rfl⟩⟩
  · intro c e judged near
    have hnear : voutNear (convOf s x.conv) w.toNat = true ↔ near := voutNear_iff c w.toNat
    refine ⟨fun hj hn => pmbusDone_near hcur hwait hq t hx hj (hnear.mpr hn), fun hj hn hbad => ?_,
      fun hj => pmbusDone_unjudged hcur hwait hq t hx hj⟩
    exact pmbusDone_far hcur hwait hq t hx hj (Bool.eq_false_iff.mpr (mt hnear.mp hn)) hbad
  · rw [exec_stage1Alert_busy (by rw [hcur]; exact Option.some_ne_none x) ha hp, aheadOf_eq, List.append_assoc]
    rfl

end Sys2Proof.Proofs
end

section
/-! What each part of the machine holds after a power-on reset (R35, R46). -/

namespace Sys2Proof.Laws
open Sys2Proof Sys2Proof.Machine
set_option Elab.async false

theorem vget_replicate {α : Type} [Inhabited α] {n : Nat} (a : α) {i : Nat} (h : i < n) : vget (Vector.replicate n a) i = a := by
  rw [vget_lt _ h, Vector.getElem_replicate]

theorem vget_ofFn {α : Type} [Inhabited α] {n : Nat} (f : Fin n → α) (i : Fin n) : vget (Vector.ofFn f) i = f i := by
  rw [vget_lt _ i.isLt, Vector.getElem_ofFn]

/-- Every domain has the same reset values. -/
theorem domOf_reset (d : Fin 80) : vget State.reset.dom d = .reset := vget_replicate _ d.isLt

theorem portOf_reset (p : Fin 8) : portOf State.reset p = .reset (p.val == 0) := vget_ofFn _ p

theorem ringOf_reset (b : Bool) (r : Fin 4) : ringOf (.reset b) r = .reset := vget_replicate _ r.isLt

/-- Every cell has weight 8 (R95). -/
theorem weight_reset (k : Fin 14) : (vget Domain.reset.cells k).weight = 8 :=
  congrArg Cell.weight (vget_replicate _ k.isLt)

end Sys2Proof.Laws
end

section
/-! The statement about reset. -/

namespace Sys2Proof.Proofs
open Sys2Proof Sys2Proof.Machine Sys2Proof.Laws
set_option Elab.async false

/-- Settles O2: every domain, port and ring of the reset state is its own reset value, and the rest of the state is read off. -/
theorem resetValues : Obligations.ResetValues := by
  unfold Obligations.ResetValues
  refine ⟨fun d => ?_, rfl, rfl, rfl, rfl, rfl, rfl, rfl, rfl, fun i => vget_replicate _ i.isLt, ?_, fun p hp => ?_, fun p r => ?_,
    rfl, rfl, rfl, rfl⟩
  · rw [domOf_reset d]
    exact ⟨rfl, rfl, rfl, rfl, rfl, rfl, weight_reset⟩
  · exact congrArg Port.en (portOf_reset 0)
  · have h0 : (p.val == 0) = false := beq_eq_false_iff_ne.mpr fun h => hp (Fin.ext h)
    rw [portOf_reset, h0]
    exact ⟨rfl, rfl⟩
  · rw [portOf_reset, ringOf_reset]
    exact ⟨rfl, rfl⟩

end Sys2Proof.Proofs
end

section
/-! The meter's own changes: what staleness, ratios and plausibility leave of a scan and of the rest of the machine (R240, R282 to R284). -/

namespace Sys2Proof.Laws
open Sys2Proof Sys2Proof.Machine
set_option Elab.async false

/-! ### The energy accounts of the domains -/

/-- A domain but for its accounts of input energy. -/
def ctxless (D : Domain) : Domain :=
  { D with tile := { D.tile with ctxInUj := default, ctxInPj := default, ctxWin := default } }

theorem contextsOnly_iff {s u : State} : ContextsOnly s u ↔ ∀ e : Dom, ctxless (vget u.dom e) = ctxless (vget s.dom e) := by
  refine forall_congr' fun e => ⟨fun h => ?_, fun h => ?_⟩
  · rw [h]
    rfl
  · have hx (D E : Domain) (h : ctxless D = ctxless E) : D = { E with tile := { E.tile with
        ctxInUj := D.tile.ctxInUj, ctxInPj := D.tile.ctxInPj, ctxWin := D.tile.ctxWin } } :=
      congrArg (fun F : Domain => { F with tile := { F.tile with
        ctxInUj := D.tile.ctxInUj, ctxInPj := D.tile.ctxInPj, ctxWin := D.tile.ctxWin } }) h
    exact hx _ _ h

theorem contextsOnly_of_dom {s u : State} (h : u.dom = s.dom) : ContextsOnly s u := contextsOnly_iff.mpr fun e => by rw [h]

theorem contextsOnly_trans {s u v : State} (h : ContextsOnly s u) (k : ContextsOnly u v) : ContextsOnly s v :=
  contextsOnly_iff.mpr fun e => (contextsOnly_iff.mp k e).trans (contextsOnly_iff.mp h e)

/-! ### Steps of the meter -/

/-- A step that concerns the meter alone, the domains' energy accounts, the collector's queue and the input guard, and keeps a view of the
meter. -/
structure MeterStep {β : Type} (p : Meter → β) (s u : State) : Prop where
  frame : u = { s with meter := u.meter, dom := u.dom, safety := { s.safety with queue := u.safety.queue, nDrop := u.safety.nDrop },
                       arb := { s.arb with incorr := u.arb.incorr } }
  doms : ContextsOnly s u
  queue : s.safety.queue <+: u.safety.queue
  view : p u.meter = p s.meter

/-- A meter but for its energies, ratio and plausibility. -/
def scanPart (m : Meter) : Meter :=
  { m with stale := false, sharedIn := 0, sharedInPj := 0, sharedWin := 0, plaus := 0, kRun := 0, k := 0, eWait := none }

section
variable {β γ : Type} {p : Meter → β} {s u v : State}

theorem MeterStep.refl (s : State) : MeterStep p s s := ⟨rfl, contextsOnly_of_dom rfl, List.prefix_rfl, rfl⟩

theorem MeterStep.trans (h : MeterStep p s u) (k : MeterStep p u v) : MeterStep p s v := by
  obtain ⟨hf, hd, hq, hv⟩ := h
  obtain ⟨kf, kd, kq, kv⟩ := k
  refine ⟨?_, contextsOnly_trans hd kd, hq.trans kq, kv.trans hv⟩
  rw [kf, hf]

/-- What a view keeps, a coarser one keeps. -/
theorem MeterStep.map (h : MeterStep p s u) (f : β → γ) : MeterStep (fun m => f (p m)) s u :=
  ⟨h.frame, h.doms, h.queue, congrArg f h.view⟩

theorem meterStep_of_ite {c : Prop} [Decidable c] (h : MeterStep p s u) (k : MeterStep p s v) : MeterStep p s (if c then u else v) := by
  split
  · exact h
  · exact k

theorem meterStep_setMeter (s : State) (f : Meter → Meter) (h : p (f s.meter) = p s.meter := by rfl) : MeterStep p s (setMeter s f) :=
  ⟨rfl, contextsOnly_of_dom rfl, List.prefix_rfl, h⟩

theorem meterStep_raise (s : State) (cls kind unit inst detail : Nat) : MeterStep p s (raise s cls kind unit inst detail) := by
  unfold raise enqueueFault
  split
  · exact ⟨rfl, contextsOnly_of_dom rfl, List.prefix_rfl, rfl⟩
  · exact ⟨rfl, contextsOnly_of_dom rfl, List.prefix_append .., rfl⟩

theorem meterStep_incorrUpdate (s : State) (n : Nat) : MeterStep p s (incorrUpdate s n) :=
  ⟨rfl, contextsOnly_of_dom rfl, List.prefix_rfl, rfl⟩

end

theorem ctxless_flushWindow (s : State) (e : Dom) : ctxless (vget (flushWindow s).dom e) = ctxless (vget s.dom e) := by
  unfold flushWindow
  extract_lets k one s1 m e'
  have hone (T : Tile) (x : Nat) (D : Domain) : ctxless { D with tile := one T x } = ctxless { D with tile := T } := rfl
  have hfold (l : List Nat) (D : Domain) : ctxless { D with tile := l.foldl one D.tile } = ctxless D := by
    refine foldl_inv (I := fun T => ctxless { D with tile := T } = ctxless D) (fun T x h => ?_) l rfl
    exact (hone T x D).trans h
  show ctxless (vget s1.dom e) = _
  rw [show s1.dom = vmapIdx s.dom _ from setDoms_dom s _, vget_vmapIdx _ _ e.isLt]
  exact hfold _ _

theorem meterStep_flushWindow (s : State) : MeterStep scanPart s (flushWindow s) := by
  refine ⟨?_, contextsOnly_iff.mpr (ctxless_flushWindow s), ?_, ?_⟩
  · simp only [flushWindow, setDoms]
    rfl
  · simp only [flushWindow, setMeter_safety, setDoms_safety]
    exact List.prefix_rfl
  · simp only [flushWindow, setMeter_meter, setDoms_meter]
    rfl

theorem meterStep_staleUpdate (s : State) : MeterStep scanPart s (staleUpdate s) := by
  unfold staleUpdate
  extract_lets n s1
  have h1 : MeterStep scanPart s s1 := meterStep_of_ite (meterStep_flushWindow s) (.refl s)
  clear_value s1
  exact h1.trans (meterStep_setMeter s1 _)

theorem meterStep_plausCond (s : State) (cond inst code : Nat) (bad : Bool) : MeterStep scanPart s (plausCond s cond inst code bad) := by
  unfold plausCond
  extract_lets was s1
  have h1 : MeterStep scanPart s s1 := meterStep_setMeter s _
  clear_value s1
  exact meterStep_of_ite (h1.trans (meterStep_raise s1 ..)) h1

theorem meterStep_plausRatio (s : State) (ein ecells n : Nat) : MeterStep scanPart s (plausRatio s ein ecells n) := by
  unfold plausRatio
  extract_lets e bad s1
  have h1 : MeterStep scanPart s s1 := meterStep_setMeter s _
  clear_value s1
  exact h1.trans (meterStep_plausCond s1 ..)

theorem meterStep_windowTo (s : State) (t ein n : Nat) : MeterStep scanPart s (windowTo s t ein n) := by
  unfold windowTo windowRatio
  extract_lets ec
  refine meterStep_of_ite ?_ (meterStep_setMeter s _)
  exact (meterStep_of_ite (.refl s) ((meterStep_setMeter s _).trans (meterStep_flushWindow _))).trans (meterStep_plausRatio ..)

theorem meterStep_plausChannel (s : State) (ch : Nat) (c : Int) : MeterStep scanPart s (plausChannel s ch c) := by
  unfold plausChannel
  extract_lets code
  refine meterStep_of_ite (meterStep_plausCond ..) (meterStep_of_ite (meterStep_plausCond ..) (meterStep_of_ite ?_ (.refl s)))
  split
  · exact meterStep_plausCond ..
  · exact .refl s

/-- A pair of results sets the input power, and else what no scan reads. -/
theorem meterStep_pairResult (s : State) (c0 c1 : Int) (t : Nat) :
    MeterStep scanPart (setMeter s (fun m => { m with pIn := pIn c0 c1, c1 := c1 })) (pairResult s c0 c1 t) := by
  unfold pairResult
  extract_lets n p s1
  exact (meterStep_of_ite (.refl s1) (meterStep_incorrUpdate s1 p)).trans (meterStep_windowTo ..)

theorem flushWindow_frame (s : State) : flushWindow s = { s with meter := (flushWindow s).meter, dom := (flushWindow s).dom } := by
  simp only [flushWindow, setDoms]
  rfl

/-- The flag's update touches the meter and the energy accounts alone. -/
theorem staleUpdate_frame (s : State) : staleUpdate s = { s with meter := (staleUpdate s).meter, dom := (staleUpdate s).dom } := by
  have hset (v : State) (f : Meter → Meter) (hv : v = { s with meter := v.meter, dom := v.dom }) :
      setMeter v f = { s with meter := (setMeter v f).meter, dom := (setMeter v f).dom } := by
    rw [hv]
    rfl
  unfold staleUpdate
  extract_lets n s1
  refine hset s1 _ ?_
  dsimp only [s1]
  split
  · exact flushWindow_frame s
  · rfl

end Sys2Proof.Laws
end

section
/-! The meter's scan (R61, R277 to R279, R283). -/

namespace Sys2Proof.Laws
open Sys2Proof Sys2Proof.Machine
set_option Elab.async false

/-! ### Channels -/

theorem nextChannel_eq_some {m : Meter} {c n : Nat} (hn : n < 16) (hc : c ≤ n) (hm : m.mask.getLsbD n = true)
    (hmin : ∀ j < n, c ≤ j → m.mask.getLsbD j = false) : nextChannel m c = some n := by
  rw [nextChannel, List.find?_range_eq_some]
  refine ⟨by simp [hc, hm], List.mem_range.mpr hn, fun j hj => ?_⟩
  by_cases hcj : c ≤ j
  · simp [hmin j hj hcj]
  · simp [hcj]

theorem nextChannel_eq_none {m : Meter} {c : Nat} (h : ∀ n, c ≤ n → n < 16 → m.mask.getLsbD n = false) : nextChannel m c = none := by
  rw [nextChannel, List.find?_eq_none]
  intro n hn
  by_cases hc : c ≤ n
  · simp [h n hc (List.mem_range.mp hn)]
  · simp [hc]

/-- A scan starts at the lowest masked channel. -/
theorem startScan_lowest {m : Meter} {c : Fin 16} (hm : m.mask.getLsbD c = true) (hmin : ∀ j < c.val, m.mask.getLsbD j = false) :
    startScan m = { toChannel c m with go := true, c0 := none } := by
  rw [startScan, nextChannel_eq_some c.isLt (Nat.zero_le _) hm fun j hj _ => hmin j hj]

theorem toNat_ofNat_channel (c : Fin 16) : (BitVec.ofNat 4 c.val).toNat = c.val := by
  rw [BitVec.toNat_ofNat]
  exact Nat.mod_eq_of_lt c.isLt

/-! ### A write of `MTR_CTRL` (R277, Table 12-12) -/

/-- The settings that a write brings; another mains selection loses the sync. -/
def settled (val : Word) (m : Meter) : Meter :=
  let m1 := { m with calFs := val.extractLsb' 16 16, calCh := val.extractLsb' 8 4, mains := val.extractLsb' 2 2, cont := bitOf val 1 }
  if val.extractLsb' 2 2 = m.mains then m1 else { m1 with syncLost := true, edges := 0, lastEdge := none }

/-- The meter after the settings and the GO bit of a write. -/
def started (val : Word) (m : Meter) : Meter := if val.getLsbD 0 then meterGo (settled val m) else settled val m

/-- The fields of a meter that neither GO nor the settings touch. -/
def untouched (m : Meter) : Vector MtrData 16 × Vector (BitVec 24) 16 × Vector (BitVec 24) 16 × BitVec 4 × BitVec 4 × BitVec 16 × Bool :=
  (m.data, m.ofs, m.gain, m.calCmd, m.calPend, m.mask, m.gated)

/-- The fields that a GO may change. -/
def scanned (m : Meter) : Bool × MtrPhase × BitVec 4 × Bool := (m.rej, m.phase, m.ch, m.go)

theorem settled_cases (val : Word) (m : Meter) : ∃ b e l, settled val m =
    { m with calFs := val.extractLsb' 16 16, calCh := val.extractLsb' 8 4, mains := val.extractLsb' 2 2, cont := val.getLsbD 1,
             syncLost := b, edges := e, lastEdge := l } ∧ (val.extractLsb' 2 2 ≠ m.mains → b = true) := by
  unfold settled
  split
  · rename_i h
    exact ⟨_, _, _, rfl, fun hn => absurd h hn⟩
  · exact ⟨_, _, _, rfl, fun _ => rfl⟩

/-- A GO changes only how the scan stands. -/
theorem meterGo_settings (m : Meter) : untouched (meterGo m) = untouched m ∧ (meterGo m).cont = m.cont ∧ (meterGo m).mains = m.mains ∧
    (meterGo m).syncLost = m.syncLost := by
  have hstart : untouched (startScan m) = untouched m ∧ (startScan m).cont = m.cont ∧ (startScan m).mains = m.mains ∧
      (startScan m).syncLost = m.syncLost := by
    unfold startScan
    split <;> exact ⟨rfl, rfl, rfl, rfl⟩
  unfold meterGo
  split
  · exact ⟨rfl, rfl, rfl, rfl⟩
  split
  · exact ⟨rfl, rfl, rfl, rfl⟩
  split
  · exact ⟨rfl, rfl, rfl, rfl⟩
  split
  · exact ⟨rfl, rfl, rfl, rfl⟩
  · exact hstart

theorem started_settings (val : Word) (m : Meter) : untouched (started val m) = untouched m ∧ (started val m).cont = val.getLsbD 1 ∧
    (started val m).mains = val.extractLsb' 2 2 ∧ (val.extractLsb' 2 2 ≠ m.mains → (started val m).syncLost = true) := by
  obtain ⟨b, e, l, hset, hb⟩ := settled_cases val m
  obtain ⟨hu, hc, hm, hs⟩ := meterGo_settings (settled val m)
  have hbase : untouched (settled val m) = untouched m ∧ (settled val m).cont = val.getLsbD 1 ∧
      (settled val m).mains = val.extractLsb' 2 2 ∧ (val.extractLsb' 2 2 ≠ m.mains → (settled val m).syncLost = true) := by
    rw [hset]
    exact ⟨rfl, rfl, rfl, hb⟩
  obtain ⟨bu, bc, bm, bs⟩ := hbase
  unfold started
  split
  · exact ⟨hu.trans bu, hc.trans bc, hm.trans bm, fun h => hs.trans (bs h)⟩
  · exact ⟨bu, bc, bm, bs⟩

section
variable (val : Word) {m : Meter}

/-- A GO on an idle meter with a mask starts at the lowest masked channel. -/
theorem started_go {c : Fin 16} (hgo : val.getLsbD 0 = true) (hp : m.phase ≠ .cal) (hg : m.go = false) (hgate : m.gated = false)
    (hc : m.mask.getLsbD c = true) (hmin : ∀ j < c.val, m.mask.getLsbD j = false) :
    (started val m).go = true ∧ (started val m).phase = .settle ∧ (started val m).ch.toNat = c ∧ (started val m).rej = m.rej := by
  have hmask : m.mask ≠ 0 := fun h => by simp [h] at hc
  obtain ⟨b, e, l, hset, -⟩ := settled_cases val m
  have hstart := startScan_lowest (m := settled val m) (c := c) (by rw [hset]; exact hc) (by rw [hset]; exact hmin)
  have hgoes : meterGo (settled val m) = startScan (settled val m) := by
    rw [hset]
    exact (if_neg hp).trans ((if_neg (by rw [hg]; decide)).trans ((if_neg hmask).trans (if_neg (by rw [hgate]; decide))))
  rw [started, if_pos hgo, hgoes, hstart, hset]
  exact ⟨rfl, rfl, toNat_ofNat_channel c, rfl⟩

/-- A GO beside a calibration or with an empty mask is rejected. -/
theorem started_rejected (hgo : val.getLsbD 0 = true) (h : m.phase = .cal ∨ (m.go = false ∧ m.mask = 0)) :
    scanned (started val m) = (true, m.phase, m.ch, m.go) := by
  obtain ⟨b, e, l, hset, -⟩ := settled_cases val m
  have hrej : meterGo (settled val m) = { settled val m with rej := true } := by
    rw [hset]
    rcases h with h | ⟨hg, hmask⟩
    · exact if_pos h
    · by_cases hp : m.phase = .cal
      · exact if_pos hp
      · exact (if_neg hp).trans ((if_neg (by rw [hg]; decide)).trans (if_pos hmask))
  rw [started, if_pos hgo, hrej, hset]
  rfl

/-- Without GO, and during a scan, the scan goes on as it is. -/
theorem started_same (h : val.getLsbD 0 = false ∨ (m.phase ≠ .cal ∧ m.go = true)) : scanned (started val m) = scanned m := by
  obtain ⟨b, e, l, hset, -⟩ := settled_cases val m
  have hsame : started val m = settled val m := by
    rw [started]
    split
    · rename_i hgo
      obtain ⟨hp, hg⟩ := h.resolve_left (by rw [hgo]; decide)
      rw [hset]
      exact (if_neg hp).trans (if_pos hg)
    · rfl
  rw [hsame, hset]
  rfl

end

/-- A write without a calibration command. -/
theorem exec_mtrGo {val : Word} {s : State} (h : setupOpen s = true) (hcal : val.toNat / 16 % 16 = 0) (t : Nat) :
    exec (.mtrGo val t) s = .next (staleUpdate { ackWrite (now t s) with meter := started val s.meter }) := by
  have hcmd : val.extractLsb' 4 4 = 0 := by
    apply BitVec.eq_of_toNat_eq
    simpa [Nat.shiftRight_eq_div_pow] using hcal
  show Host.Outcome.next (mtrRow val t s) = _
  rw [mtrRow, if_pos (setupOpen_ackWrite h t), writeMtrCtrl, hcmd]
  rfl

/-! ### Windows (R277, R279, R283) -/

/-- The window's length by the selection at the channel's start (Table 12-9). -/
theorem windowLen_eq (m : Meter) : windowLen m =
    if m.chMains = 0 then 81920 else if m.chMains = 1 then 68267
    else if m.chMains = 2 then (if m.chLost = true ∧ m.syncLost = true then 81920 else m.period)
    else Nat.min 98304 (Nat.max 16384 m.win.toNat) := by
  have hcases : ∀ b : BitVec 2, b = 0 ∨ b = 1 ∨ b = 2 ∨ b = 3 := by decide
  unfold windowLen
  rcases hcases m.chMains with h | h | h | h <;> simp [h]

/-- Where the cell energy of a window starts to count. -/
theorem windowFrom_eq (t : Nat) (m : Meter) : windowFrom t m =
    { m with eFrom := if (t + 120) % 250 ≤ 125 then m.cellE else m.eFrom, eOpen := decide (125 < (t + 120) % 250) } := by
  unfold windowFrom latchBehind
  by_cases h : (t + 120) % 250 ≤ 125
  · simp [h]
  · simp [h, Nat.lt_of_not_le h]

theorem exec_meterSettleEnd {s : State} (h : s.meter.phase = .settle) (t : Nat) : exec (.meterSettleEnd t) s =
    .next { now t s with meter := windowFrom t { s.meter with phase := .window, winN := windowLen s.meter } } := by
  show execMeterSettleEnd t s = _
  unfold execMeterSettleEnd
  exact if_pos h

/-- The results and flags of a channel as its register takes them. -/
structure WindowResult where
  ch : Nat
  raw : Int
  x : Int

/-- What the modulator's decisions give at the end of a window (R279). -/
def resultOf (m : Meter) (pos neg : Nat) : WindowResult :=
  let raw := rawResult ((pos : Int) - neg) m.winN
  ⟨m.ch.toNat, raw, scaledResult raw (vget m.ofs m.ch.toNat) (vget m.gain m.ch.toNat)⟩

/-- The entry of a channel's register. -/
def channelEntry (r : WindowResult) (stale : Bool) (scan : BitVec 4) : MtrData :=
  { valid := true, stale := stale, range := rangeBad r.raw r.x, scan := scan, res := BitVec.ofInt 24 (sat24 r.x) }

/-- What a result leaves beside its channel's register. -/
def resultNoted (r : WindowResult) (m : Meter) : Meter :=
  { m with c0 := if r.ch = 0 then some (sat24 r.x) else m.c0, kGood := m.kGood || decide (r.ch = 1 ∧ m.c0.isSome),
           recal := m.recal &&& ~~~ (BitVec.twoPow 16 r.ch) }

/-- The result in its channel's register. -/
def resultStored (r : WindowResult) (s : State) : State :=
  setMeter (staleUpdate (setMeter s (resultNoted r))) (fun m => { m with data := vset m.data r.ch (channelEntry r m.stale m.scanCnt) })

/-- The result stored, flagged and judged. -/
def resultJudged (r : WindowResult) (s : State) : State :=
  let s2 := resultStored r s
  plausChannel (if rangeBad r.raw r.x then raise s2 0 0x81 0x9 r.ch 0 else s2) r.ch (sat24 r.x)

/-- The state before the next conversion: a result of channel 1 is paired with one of channel 0 (R283). -/
def windowStored (r : WindowResult) (t : Nat) (s : State) : State :=
  match s.meter.c0 with
  | some c0 => if r.ch = 1 then pairResult (staleUpdate (resultJudged r s)) c0 (sat24 r.x) t else resultJudged r s
  | none => resultJudged r s

/-- What follows a conversion: a calibration that waits, or the next channel. -/
def afterConv (m : Meter) : Meter := if m.calPend ≠ 0 then startCal m.calPend m else nextConv m

theorem exec_meterWindowEnd {s : State} (h : s.meter.phase = .window) (pos neg t : Nat) : exec (.meterWindowEnd pos neg t) s =
    let v := windowStored (resultOf s.meter pos neg) t (now t s)
    .next (staleUpdate { v with meter := afterConv v.meter }) := by
  show execMeterWindowEnd pos neg t s = _
  unfold execMeterWindowEnd
  exact if_neg (not_not_intro h)

/-- What decides on the next conversion. -/
def scanControl (m : Meter) : BitVec 4 × BitVec 16 × Bool × Bool × BitVec 4 × BitVec 4 × BitVec 2 × Bool :=
  (m.ch, m.mask, m.gated, m.cont, m.calPend, m.scanCnt, m.mains, m.syncLost)

/-- The registers beside what decides on the next conversion. -/
def scanState (m : Meter) := (scanControl m, m.data)

section
variable (r : WindowResult) (t : Nat) (s : State)

theorem meterStep_resultStored : MeterStep scanControl s (resultStored r s) :=
  ((meterStep_setMeter s _).trans ((meterStep_staleUpdate _).map scanControl)).trans (meterStep_setMeter _ _)

theorem resultStored_data : ∃ stale, (resultStored r s).meter.data = vset s.meter.data r.ch (channelEntry r stale s.meter.scanCnt) := by
  have hnoted : MeterStep (fun m => (m.data, m.scanCnt)) (setMeter s (resultNoted r)) (staleUpdate (setMeter s (resultNoted r))) :=
    (meterStep_staleUpdate _).map fun m => (m.data, m.scanCnt)
  obtain ⟨hd, hn⟩ := Prod.mk.inj hnoted.view
  refine ⟨(staleUpdate (setMeter s (resultNoted r))).meter.stale, ?_⟩
  show vset (staleUpdate (setMeter s (resultNoted r))).meter.data r.ch (channelEntry r _ (staleUpdate (setMeter s (resultNoted r))).meter.scanCnt) = _
  rw [hd, hn]
  rfl

theorem resultStored_frame : (resultStored r s).safety = s.safety ∧ (resultStored r s).time = s.time := by
  rw [resultStored, staleUpdate_frame]
  exact ⟨rfl, rfl⟩

theorem meterStep_windowPaired (v : State) (c : Int) : MeterStep scanState v (pairResult (staleUpdate v) c (sat24 r.x) t) :=
  ((meterStep_staleUpdate v).map scanState).trans ((meterStep_setMeter _ _).trans ((meterStep_pairResult ..).map scanState))

/-- From the stored result on, what decides on the next conversion and the registers stay. -/
theorem meterStep_windowStored : MeterStep scanState
    (if rangeBad r.raw r.x then raise (resultStored r s) 0 0x81 0x9 r.ch 0 else resultStored r s) (windowStored r t s) := by
  have hj : MeterStep scanState (if rangeBad r.raw r.x then raise (resultStored r s) 0 0x81 0x9 r.ch 0 else resultStored r s)
      (resultJudged r s) := (meterStep_plausChannel ..).map scanState
  cases hc : s.meter.c0 with
  | none =>
    rw [windowStored, hc]
    exact hj
  | some c =>
    rw [windowStored, hc]
    exact meterStep_of_ite (hj.trans (meterStep_windowPaired r t _ c)) hj

/-- A result out of range raises METER_RANGE ahead of the plausibility messages (R279). -/
theorem windowStored_range (hbad : rangeBad r.raw r.x = true) (hroom : s.safety.queue.length ≤ 768) :
    ∃ rest, (windowStored r t s).safety.queue = s.safety.queue ++
      { bits := faultWord 0 0x81 0x9 r.ch 0 (epochIn s), from_ := none, ext := 0 } :: rest := by
  obtain ⟨hsafe, htime⟩ := resultStored_frame r s
  obtain ⟨rest, hrest⟩ := (meterStep_windowStored r t s).queue
  have hroom' : (resultStored r s).safety.queue.length ≤ 768 := by rw [hsafe]; exact hroom
  refine ⟨rest, ?_⟩
  rw [← hrest, if_pos hbad, raise_eq _ _ _ _ _ _ (fun _ => hroom'), hsafe]
  simp only [epochIn, htime, List.append_assoc, List.singleton_append]

/-- The input power of a result of channel 1 that follows one of channel 0 (R283). -/
theorem windowStored_pIn (hch : r.ch = 1) {c : Int} (hc : s.meter.c0 = some c) :
    (windowStored r t s).meter.pIn = pIn c (sat24 r.x) := by
  rw [windowStored, hc]
  dsimp only
  rw [if_pos hch]
  exact congrArg Meter.pIn (meterStep_pairResult ..).view

end

/-! ### After a conversion (R277, R280) -/

section
variable {m : Meter}

theorem afterConv_cal (h : m.calPend ≠ 0) : afterConv m = startCal m.calPend m := if_pos h

theorem afterConv_gated (h : m.calPend = 0) (hg : m.gated = true) : afterConv m = { m with go := false, phase := .idle } :=
  (if_neg (not_not_intro h)).trans (if_pos hg)

theorem afterConv_next (h : m.calPend = 0) (hg : m.gated = false) {n : Fin 16} (hn : m.ch.toNat < n.val) (hm : m.mask.getLsbD n = true)
    (hmin : ∀ j < n.val, m.ch.toNat < j → m.mask.getLsbD j = false) : afterConv m = toChannel n m := by
  have hnext : nextChannel m (m.ch.toNat + 1) = some n.val := nextChannel_eq_some n.isLt hn hm hmin
  rw [afterConv, if_neg (not_not_intro h), nextConv, if_neg (by rw [hg]; decide), hnext]

/-- The meter at the end of a scan. -/
def scanEnded (m : Meter) : Meter := { m with done := true, scanCnt := m.scanCnt + 1, c0 := none }

theorem afterConv_end (h : m.calPend = 0) (hg : m.gated = false) (hlast : ∀ n, m.ch.toNat < n → n < 16 → m.mask.getLsbD n = false) :
    afterConv m = if m.cont then startScan (scanEnded m) else { scanEnded m with go := false, phase := .idle } := by
  have hnext : nextChannel m (m.ch.toNat + 1) = none := nextChannel_eq_none hlast
  rw [afterConv, if_neg (not_not_intro h), nextConv, if_neg (by rw [hg]; decide), hnext]
  rfl

theorem data_startScan (m : Meter) : (startScan m).data = m.data ∧ (startScan m).scanCnt = m.scanCnt ∧ (startScan m).done = m.done ∧
    (startScan m).pIn = m.pIn := by
  unfold startScan
  split <;> exact ⟨rfl, rfl, rfl, rfl⟩

/-- What follows a conversion leaves the registers and the input power. -/
theorem data_afterConv (m : Meter) : (afterConv m).data = m.data ∧ (afterConv m).pIn = m.pIn := by
  obtain ⟨hd, -, -, hp⟩ := data_startScan (scanEnded m)
  unfold afterConv nextConv
  split
  · exact ⟨rfl, rfl⟩
  split
  · exact ⟨rfl, rfl⟩
  split
  · exact ⟨rfl, rfl⟩
  · show Meter.data (if m.cont then startScan (scanEnded m) else _) = _ ∧ _
    split
    · exact ⟨hd, hp⟩
    · exact ⟨rfl, rfl⟩

end

/-! ### Ranges -/

theorem toInt_ofInt_sat24 (x : Int) : (BitVec.ofInt 24 (sat24 x)).toInt = sat24 x := by
  have h : -8388608 ≤ sat24 x ∧ sat24 x ≤ 8388607 := by
    unfold sat24 clampInt
    omega
  rw [BitVec.toInt_ofInt]
  exact Int.bmod_eq_of_le (by omega) (by omega)

theorem rangeBad_iff (raw x : Int) : rangeBad raw x = true ↔ raw < -419430 ∨ 8388607 < raw ∨ x ≠ sat24 x := by
  simp only [rangeBad, Bool.or_eq_true, decide_eq_true_eq, bne_iff_ne, or_assoc]

/-! ### The mains input (R61, R278) -/

section
variable {s : State} (hm : s.meter.mains = 2)
include hm

theorem exec_mainsSyncEdge_first (h : s.meter.lastEdge = none) (mclks t : Nat) : exec (.mainsSyncEdge mclks t) s =
    .next { now t s with meter := { s.meter with lastEdge := some (now t s).time.run, edges := 1 } } := by
  show execMainsSyncEdge mclks t s = _
  unfold execMainsSyncEdge
  extract_lets s1 m
  have hl : m.lastEdge = none := h
  have hm' : ¬ m.mains ≠ 2 := not_not_intro hm
  rw [if_neg hm', hl]
  rfl

theorem exec_mainsSyncEdge_next {u : Nat} (h : s.meter.lastEdge = some u) (mclks t : Nat) : exec (.mainsSyncEdge mclks t) s =
    .next (if u + 15400000 ≤ (now t s).time.run ∧ (now t s).time.run ≤ u + 22200000 then
        { now t s with meter := { s.meter with lastEdge := some (now t s).time.run, edges := 2, period := mclks, syncLost := false } }
      else { now t s with meter := { s.meter with edgeRej := if s.meter.edgeRej = 0xFFFF then 0xFFFF else s.meter.edgeRej + 1 } }) := by
  show execMainsSyncEdge mclks t s = _
  unfold execMainsSyncEdge
  extract_lets s1 m
  have hl : m.lastEdge = some u := h
  have hm' : ¬ m.mains ≠ 2 := not_not_intro hm
  rw [if_neg hm', hl, apply_ite Host.Outcome.next]
  rfl

theorem exec_syncLost {u : Nat} (h : s.meter.lastEdge = some u) (t : Nat) (hlost : u + 40000000 ≤ (now t s).time.run) : exec (.syncLost t) s =
    .next { now t s with meter := { s.meter with syncLost := true, edges := 0, lastEdge := none } } := by
  show execSyncLost t s = _
  unfold execSyncLost
  extract_lets s1
  have hl : s1.meter.lastEdge = some u := h
  rw [hl]
  exact if_pos ⟨hm, hlost⟩

end

/-- A count of 16 bits that stays at its highest value. -/
theorem toNat_count16 (c : BitVec 16) : (if c = 0xFFFF then 0xFFFF else c + 1 : BitVec 16).toNat = Nat.min 0xFFFF (c.toNat + 1) := by
  split
  · rename_i h
    subst h
    rfl
  · rename_i h
    have hne : c.toNat ≠ 65535 := fun hc => h (BitVec.eq_of_toNat_eq hc)
    have hlt : c.toNat < 65536 := c.isLt
    rw [BitVec.toNat_add, Nat.mod_eq_of_lt (show c.toNat + (1 : BitVec 16).toNat < 2 ^ 16 by show c.toNat + 1 < 65536; omega)]
    show c.toNat + 1 = Nat.min 65535 _
    exact (Nat.min_eq_right (by omega)).symm

end Sys2Proof.Laws
end

section
/-! The statement about the meter's scan. -/

namespace Sys2Proof.Laws
open Sys2Proof Sys2Proof.Machine
set_option Elab.async false

/-- The fields that a scan sets are those of the meter before the flag's update. -/
theorem scanPart_fields {m n : Meter} (h : scanPart m = scanPart n) : untouched m = untouched n ∧ scanned m = scanned n ∧
    (m.cont, m.mains, m.syncLost) = (n.cont, n.mains, n.syncLost) ∧ (m.scanCnt, m.done, m.pIn) = (n.scanCnt, n.done, n.pIn) :=
  ⟨(congrArg untouched h :), (congrArg scanned h :), (congrArg (fun m : Meter => (m.cont, m.mains, m.syncLost)) h :),
    (congrArg (fun m : Meter => (m.scanCnt, m.done, m.pIn)) h :)⟩

theorem toNat_mainsField (val : Word) : (val.extractLsb' 2 2).toNat = val.toNat / 4 % 4 := by
  simp [Nat.shiftRight_eq_div_pow]

section
variable (r : WindowResult) (t : Nat) (s : State)

theorem meterStep_windowStored_all : MeterStep scanControl s (windowStored r t s) :=
  ((meterStep_resultStored r s).trans (meterStep_of_ite (meterStep_raise ..) (.refl _))).trans
    ((meterStep_windowStored r t s).map Prod.fst)

/-- A channel's register takes the result; the other registers stay. -/
theorem windowStored_data : ∃ stale, (windowStored r t s).meter.data = vset s.meter.data r.ch (channelEntry r stale s.meter.scanCnt) := by
  obtain ⟨stale, hdata⟩ := resultStored_data r s
  have hflag : MeterStep Meter.data (resultStored r s) (if rangeBad r.raw r.x then raise (resultStored r s) 0 0x81 0x9 r.ch 0 else resultStored r s) :=
    meterStep_of_ite (meterStep_raise ..) (.refl _)
  have hrest := ((meterStep_windowStored r t s).map Prod.snd).view
  exact ⟨stale, hrest.trans (hflag.view.trans hdata)⟩

/-- The state that the end of a window leaves (R279). -/
def windowEnded : State := staleUpdate (setMeter (windowStored r t s) afterConv)

theorem scanPart_windowEnded : scanPart (windowEnded r t s).meter = scanPart (afterConv (windowStored r t s).meter) :=
  (meterStep_staleUpdate _).view

theorem meterStep_windowEnded : MeterStep (fun _ => ()) s (windowEnded r t s) :=
  (((meterStep_windowStored_all r t s).map fun _ => ()).trans (meterStep_setMeter _ afterConv)).trans
    ((meterStep_staleUpdate _).map fun _ => ())

theorem windowEnded_data : ∃ stale, (windowEnded r t s).meter.data = vset s.meter.data r.ch (channelEntry r stale s.meter.scanCnt) := by
  obtain ⟨hu, -, -, -⟩ := scanPart_fields (scanPart_windowEnded r t s)
  obtain ⟨stale, hdata⟩ := windowStored_data r t s
  obtain ⟨hconv, -⟩ := data_afterConv (windowStored r t s).meter
  exact ⟨stale, (congrArg Prod.fst hu).trans (hconv.trans hdata)⟩

theorem windowEnded_pIn (hch : r.ch = 1) {c : Int} (hc : s.meter.c0 = some c) : (windowEnded r t s).meter.pIn = pIn c (sat24 r.x) := by
  obtain ⟨-, -, -, hrest⟩ := scanPart_fields (scanPart_windowEnded r t s)
  obtain ⟨-, hconv⟩ := data_afterConv (windowStored r t s).meter
  exact (congrArg (fun x => x.2.2) hrest).trans (hconv.trans (windowStored_pIn r t s hch hc))

theorem windowEnded_range (hbad : rangeBad r.raw r.x = true) (hroom : s.safety.queue.length ≤ 768) :
    ∃ rest, (windowEnded r t s).safety.queue = s.safety.queue ++
      { bits := faultWord 0 0x81 0x9 r.ch 0 (epochIn s), from_ := none, ext := 0 } :: rest := by
  obtain ⟨rest, hrest⟩ := windowStored_range r t s hbad hroom
  obtain ⟨more, hmore⟩ := (meterStep_staleUpdate (setMeter (windowStored r t s) afterConv)).queue
  refine ⟨rest ++ more, hmore.symm.trans ?_⟩
  rw [setMeter_safety, hrest, List.append_assoc, List.cons_append]

/-- What decides on the next conversion when a window ends. -/
theorem windowStored_control {m : Meter} (hm : m = s.meter) : let n := (windowStored r t s).meter
    (n.ch = m.ch ∧ n.mask = m.mask ∧ n.gated = m.gated ∧ n.cont = m.cont ∧ n.calPend = m.calPend ∧ n.scanCnt = m.scanCnt) := by
  subst hm
  have h := (meterStep_windowStored_all r t s).view
  simp only [scanControl, Prod.mk.injEq] at h
  obtain ⟨hch, hmask, hgate, hcont, hpend, hcnt, -, -⟩ := h
  exact ⟨hch, hmask, hgate, hcont, hpend, hcnt⟩

/-- A waiting calibration starts. -/
theorem windowEnded_cal (h : s.meter.calPend ≠ 0) : (windowEnded r t s).meter.phase = .cal ∧
    (windowEnded r t s).meter.calCmd = s.meter.calPend ∧ (windowEnded r t s).meter.calPend = 0 := by
  obtain ⟨-, -, -, -, hpend, -⟩ := windowStored_control r t s rfl
  have hend := scanPart_windowEnded r t s
  rw [afterConv_cal (by rw [hpend]; exact h), hpend] at hend
  exact ⟨(congrArg Meter.phase hend :), (congrArg Meter.calCmd hend :), (congrArg Meter.calPend hend :)⟩

section
variable (h : s.meter.calPend = 0)
include h

theorem windowEnded_gated (hg : s.meter.gated = true) :
    (windowEnded r t s).meter.go = false ∧ (windowEnded r t s).meter.phase = .idle := by
  obtain ⟨-, -, hgate, -, hpend, -⟩ := windowStored_control r t s rfl
  have hend := scanPart_windowEnded r t s
  rw [afterConv_gated (hpend.trans h) (hgate.trans hg)] at hend
  exact ⟨(congrArg Meter.go hend :), (congrArg Meter.phase hend :)⟩

variable (hg : s.meter.gated = false)
include hg

/-- The next masked channel follows. -/
theorem windowEnded_next {n : Fin 16} (hn : s.meter.ch.toNat < n.val) (hm : s.meter.mask.getLsbD n = true)
    (hmin : ∀ j < n.val, s.meter.ch.toNat < j → s.meter.mask.getLsbD j = false) : (windowEnded r t s).meter.ch.toNat = n ∧
    (windowEnded r t s).meter.phase = .settle ∧ (windowEnded r t s).meter.scanCnt = s.meter.scanCnt := by
  obtain ⟨hch, hmask, hgate, -, hpend, hcnt⟩ := windowStored_control r t s rfl
  have hend := scanPart_windowEnded r t s
  rw [afterConv_next (n := n) (hpend.trans h) (hgate.trans hg) (by rw [hch]; exact hn) (by rw [hmask]; exact hm)
    (by rw [hch, hmask]; exact hmin)] at hend
  exact ⟨(congrArg (fun m : Meter => m.ch.toNat) hend :).trans (toNat_ofNat_channel n), (congrArg Meter.phase hend :),
    (congrArg Meter.scanCnt hend :).trans hcnt⟩

/-- Behind the last masked channel the scan ends; a continuous one begins again. -/
theorem windowEnded_end (hlast : ∀ n, s.meter.ch.toNat < n → n < 16 → s.meter.mask.getLsbD n = false) :
    (windowEnded r t s).meter.scanCnt = s.meter.scanCnt + 1 ∧ (windowEnded r t s).meter.done = true ∧
    (s.meter.cont = false → (windowEnded r t s).meter.go = false ∧ (windowEnded r t s).meter.phase = .idle) ∧
    (s.meter.cont = true → ∀ n : Fin 16, s.meter.mask.getLsbD n = true → (∀ j < n.val, s.meter.mask.getLsbD j = false) →
      (windowEnded r t s).meter.ch.toNat = n ∧ (windowEnded r t s).meter.phase = .settle ∧ (windowEnded r t s).meter.go = true) := by
  obtain ⟨hch, hmask, hgate, hcont, hpend, hcnt⟩ := windowStored_control r t s rfl
  have hend := scanPart_windowEnded r t s
  rw [afterConv_end (hpend.trans h) (hgate.trans hg) (by rw [hch, hmask]; exact hlast), hcont] at hend
  obtain ⟨-, hscan, hdone, -⟩ := data_startScan (scanEnded (windowStored r t s).meter)
  have hcount : (windowStored r t s).meter.scanCnt + 1 = s.meter.scanCnt + 1 := by rw [hcnt]
  cases hc : s.meter.cont with
  | false =>
    rw [hc] at hend
    exact ⟨(congrArg Meter.scanCnt hend :).trans hcount, (congrArg Meter.done hend :),
      fun _ => ⟨(congrArg Meter.go hend :), (congrArg Meter.phase hend :)⟩, fun h => absurd h (by decide)⟩
  | true =>
    rw [hc] at hend
    refine ⟨(congrArg Meter.scanCnt hend :).trans (hscan.trans hcount), (congrArg Meter.done hend :).trans hdone,
      fun h => absurd h (by decide), fun _ n hn hmin => ?_⟩
    have hstart := startScan_lowest (m := scanEnded (windowStored r t s).meter) (c := n) (by rw [← hmask] at hn; exact hn)
      (by rw [← hmask] at hmin; exact hmin)
    rw [if_pos rfl, hstart] at hend
    exact ⟨(congrArg (fun m : Meter => m.ch.toNat) hend :).trans (toNat_ofNat_channel n), (congrArg Meter.phase hend :),
      (congrArg Meter.go hend :)⟩

end

end

end Sys2Proof.Laws

namespace Sys2Proof.Proofs
open Sys2Proof Sys2Proof.Machine Sys2Proof.Laws
set_option Elab.async false

/-- Settles O41: GO, the end of settling, the end of a window and the mains input set what the manual states. -/
theorem meterScan : Obligations.MeterScan := by
  unfold Obligations.MeterScan
  refine fun val pos neg mclks t s => ⟨fun hopen hcal => ?_, fun hp => ?_, fun hp => ?_, fun hm hl => exec_mainsSyncEdge_first hm hl mclks t, ?_⟩
  · refine ⟨_, exec_mtrGo hopen hcal t, ?_⟩
    have hstep := meterStep_staleUpdate { ackWrite (now t s) with meter := started val s.meter }
    have hframe := staleUpdate_frame { ackWrite (now t s) with meter := started val s.meter }
    generalize staleUpdate { ackWrite (now t s) with meter := started val s.meter } = u at hstep hframe
    obtain ⟨hu, hsc, hset, -⟩ := scanPart_fields hstep.view
    obtain ⟨ku, kc, km, ks⟩ := started_settings val s.meter
    have hun := hu.trans ku
    simp only [untouched, Prod.mk.injEq] at hun
    obtain ⟨hdata, hofs, hgain, hcmd, hpend, -, -⟩ := hun
    obtain ⟨hcont, hmains, hlost⟩ : u.meter.cont = _ ∧ u.meter.mains = _ ∧ u.meter.syncLost = _ := by
      simpa only [Prod.mk.injEq] using hset
    have hscan (x : _) (h : scanned (started val s.meter) = x) : scanned u.meter = x := hsc.trans h
    refine ⟨hcont.trans kc, ?_, hdata, hofs, hgain, hcmd, hpend, ?_, ?_, ?_, ?_, hstep.doms, hframe⟩
    · rw [hmains, km, toNat_mainsField]
    · rw [hmains, km, hlost]
      exact ks
    · intro hgo hp hg hgate c hc hmin
      obtain ⟨kg, kp, kch, kr⟩ := started_go val hgo hp hg hgate hc hmin
      have h := hscan _ rfl
      simp only [scanned, Prod.mk.injEq] at h
      obtain ⟨hr, hph, hch, hgo'⟩ := h
      exact ⟨hgo'.trans kg, hph.trans kp, (congrArg BitVec.toNat hch).trans kch, hr.trans kr⟩
    · intro hgo hrej
      simpa only [scanned, Prod.mk.injEq] using hscan _ (started_rejected val hgo hrej)
    · intro hsame
      simpa only [scanned, Prod.mk.injEq] using hscan _ (started_same val hsame)
  · rw [exec_meterSettleEnd hp, windowFrom_eq, windowLen_eq]
  · intro c raw x res
    have hbad : rangeBad raw x = true ↔ raw < -419430 ∨ 8388607 < raw ∨ x ≠ res := rangeBad_iff raw x
    refine ⟨windowEnded ⟨c, raw, x⟩ t (now t s), exec_meterWindowEnd hp pos neg t, ?_⟩
    obtain ⟨stale, hdata⟩ := windowEnded_data ⟨c, raw, x⟩ t (now t s)
    have hown : vget (windowEnded ⟨c, raw, x⟩ t (now t s)).meter.data c = channelEntry ⟨c, raw, x⟩ stale s.meter.scanCnt := by
      rw [hdata]
      exact vget_vset_same _ _ s.meter.ch.isLt
    rw [hown]
    obtain ⟨hframe, hdoms, -, -⟩ := meterStep_windowEnded ⟨c, raw, x⟩ t (now t s)
    refine ⟨rfl, toInt_ofInt_sat24 x, rfl, hbad, fun j _ hj => ?_, fun h hroom => windowEnded_range ⟨c, raw, x⟩ t (now t s) (hbad.mpr h) hroom,
      fun hpend hg => ⟨fun n hn hm hmin => windowEnded_next ⟨c, raw, x⟩ t (now t s) hpend hg hn hm hmin, windowEnded_end ⟨c, raw, x⟩ t (now t s) hpend hg⟩,
      windowEnded_cal ⟨c, raw, x⟩ t (now t s), windowEnded_gated ⟨c, raw, x⟩ t (now t s), fun hc c0 h0 => windowEnded_pIn ⟨c, raw, x⟩ t (now t s) hc h0, hdoms, hframe⟩
    rw [hdata]
    exact vget_vset_ne _ _ hj.symm
  · intro hm last hl
    refine ⟨fun hlo hhi => ?_, fun hout => ?_, fun hlost => exec_syncLost hm hl t hlost⟩
    · rw [exec_mainsSyncEdge_next hm hl, if_pos ⟨hlo, hhi⟩]
    · refine ⟨_, exec_mainsSyncEdge_next hm hl mclks t, ?_⟩
      rw [if_neg (by omega)]
      exact ⟨toNat_count16 _, rfl⟩

end Sys2Proof.Proofs
end

section
/-! Passes over keyed lists and steps of one station: what each leaves of the other domains (R38, R126). -/

namespace Sys2Proof.Laws
open Sys2Proof Sys2Proof.Machine
set_option Elab.async false

/-! ### Passes that change one part per key -/

section
variable {σ α β γ : Type} {g : σ → α → σ} {I : σ → Prop} {P : σ → β} {κ : α → γ}

/-- A pass over things of other keys keeps a part. -/
theorem foldl_key_kept {k : γ} (hI : ∀ v e, I v → I (g v e)) (hP : ∀ v e, I v → κ e ≠ k → P (g v e) = P v) {l : List α}
    (hk : ∀ e ∈ l, κ e ≠ k) {s : σ} (hs : I s) : P (l.foldl g s) = P s := by
  induction l generalizing s with
  | nil => rfl
  | cons x l ih =>
    rw [List.foldl_cons, ih (fun e he => hk e (List.mem_cons_of_mem x he)) (hI s x hs), hP s x hs (hk x List.mem_cons_self)]

/-- A pass over distinct keys meets each thing once, with its part as it was. -/
theorem foldl_key_split {a : α} (hI : ∀ v e, I v → I (g v e)) (hP : ∀ v e, I v → κ e ≠ κ a → P (g v e) = P v) {l : List α}
    (hl : (l.map κ).Nodup) (ha : a ∈ l) {s : σ} (hs : I s) :
    ∃ (v : σ) (l2 : List α), I v ∧ P v = P s ∧ l.foldl g s = l2.foldl g (g v a) ∧ ∀ e ∈ l2, κ e ≠ κ a := by
  obtain ⟨l1, l2, rfl⟩ := List.append_of_mem ha
  rw [List.map_append, List.map_cons] at hl
  obtain ⟨-, h2, h12⟩ := List.nodup_append.mp hl
  have hne1 (e : α) (he : e ∈ l1) : κ e ≠ κ a := h12 _ (List.mem_map_of_mem he) _ List.mem_cons_self
  have hne2 (e : α) (he : e ∈ l2) : κ e ≠ κ a := fun h => (List.nodup_cons.mp h2).1 (h ▸ List.mem_map_of_mem he)
  refine ⟨l1.foldl g s, l2, foldl_inv hI l1 hs, foldl_key_kept hI hP hne1 hs, ?_, hne2⟩
  rw [List.foldl_append, List.foldl_cons]

theorem foldl_key_at {a : α} (hI : ∀ v e, I v → I (g v e)) (hP : ∀ v e, I v → κ e ≠ κ a → P (g v e) = P v) {l : List α}
    (hl : (l.map κ).Nodup) (ha : a ∈ l) {s : σ} (hs : I s) : ∃ v, I v ∧ P v = P s ∧ P (l.foldl g s) = P (g v a) := by
  obtain ⟨v, l2, hv, hold, hfold, hne⟩ := foldl_key_split hI hP hl ha hs
  exact ⟨v, hv, hold, hfold ▸ foldl_key_kept hI hP hne (hI v a hv)⟩

end

/-! ### The domains of a die -/

theorem mem_domsOfDie {d e : Nat} : d ∈ domsOfDie e ↔ d < 80 ∧ dieOf d = e := by
  rw [domsOfDie, List.mem_filter, List.mem_range, beq_iff_eq]

theorem nodup_domsOfDie (e : Nat) : (domsOfDie e).Nodup := List.nodup_range.filter _

/-- One change of every domain of a list. -/
theorem domOf_foldl_setDom (f : Domain → Domain) {l : List Nat} (hl : l.Nodup) (s : State) {d : Nat} (hd : d < 80) :
    domOf (l.foldl (fun s x => setDom s x f) s) d = if d ∈ l then f (domOf s d) else domOf s d := by
  have hP (v : State) (x : Nat) (_ : True) (h : d ≠ x) : domOf (setDom v x f) d = domOf v d := domOf_setDom_ne v f h.symm
  split
  · rename_i hm
    obtain ⟨v, -, hold, hnew⟩ := foldl_at (I := fun _ => True) (P := fun v => domOf v d) (fun _ _ _ => trivial) hP hl hm (s := s) trivial
    exact hnew.trans ((domOf_setDom_same v f hd).trans (congrArg f hold))
  · rename_i hm
    exact foldl_proj_of_not_mem (I := fun _ => True) (P := fun v => domOf v d) (fun _ _ _ => trivial) hP hm (s := s) trivial

theorem onlyDoms_foldl_setDom (f : Domain → Domain) (l : List Nat) (s : State) : OnlyDoms s (l.foldl (fun s x => setDom s x f) s) :=
  onlyDoms_foldl (g := fun s x => setDom s x f) (fun s x => domOnly_setDom s x f) l s

theorem domOf_dieSetDom (f : Domain → Domain) (e : Nat) (s : State) {d : Nat} (hd : d < 80) :
    domOf ((domsOfDie e).foldl (fun s x => setDom s x f) s) d = if dieOf d = e then f (domOf s d) else domOf s d := by
  rw [domOf_foldl_setDom f (nodup_domsOfDie e) s hd]
  simp only [mem_domsOfDie, hd, true_and]

/-! ### Steps of a station -/

/-- A step that concerns the members of one domain alone and no pairing. -/
structure StationStep (s u : State) (x : Nat) : Prop where
  only : OnlyDoms s u
  pairs : ∀ d, (domOf u d).pair = (domOf s d).pair
  rest : ∀ d, d ∉ membersOf s x → domOf u d = domOf s d

theorem StationStep.members {s u : State} {x : Nat} (h : StationStep s u x) (d : Nat) : membersOf u d = membersOf s d :=
  membersOf_congr (h.pairs d)

theorem StationStep.refl (s : State) (x : Nat) : StationStep s s x := ⟨.refl s, fun _ => rfl, fun _ _ => rfl⟩

theorem StationStep.trans {s u v : State} {x : Nat} (h : StationStep s u x) (k : StationStep u v x) : StationStep s v x :=
  ⟨h.only.trans k.only, fun d => (k.pairs d).trans (h.pairs d), fun d hd => (k.rest d (by rwa [h.members])).trans (h.rest d hd)⟩

theorem stationStep_of_ite {s u v : State} {x : Nat} {c : Prop} [Decidable c] (h : StationStep s u x) (k : StationStep s v x) :
    StationStep s (if c then u else v) x := by
  split
  · exact h
  · exact k

theorem stationStep_setDom (s : State) {x d : Nat} (f : Domain → Domain) (hd : d ∈ membersOf s x) (hf : ∀ D, (f D).pair = D.pair) :
    StationStep s (setDom s d f) x := by
  refine ⟨onlyDoms_setDom s d f, fun e => ?_, fun e he => domOf_setDom_ne s f fun h => he (h ▸ hd)⟩
  by_cases he : e < 80
  · by_cases hde : d = e
    · subst hde
      rw [domOf_setDom_same _ _ he, hf]
    · rw [domOf_setDom_ne _ _ hde]
  · rw [domOf_ge _ (Nat.le_of_not_lt he), domOf_ge _ (Nat.le_of_not_lt he)]

/-- A pass over things of one domain's members is a step of its station. -/
theorem stationStep_foldl {α : Type} {g : State → α → State} {x : Nat} (l : List α) (s : State)
    (h : ∀ v, StationStep s v x → ∀ a ∈ l, StationStep v (g v a) x) : StationStep s (l.foldl g s) x := by
  induction l generalizing s with
  | nil => exact .refl s x
  | cons a l ih =>
    have h1 : StationStep s (g s a) x := h s (.refl s x) a List.mem_cons_self
    exact h1.trans (ih (g s a) fun v hv b hb => h v (h1.trans hv) b (List.mem_cons_of_mem a hb))

theorem stationStep_setMembers (s : State) (x : Nat) (f : Domain → Domain) (hf : ∀ D, (f D).pair = D.pair := by intro; rfl) :
    StationStep s (setMembers s x f) x := by
  refine stationStep_foldl _ s fun v hv d hd => stationStep_setDom v f ?_ hf
  rw [hv.members]
  exact hd

theorem mem_membersOf_of_mem_stationCells {s : State} {x : Nat} {y : Nat × Nat} (h : y ∈ stationCells s x) : y.1 ∈ membersOf s x := by
  simp only [stationCells, List.mem_flatMap, List.mem_map] at h
  obtain ⟨d, hd, k, -, rfl⟩ := h
  unfold stationSites at hd
  split at hd
  · rename_i hj
    have he : isEven s x = true := by
      rw [joined, Bool.and_eq_true] at hj
      exact hj.1
    rw [membersOf, if_pos he]
    exact hd
  · rw [show (d, k).1 = x from List.mem_singleton.mp hd]
    exact mem_membersOf_self s x

theorem stationStep_unparkAll (s : State) (x : Nat) : StationStep s (unparkAll s x) x := by
  refine stationStep_foldl (x := x) (stationCells s x) s fun v hv y hy => ?_
  extract_lets c
  refine stationStep_of_ite (stationStep_setDom v _ ?_ fun _ => rfl) (.refl v x)
  rw [hv.members]
  exact mem_membersOf_of_mem_stationCells hy

theorem stationStep_stationHold (s : State) (x : Nat) : StationStep s (stationHold s x) x :=
  stationStep_of_ite (.refl s x) ((stationStep_unparkAll s x).trans (stationStep_setMembers _ x _))

theorem stationStep_driveThr (s : State) (x : Nat) : StationStep s (driveThr s x) x := by
  unfold driveThr
  exact stationStep_of_ite (.refl s x) (stationStep_setMembers s x _)

theorem stationStep_discharge (s : State) (x : Nat) : StationStep s (discharge s x) x :=
  (stationStep_setMembers s x _).trans ((stationStep_setMembers _ x _).trans (stationStep_driveThr _ x))

/-- Only a pair's even member reaches a second domain. -/
theorem not_mem_membersOf {s : State} {d x : Nat} (hs : Single s d) (h : x ≠ d) : d ∉ membersOf s x := by
  unfold membersOf
  split
  · rename_i he
    rw [List.mem_cons, List.mem_singleton, not_or]
    refine ⟨h.symm, fun hd => ?_⟩
    rw [hs.2 x hd.symm] at he
    exact Bool.noConfusion he
  · exact fun hm => h (List.mem_singleton.mp hm).symm

theorem single_congr {s u : State} (h : ∀ d, (domOf u d).pair = (domOf s d).pair) {d : Nat} (hs : Single s d) : Single u d := by
  obtain ⟨hp, he⟩ := hs
  exact ⟨(h d).trans hp, fun e hd => by rw [isEven, h e]; exact he e hd⟩

/-- A station's step leaves every other domain that no pair reaches. -/
theorem StationStep.single {s u : State} {x d : Nat} (h : StationStep s u x) (hs : Single s d) (hx : x ≠ d) : domOf u d = domOf s d :=
  h.rest d (not_mem_membersOf hs hx)

theorem domOf_setMembers_self (s : State) {d : Nat} (f : Domain → Domain) (hd : d < 80) :
    domOf (setMembers s d f) d = f (domOf s d) := by
  rw [domOf_setMembers s d f hd, if_pos (mem_membersOf_self s d)]

end Sys2Proof.Laws
end

section
/-! The station links: what a frame, a loss and a return change (R37 to R39, R118, R119, R354). -/

namespace Sys2Proof.Laws
open Sys2Proof Sys2Proof.Machine
set_option Elab.async false

/-! ### Links -/

theorem linkOf_setLink (s : State) (e : Fin 5) (f : Link → Link) : linkOf (setLink s e f) e = f (linkOf s e) :=
  vget_vupd_same s.links f e.isLt

theorem setLink_congr {s : State} {e : Nat} {f g : Link → Link} (h : f (linkOf s e) = g (linkOf s e)) : setLink s e f = setLink s e g := by
  rw [setLink, setLink, vupd_congr s.links e h]

section
variable {s : State} {e : Fin 5} (ht : (linkOf s e).trained = true)
include ht

theorem exec_linkUpFrame (rx : LinkRx 3200) (t : Nat) : exec (.linkUpFrame e rx t) s =
    if linkFits s = true then
      match rx with
      | .intact => .next (upGood (now t s) e)
      | .received b =>
        match readUp b with
        | some f => .next (takeSums (upGood (now t s) e) e f)
        | none => .next (upBadFrame (now t s) e)
    else .next (upBadFrame (now t s) e) := by
  have hc : ¬(!linkCarries (linkOf (now t s) e)) = true := by
    show ¬(!(linkOf s e).trained) = true
    rw [ht]
    decide
  refine (if_neg hc).trans ?_
  cases hfit : linkFits s with
  | true => exact if_neg (by rw [show linkFits (now t s) = true from hfit]; decide)
  | false => exact if_pos (by rw [show linkFits (now t s) = false from hfit]; decide)

theorem exec_linkDownFrame (rx : LinkRx 1600) (t : Nat) : exec (.linkDownFrame e rx t) s =
    if linkFits s = true then
      match rx with
      | .intact => .next (downGood (now t s) e)
      | .received b =>
        match readDown b with
        | some f => .next (((domsOfDie e).zip f.recs).foldl (fun s x => takeOwn s x.1 x.2)
            (downCut (setLink (downGood (now t s) e) e (fun l => { l with taken := some (now t s).time.gtc })) e))
        | none => .next (downBadFrame (now t s) e)
    else .next (downBadFrame (now t s) e) := by
  have hc : ¬(!linkCarries (linkOf (now t s) e)) = true := by
    show ¬(!(linkOf s e).trained) = true
    rw [ht]
    decide
  refine (if_neg hc).trans ?_
  cases hfit : linkFits s with
  | true => exact if_neg (by rw [show linkFits (now t s) = true from hfit]; decide)
  | false => exact if_pos (by rw [show linkFits (now t s) = false from hfit]; decide)

/-- A bad up frame: its CRC fails, or frames do not fit. -/
theorem exec_linkUpFrame_bad {rx : LinkRx 3200} (h : linkFits s = false ∨ ∃ b, rx = .received b ∧ readUp b = none) (t : Nat) :
    exec (.linkUpFrame e rx t) s = .next (upBadFrame (now t s) e) := by
  rw [exec_linkUpFrame ht]
  rcases h with h | ⟨b, rfl, hb⟩
  · rw [h]
    rfl
  · dsimp only
    rw [hb]
    exact ite_self _

theorem exec_linkDownFrame_bad {rx : LinkRx 1600} (h : linkFits s = false ∨ ∃ b, rx = .received b ∧ readDown b = none) (t : Nat) :
    exec (.linkDownFrame e rx t) s = .next (downBadFrame (now t s) e) := by
  rw [exec_linkDownFrame ht]
  rcases h with h | ⟨b, rfl, hb⟩
  · rw [h]
    rfl
  · dsimp only
    rw [hb]
    exact ite_self _

end

theorem exec_linkTrained {s : State} {e : Fin 5} (h : (linkOf s e).trained = false) (lat t : Nat) : exec (.linkTrained e true lat t) s =
    .next (setLink (now t s) e (fun k => { k with trained := true, lat := lat, good := 0, upBad := 0, dnBad := 0, upAt := t })) :=
  congrArg Host.Outcome.next (setLink_congr (if_neg (by rw [show (linkOf (now t s) e).trained = false from h]; decide)))

/-! ### Good frames -/

theorem map_fst_zip_sublist {α β : Type} (l : List α) (k : List β) : ((l.zip k).map Prod.fst).Sublist l := by
  induction l generalizing k with
  | nil => exact List.Sublist.refl _
  | cons a l ih =>
    cases k with
    | nil => exact List.nil_sublist _
    | cons b k => exact (ih k).cons_cons a

theorem nodup_zip_domsOfDie {β : Type} (e : Nat) (l : List β) : (((domsOfDie e).zip l).map Prod.fst).Nodup :=
  (nodup_domsOfDie e).sublist (map_fst_zip_sublist _ l)

theorem mem_zip_of_getElem? {α β : Type} {l : List α} {k : List β} {i : Nat} {a : α} {b : β} (ha : l[i]? = some a) (hb : k[i]? = some b) :
    (a, b) ∈ l.zip k :=
  List.mem_of_getElem? (List.getElem?_zip_eq_some.mpr ⟨ha, hb⟩)

/-- The keys of records belong to the die. -/
theorem fst_mem_of_zip {β : Type} {e : Nat} {l : List β} {x : Nat × β} (h : x ∈ (domsOfDie e).zip l) : x.1 < 80 ∧ dieOf x.1 = e :=
  mem_domsOfDie.mp (List.of_mem_zip h).1

theorem takeSums_only (s : State) (e : Nat) (f : UpFrame) : OnlyDoms s (takeSums s e f) :=
  foldl_inv (I := OnlyDoms s) (fun v x hv => hv.trans (onlyDoms_setDom v x.1 _)) _ (OnlyDoms.refl s)

theorem takeSums_other {s : State} {e d : Nat} (f : UpFrame) (h : dieOf d ≠ e) : domOf (takeSums s e f) d = domOf s d :=
  foldl_key_kept (I := fun _ => True) (P := fun v => domOf v d) (κ := Prod.fst) (k := d) (fun _ _ _ => trivial)
    (fun v _ _ hx => domOf_setDom_ne v _ hx) (fun _ hx hd => h (hd ▸ (fst_mem_of_zip hx).2)) trivial

/-- A record's sums reach the hub. -/
theorem takeSums_record {s : State} {e i d : Nat} {f : UpFrame} {r : UpRec} (hd : (domsOfDie e)[i]? = some d) (hr : f.recs[i]? = some r) :
    (domOf (takeSums s e f) d).vHub = r.vmin ∧ (domOf (takeSums s e f) d).iHub = r.cur.toNat := by
  have hmem : (d, r) ∈ (domsOfDie e).zip f.recs := mem_zip_of_getElem? hd hr
  obtain ⟨v, -, -, hnew⟩ := foldl_key_at (I := fun _ => True) (P := fun v => domOf v d) (κ := Prod.fst) (s := s)
    (g := fun s (x : Nat × UpRec) => setDom s x.1 (fun D => renoteCurrent { D with vHub := x.2.vmin, iHub := x.2.cur.toNat }))
    (fun _ _ _ => trivial) (fun v _ _ hx => domOf_setDom_ne v _ hx) (nodup_zip_domsOfDie e f.recs) hmem trivial
  have hset : domOf (takeSums s e f) d = renoteCurrent { domOf v d with vHub := r.vmin, iHub := r.cur.toNat } :=
    hnew.trans (domOf_setDom_same v _ (fst_mem_of_zip hmem).1)
  rw [hset]
  exact ⟨rfl, rfl⟩

/-! ### Bad frames -/

/-- The message of a bad frame: the first of a run raises PARITY as corrected. -/
def parityNote (s : State) (e run : Nat) : List FaultMsg :=
  if run = 0 then [{ bits := faultWord 0 0x40 0x6 (0xF0 + e) 0 (epochIn s), from_ := none, ext := 0 }] else []

theorem badFrame_eq {s : State} (e run : Nat) (hroom : s.safety.queue.length ≤ 768) : badFrame s e run =
    { setLink s e (fun l => { l with bad := l.bad + 1, good := 0 }) with
      safety := { s.safety with queue := s.safety.queue ++ parityNote s e run } } := by
  unfold badFrame parityNote
  by_cases h : run = 0
  · rw [if_pos h, if_pos h]
    exact raise_eq _ _ _ _ _ _ fun _ => hroom
  · rw [if_neg h, if_neg h, List.append_nil]
    rfl

/-- A link after a bad up frame. -/
def upCounted (g : Nat) (l : Link) : Link := { l with upBad := l.upBad + 1, good := 0, bad := l.bad + 1, badUp := (g :: l.badUp).take 16 }

/-- A link after a bad down frame. -/
def downCounted (g : Nat) (l : Link) : Link := { l with dnBad := l.dnBad + 1, good := 0, bad := l.bad + 1, badDn := (g :: l.badDn).take 16 }

/-- What a bad frame counts and reports at the hub, before what it loses (R39). -/
def frameLost (s : State) (e run : Nat) (f : Link → Link) : State :=
  { setLink s e f with safety := { s.safety with queue := s.safety.queue ++ parityNote s e run } }

section
variable {s : State} (e : Nat) (hroom : s.safety.queue.length ≤ 768)
include hroom

theorem upBadFrame_eq : upBadFrame s e = upLost (upPrevious (frameLost s e (linkOf s e).upBad (upCounted s.time.gtc)) e) e := by
  unfold upBadFrame
  extract_lets s1
  have h1 : s1 = frameLost s e (linkOf s e).upBad (upCounted s.time.gtc) := by
    dsimp only [s1]
    rw [badFrame_eq e _ hroom, setLink, frameLost, setLink]
    dsimp only [setLink_links]
    rw [vupd_vupd]
    rfl
  rw [h1]

theorem downBadFrame_eq : downBadFrame s e = downCut (frameLost s e (linkOf s e).dnBad (downCounted s.time.gtc)) e := by
  unfold downBadFrame
  extract_lets s1
  have h1 : s1 = frameLost s e (linkOf s e).dnBad (downCounted s.time.gtc) := by
    dsimp only [s1]
    rw [badFrame_eq e _ hroom, setLink, frameLost, setLink]
    dsimp only [setLink_links]
    rw [vupd_vupd]
    rfl
  rw [h1]

end

/-- A domain whose slots read the previous sums. -/
def previousSums (D : Domain) : Domain := renoteCurrent { D with vHub := D.vPrev, iHub := D.iPrev }

/-- A domain whose activity and hints of the frame are lost. -/
def reportLost (D : Domain) : Domain :=
  { D with tile := { D.tile with act := D.tile.act1 }, lant := { D.lant with hints := D.lant.hints.filter (fun h => !h.new) } }

/-- A domain whose up frame is lost: the previous sums, and no activity or hints of the frame. -/
def sumsLost (D : Domain) : Domain := reportLost (previousSums D)

/-- Whether an RC takes the marks of one of the die's sites. -/
def marksLost (s : State) (e d : Nat) : Bool := (domsOfDie e).any (fun x => isTile x && takesMarksOf s x d)

theorem marksLost_iff {s : State} {e d : Nat} : marksLost s e d = true ↔ ∃ x : Site, dieOf x = e ∧ takesMarksOf s x d = true := by
  simp only [marksLost, List.any_eq_true, mem_domsOfDie, Bool.and_eq_true, isTile, decide_eq_true_eq]
  constructor
  · rintro ⟨x, ⟨-, he⟩, hx, hm⟩
    exact ⟨⟨x, hx⟩, he, hm⟩
  · rintro ⟨x, he, hm⟩
    exact ⟨x, ⟨by omega, he⟩, x.isLt, hm⟩

/-- The step of one RC whose marks may be lost. -/
def markLost (e : Nat) (s : State) (d : Nat) : State := if marksLost s e d then setRc s d (fun R => { R with mark := false }) else s

theorem domOnly_markLost (e : Nat) (s : State) (d : Nat) : DomOnly s (markLost e s d) d := by
  unfold markLost
  split
  · exact domOnly_setDom s d _
  · exact .refl s d

theorem upLost_eq (s : State) (e : Nat) : upLost (upPrevious s e) e =
    foldDoms ((domsOfDie e).foldl (fun s d => setDom s d reportLost) ((domsOfDie e).foldl (fun s d => setDom s d previousSums) s)) (markLost e) :=
  rfl

theorem onlyDoms_sumsLost (s : State) (e : Nat) :
    OnlyDoms s ((domsOfDie e).foldl (fun s d => setDom s d reportLost) ((domsOfDie e).foldl (fun s d => setDom s d previousSums) s)) :=
  (onlyDoms_foldl_setDom _ _ s).trans (onlyDoms_foldl_setDom _ _ _)

theorem onlyDoms_upLost (s : State) (e : Nat) : OnlyDoms s (upLost (upPrevious s e) e) :=
  (onlyDoms_sumsLost s e).trans (onlyDoms_foldDoms (domOnly_markLost e) _)

theorem marksLost_congr {s u : State} (h : OnlyDoms s u) (e d : Nat) : marksLost u e d = marksLost s e d := by
  simp only [marksLost, h.takesMarksOf]

/-- What a bad up frame leaves of a domain. -/
theorem domOf_upLost (s : State) (e : Nat) {d : Nat} (hd : d < 80) : domOf (upLost (upPrevious s e) e) d =
    let D := if dieOf d = e then sumsLost (domOf s d) else domOf s d
    if marksLost s e d = true then { D with rc := { D.rc with mark := false } } else D := by
  have hsums := domOf_dieSetDom reportLost e ((domsOfDie e).foldl (fun s d => setDom s d previousSums) s) hd
  rw [domOf_dieSetDom previousSums e s hd] at hsums
  have honly := onlyDoms_sumsLost s e
  rw [upLost_eq]
  generalize (domsOfDie e).foldl (fun s d => setDom s d reportLost) ((domsOfDie e).foldl (fun s d => setDom s d previousSums) s) = w at hsums honly
  obtain ⟨v, hv, hold, hnew⟩ := domOf_foldDoms (domOnly_markLost e) w hd
  have hD : domOf v d = if dieOf d = e then sumsLost (domOf s d) else domOf s d := by
    rw [hold, hsums]
    split
    · rfl
    · rfl
  rw [hnew, ← hD, markLost, marksLost_congr (honly.trans hv)]
  dsimp only
  split
  · exact domOf_setDom_same v _ hd
  · rfl

end Sys2Proof.Laws
end

section
/-! The station's records, and the hold of a domain whose link is lost (R38, R118, R119). -/

namespace Sys2Proof.Laws
open Sys2Proof Sys2Proof.Machine
set_option Elab.async false

/-! ### What a station has from the hub -/

/-- What a station has from its records, and whether the hub holds the domain. -/
def stationed (D : Domain) : Byte × BitVec 3 × Nat × Bool × BitVec 2 × BitVec 16 × Bool :=
  (D.stSeq, D.stOrder, D.stCode, D.flareArm, D.stDiv, D.stSkip, D.held)

theorem sameView_unparkAll {β : Type} {m : Domain → β} (h : ∀ D c, m { D with cells := c } = m D) (s : State) (d : Nat) :
    SameView m s (unparkAll s d) :=
  sameView_foldl (fun v x => by
    extract_lets c
    exact sameView_of_ite (sameView_setDom v x.1 _ fun D => h D _) (.refl v)) _ s

theorem stationed_stationHold (s : State) (d : Nat) : SameView stationed s (stationHold s d) :=
  sameView_of_ite (.refl s) ((sameView_unparkAll (fun _ _ => rfl) s d).trans (sameView_setMembers _ d _))

theorem stHeld_stationHold (s : State) {d : Nat} (hd : d < 80) : (domOf (stationHold s d) d).stHeld = true := by
  unfold stationHold
  split
  · assumption
  · rw [domOf_setMembers_self _ _ hd]

theorem sameView_driveThr {β : Type} {m : Domain → β} (h : ∀ D T b, m { D with tile := T, thrFrame := b } = m D) (s : State) (d : Nat) :
    SameView m s (driveThr s d) := by
  unfold driveThr
  exact sameView_of_ite (.refl s) (sameView_setMembers s d _ fun D => h D _ _)

/-- What the state order and the sequence of a record change of a member. -/
def recordOrdered (r : DownRec) (M : Domain) : Domain :=
  { M with stHeld := r.order == 3 || (M.stHeld && decide (3 < r.order)), stSeq := r.seq,
           stOrder := if r.order ≤ 3 then r.order else M.stOrder,
           park := { M.park with abort := M.park.abort || (decide (r.order ≤ 3) && (M.stHeld != (r.order == 3) || M.stOrder != r.order)) } }

/-- What a record changes of a member but for its set-point and `FLARE_ARM`. -/
def recordTaken (r : DownRec) (M : Domain) : Domain :=
  if (recordOrdered r M).stHeld then recordOrdered r M else { recordOrdered r M with stDiv := r.div, stSkip := r.skip }

theorem recordTaken_seq (r : DownRec) (M : Domain) : (recordTaken r M).stSeq = r.seq ∧ (recordTaken r M).pair = M.pair := by
  unfold recordTaken
  split <;> exact ⟨rfl, rfl⟩

/-- The order HELD holds the domain and leaves its set-point. -/
theorem recordTaken_held {r : DownRec} (h : r.order = 3) (M : Domain) :
    (recordTaken r M).stHeld = true ∧ (recordTaken r M).stCode = M.stCode := by
  have hM : (recordOrdered r M).stHeld = true := by
    show (r.order == 3 || _) = true
    rw [h]
    rfl
  rw [recordTaken, if_pos hM]
  exact ⟨hM, rfl⟩

/-- The orders DARK, SHADE and LIT end a hold, and the record's setting is in force. -/
theorem recordTaken_free {r : DownRec} (h : r.order.toNat < 3) (M : Domain) : (recordTaken r M).stHeld = false ∧
    (recordTaken r M).stOrder = r.order ∧ (recordTaken r M).stDiv = r.div ∧ (recordTaken r M).stSkip = r.skip := by
  have hne : r.order ≠ 3 := fun he => by rw [he] at h; exact absurd h (by decide)
  have hle : r.order ≤ 3 := BitVec.le_def.mpr (show r.order.toNat ≤ 3 by omega)
  have hlt : ¬(3 : BitVec 3) < r.order := fun hl => absurd (BitVec.lt_def.mp hl) (show ¬3 < r.order.toNat by omega)
  have hM : (recordOrdered r M).stHeld = false := by
    show (r.order == 3 || (M.stHeld && decide (3 < r.order))) = false
    rw [beq_eq_false_iff_ne.mpr hne, decide_eq_false hlt, Bool.and_false]
    rfl
  rw [recordTaken, if_neg (by rw [hM]; decide)]
  exact ⟨hM, if_pos hle, rfl, rfl⟩

theorem takeRecord_domOf (s : State) {d : Nat} (r : DownRec) (hd : d < 80) :
    domOf (takeRecord s d r) d = recordTaken r (domOf (if r.order = 3 then stationHold s d else s) d) :=
  domOf_setMembers_self _ (recordTaken r) hd

theorem takeWhole_domOf (s : State) {d : Nat} (r : DownRec) (hd : d < 80) : ∃ M, M.stCode = (domOf s d).stCode ∧
    domOf (takeWhole s d r) d = stationCode r.code.toNat (stationArm s.time.gtc r.arm (recordTaken r M)) := by
  refine ⟨domOf (if r.order = 3 then stationHold s d else s) d, ?_, ?_⟩
  · split
    · exact (congrArg (fun x => x.2.2.1) ((stationed_stationHold s d).1 d) :)
    · rfl
  · rw [takeWhole, domOf_setMembers_self _ _ hd]
    rw [takeRecord_domOf s r hd]

/-- A station that holds its domain takes no set-point. -/
theorem station_held {D : Domain} (h : D.stHeld = true) (code g : Nat) (arm : Bool) : stationCode code (stationArm g arm D) = D := by
  rw [stationArm, if_pos h, stationCode, if_pos h]

/-- A station that does not hold its domain takes set-point and `FLARE_ARM`. -/
theorem station_free {D : Domain} (h : D.stHeld = false) (code g : Nat) (arm : Bool) : ∃ cells, stationCode code (stationArm g arm D) =
    { D with armOld := D.flareArm, armAt := g, flareArm := arm, stCode := code, cells := cells } := by
  have hn : ¬D.stHeld = true := by rw [h]; decide
  rw [stationArm, if_neg hn, stationCode, if_neg hn]
  exact ⟨_, rfl⟩

/-- What a record leaves at its station. -/
structure RecordTaken (r : DownRec) (D E : Domain) : Prop where
  seq : E.stSeq = r.seq
  held : r.order = 3 → E.stHeld = true ∧ E.stCode = D.stCode
  free : r.order.toNat < 3 → E.stHeld = false ∧ E.stOrder = r.order ∧ E.stCode = r.code.toNat ∧ E.flareArm = r.arm ∧ E.stDiv = r.div ∧
    E.stSkip = r.skip

theorem stSeq_station (code g : Nat) (arm : Bool) (D : Domain) : (stationCode code (stationArm g arm D)).stSeq = D.stSeq := by
  cases h : D.stHeld with
  | true => rw [station_held h]
  | false =>
    obtain ⟨cells, hfree⟩ := station_free h code g arm
    rw [hfree]

theorem recordTaken_takeWhole (s : State) {d : Nat} (r : DownRec) (hd : d < 80) :
    RecordTaken r (domOf s d) (domOf (takeWhole s d r) d) := by
  obtain ⟨M, hcode, hM⟩ := takeWhole_domOf s r hd
  rw [hM]
  refine ⟨(stSeq_station ..).trans (recordTaken_seq r M).1, fun h => ?_, fun h => ?_⟩
  · obtain ⟨hheld, hkeep⟩ := recordTaken_held h M
    rw [station_held hheld]
    exact ⟨hheld, hkeep.trans hcode⟩
  · obtain ⟨hheld, horder, hdiv, hskip⟩ := recordTaken_free h M
    obtain ⟨cells, hfree⟩ := station_free hheld r.code.toNat s.time.gtc r.arm
    rw [hfree]
    exact ⟨hheld, horder, rfl, rfl, hdiv, hskip⟩

/-- The fields that the throttle outputs do not touch. -/
def recorded (D : Domain) : Byte × Bool × BitVec 3 × Nat × Bool × BitVec 2 × BitVec 16 :=
  (D.stSeq, D.stHeld, D.stOrder, D.stCode, D.flareArm, D.stDiv, D.stSkip)

theorem RecordTaken.congr {r : DownRec} {D E F : Domain} (h : RecordTaken r D E) (hv : recorded F = recorded E) : RecordTaken r D F := by
  simp only [recorded, Prod.mk.injEq] at hv
  obtain ⟨h1, h2, h3, h4, h5, h6, h7⟩ := hv
  obtain ⟨hseq, hheld, hfree⟩ := h
  refine ⟨h1.trans hseq, ?_, ?_⟩
  · rw [h2, h4]
    exact hheld
  · rw [h2, h3, h4, h5, h6, h7]
    exact hfree

theorem stationStep_takeRecord (s : State) (d : Nat) (r : DownRec) : StationStep s (takeRecord s d r) d := by
  have h1 : StationStep s (if r.order = 3 then stationHold s d else s) d := stationStep_of_ite (stationStep_stationHold s d) (.refl s d)
  exact h1.trans (stationStep_setMembers _ d (recordTaken r) fun D => (recordTaken_seq r D).2)

theorem stationStep_takeOwn (s : State) (d : Nat) (r : DownRec) : StationStep s (takeOwn s d r) d := by
  refine stationStep_of_ite (.refl s d) (((stationStep_takeRecord s d r).trans (stationStep_setMembers _ d _ fun D => ?_)).trans
    (stationStep_driveThr _ d))
  cases h : D.stHeld with
  | true => rw [station_held h]
  | false =>
    obtain ⟨cells, hfree⟩ := station_free h r.code.toNat s.time.gtc r.arm
    rw [hfree]

theorem recordTaken_takeOwn {s : State} {d : Nat} (r : DownRec) (hd : d < 80) (ha : isAbsent s d = false) (ho : isOdd s d = false) :
    RecordTaken r (domOf s d) (domOf (takeOwn s d r) d) := by
  rw [takeOwn, if_neg (by rw [ha, ho]; decide)]
  exact (recordTaken_takeWhole s r hd).congr ((sameView_driveThr (fun _ _ _ => rfl) (takeWhole s d r) d).1 d)

/-- A frame's records taken by the stations of a die. -/
def takeAll (s : State) (e : Nat) (l : List DownRec) : State := ((domsOfDie e).zip l).foldl (fun s x => takeOwn s x.1 x.2) s

/-- What stations' steps leave: nothing but domains, and no pairing. -/
def StationsOnly (s u : State) : Prop := OnlyDoms s u ∧ ∀ d, (domOf u d).pair = (domOf s d).pair

theorem StationsOnly.step {s u v : State} {x : Nat} (h : StationsOnly s u) (k : StationStep u v x) : StationsOnly s v :=
  ⟨h.1.trans k.only, fun d => (k.pairs d).trans (h.2 d)⟩

theorem stationsOnly_refl (s : State) : StationsOnly s s := ⟨.refl s, fun _ => rfl⟩

section
variable {s : State} {e d : Nat} (l : List DownRec)

theorem stationsOnly_takeAll : StationsOnly s (takeAll s e l) :=
  foldl_inv (I := StationsOnly s) (fun _ _ hv => hv.step (stationStep_takeOwn _ _ _)) _ (stationsOnly_refl s)

theorem takeOwn_single (hs : Single s d) (v : State) (x : Nat × DownRec) (hv : StationsOnly s v) (hx : x.1 ≠ d) :
    domOf (takeOwn v x.1 x.2) d = domOf v d :=
  (stationStep_takeOwn v x.1 x.2).single (single_congr hv.2 hs) hx

theorem takeAll_other (hs : Single s d) (h : dieOf d ≠ e) : domOf (takeAll s e l) d = domOf s d :=
  foldl_key_kept (I := StationsOnly s) (P := fun v => domOf v d) (κ := Prod.fst) (k := d) (fun _ _ hv => hv.step (stationStep_takeOwn _ _ _))
    (takeOwn_single hs) (fun _ hx hd => h (hd ▸ (fst_mem_of_zip hx).2)) (stationsOnly_refl s)

theorem takeAll_record {i : Nat} {r : DownRec} (hd : (domsOfDie e)[i]? = some d) (hr : l[i]? = some r) (hs : Single s d)
    (ha : isAbsent s d = false) : RecordTaken r (domOf s d) (domOf (takeAll s e l) d) := by
  have hmem : (d, r) ∈ (domsOfDie e).zip l := mem_zip_of_getElem? hd hr
  obtain ⟨v, -, hold, hnew⟩ := foldl_key_at (I := StationsOnly s) (P := fun v => domOf v d) (κ := Prod.fst)
    (fun _ _ hv => hv.step (stationStep_takeOwn _ _ _)) (takeOwn_single hs) (nodup_zip_domsOfDie e l) hmem (stationsOnly_refl s)
  have hav : isAbsent v d = false := by rw [isAbsent, hold]; exact ha
  have hov : isOdd v d = false := by rw [isOdd, hold]; exact not_odd_of_none hs.1
  have htaken := recordTaken_takeOwn r (fst_mem_of_zip hmem).1 hav hov
  rw [hold] at htaken
  exact htaken.congr (congrArg recorded hnew)

end

/-! ### The loss of a link (R38, R39, R118) -/

/-- A step of one station that may also report internal changes. -/
def HoldStep (s u : State) (x : Nat) : Prop := s.ints <+: u.ints ∧ StationStep { s with ints := u.ints } u x

theorem StationStep.ints {s u : State} {x : Nat} (h : StationStep s u x) (l : List IntChange) :
    StationStep { s with ints := l } { u with ints := l } x := by
  obtain ⟨ho, hp, hr⟩ := h
  refine ⟨?_, hp, hr⟩
  rw [OnlyDoms] at *
  rw [ho]

theorem report_prefix (s : State) (d : Nat) (w : IntWhat) : s.ints <+: (report s d w).ints := by
  unfold report
  split
  · exact List.prefix_append ..
  · exact List.prefix_rfl

theorem ints_of_stationStep {s u : State} {x : Nat} (h : StationStep s u x) : u.ints = s.ints := by
  rw [h.only]

theorem holdStep_of_stationStep {s u : State} {x : Nat} (h : StationStep s u x) : HoldStep s u x := by
  have hi := ints_of_stationStep h
  refine ⟨by rw [hi], ?_⟩
  rw [hi]
  exact h

/-- A step, its report, and a further step of the same station. -/
theorem holdStep_report {s u v : State} {x : Nat} {w : IntWhat} (h : StationStep s u x) (k : StationStep (report u x w) v x) :
    HoldStep s v x := by
  have hi := ints_of_stationStep k
  refine ⟨by rw [hi, ← ints_of_stationStep h]; exact report_prefix u x w, ?_⟩
  rw [hi]
  refine (h.ints _).trans ?_
  rw [report_frame u x w] at k
  exact k

theorem stationStep_heldIfHeld (s : State) (d : Nat) : StationStep s (if (domOf s d).held then stationHold s d else s) d :=
  stationStep_of_ite (stationStep_stationHold s d) (.refl s d)

theorem holdStep_holdUnlinked (s : State) (d : Nat) : HoldStep s (holdUnlinked s d) d := by
  unfold holdUnlinked holdDomain
  extract_lets D s1
  by_cases h1 : (isOdd s d || D.held || !(D.state == .lit || D.state == .shade)) = true
  · rw [show s1 = s from if_pos h1]
    exact holdStep_of_stationStep (stationStep_heldIfHeld s d)
  by_cases h2 : inSoftStart D = true
  · rw [show s1 = forceDark s d false from (if_neg h1).trans (if_pos h2)]
    exact holdStep_report (stationStep_discharge s d) (stationStep_heldIfHeld _ d)
  by_cases h3 : (D.tr.ph == .discharge) = true
  · rw [show s1 = s from (if_neg h1).trans ((if_neg h2).trans (if_pos h3))]
    exact holdStep_of_stationStep (stationStep_heldIfHeld s d)
  · rw [show s1 = report _ d _ from (if_neg h1).trans ((if_neg h2).trans (if_neg h3))]
    exact holdStep_report (stationStep_setMembers s d _) (stationStep_heldIfHeld _ d)

/-- A LIT or SHADE domain outside a transition is held by hub and station. -/
theorem holdUnlinked_held {s : State} {d : Dom} (ho : isOdd s d = false) (hst : (domOf s d).state = .lit ∨ (domOf s d).state = .shade)
    (hheld : (domOf s d).held = false) (hsoft : inSoftStart (domOf s d) = false) (hph : (domOf s d).tr.ph ≠ .discharge) :
    (domOf (holdUnlinked s d) d).held = true ∧ (domOf (holdUnlinked s d) d).stHeld = true ∧
    ∃ i ∈ (holdUnlinked s d).ints, i.dom = d ∧ i.what = .held .linkLost := by
  have h1 : (isOdd s d || (domOf s d).held || !((domOf s d).state == .lit || (domOf s d).state == .shade)) = false := by
    rw [ho, hheld]
    rcases hst with h | h
    · rw [h]; rfl
    · rw [h]; rfl
  have hdom : ∃ v, holdDomain s d .linkLost = report v d (.held .linkLost) ∧ (domOf v d).held = true := by
    refine ⟨_, (if_neg (by rw [h1]; decide)).trans ((if_neg (by rw [hsoft]; decide)).trans (if_neg (by simpa using hph))), ?_⟩
    rw [domOf_setMembers_self _ _ d.isLt]
  obtain ⟨v, hv, hvh⟩ := hdom
  have hr : (domOf (report v d (.held .linkLost)) d).held = true := by
    rw [report_frame]
    exact hvh
  rw [holdUnlinked, hv, if_pos hr]
  refine ⟨?_, stHeld_stationHold _ d.isLt, ?_⟩
  · have hkeep : stationed (domOf (stationHold (report v d (.held .linkLost)) d) d) = _ := (stationed_stationHold _ d).1 d
    exact (congrArg (fun x => x.2.2.2.2.2.2) hkeep :).trans hr
  · rw [ints_of_stationStep (stationStep_stationHold _ d), report_eq]
    exact ⟨_, List.mem_append_right _ (List.mem_singleton.mpr rfl), rfl, rfl⟩

/-- What the hold of several stations leaves: domains and internal changes alone, and no pairing. -/
def HoldsOnly (s u : State) : Prop := s.ints <+: u.ints ∧ StationsOnly { s with ints := u.ints } u

theorem holdsOnly_refl (s : State) : HoldsOnly s s := ⟨List.prefix_rfl, stationsOnly_refl s⟩

theorem HoldsOnly.step {s u v : State} {x : Nat} (h : HoldsOnly s u) (k : HoldStep u v x) : HoldsOnly s v := by
  obtain ⟨hi, ho, hp⟩ := h
  obtain ⟨ki, kst⟩ := k
  refine ⟨hi.trans ki, ?_, fun d => (kst.pairs d).trans (hp d)⟩
  have hk := kst.only
  rw [OnlyDoms] at *
  rw [hk, ho]

/-- The hold of one domain of a lost link. -/
def holdOne (s : State) (x : Nat) : State := if isOdd s x then s else holdUnlinked s x

theorem holdStep_holdOne (s : State) (x : Nat) : HoldStep s (holdOne s x) x := by
  unfold holdOne
  split
  · exact holdStep_of_stationStep (.refl s x)
  · exact holdStep_holdUnlinked s x

section
variable {s : State} {e : Nat} {d : Dom} (hs : Single s d)
include hs

theorem holdOne_single (v : State) (x : Nat) (hv : HoldsOnly s v) (hx : x ≠ d) : domOf (holdOne v x) d = domOf v d :=
  (holdStep_holdOne v x).2.single (single_congr hv.2.2 hs) hx

theorem holdAll_other (h : dieOf d ≠ e) : domOf ((domsOfDie e).foldl holdOne s) d = domOf s d :=
  foldl_key_kept (I := HoldsOnly s) (P := fun v => domOf v d) (κ := id) (k := d.val) (fun _ _ hv => hv.step (holdStep_holdOne _ _))
    (holdOne_single hs) (fun _ hx hd => h (hd ▸ (mem_domsOfDie.mp hx).2)) (holdsOnly_refl s)

/-- Every domain of the die that may be held is held. -/
theorem holdAll_held (he : dieOf d = e) (hst : (domOf s d).state = .lit ∨ (domOf s d).state = .shade)
    (hheld : (domOf s d).held = false) (hsoft : inSoftStart (domOf s d) = false) (hph : (domOf s d).tr.ph ≠ .discharge) :
    (domOf ((domsOfDie e).foldl holdOne s) d).held = true ∧ (domOf ((domsOfDie e).foldl holdOne s) d).stHeld = true ∧
    ∃ i ∈ ((domsOfDie e).foldl holdOne s).ints, i.dom = d ∧ i.what = .held .linkLost := by
  have hmem : d.val ∈ domsOfDie e := mem_domsOfDie.mpr ⟨d.isLt, he⟩
  obtain ⟨v, l2, hv, hold, hfold, hne⟩ := foldl_key_split (I := HoldsOnly s) (P := fun v => domOf v d) (κ := id) (a := d.val) (g := holdOne)
    (fun _ _ hv => hv.step (holdStep_holdOne _ _)) (holdOne_single hs) (by rw [List.map_id]; exact nodup_domsOfDie e) hmem (holdsOnly_refl s)
  have hov : isOdd v d = false := by rw [isOdd, hold]; exact not_odd_of_none hs.1
  rw [← hold] at hst hheld hsoft hph
  obtain ⟨kheld, kst, i, hi, hid, hiw⟩ := holdUnlinked_held hov hst hheld hsoft hph
  have hone : holdOne v d = holdUnlinked v d := if_neg (by rw [hov]; decide)
  have hv2 := hv.step (holdStep_holdOne v d)
  have hlast : domOf (l2.foldl holdOne (holdOne v d)) d = domOf (holdOne v d) d :=
    foldl_key_kept (I := HoldsOnly s) (P := fun v => domOf v d) (κ := id) (k := d.val) (fun _ _ hv => hv.step (holdStep_holdOne _ _))
      (holdOne_single hs) hne hv2
  obtain ⟨hmore, -⟩ := foldl_inv (I := HoldsOnly (holdOne v d)) (fun _ _ hv => hv.step (holdStep_holdOne _ _)) l2 (holdsOnly_refl _)
  rw [hfold, hlast]
  rw [hone] at hmore ⊢
  exact ⟨kheld, kst, i, hmore.subset hi, hid, hiw⟩

end

theorem holdsOnly_holdAll (s : State) (e : Nat) : HoldsOnly s ((domsOfDie e).foldl holdOne s) :=
  foldl_inv (I := HoldsOnly s) (fun _ _ hv => hv.step (holdStep_holdOne _ _)) _ (holdsOnly_refl s)

/-! ### The return of a link (R119) -/

/-- The return of one domain of a restored link. -/
def resumeOne (s : State) (x : Nat) : State := if (domOf s x).held && !isOdd s x then report s x .resume else s

/-- Nothing but internal changes has been added. -/
def Reports (s u : State) : Prop := s.ints <+: u.ints ∧ u = { s with ints := u.ints }

theorem reports_resumeOne {s v : State} (h : Reports s v) (x : Nat) : Reports s (resumeOne v x) := by
  obtain ⟨hp, hf⟩ := h
  unfold resumeOne
  split
  · refine ⟨hp.trans (report_prefix v x .resume), (report_frame v x .resume).trans ?_⟩
    rw [hf]
  · exact ⟨hp, hf⟩

theorem reports_resumeAll (s : State) (e : Nat) : Reports s ((domsOfDie e).foldl resumeOne s) :=
  foldl_inv (I := Reports s) (fun _ x hv => reports_resumeOne hv x) _ ⟨List.prefix_rfl, rfl⟩

/-- Every held domain of the die returns. -/
theorem resumeAll_returns {s : State} {e : Nat} {d : Dom} (he : dieOf d = e) (hheld : (domOf s d).held = true) (ho : isOdd s d = false) :
    ∃ i ∈ ((domsOfDie e).foldl resumeOne s).ints, i.dom = d ∧ i.what = .resume := by
  have hmem : d.val ∈ domsOfDie e := mem_domsOfDie.mpr ⟨d.isLt, he⟩
  obtain ⟨v, l2, hv, -, hfold, -⟩ := foldl_key_split (I := Reports s) (P := fun _ => ()) (κ := id) (a := d.val) (g := resumeOne)
    (fun _ x hv => reports_resumeOne hv x) (fun _ _ _ _ => rfl) (by rw [List.map_id]; exact nodup_domsOfDie e) hmem ⟨List.prefix_rfl, rfl⟩
  obtain ⟨-, hvs⟩ := hv
  have hreturn : resumeOne v d = report v d .resume := by
    rw [resumeOne, if_pos]
    rw [hvs]
    show ((domOf s d).held && !isOdd s d) = true
    rw [hheld, ho]
    rfl
  obtain ⟨hmore, -⟩ := foldl_inv (I := Reports (report v d .resume)) (fun _ x hv => reports_resumeOne hv x) l2 ⟨List.prefix_rfl, rfl⟩
  rw [hfold, hreturn]
  exact ⟨{ dom := d, what := .resume, at_ := v.time.gtc }, hmore.subset (by rw [report_eq]; simp), rfl, rfl⟩

end Sys2Proof.Laws
end


section
/-! The statement about the station links. -/

namespace Sys2Proof.Laws
open Sys2Proof Sys2Proof.Machine
set_option Elab.async false

section
variable {s : State} {e : Fin 5}

/-- A down frame with bits of its own before the stations take its records. -/
def downReceived (s : State) (e : Nat) : State :=
  downCut (setLink (downGood s e) e (fun l => { l with taken := some s.time.gtc })) e

theorem onlyDoms_downCut (s : State) (e : Nat) : OnlyDoms s (downCut s e) := onlyDoms_foldl_setDom _ _ s

theorem domOf_downCut (s : State) (e : Nat) {d : Nat} (hd : d < 80) :
    domOf (downCut s e) d = if dieOf d = e then { domOf s d with downBad := true } else domOf s d :=
  domOf_dieSetDom (fun D => { D with downBad := true }) e s hd

theorem linkOf_of_onlyDoms {s u : State} (h : OnlyDoms s u) (e : Nat) : linkOf u e = linkOf s e := by
  rw [h]
  rfl

theorem linkOf_frameLost (s : State) (e : Fin 5) (run : Nat) (f : Link → Link) : linkOf (frameLost s e run f) e = f (linkOf s e) :=
  linkOf_setLink s e f

/-- The records of a received down frame. -/
theorem downReceived_record (l : List DownRec) {i d : Nat} {r : DownRec} (hd : (domsOfDie e)[i]? = some d) (hr : l[i]? = some r)
    (hs : Single s d) (ha : isAbsent s d = false) : RecordTaken r (domOf s d) (domOf (takeAll (downReceived s e) e l) d) := by
  obtain ⟨hlt, hdie⟩ := mem_domsOfDie.mp (List.mem_of_getElem? hd)
  have hcut (x : Nat) : ∃ b, domOf (downReceived s e) x = { domOf s x with downBad := b } := by
    by_cases hx : x < 80
    · rw [downReceived, domOf_downCut _ _ hx]
      split
      · exact ⟨true, rfl⟩
      · exact ⟨(domOf s x).downBad, rfl⟩
    · refine ⟨(domOf s x).downBad, ?_⟩
      rw [domOf_ge _ (Nat.le_of_not_lt hx), domOf_ge _ (Nat.le_of_not_lt hx)]
  have hpair (x : Nat) : (domOf (downReceived s e) x).pair = (domOf s x).pair := by
    obtain ⟨b, hb⟩ := hcut x
    rw [hb]
  obtain ⟨b, hb⟩ := hcut d
  have htaken := takeAll_record l hd hr (single_congr hpair hs) (by rw [isAbsent, hb]; exact ha)
  rw [hb] at htaken
  obtain ⟨hseq, hheld, hfree⟩ := htaken
  exact ⟨hseq, hheld, hfree⟩

theorem downReceived_other (l : List DownRec) {d : Dom} (hs : Single s d) (h : dieOf d ≠ e) :
    domOf (takeAll (downReceived s e) e l) d = domOf s d := by
  have hpair (x : Nat) : (domOf (downReceived s e) x).pair = (domOf s x).pair := by
    by_cases hx : x < 80
    · rw [downReceived, domOf_downCut _ _ hx]
      split <;> rfl
    · rw [domOf_ge _ (Nat.le_of_not_lt hx), domOf_ge _ (Nat.le_of_not_lt hx)]
  rw [takeAll_other l (single_congr hpair hs) h, downReceived, domOf_downCut _ _ d.isLt, if_neg h]
  rfl

/-- The state that a bad up frame leaves. -/
def upDropped (s : State) (e : Nat) : State := upLost (upPrevious (frameLost s e (linkOf s e).upBad (upCounted s.time.gtc)) e) e

theorem onlyDoms_upDropped (s : State) (e : Nat) : OnlyDoms (frameLost s e (linkOf s e).upBad (upCounted s.time.gtc)) (upDropped s e) :=
  onlyDoms_upLost _ e

section
variable (s : State) (e : Nat) (d : Dom)

theorem domOf_upDropped : domOf (upDropped s e) d =
    let D := if dieOf d = e then sumsLost (domOf s d) else domOf s d
    if marksLost s e d = true then { D with rc := { D.rc with mark := false } } else D :=
  domOf_upLost (frameLost s e (linkOf s e).upBad (upCounted s.time.gtc)) e d.isLt

/-- The hub reads the previous sums of the die's domains and loses the frame's activity and hints (R37, R39). -/
theorem upDropped_sums (h : dieOf d = e) : (domOf (upDropped s e) d).vHub = (domOf s d).vPrev ∧
    (domOf (upDropped s e) d).iHub = (domOf s d).iPrev ∧
    (domOf (upDropped s e) d).tile = { (domOf s d).tile with act := (domOf s d).tile.act1 } ∧
    (domOf (upDropped s e) d).lant.hints = (domOf s d).lant.hints.filter (fun h => !h.new) := by
  rw [domOf_upDropped, if_pos h]
  dsimp only
  split <;> exact ⟨rfl, rfl, rfl, rfl⟩

theorem upDropped_marked (h : ∃ x : Site, dieOf x = e ∧ takesMarksOf s x d = true) :
    (domOf (upDropped s e) d).rc = { (domOf s d).rc with mark := false } := by
  rw [domOf_upDropped, if_pos (marksLost_iff.mpr h)]
  dsimp only
  split <;> rfl

/-- A domain whose RC takes no mark of the die is changed only where it belongs to the die. -/
theorem upDropped_unmarked (h : ∀ x : Site, dieOf x = e → takesMarksOf s x d = false) :
    domOf (upDropped s e) d = if dieOf d = e then sumsLost (domOf s d) else domOf s d := by
  rw [domOf_upDropped]
  refine if_neg fun hm => ?_
  obtain ⟨x, hx, hxm⟩ := marksLost_iff.mp hm
  rw [h x hx] at hxm
  exact Bool.noConfusion hxm

theorem upDropped_other (h : ∀ x : Site, dieOf x = e → takesMarksOf s x d = false) (hd : dieOf d ≠ e) :
    domOf (upDropped s e) d = domOf s d := by
  rw [upDropped_unmarked s e d h, if_neg hd]

theorem upDropped_rc (h : ∀ x : Site, dieOf x = e → takesMarksOf s x d = false) : (domOf (upDropped s e) d).rc = (domOf s d).rc := by
  rw [upDropped_unmarked s e d h]
  split <;> rfl

end

/-- The state in which the domains of a lost link are held. -/
def linkDropped (s : State) (e : Nat) : State :=
  linkFault (setLink s e (fun l => { l with lost := true, trained := false, good := 0, upBad := 0, dnBad := 0, lostAt := s.time.gtc })) 1 e

theorem exec_linkLost (ht : (linkOf s e).trained = true) (h : 4 ≤ (linkOf s e).upBad ∨ 4 ≤ (linkOf s e).dnBad) (t : Nat) :
    exec (.linkLost e t) s = .next ((domsOfDie e).foldl holdOne (linkDropped (now t s) e)) := by
  refine if_pos ?_
  show ((decide (4 ≤ (linkOf s e).upBad) || decide (4 ≤ (linkOf s e).dnBad)) && (linkOf s e).trained) = true
  rw [ht]
  simpa using h

theorem exec_linkRestored (hl : (linkOf s e).lost = true) (ht : (linkOf s e).trained = true) (hg : 64 ≤ (linkOf s e).good) (t : Nat) :
    exec (.linkRestored e t) s = .next ((domsOfDie e).foldl resumeOne (setLink (now t s) e (fun l => { l with lost := false }))) := by
  refine if_pos ?_
  show ((linkOf s e).lost && (linkOf s e).trained && decide (64 ≤ (linkOf s e).good)) = true
  rw [hl, ht, decide_eq_true hg]
  rfl

end

end Sys2Proof.Laws

namespace Sys2Proof.Proofs
open Sys2Proof Sys2Proof.Machine Sys2Proof.Laws
set_option Elab.async false

/-- Settles O38: each frame, loss, training and return of a link changes the link and the domains that the manual names. -/
theorem stationLinks : Obligations.StationLinks := by
  unfold Obligations.StationLinks
  refine fun e lat t s => ⟨fun ht hfit => ⟨?_, ?_, fun b f hb => ?_, fun b f hb => ?_⟩, fun ht hroom => ⟨fun rx hrx => ?_, fun rx hrx => ?_⟩,
    fun ht hrun => ?_, fun ht => exec_linkTrained ht lat t, rfl, fun hl ht hg => ?_⟩
  · rw [exec_linkUpFrame ht, if_pos hfit]
    exact congrArg Host.Outcome.next (setLink_congr (s := now t s) rfl)
  · rw [exec_linkDownFrame ht, if_pos hfit]
    rfl
  · refine ⟨takeSums (upGood (now t s) e) e f, ?_, fun i d r hd hr => takeSums_record hd hr, ?_, fun d hd => takeSums_other f hd, ?_⟩
    · rw [exec_linkUpFrame ht, if_pos hfit]
      dsimp only
      rw [hb]
    · rw [linkOf_of_onlyDoms (takeSums_only _ _ _), upGood, linkOf_setLink]
      rfl
    · rw [takeSums_only (upGood (now t s) e) e f]
      rfl
  · have honly := (stationsOnly_takeAll (s := downReceived (now t s) e) (e := e) f.recs).1
    refine ⟨takeAll (downReceived (now t s) e) e f.recs, ?_, fun i d r hd hr hs ha => ?_, ?_, fun d hd hs => downReceived_other f.recs hs hd, ?_⟩
    · rw [exec_linkDownFrame ht, if_pos hfit]
      dsimp only
      rw [hb]
      rfl
    · obtain ⟨hseq, hheld, hfree⟩ := downReceived_record (s := now t s) f.recs hd hr hs ha
      exact ⟨hseq, hheld, hfree⟩
    · rw [linkOf_of_onlyDoms honly, downReceived, linkOf_of_onlyDoms (onlyDoms_downCut _ _), linkOf_setLink, downGood, linkOf_setLink]
      rfl
    · rw [honly, downReceived, onlyDoms_downCut (setLink (downGood (now t s) e) e _) e]
      rfl
  · have honly := onlyDoms_upDropped (now t s) e
    refine ⟨upDropped (now t s) e, (exec_linkUpFrame_bad ht hrx t).trans (congrArg Host.Outcome.next (upBadFrame_eq (s := now t s) e hroom)),
      ?_, upDropped_sums (now t s) e, upDropped_marked (now t s) e, upDropped_rc (now t s) e,
      fun d hd hm => upDropped_other (now t s) e d hm hd, ?_, ?_⟩
    · rw [linkOf_of_onlyDoms honly, linkOf_frameLost]
      rfl
    · rw [honly]
      rfl
    · rw [honly]
      rfl
  · have honly := onlyDoms_downCut (frameLost (now t s) e (linkOf s e).dnBad (downCounted (now t s).time.gtc)) e
    refine ⟨_, (exec_linkDownFrame_bad ht hrx t).trans (congrArg Host.Outcome.next (downBadFrame_eq (s := now t s) e hroom)), ?_,
      fun d => domOf_downCut _ e d.isLt, ?_, ?_⟩
    · rw [linkOf_of_onlyDoms (onlyDoms_downCut _ _), linkOf_frameLost]
      rfl
    · rw [onlyDoms_downCut]
      rfl
    · rw [onlyDoms_downCut]
      rfl
  · have hdrop : linkDropped (now t s) e = _ := raise_eq _ 1 0x40 0x6 (0xF0 + e) 0 (fun h => absurd h (by decide))
    obtain ⟨-, honly, -⟩ := holdsOnly_holdAll (linkDropped (now t s) e) e
    have hsame (d : Dom) : domOf (linkDropped (now t s) e) d = domOf s d := by rw [hdrop]; rfl
    have hpair (x : Nat) : (domOf (linkDropped (now t s) e) x).pair = (domOf s x).pair := by rw [hdrop]; rfl
    refine ⟨_, exec_linkLost ht hrun t, ?_, ?_, fun d hd hs hst hheld hsoft hph => ?_, fun d hd hs => ?_, ?_, ?_⟩
    · rw [linkOf_of_onlyDoms honly]
      rw [hdrop]
      exact linkOf_setLink (now t s) e (fun l => { l with lost := true, trained := false, good := 0, upBad := 0, dnBad := 0, lostAt := (now t s).time.gtc })
    · rw [honly, hdrop]
      exact ⟨_, List.mem_append_right _ (List.mem_singleton.mpr rfl), rfl⟩
    · rw [show vget s.dom d = domOf (linkDropped (now t s) e) d from (hsame d).symm] at hst hheld hsoft hph
      exact holdAll_held (single_congr hpair hs) hd hst hheld hsoft hph
    · exact (holdAll_other (single_congr hpair hs) hd).trans (hsame d)
    · rw [honly, hdrop]
      rfl
    · rw [honly, hdrop]
      rfl
  · obtain ⟨-, hf⟩ := reports_resumeAll (setLink (now t s) e (fun l => { l with lost := false })) e
    refine ⟨_, exec_linkRestored hl ht hg t, ?_, fun d hd hheld ho => resumeAll_returns hd hheld ho, ?_⟩
    · rw [hf]
      exact linkOf_setLink (now t s) e _
    · rw [hf]
      rfl

end Sys2Proof.Proofs
end

section
/-! Power-on reset, the strata log's opening, the GTC input, and what the entry into the safe state leaves (R35, R36, R57 to R59, R365, R376). -/

namespace Sys2Proof.Laws
open Sys2Proof Sys2Proof.Machine
set_option Elab.async false

/-! ### The entry into the safe state (R365, R376) -/

/-- A step that puts domains into DARK, sheds the bus and ends accepted commands. -/
def ShedStep (s u : State) : Prop := u = { s with dom := u.dom, ints := u.ints, cmds := u.cmds, bus := u.bus }

theorem ShedStep.trans {s u v : State} (h : ShedStep s u) (k : ShedStep u v) : ShedStep s v := by
  rw [ShedStep] at *
  rw [k, h]

theorem shedStep_of_holdsOnly {s u : State} (h : HoldsOnly s u) : ShedStep s u := by
  obtain ⟨-, ho, -⟩ := h
  rw [OnlyDoms] at ho
  rw [ShedStep, ho]

/-- One domain of the safe state's entry. -/
def darkOne (s : State) (d : Nat) : State :=
  if (domOf s d).state == .dark || (domOf s d).state == .absent || isOdd s d then s
  else if (domOf s d).tr.ph == .discharge then report s d (.dark false)
  else forceDark s d false

theorem holdStep_darkOne (s : State) (d : Nat) : HoldStep s (darkOne s d) d := by
  unfold darkOne
  split
  · exact holdStep_of_stationStep (.refl s d)
  split
  · exact holdStep_report (.refl s d) (.refl _ d)
  · exact holdStep_report (stationStep_discharge s d) (.refl _ d)

theorem shedStep_darkAll (s : State) : ShedStep s (darkAll s) := by
  unfold darkAll
  split
  · rfl
  · exact shedStep_of_holdsOnly (foldl_inv (g := darkOne) (fun _ _ hv => hv.step (holdStep_darkOne _ _)) (List.range 80) (holdsOnly_refl s))

theorem shedStep_busStart (s : State) : ShedStep s (busStart s) := by
  rw [ShedStep, busStart_frame]

theorem shedStep_busOff (s : State) : ShedStep s (busOff s) := by
  unfold busOff
  extract_lets offs
  split
  · exact ShedStep.trans (u := { s with bus := { s.bus with
      queue := aheadOf [] _, cur := none, waitRetry := false } }) rfl (shedStep_busStart _)
  · exact ShedStep.trans (u := { s with bus := { s.bus with queue := aheadOf offs s.bus.queue } }) rfl (shedStep_busStart _)

/-- The collector's part of the entry. -/
def safeEntered (m : DWord) (r : Safety) : Safety :=
  if r.safe then { r with causes := r.causes ++ [m] }
  else { r with causes := r.causes ++ [m], safe := true, fKind := BitVec.ofNat 8 (fKindOf m), fSrc := BitVec.ofNat 12 (fUnit m * 256 + fInst m),
                hbMode := false, hb := false }

theorem safeEntered_safe (m : DWord) (r : Safety) : (safeEntered m r).queue = r.queue ∧ (safeEntered m r).pfailLow = r.pfailLow ∧
    (safeEntered m r).safe = true := by
  unfold safeEntered
  split
  · rename_i h
    exact ⟨rfl, rfl, h⟩
  · exact ⟨rfl, rfl, rfl⟩

/-- What the entry leaves: the safe state in force, and nothing changed but domains, internal changes, commands, bus and collector. -/
theorem enterSafe_frame (s : State) (m : DWord) : ShedStep { s with safety := safeEntered m s.safety } (enterSafe s m) := by
  by_cases h : s.safety.safe = true
  · rw [safeEntered, if_pos h]
    have hjoin : enterSafe s m = { s with safety := { s.safety with causes := s.safety.causes ++ [m] } } := if_pos h
    rw [hjoin]
    rfl
  · rw [safeEntered, if_neg h]
    have hshed (v : State) : ShedStep v (busOff (darkAll (refuseAccepted v))) :=
      (ShedStep.trans (u := refuseAccepted v) rfl (shedStep_darkAll _)).trans (shedStep_busOff _)
    have hrefuse : enterSafe s m = busOff (darkAll (refuseAccepted _)) := if_neg h
    rw [hrefuse]
    exact hshed _

/-- A message found while no control reset runs waits for the collector. -/
theorem atOnce_idle {s : State} (h : s.clk.crstBusy = false) (m : DWord) : atOnce s m = s := by
  unfold atOnce
  rw [h]
  rfl

/-- A fatal message during a control reset acts at once; any other waits for the collector. -/
theorem atOnce_frame (s : State) (m : DWord) : ∃ r : Safety, r.queue = s.safety.queue ∧ r.pfailLow = s.safety.pfailLow ∧
    (s.clk.crstBusy = true → fClass m = 2 → r.safe = true ∧ r.pin = false) ∧ ShedStep { s with safety := r } (atOnce s m) := by
  unfold atOnce
  split
  · obtain ⟨hq, hp, hs⟩ := safeEntered_safe m s.safety
    have hf := enterSafe_frame s m
    refine ⟨{ safeEntered m s.safety with level := false, pin := false, pulseTo := some (s.time.run + pulseNs) }, hq, hp, fun _ _ => ⟨hs, rfl⟩, ?_⟩
    rw [ShedStep] at hf ⊢
    rw [hf]
    rfl
  · rename_i h
    refine ⟨s.safety, rfl, rfl, fun hb hc => absurd ?_ h, rfl⟩
    rw [hb, hc]
    rfl

/-! ### Without commands nothing is assigned or accepted -/

section
variable {s : State} (h : s.cmds = [])
include h

theorem assigned_nil (b : Bool) : assigned s b = [] := by
  rw [assigned, h]
  rfl

theorem resumeCmds_nil : resumeCmds s = s := by
  have hs : ({ s with cmds := s.cmds.map (fun c =>
      if c.stage = .accepted ∧ c.refuse then { c with shutter := shutterAfter s.time.gtc }
      else if c.stage = .accepted ∧ !dAt c.d then { c with shutter := 0 } else c) } : State) = s := by
    rw [h, List.map_nil, ← h]
  unfold resumeCmds
  extract_lets first late s1 s2
  have h1 : s1 = s := by
    dsimp only [s1]
    rw [assigned_nil h]
    rfl
  have h2 : s2 = s := by
    dsimp only [s2]
    rw [h1]
    exact hs
  rw [h2, assigned_nil h]
  rfl

theorem headUnit_nil (p : Nat) : headUnit s p = none := by
  rw [headUnit, h]
  rfl

theorem tryPorts_nil (l : List Nat) : tryPorts s l = (s, false) := by
  induction l with
  | nil => rfl
  | cons p l ih => rw [tryPorts, headUnit_nil h, ih]

theorem acceptAll_nil : acceptAll s = s := by
  have ho : orphaned s = none := by
    rw [orphaned, h]
    rfl
  rw [acceptAll, h]
  show acceptLoop 1 s = s
  rw [acceptLoop, ho]
  dsimp only
  rw [tryPorts_nil h]
  rfl

end

/-! ### The opening of the log (R57 to R59, R388) -/

theorem norFit_iff (nor : NorInfo) : norFit nor = true ↔
    ∃ x, nor.sfdp = some x ∧ x.revB = true ∧ 64 * 2 ^ 20 ≤ x.bytes ∧ x.page = 256 ∧ (∃ e ∈ x.erases, e.1 = 0x1000) ∧ 100 ≤ x.readMHz ∧
      x.progUs ≤ 250 ∧ ∃ y, x.esusp = some y ∧ y.us ≤ 30 := by
  unfold norFit
  cases hx : nor.sfdp with
  | none => simp
  | some x =>
    cases hy : x.esusp <;>
      simp [sfdpMeets, hy, and_assoc]

/-- The start of an erase changes what is erased alone. -/
theorem startErase_frame (s : State) : startErase s = { s with strata := { s.strata with
    erasing := (startErase s).strata.erasing, oldest := (startErase s).strata.oldest, issued := (startErase s).strata.issued } } := by
  unfold startErase
  split
  · rfl
  · split <;> rfl

theorem openStrata_fit {nor : NorInfo} (h : norFit nor = true) (s : State) :
    openStrata nor s = startErase { s with strata := strataFound nor { s.strata with issued := norBringUp nor } } := if_pos h

theorem openStrata_unfit {nor : NorInfo} (h : norFit nor = false) (s : State) : openStrata nor s =
    raise { issue (norBringUp nor) s with freeIdx := s.freeIdx + 1 } 1 0x60 0xB (Config.fresh s.freeIdx % 256) 0 :=
  if_neg (by rw [h]; decide)

/-- The state at the release of DG_POR_N, before the NOR device is examined. -/
def released (s : State) : State :=
  { stretchUpdate (setClk s (fun c => setRun { c with run := Vector.replicate 7 true } 3 (c.men && c.lockM))) with
    safety := { s.safety with pin := s.safety.level, porHigh := true } }

theorem exec_porRelease (nor : NorInfo) (t : Nat) (s : State) :
    exec (.porRelease nor t) s = .next (staleUpdate (openStrata nor (released (now t s)))) := rfl

theorem released_run (s : State) {i : Nat} (hi : i < 7) (h : i ≠ 3) : vget (released s).clk.run i = true := by
  show vget (vset (Vector.replicate 7 true) 3 _) i = true
  rw [vget_vset_ne _ _ h.symm, vget_replicate _ hi]

/-- An empty log: its numbers start anew. -/
theorem emptyLog (k : Nat) : highestSeq [] = 0 ∧ lastBoot [] = none ∧ breathFound [] = false ∧ logEnds [] k = (0, 0) := ⟨rfl, rfl, rfl, rfl⟩

/-- The release with a device that meets R57. -/
theorem porRelease_fit {nor : NorInfo} (h : norFit nor = true) (t : Nat) (s : State) : ∃ er ol iss u,
    exec (.porRelease nor t) s = .next u ∧ ContextsOnly s u ∧
    u = { released (now t s) with
          strata := { strataFound nor s.strata with erasing := er, oldest := ol, issued := iss }, meter := u.meter, dom := u.dom } := by
  have hopen := openStrata_fit h (released (now t s))
  generalize hw : ({ released (now t s) with strata := strataFound nor { (released (now t s)).strata with issued := norBringUp nor } } : State) = w
    at hopen
  have herase := startErase_frame w
  refine ⟨(startErase w).strata.erasing, (startErase w).strata.oldest, (startErase w).strata.issued, staleUpdate (startErase w),
    by rw [exec_porRelease, hopen], contextsOnly_trans (contextsOnly_of_dom ?_) (meterStep_staleUpdate (startErase w)).doms, ?_⟩
  · rw [herase, ← hw]
    rfl
  · rw [staleUpdate_frame, herase, ← hw]
    rfl

/-- The release with a device that does not: NOR_ERR is queued and the log stays closed (R59). -/
theorem porRelease_unfit {nor : NorInfo} (h : norFit nor = false) (t : Nat) (s : State) : ∃ (m : FaultMsg) (u : State),
    exec (.porRelease nor t) s = .next u ∧ fKindOf m.bits = 0x60 ∧ fClass m.bits = 1 ∧ fUnit m.bits = 0xB ∧
    u.strata = { s.strata with issued := norBringUp nor } ∧
    u.safety = { s.safety with pin := s.safety.level, porHigh := true, queue := s.safety.queue ++ [m] } := by
  have hopen := openStrata_unfit h (released (now t s))
  generalize hv : ({ issue (norBringUp nor) (released (now t s)) with freeIdx := (released (now t s)).freeIdx + 1 } : State) = v at hopen
  have hraise := raise_eq v 1 0x60 0xB (Config.fresh (released (now t s)).freeIdx % 256) 0 (fun h => absurd h (by decide))
  refine ⟨{ bits := faultWord 1 0x60 0xB (Config.fresh (released (now t s)).freeIdx % 256) 0 (epochIn v), from_ := none, ext := 0 },
    staleUpdate (openStrata nor (released (now t s))), rfl, fKindOf_faultWord 1 0x60 .., fClass_faultWord 1 .., fUnit_faultWord 1 0x60 0xB .., ?_, ?_⟩
  · rw [staleUpdate_frame, hopen, hraise, ← hv]
    rfl
  · rw [staleUpdate_frame, hopen, hraise, ← hv]
    rfl

/-! ### The GTC input (R35, R36) -/

/-- Whether a sample is a discontinuity, or `GTC_VLD` has fallen. -/
def GtcJumps (s : State) (prev sample : Nat) (fell : Bool) : Prop :=
  fell = true ∨ sample < prev ∨ prev + (if s.clk.ccur = 1 ∧ s.clk.cBusy = false then 8 else 16) < sample

theorem gtcJumps_iff {s : State} {prev sample : Nat} {fell : Bool} :
    (!fell && !sampleJumps s prev sample) = true ↔ ¬GtcJumps s prev sample fell := by
  simp [GtcJumps, sampleJumps]

theorem anyLit_iff {s : State} : (List.range 80).any (fun d => (domOf s d).state == .lit || (domOf s d).state == .held) = true ↔
    ∃ d : Dom, (vget s.dom d).state = .lit ∨ (vget s.dom d).state = .held := by
  simp only [List.any_eq_true, List.mem_range, Bool.or_eq_true, beq_iff_eq]
  constructor
  · rintro ⟨d, hd, h⟩
    exact ⟨⟨d, hd⟩, h⟩
  · rintro ⟨d, h⟩
    exact ⟨d, d.isLt, h⟩

/-- The loss of the GTC clock in time. -/
def gtcDropped (fell : Bool) (s : State) : State := { s with time := { s.time with vld := s.time.vld && !fell } }

section
variable {s : State} {prev t : Nat} {fell : Bool}

theorem exec_gtcDiscontinuity_same (h : ¬GtcJumps s (Nat.max prev s.time.gtc) t fell) :
    exec (.gtcDiscontinuity ⟨prev, t⟩ fell) s = .next (now t s) := if_pos (gtcJumps_iff.mpr h)

variable (h : GtcJumps s (Nat.max prev s.time.gtc) t fell)
include h

theorem exec_gtcDiscontinuity_lit (hl : ∃ d : Dom, (vget s.dom d).state = .lit ∨ (vget s.dom d).state = .held) :
    exec (.gtcDiscontinuity ⟨prev, t⟩ fell) s =
      let last := Nat.max prev s.time.gtc
      let s1 := carryTimes last t s
      .next (gtcDropped fell (atOnce (raiseExt s1 2 0x30 0xA 0x10 (last % 2 ^ 32) (BitVec.ofNat 32 (last / 2 ^ 32)))
        (faultWord 2 0x30 0xA 0x10 (last % 2 ^ 32) (epochIn s1)))) :=
  (if_neg fun hj => gtcJumps_iff.mp hj h).trans (if_pos (anyLit_iff.mpr hl))

theorem exec_gtcDiscontinuity_dark (hl : ¬∃ d : Dom, (vget s.dom d).state = .lit ∨ (vget s.dom d).state = .held) :
    exec (.gtcDiscontinuity ⟨prev, t⟩ fell) s =
      let s1 := gtcDropped fell (raise (carryTimes (Nat.max prev s.time.gtc) t s) 0 0x31 0xA 0x10 0)
      .next (acceptAll (resumeCmds { s1 with time := { s1.time with resume := true } })) :=
  (if_neg fun hj => gtcJumps_iff.mp hj h).trans (if_neg fun hd => hl (anyLit_iff.mp hd))

end

theorem exec_shutterStart {s : State} {t : Nat} (hv : s.time.vld = true) (hq : s.time.vldSince + 10000 ≤ t)
    (hr : s.time.resume = true → s.therm.valid = true ∧ s.clk.pwrCur ≠ 2) :
    exec (.shutterStart t) s = .next { now t s with time := { (now t s).time with started := true } } := by
  have hready : resumeReady (now t s) = true := by
    show (!s.time.resume || (s.therm.valid && s.clk.pwrCur != 2)) = true
    cases hres : s.time.resume with
    | false => rfl
    | true =>
      obtain ⟨hvalid, hpwr⟩ := hr hres
      rw [hvalid, bne_iff_ne.mpr hpwr]
      rfl
  refine if_pos ?_
  show (s.time.vld && decide (s.time.vldSince + 10000 ≤ t) && resumeReady (now t s)) = true
  rw [hv, hready, decide_eq_true hq]
  rfl

end Sys2Proof.Laws

namespace Sys2Proof.Proofs
open Sys2Proof Sys2Proof.Machine Sys2Proof.Laws
set_option Elab.async false

/-- Settles O48: reset values, the opening of the log, qualification of the GTC and its discontinuities are as the manual states. -/
theorem powerOnAndGtc : Obligations.PowerOnAndGtc := by
  unfold Obligations.PowerOnAndGtc
  intro nor t prev fell s fit
  have hfit : norFit nor = true ↔ fit := norFit_iff nor
  refine ⟨rfl, fun h => ?_, fun h => ?_, ?_, exec_shutterStart, ?_⟩
  · obtain ⟨er, ol, iss, u, hexec, hctx, hu⟩ := porRelease_fit (hfit.mpr h) t s
    have hclk : u.clk = (released (now t s)).clk := by rw [hu]
    have hsafe : u.safety = { s.safety with pin := s.safety.level, porHigh := true } := by rw [hu]; rfl
    have hst : u.strata = { strataFound nor s.strata with erasing := er, oldest := ol, issued := iss } := by rw [hu]
    have hheads (k : Fin 4) : vget u.strata.heads k = (logEnds nor.image k).1 := by
      rw [hst]
      exact vget_ofFn (fun k : Fin 4 => (logEnds nor.image k.val).1) k
    refine ⟨u, hexec, fun i hi => ?_, hsafe, by rw [hst]; rfl, by rw [hst]; rfl, by rw [hst]; rfl, fun b hb => ?_, fun hb => ?_, hheads,
      fun himg => ?_, by rw [hst]; rfl, hctx, ?_⟩
    · rw [hclk]
      exact released_run _ i.isLt fun h => hi (Fin.ext h)
    · rw [hst]
      simp only [strataFound, hb]
    · rw [hst]
      simp only [strataFound, hb]
      rfl
    · have hk (k : Fin 4) : vget u.strata.heads k = 0 := by
        rw [hheads, himg, (emptyLog k).2.2.2]
      rw [hst] at hk ⊢
      simp only [strataFound, himg] at hk ⊢
      exact ⟨rfl, rfl, rfl, hk⟩
    · rw [hu]
      rfl
  · have hf : norFit nor = false := Bool.eq_false_iff.mpr fun hn => h (hfit.mp hn)
    obtain ⟨m, u, hexec, hkind, hclass, hunit, hst, hsafe⟩ := porRelease_unfit hf t s
    refine ⟨u, hexec, ?_, ?_, m, ?_, hkind, hclass, hunit⟩
    · rw [hst]
    · rw [hsafe]
    · rw [hsafe]
  · exact (apply_ite Host.Outcome.next ..).symm
  · intro last jumps lit
    refine ⟨fun h => exec_gtcDiscontinuity_same h, fun h hl => ?_, fun h hl hcmds hroom => ?_⟩
    · refine ⟨_, exec_gtcDiscontinuity_lit h hl, ?_⟩
      have hraise : raiseExt (carryTimes last t s) 2 0x30 0xA 0x10 (last % 2 ^ 32) (BitVec.ofNat 32 (last / 2 ^ 32)) = _ :=
        enqueueFault_eq _ _ fun hc => absurd hc (by rw [fClass_faultWord]; decide)
      obtain ⟨r, hq, -, hsafe, hf⟩ := atOnce_frame (raiseExt (carryTimes last t s) 2 0x30 0xA 0x10 (last % 2 ^ 32) (BitVec.ofNat 32 (last / 2 ^ 32)))
        (faultWord 2 0x30 0xA 0x10 (last % 2 ^ 32) (epochIn (carryTimes last t s)))
      dsimp only
      generalize atOnce (raiseExt (carryTimes last t s) 2 0x30 0xA 0x10 (last % 2 ^ 32) (BitVec.ofNat 32 (last / 2 ^ 32)))
        (faultWord 2 0x30 0xA 0x10 (last % 2 ^ 32) (epochIn (carryTimes last t s))) = u at hf ⊢
      rw [hraise] at hq hf hsafe
      rw [ShedStep] at hf
      rw [hf]
      exact ⟨rfl, rfl, hq, fun hb => (hsafe hb (fClass_faultWord ..)).1, rfl, rfl, rfl⟩
    · have hraise := raise_eq (carryTimes last t s) 0 0x31 0xA 0x10 0 fun _ => hroom
      generalize hv : gtcDropped fell (raise (carryTimes last t s) 0 0x31 0xA 0x10 0) = v
      have hnil : ({ v with time := { v.time with resume := true } } : State).cmds = [] := by
        rw [← hv, hraise]
        show s.cmds.map _ = []
        rw [hcmds]
        rfl
      refine ⟨_, exec_gtcDiscontinuity_dark h hl, ?_⟩
      dsimp only
      rw [hv, resumeCmds_nil hnil, acceptAll_nil hnil]
      refine ⟨?_, rfl, ?_, hnil, ⟨{ bits := faultWord 0 0x31 0xA 0x10 0 (epochOf t), from_ := none, ext := 0 }, ?_, fKindOf_faultWord 0 0x31 ..,
        fClass_faultWord 0 .., fUnit_faultWord 0 0x31 0xA .., fInst_faultWord 0 0x31 0xA 0x10 ..⟩, ?_, ?_, ?_⟩
      all_goals rw [← hv, hraise]; rfl

end Sys2Proof.Proofs
end

section
/-! The strata writer: slots, heads, erases, and how a piece of work ends (R390 to R394). -/

namespace Sys2Proof.Laws
open Sys2Proof Sys2Proof.Machine
set_option Elab.async false

/-! ### Slots of a stratum (Table 16-7) -/

/-- Records of a 64 KiB block of a stratum. -/
def blockSlots (k : Fin 4) : Nat := if k = 3 then 64 else 256

/-- Base address of a stratum. -/
def stratumBase (k : Fin 4) : Nat := if k = 0 then 0 else if k = 1 then 0x100000 else if k = 2 then 0x500000 else 0x3D00000

/-- Record slots of a stratum. -/
def stratumSlots (k : Fin 4) : Nat := if k = 0 then 0x1000 else if k = 1 then 0x4000 else if k = 2 then 0x38000 else 0x800

/-- The byte address of a slot. -/
def slotByte (k : Fin 4) (n : Nat) : Nat := stratumBase k + n % stratumSlots k * (if k = 3 then 1024 else 256)

theorem blockOf_eq (k : Fin 4) : blockOf k = blockSlots k := by
  revert k
  decide

theorem slotsOf_eq (k : Fin 4) : slotsOf k = stratumSlots k := by
  revert k
  decide

theorem stratumOf_eq (k : Fin 4) : stratumOf k =
    (stratumBase k, stratumSlots k * (if k = 3 then 1024 else 256), if k = 3 then 1024 else 256) := by
  revert k
  decide

theorem slotAddr_eq (k : Fin 4) (n : Nat) : slotAddr k n = slotByte k n := by
  rw [slotAddr, stratumOf_eq, slotByte]
  dsimp only
  rw [Nat.mul_mod_mul_right]

/-! ### Heads (R390) -/

theorem any_spoiled_iff {l : List (Fin 4 × Nat)} {k : Fin 4} {h : Nat} : l.any (fun e => e.1.val == k.val && e.2 == h) = true ↔ (k, h) ∈ l := by
  simp only [List.any_eq_true, Bool.and_eq_true, beq_iff_eq]
  constructor
  · rintro ⟨⟨e, n⟩, hm, he, rfl⟩
    exact Fin.ext he ▸ hm
  · exact fun hm => ⟨(k, h), hm, rfl, rfl⟩

/-- The slot behind a block whose erase failed. -/
def pastSpoiled (l : List (Fin 4 × Nat)) (k h : Nat) : Nat := if l.any (fun e => e.1.val == k && e.2 == h) then h + blockOf k else h

theorem pastSpoiled_good {l : List (Fin 4 × Nat)} {k : Fin 4} {h : Nat} (hn : (k, h) ∉ l) : pastSpoiled l k h = h :=
  if_neg (mt any_spoiled_iff.mp hn)

theorem pastSpoiled_bad {l : List (Fin 4 × Nat)} {k : Fin 4} {h : Nat} (hm : (k, h) ∈ l) : pastSpoiled l k h = h + blockSlots k :=
  (if_pos (any_spoiled_iff.mpr hm)).trans (by rw [blockOf_eq])

/-- The head behind the present one. -/
def headAfter (r : Strata) (k : Nat) : Nat := pastSpoiled r.spoiled k (pastSpoiled r.spoiled k (vget r.heads k + 1))

/-- The failed blocks that the head has not passed. -/
def spoiledAfter (r : Strata) (k : Nat) : List (Fin 4 × Nat) :=
  r.spoiled.filter (fun e => e.1.val != k || decide (headAfter r k < e.2 + blockOf k))

theorem passSlot_eq (s : State) (k : Nat) : passSlot s k = { s with strata := { s.strata with
    heads := vset s.strata.heads k (headAfter s.strata k), spoiled := spoiledAfter s.strata k } } := rfl

/-- The head moves on, behind a block whose erase failed. -/
def HeadPasses (s u : State) (k : Fin 4) : Prop :=
  ((k, vget s.strata.heads k + 1) ∉ s.strata.spoiled → u.strata.heads = vset s.strata.heads k (vget s.strata.heads k + 1)) ∧
  ((k, vget s.strata.heads k + 1) ∈ s.strata.spoiled → (k, vget s.strata.heads k + 1 + blockSlots k) ∉ s.strata.spoiled →
    u.strata.heads = vset s.strata.heads k (vget s.strata.heads k + 1 + blockSlots k))

theorem headPasses_of_heads {s u : State} {k : Fin 4} (h : u.strata.heads = vset s.strata.heads k (headAfter s.strata k)) :
    HeadPasses s u k := by
  refine ⟨fun hn => ?_, fun hm hn => ?_⟩
  · rw [h, headAfter, pastSpoiled_good hn, pastSpoiled_good hn]
  · rw [h, headAfter, pastSpoiled_bad hm, pastSpoiled_good hn]

/-! ### Erases (R390) -/

/-- The first slot of a stratum's oldest block. -/
def oldestStart (s : State) (k : Fin 4) : Nat := vget s.strata.oldest k / blockSlots k * blockSlots k

/-- Whether the erased blocks that a head needs reach the oldest block. -/
def NeedsErase (s u : State) (k : Fin 4) : Prop :=
  oldestStart s k + stratumSlots k < (vget u.strata.heads k / blockSlots k + Nat.max 1 s.strata.ahead.toNat) * blockSlots k

/-- The block that is needed first is being erased, or none is needed. -/
def Renewed (s u : State) : Prop := s.strata.spoiled = [] →
  (u.strata.erasing = none ∧ u.strata.oldest = s.strata.oldest ∧ ∀ k : Fin 4, k ≠ 0 → ¬NeedsErase s u k) ∨
  ∃ k : Fin 4, k ≠ 0 ∧ NeedsErase s u k ∧ u.strata.erasing = some (k, oldestStart s k + stratumSlots k) ∧
    u.strata.oldest = vset s.strata.oldest k (oldestStart s k + blockSlots k)

/-- An erase in progress goes on; without one the blocks that are needed are renewed. -/
def Erased (s u : State) : Prop :=
  (s.strata.erasing ≠ none → u.strata.erasing = s.strata.erasing ∧ u.strata.oldest = s.strata.oldest) ∧
  (s.strata.erasing = none → s.strata.avail = true → u.strata.lbBusy = false → Renewed s u)

theorem oldestBlock_eq (s : State) (k : Fin 4) : oldestBlock s k = oldestStart s k := by rw [oldestBlock, blockOf_eq, oldestStart]

/-- What an erase that is due depends on, as it was before the writer's step. -/
structure WriterKeeps (s v : State) : Prop where
  oldest : v.strata.oldest = s.strata.oldest
  ahead : v.strata.ahead = s.strata.ahead
  avail : v.strata.avail = s.strata.avail
  good : s.strata.spoiled = [] → v.strata.spoiled = []

theorem eraseDue_iff {s v : State} (h : WriterKeeps s v) (hs : s.strata.spoiled = []) (k : Fin 4) : eraseDue v k = true ↔ NeedsErase s v k := by
  obtain ⟨ho, ha, -, hg⟩ := h
  have hold : oldestBlock v k = oldestStart s k := by rw [oldestBlock_eq, oldestStart, ho, oldestStart]
  simp only [eraseDue, hold, hg hs, ha, slotsOf_eq, blockOf_eq, List.filter_nil, List.length_nil, Nat.add_zero, decide_eq_true_eq, NeedsErase]

/-- While an erase runs none is started. -/
theorem startErase_erasing {v : State} (h : v.strata.erasing ≠ none) : startErase v = v := by
  have hsome : v.strata.erasing.isSome = true := Option.isSome_iff_ne_none.mpr h
  rw [startErase, hsome]
  rfl

/-- A log that is closed erases nothing. -/
theorem startErase_closed {v : State} (h : v.strata.avail = false) : startErase v = v := by
  rw [startErase, h]
  exact if_pos (by simp)

theorem mem_heads_iff (k : Fin 4) : k.val ∈ [1, 2, 3] ↔ k ≠ 0 := by
  revert k
  decide

theorem renewed_startErase {s v : State} (h : WriterKeeps s v) (he : v.strata.erasing = none) (hav : v.strata.avail = true)
    (hlb : v.strata.lbBusy = false) : Renewed s (startErase v) := by
  intro hs
  have hopen : startErase v = match [1, 2, 3].find? (eraseDue v) with | some k => eraseBlock v k | none => v := by
    rw [startErase, he, hav, hlb]
    rfl
  rw [hopen]
  cases hf : [1, 2, 3].find? (eraseDue v) with
  | none =>
    refine .inl ⟨he, h.oldest, fun k hk hneed => ?_⟩
    exact List.find?_eq_none.mp hf k ((mem_heads_iff k).mpr hk) ((eraseDue_iff h hs k).mpr hneed)
  | some n =>
    have hn : n ∈ [1, 2, 3] := List.mem_of_find?_eq_some hf
    have hlt : n < 4 := by
      simp only [List.mem_cons, List.not_mem_nil, or_false] at hn
      omega
    have hdue : eraseDue v (⟨n, hlt⟩ : Fin 4) = true := List.find?_some hf
    have hk : Fin.ofNat 4 n = ⟨n, hlt⟩ := Fin.ext (Nat.mod_eq_of_lt hlt)
    have hold : oldestBlock v n = oldestStart s ⟨n, hlt⟩ := by
      rw [show oldestBlock v n = oldestStart v ⟨n, hlt⟩ from oldestBlock_eq v ⟨n, hlt⟩, oldestStart, h.oldest, oldestStart]
    refine .inr ⟨⟨n, hlt⟩, (mem_heads_iff ⟨n, hlt⟩).mp hn, (eraseDue_iff h hs ⟨n, hlt⟩).mp hdue, ?_, ?_⟩
    · show some (Fin.ofNat 4 n, oldestBlock v n + slotsOf n) = _
      rw [hk, hold, show slotsOf n = stratumSlots ⟨n, hlt⟩ from slotsOf_eq ⟨n, hlt⟩]
    · show vset v.strata.oldest n (oldestBlock v n + blockOf n) = _
      rw [h.oldest, hold, show blockOf n = blockSlots ⟨n, hlt⟩ from blockOf_eq ⟨n, hlt⟩]

theorem startErase_lbBusy (v : State) : (startErase v).strata.lbBusy = v.strata.lbBusy := by rw [startErase_frame]

theorem erased_startErase {s v : State} (h : WriterKeeps s v) (he : v.strata.erasing = s.strata.erasing) : Erased s (startErase v) := by
  refine ⟨fun hs => ?_, fun hs hav hlb => ?_⟩
  · rw [startErase_erasing (by rw [he]; exact hs)]
    exact ⟨he, h.oldest⟩
  · rw [startErase_lbBusy] at hlb
    exact renewed_startErase h (he.trans hs) (h.avail.trans hav) hlb

/-- A record has been programmed at its stratum's head. -/
def Programmed (s u : State) (r : StrataRec) : Prop := HeadPasses s u r.stratum ∧ Erased s u ∧
  u.strata.wrote = some (slotByte r.stratum (vget s.strata.heads r.stratum), recordPage s.strata.boots r)

/-- The parts of the log that the writer's work changes. -/
def writerOf (s u : State) : Strata :=
  { s.strata with queue := u.strata.queue, heads := u.strata.heads, wrote := u.strata.wrote, oldest := u.strata.oldest,
                  erasing := u.strata.erasing, issued := u.strata.issued, spoiled := u.strata.spoiled }

theorem spoiledAfter_nil {r : Strata} {k : Nat} (h : r.spoiled = []) : spoiledAfter r k = [] := by
  rw [spoiledAfter, h]
  rfl

/-! ### Failures (R392) -/

/-- The message of a record or block that is given up. -/
def norErrMsg (s : State) (k : Fin 4) (n : Nat) : FaultMsg :=
  { bits := faultWord 1 0x60 0xB k (slotByte k n / 64 * 64) (epochIn s), from_ := none, ext := 0 }

/-- The first failure within a second leaves the log open. -/
theorem norError_open {s : State} (he : s.strata.errAt = []) (hav : s.strata.avail = true) (k : Fin 4) (n : Nat) : norError s k (slotAddr k n) =
    { s with strata := { s.strata with errAt := [s.time.run] },
             safety := { s.safety with queue := s.safety.queue ++ [norErrMsg s k n] } } := by
  have hrecent : (s.time.run :: s.strata.errAt).filter (fun x => decide (s.time.run < x + 1000000000)) = [s.time.run] := by
    rw [he, List.filter_singleton, decide_eq_true (by omega)]
    rfl
  have hnor : norError s k (slotAddr k n) =
      raise { s with strata := { s.strata with errAt := [s.time.run], avail := true } } 1 0x60 0xB k (slotAddr k n / 64 * 64) := by
    unfold norError
    rw [hrecent, hav]
    rfl
  rw [hnor, raise_eq _ _ _ _ _ _ (fun h => absurd h (by decide)), slotAddr_eq, ← hav]
  rfl

/-- The third failure within a second closes the log. -/
theorem norError_closed {s : State} {a b : Nat} (he : s.strata.errAt = [a, b]) (ha : s.time.run < a + 1000000000)
    (hb : s.time.run < b + 1000000000) (k : Fin 4) (n : Nat) : norError s k (slotAddr k n) =
    { s with strata := { s.strata with errAt := [s.time.run, a, b], avail := false, queue := [], erasing := none, lbBusy := false, lbWait := false },
             safety := { s.safety with queue := s.safety.queue ++ [norErrMsg s k n] } } := by
  have hrecent : (s.time.run :: s.strata.errAt).filter (fun x => decide (s.time.run < x + 1000000000)) = [s.time.run, a, b] := by
    rw [he, List.filter_eq_self]
    intro x hx
    simp only [List.mem_cons, List.not_mem_nil, or_false] at hx
    rcases hx with rfl | rfl | rfl
    · exact decide_eq_true (by omega)
    · exact decide_eq_true ha
    · exact decide_eq_true hb
  have hnor : norError s k (slotAddr k n) =
      raise { s with strata := { s.strata with errAt := [s.time.run, a, b], avail := false, queue := [], erasing := none, lbBusy := false,
                                               lbWait := false } } 1 0x60 0xB k (slotAddr k n / 64 * 64) := by
    unfold norError
    rw [hrecent]
    have hclosed : (s.strata.avail && decide ([s.time.run, a, b].length < 3)) = false := by simp
    dsimp only
    rw [hclosed]
    rfl
  rw [hnor, raise_eq _ _ _ _ _ _ (fun h => absurd h (by decide)), slotAddr_eq]
  rfl

/-! ### The work in progress -/

/-- A record that no erase of its block holds up is programmed first. -/
theorem norWork_program {s : State} {r : StrataRec} {rest : List StrataRec} (hq : s.strata.queue = r :: rest) (hr : r.stratum ≠ 3)
    (he : ∀ e, s.strata.erasing = some e → e.1 ≠ r.stratum ∧ e.1 ≠ 3) : norWork s = some (.program r) := by
  have hfind : s.strata.queue.find? (fun x => x.stratum != 3) = some r := by
    rw [hq, List.find?_cons_of_pos (by simpa using hr)]
  rw [norWork, hfind]
  cases herase : s.strata.erasing with
  | none => rfl
  | some e =>
    obtain ⟨h1, h2⟩ := he e herase
    refine if_neg ?_
    simp [h1, h2]

theorem find_other_nil {l : List StrataRec} (h : ∀ x ∈ l, x.stratum = 3) : l.find? (fun x => x.stratum != 3) = none := by
  rw [List.find?_eq_none]
  intro x hx
  simp [h x hx]

/-- Without a record of S1 or S2 the erase is the work in progress. -/
theorem norWork_erase {s : State} {e : Fin 4 × Nat} (hq : ∀ x ∈ s.strata.queue, x.stratum = 3) (he : s.strata.erasing = some e) :
    norWork s = some (.erase e.1 e.2) := by
  rw [norWork, he, find_other_nil hq]

theorem norWork_none {s : State} (hq : ∀ x ∈ s.strata.queue, x.stratum = 3) (he : s.strata.erasing = none) : norWork s = none := by
  rw [norWork, he, find_other_nil hq]

/-- The end of work at the NOR device, while no last-breath record is being written. -/
theorem exec_strataWriteDone {s : State} (hav : s.strata.avail = true) (hlb : s.strata.lbBusy = false ∨ s.strata.lbWait = true) (ok : Bool)
    (t : Nat) : exec (.strataWriteDone ok t) s =
      let u := workEnds ok (issue [] (now t s))
      .next (startErase { u with strata := { u.strata with lbWait := false } }) := by
  have h1 : ¬(!(now t s).strata.avail) = true := by
    show ¬(!s.strata.avail) = true
    rw [hav]
    decide
  have h2 : ¬((now t s).strata.lbBusy && !(now t s).strata.lbWait) = true := by
    show ¬(s.strata.lbBusy && !s.strata.lbWait) = true
    rcases hlb with h | h <;> simp [h]
  exact (if_neg h1).trans (if_neg h2)

section
variable {s : State} {r : StrataRec}

/-- The queue without a record that has been served. -/
def recordGone (s : State) (r : StrataRec) : State := { s with strata := { s.strata with queue := s.strata.queue.erase r, retried := false } }

theorem workEnds_programmed (h : norWork s = some (.program r)) : workEnds true s = programRecord (recordGone s r) r := by
  rw [workEnds, h]
  rfl

theorem workEnds_retry (h : norWork s = some (.program r)) (hr : s.strata.retried = false) : workEnds false s =
    passSlot (issue (programUse s 1) { s with strata := { s.strata with retried := true } }) r.stratum := by
  rw [workEnds, h]
  exact if_pos (by rw [hr]; rfl)

theorem workEnds_givenUp (h : norWork s = some (.program r)) (hr : s.strata.retried = true) :
    workEnds false s = norError (passSlot (recordGone s r) r.stratum) r.stratum (slotAddr r.stratum (vget s.strata.heads r.stratum)) := by
  rw [workEnds, h]
  exact if_neg (by rw [hr]; decide)

end

/-! ### Programs of S1 and S2 (R390, R392) -/

theorem programRecord_eq (s : State) (r : StrataRec) : programRecord s r = { s with strata := { s.strata with
    wrote := some (slotAddr r.stratum (vget s.strata.heads r.stratum), recordPage s.strata.boots r),
    issued := programUse s (if r.stratum = 3 then 4 else 1), heads := vset s.strata.heads r.stratum (headAfter s.strata r.stratum),
    spoiled := spoiledAfter s.strata r.stratum } } := rfl

section
variable {s : State} {r : StrataRec} {rest : List StrataRec} (hav : s.strata.avail = true) (hlb : s.strata.lbBusy = false ∨ s.strata.lbWait = true)
  (hq : s.strata.queue = r :: rest) (hr : r.stratum ≠ 3) (he : ∀ e, s.strata.erasing = some e → e.1 ≠ r.stratum ∧ e.1 ≠ 3) (t : Nat)
include hav hlb hq hr he

/-- A verified record leaves the queue and stands at its stratum's head. -/
theorem strataWriteDone_ok : Answers (.strataWriteDone true t) s (fun u => Programmed s u r ∧ u.strata.queue = rest ∧
    u = { now t s with strata := { writerOf s u with retried := false, lbWait := false } }) := by
  have hwork : norWork (issue [] (now t s)) = some (.program r) := norWork_program hq hr he
  have hgone : (recordGone (issue [] (now t s)) r).strata.queue = rest := by
    show s.strata.queue.erase r = rest
    rw [hq, List.erase_cons_head]
  have hexec := exec_strataWriteDone hav hlb true t
  rw [workEnds_programmed hwork, programRecord_eq] at hexec
  refine ⟨_, hexec, ⟨headPasses_of_heads ?_, erased_startErase ⟨rfl, rfl, rfl, spoiledAfter_nil⟩ rfl, ?_⟩, ?_, ?_⟩
  · rw [startErase_frame]
    rfl
  · rw [startErase_frame]
    exact congrArg (fun a => some (a, recordPage s.strata.boots r)) (slotAddr_eq r.stratum _)
  · rw [startErase_frame]
    exact hgone
  · rw [startErase_frame]
    rfl

/-- A first failure is tried again in the next slot. -/
theorem strataWriteDone_retry (hretry : s.strata.retried = false) : Answers (.strataWriteDone false t) s (fun u => HeadPasses s u r.stratum ∧
    Erased s u ∧ u.strata.queue = s.strata.queue ∧ u.strata.wrote = s.strata.wrote ∧
    u = { now t s with strata := { writerOf s u with retried := true, lbWait := false } }) := by
  have hwork : norWork (issue [] (now t s)) = some (.program r) := norWork_program hq hr he
  have hexec := exec_strataWriteDone hav hlb false t
  rw [workEnds_retry hwork hretry, passSlot_eq] at hexec
  refine ⟨_, hexec, headPasses_of_heads ?_, erased_startErase ⟨rfl, rfl, rfl, spoiledAfter_nil⟩ rfl, ?_, ?_, ?_⟩
  all_goals rw [startErase_frame]; rfl

/-- A second failure gives the record up and raises NOR_ERR. -/
theorem strataWriteDone_givenUp (hretry : s.strata.retried = true) (herr : s.strata.errAt = []) : Answers (.strataWriteDone false t) s (fun u =>
    HeadPasses s u r.stratum ∧ u.strata.queue = rest ∧ u.strata.avail = true ∧ u.strata.wrote = s.strata.wrote ∧
    u = { now t s with strata := { writerOf s u with retried := false, lbWait := false, errAt := u.strata.errAt },
                       safety := { s.safety with queue := s.safety.queue ++ [norErrMsg (now t s) r.stratum (vget s.strata.heads r.stratum)] } }) := by
  have hwork : norWork (issue [] (now t s)) = some (.program r) := norWork_program hq hr he
  have hgone : (recordGone (issue [] (now t s)) r).strata.queue = rest := by
    show s.strata.queue.erase r = rest
    rw [hq, List.erase_cons_head]
  have hexec := exec_strataWriteDone hav hlb false t
  have hends := (workEnds_givenUp hwork hretry).trans (norError_open (s := passSlot (recordGone (issue [] (now t s)) r) r.stratum) herr hav
    r.stratum (vget s.strata.heads r.stratum))
  rw [hends] at hexec
  refine ⟨_, hexec, headPasses_of_heads ?_, ?_, ?_, ?_, ?_⟩
  · rw [startErase_frame]
    rfl
  · rw [startErase_frame]
    exact hgone
  · rw [startErase_frame]
    exact hav
  · rw [startErase_frame]
    rfl
  · rw [startErase_frame]
    rfl

/-- The third failure within a second closes the log. -/
theorem strataWriteDone_closed {a b : Nat} (hretry : s.strata.retried = true) (herr : s.strata.errAt = [a, b])
    (ha : (now t s).time.run < a + 1000000000) (hb : (now t s).time.run < b + 1000000000) : Answers (.strataWriteDone false t) s (fun u =>
    u.strata.avail = false ∧ u.strata.queue = [] ∧
    u.safety.queue = s.safety.queue ++ [norErrMsg (now t s) r.stratum (vget s.strata.heads r.stratum)] ∧
    u = { now t s with strata := u.strata, safety := { s.safety with queue := u.safety.queue } }) := by
  have hwork : norWork (issue [] (now t s)) = some (.program r) := norWork_program hq hr he
  have hexec := exec_strataWriteDone hav hlb false t
  have hends := (workEnds_givenUp hwork hretry).trans (norError_closed (s := passSlot (recordGone (issue [] (now t s)) r) r.stratum) herr ha hb
    r.stratum (vget s.strata.heads r.stratum))
  rw [hends] at hexec
  dsimp only at hexec
  rw [startErase_closed rfl] at hexec
  exact ⟨_, hexec, rfl, rfl, rfl, rfl⟩

end

/-! ### Block erases (R390, R392) -/

theorem workEnds_erase {s : State} {k : Fin 4} {b : Nat} (he : s.strata.erasing = some (k, b)) (hq : s.strata.queue = []) (t : Nat) (ok : Bool) :
    workEnds ok (issue [] (now t s)) = eraseEnds ok k b (issue [] (now t s)) := by
  have hwork : norWork (issue [] (now t s)) = some (.erase k b) :=
    norWork_erase (e := (k, b)) (by intro x hx; rw [show (issue [] (now t s)).strata.queue = [] from hq] at hx; cases hx) he
  rw [workEnds, hwork]

/-- The log after a block has been given up. -/
def blockGone (s : State) (k : Fin 4) (b t : Nat) : State :=
  { issue [] (now t s) with strata := { (issue [] (now t s)).strata with
      erasing := none, eraseRetried := false, spoiled := s.strata.spoiled ++ [(k, b)] } }

section
variable {s : State} {k : Fin 4} {b : Nat} (hav : s.strata.avail = true) (he : s.strata.erasing = some (k, b)) (hq : s.strata.queue = [])
  (hlb : s.strata.lbBusy = false) (t : Nat)
include hav he hq hlb

/-- An erased block: the next one that is needed follows. -/
theorem eraseDone_ok : Answers (.strataWriteDone true t) s (fun u => Renewed s u ∧ u.strata.heads = s.strata.heads ∧
    u = { now t s with strata := { writerOf s u with eraseRetried := false, lbWait := false } }) := by
  have hexec := exec_strataWriteDone hav (.inl hlb) true t
  rw [workEnds_erase he hq t] at hexec
  refine ⟨_, hexec, renewed_startErase ⟨rfl, rfl, rfl, id⟩ rfl hav hlb, ?_, ?_⟩
  all_goals rw [startErase_frame]; rfl

/-- A first failure is tried again on the next block. -/
theorem eraseDone_retry (hretry : s.strata.eraseRetried = false) : Answers (.strataWriteDone false t) s (fun u =>
    u.strata.erasing = some (k, oldestStart s k + stratumSlots k) ∧
    u.strata.oldest = vset s.strata.oldest k (oldestStart s k + blockSlots k) ∧
    u.strata.spoiled = s.strata.spoiled ++ [(k, b)] ∧ u.strata.heads = s.strata.heads ∧
    u = { now t s with strata := { writerOf s u with eraseRetried := true, lbWait := false } }) := by
  have hexec := exec_strataWriteDone hav (.inl hlb) false t
  have hends : eraseEnds false k b (issue [] (now t s)) = eraseBlock { issue [] (now t s) with strata := { (issue [] (now t s)).strata with
      spoiled := s.strata.spoiled ++ [(k, b)], eraseRetried := true } } k := if_pos (by show (!s.strata.eraseRetried) = true; rw [hretry]; rfl)
  rw [workEnds_erase he hq t, hends] at hexec
  dsimp only at hexec
  rw [startErase_erasing (Option.some_ne_none _)] at hexec
  refine ⟨_, hexec, ?_, ?_, rfl, rfl, rfl⟩
  · show some (Fin.ofNat 4 k.val, oldestBlock s k + slotsOf k) = _
    rw [oldestBlock_eq, slotsOf_eq, show Fin.ofNat 4 k.val = k from Fin.ext (Nat.mod_eq_of_lt k.isLt)]
  · show vset s.strata.oldest k (oldestBlock s k + blockOf k) = _
    rw [oldestBlock_eq, blockOf_eq]

/-- A second failure gives the block up and raises NOR_ERR. -/
theorem eraseDone_givenUp (hretry : s.strata.eraseRetried = true) (herr : s.strata.errAt = []) : Answers (.strataWriteDone false t) s (fun u =>
    u.strata.spoiled = s.strata.spoiled ++ [(k, b)] ∧ u.strata.heads = s.strata.heads ∧ u.strata.avail = true ∧
    u = { now t s with strata := { writerOf s u with eraseRetried := false, lbWait := false, errAt := u.strata.errAt },
                       safety := { s.safety with queue := s.safety.queue ++ [norErrMsg (now t s) k b] } }) := by
  have hexec := exec_strataWriteDone hav (.inl hlb) false t
  have hends : eraseEnds false k b (issue [] (now t s)) = norError (blockGone s k b t) k (slotAddr k b) :=
    if_neg (by show ¬(!s.strata.eraseRetried) = true; rw [hretry]; decide)
  rw [workEnds_erase he hq t, hends, norError_open (s := blockGone s k b t) herr hav] at hexec
  refine ⟨_, hexec, ?_, ?_, ?_, ?_⟩
  · rw [startErase_frame]
    rfl
  · rw [startErase_frame]
    rfl
  · rw [startErase_frame]
    exact hav
  · rw [startErase_frame]
    rfl

end

/-! ### The last breath (R393, R394) -/

theorem breathRec_head {s : State} {r : StrataRec} {rest : List StrataRec} (hq : s.strata.queue = r :: rest) (hr : r.stratum = 3) :
    breathRec s = some r := by
  rw [breathRec, hq, List.find?_cons_of_pos (by simpa using hr)]

/-- The state once the last-breath record has left the queue. -/
def breathServed (s : State) (rest : List StrataRec) : State :=
  { s with strata := { s.strata with queue := rest, lbBusy := false, lbRetried := false } }

theorem breathGone_eq {s : State} {r : StrataRec} {rest : List StrataRec} (hq : s.strata.queue = r :: rest) (hrest : ∀ x ∈ rest, x.stratum ≠ 3) :
    breathGone s r = breathServed s rest := by
  have hany : rest.any (fun x => x.stratum == 3) = false := by
    rw [List.any_eq_false]
    intro x hx
    simpa using hrest x hx
  unfold breathGone breathServed
  extract_lets q
  have hq' : q = rest := by
    dsimp only [q]
    rw [hq, List.erase_cons_head]
  rw [hq', hany]

/-- While the record is written, an end of work is that of the record's own program. -/
theorem exec_strataWriteDone_breath {s : State} (hlb : s.strata.lbBusy = true) (hwait : s.strata.lbWait = false) (hav : s.strata.avail = true)
    (t : Nat) (ok : Bool) : exec (.strataWriteDone ok t) s = .next (if ok then now t s else breathFails (now t s)) := by
  refine (if_neg (show ¬(!s.strata.avail) = true by rw [hav]; decide)).trans (if_pos ?_)
  show (s.strata.lbBusy && !s.strata.lbWait) = true
  rw [hlb, hwait]
  rfl

section
variable {s : State} {r : StrataRec} {rest : List StrataRec} (hlb : s.strata.lbBusy = true) (hq : s.strata.queue = r :: rest)
  (hr : r.stratum = 3) (hwait : s.strata.lbWait = false) (t : Nat)
include hlb hq hr hwait

/-- The record is complete, and the suspended work is resumed. -/
theorem lastBreathDone_ok (hrest : ∀ x ∈ rest, x.stratum ≠ 3) :
    Answers (.lastBreathDone t) s (fun u => Programmed s u r ∧ u.strata.queue = rest ∧
      (∀ e v y, rest = [] → s.strata.erasing = some e → s.strata.dev = some v → v.esusp = some y → y.resume ∈ u.strata.issued) ∧
      u = { now t s with strata := { writerOf s u with lbBusy := false, lbRetried := false } }) := by
  have hexec : exec (.lastBreathDone t) s = .next (startErase (issue (programUse (now t s) 4 ++ breathCodes (now t s) NorSuspend.resume)
      (programRecord (breathServed (now t s) rest) r))) := by
    refine (if_neg (show ¬(!s.strata.lbBusy || s.strata.lbWait) = true by rw [hlb, hwait]; decide)).trans ?_
    rw [breathRec_head (s := now t s) hq hr]
    dsimp only
    rw [breathGone_eq (s := now t s) hq hrest]
    rfl
  generalize hw : issue (programUse (now t s) 4 ++ breathCodes (now t s) NorSuspend.resume) (programRecord (breathServed (now t s) rest) r) = w at hexec
  have hkeeps : WriterKeeps s w := by
    rw [← hw]
    exact ⟨rfl, rfl, rfl, spoiledAfter_nil⟩
  have herasing : w.strata.erasing = s.strata.erasing := by rw [← hw]; rfl
  refine ⟨_, hexec, ⟨headPasses_of_heads ?_, erased_startErase hkeeps herasing, ?_⟩, ?_, fun e v y hnil he hv hy => ?_, ?_⟩
  · rw [startErase_frame, ← hw]
    rfl
  · rw [startErase_frame, ← hw]
    exact congrArg (fun a => some (a, recordPage s.strata.boots r)) (slotAddr_eq r.stratum _)
  · rw [startErase_frame, ← hw]
    rfl
  · rw [startErase_erasing (v := w) (by rw [herasing, he]; exact Option.some_ne_none e), ← hw]
    have hwork : norWork (now t s) = some (.erase e.1 e.2) := by
      refine norWork_erase (fun x hx => ?_) he
      rw [show (now t s).strata.queue = [r] by rw [← hnil]; exact hq, List.mem_singleton] at hx
      rw [hx]
      exact hr
    have hcodes : breathCodes (now t s) NorSuspend.resume = [y.resume] := by
      rw [breathCodes, hwork, show (now t s).strata.dev = some v from hv]
      dsimp only
      rw [hy]
    show y.resume ∈ programUse (now t s) 4 ++ breathCodes (now t s) NorSuspend.resume
    rw [hcodes]
    exact List.mem_append_right _ (List.mem_singleton.mpr rfl)
  · rw [startErase_frame, ← hw]
    rfl

variable (hav : s.strata.avail = true)
include hav

theorem breathFails_retry (hretry : s.strata.lbRetried = false) : Answers (.strataWriteDone false t) s (fun u => HeadPasses s u 3 ∧
    u = { now t s with strata := { s.strata with heads := u.strata.heads, spoiled := u.strata.spoiled, issued := u.strata.issued,
                                                 lbRetried := true } }) := by
  have hfail : breathFails (now t s) = passSlot (issue (programUse (now t s) 4) { now t s with strata := { s.strata with lbRetried := true } }) 3 := by
    rw [breathFails, breathRec_head (s := now t s) hq hr]
    exact if_pos (by show (!s.strata.lbRetried) = true; rw [hretry]; rfl)
  refine ⟨_, exec_strataWriteDone_breath hlb hwait hav t false, ?_⟩
  rw [if_neg (by decide), hfail, passSlot_eq]
  exact ⟨headPasses_of_heads rfl, rfl⟩

theorem breathFails_givenUp (hrest : ∀ x ∈ rest, x.stratum ≠ 3) (hretry : s.strata.lbRetried = true) (herr : s.strata.errAt = []) :
    Answers (.strataWriteDone false t) s (fun u => HeadPasses s u 3 ∧ u.strata.queue = rest ∧ u.strata.lbBusy = false ∧ u.strata.avail = true ∧
      u = { now t s with strata := { s.strata with queue := rest, heads := u.strata.heads, spoiled := u.strata.spoiled, lbBusy := false,
                                                   lbRetried := false, errAt := u.strata.errAt },
                         safety := { s.safety with queue := s.safety.queue ++ [norErrMsg (now t s) 3 (vget s.strata.heads 3)] } }) := by
  have hfail : breathFails (now t s) = norError (passSlot (breathGone (now t s) r) 3) 3 (slotAddr (3 : Fin 4) (vget s.strata.heads 3)) := by
    rw [breathFails, breathRec_head (s := now t s) hq hr]
    exact if_neg (by show ¬(!s.strata.lbRetried) = true; rw [hretry]; decide)
  have hopen : norError (passSlot (breathServed (now t s) rest) 3) 3 (slotAddr (3 : Fin 4) (vget s.strata.heads 3)) = _ :=
    norError_open (s := passSlot (breathServed (now t s) rest) 3) herr hav 3 (vget s.strata.heads 3)
  refine ⟨_, exec_strataWriteDone_breath hlb hwait hav t false, ?_⟩
  rw [if_neg (by decide), hfail, breathGone_eq (s := now t s) hq hrest, hopen]
  exact ⟨headPasses_of_heads rfl, rfl, rfl, hav, rfl⟩

end

end Sys2Proof.Laws
end

section
/-! The statement about power failure and the strata writer. -/

namespace Sys2Proof.Laws
open Sys2Proof Sys2Proof.Machine
set_option Elab.async false

/-! ### The start of the last breath (R393, R394) -/

theorem startBreath_busy {s : State} (h : s.strata.lbBusy = true) : startBreath s = s := if_pos h

theorem startBreath_idle {s : State} (h : s.strata.lbBusy = false) : startBreath s =
    issue (if breathWaits s then [] else breathCodes s NorSuspend.suspend)
      { s with strata := { s.strata with lbBusy := true, lbWait := breathWaits s, lbRetried := false } } :=
  if_neg (by rw [h]; decide)

/-- The start concerns the log alone, whose queue it keeps. -/
theorem startBreath_frame (s : State) : ∃ w l b, startBreath s = { s with strata := { s.strata with
    lbBusy := true, lbWait := w, issued := l, lbRetried := b } } := by
  cases h : s.strata.lbBusy with
  | true =>
    rw [startBreath_busy h]
    refine ⟨s.strata.lbWait, s.strata.issued, s.strata.lbRetried, ?_⟩
    rw [← h]
  | false => exact ⟨_, _, _, startBreath_idle h⟩

/-- A program of another record is waited for unless it can be suspended. -/
theorem breathWaits_program {s : State} {r : StrataRec} (h : norWork s = some (.program r)) :
    breathWaits s = false ↔ s.strata.psuspEn = true ∧ ∃ v y, s.strata.dev = some v ∧ v.psusp = some y := by
  have hdecl : declaresPsusp s = true ↔ ∃ v y, s.strata.dev = some v ∧ v.psusp = some y := by
    unfold declaresPsusp
    cases s.strata.dev with
    | none => simp
    | some v => simp [Option.isSome_iff_exists]
  rw [breathWaits, h]
  show (!(declaresPsusp s && s.strata.psuspEn)) = false ↔ _
  rw [Bool.not_eq_false', Bool.and_eq_true, hdecl, and_comm]

/-- The record of a power failure. -/
def breathRecord (s : State) : StrataRec :=
  { stratum := 3, typ := 0x0201, gtc := if s.time.everVld then s.time.gtc else 0, pay := breathPayload s, seq := s.strata.nextSeq }

/-- The log once the record of a power failure has joined its queue. -/
def breathQueued (s : State) : State :=
  { s with strata := { s.strata with queue := s.strata.queue ++ [breathRecord s], nextSeq := s.strata.nextSeq + 1 } }

/-- The log of a power failure. -/
def breathBegun (s : State) : State := if s.strata.avail then startBreath (breathQueued s) else s

theorem breathBegun_frame (s : State) : breathBegun s = { s with strata := (breathBegun s).strata } := by
  unfold breathBegun
  split
  · obtain ⟨w, l, b, h⟩ := startBreath_frame (breathQueued s)
    rw [h]
    rfl
  · rfl

/-- The collector's part of a power failure. -/
def failNoted (s : State) : State :=
  { breathBegun s with safety := { s.safety with
      pfailLow := true, pfailUp := none,
      queue := s.safety.queue ++ [{ bits := faultWord 2 0x63 0xE 0 (modeShown s) (epochIn s), from_ := none, ext := 0 }] } }

theorem exec_pfail {s : State} (hp : s.safety.porHigh = true) (hl : s.safety.pfailLow = false) (t : Nat) : exec (.pfail t) s =
    .next (atOnce (failNoted (now t s)) (faultWord 2 0x63 0xE 0 (modeShown s) (epochIn (now t s)))) := by
  have hexec : exec (.pfail t) s = .next (raiseAtOnce { breathBegun (now t s) with
      safety := { (breathBegun (now t s)).safety with pfailLow := true, pfailUp := none } } 2 0x63 0xE 0 (modeShown s)) :=
    if_neg (show ¬(s.safety.pfailLow || !s.safety.porHigh) = true by rw [hp, hl]; decide)
  rw [hexec, raiseAtOnce, raise_eq _ _ _ _ _ _ (fun h => absurd h (by decide)), failNoted, breathBegun_frame]
  rfl

section
variable {s : State} (hlb : s.strata.lbBusy = false)
include hlb

theorem breathBegun_idle (hav : s.strata.avail = true) : (breathBegun s).strata.lbWait = breathWaits (breathQueued s) ∧
    (breathBegun s).strata.issued = if breathWaits (breathQueued s) then [] else breathCodes (breathQueued s) NorSuspend.suspend := by
  rw [breathBegun, if_pos hav, startBreath_idle (s := breathQueued s) hlb]
  exact ⟨rfl, rfl⟩

variable (hav : s.strata.avail = true)
include hav

/-- Without other work the record waits for nothing. -/
theorem breathBegun_alone (he : s.strata.erasing = none) (hq : s.strata.queue = []) : (breathBegun s).strata.lbWait = false := by
  have hwork : norWork (breathQueued s) = none := by
    refine norWork_none (fun x hx => ?_) he
    rw [show (breathQueued s).strata.queue = [breathRecord s] by rw [breathQueued, hq]; rfl, List.mem_singleton] at hx
    rw [hx]
    rfl
  rw [(breathBegun_idle hlb hav).1, breathWaits, hwork]

theorem breathBegun_program (he : s.strata.erasing = none) {x : StrataRec} {rest : List StrataRec} (hq : s.strata.queue = x :: rest)
    (hx : x.stratum ≠ 3) : (breathBegun s).strata.lbWait = false ↔
      s.strata.psuspEn = true ∧ ∃ v y, s.strata.dev = some v ∧ v.psusp = some y := by
  have hwork : norWork (breathQueued s) = some (.program x) := by
    refine norWork_program (rest := rest ++ [breathRecord s]) ?_ hx fun e h => ?_
    · rw [breathQueued, hq]
      rfl
    · rw [show (breathQueued s).strata.erasing = none from he] at h
      cases h
  rw [(breathBegun_idle hlb hav).1]
  exact breathWaits_program hwork

/-- An erase of another stratum is suspended. -/
theorem breathBegun_erase (hq : s.strata.queue = []) {e : Fin 4 × Nat} {v : Sfdp} {y : NorSuspend} (he : s.strata.erasing = some e) (h3 : e.1 ≠ 3)
    (hv : s.strata.dev = some v) (hy : v.esusp = some y) :
    (breathBegun s).strata.lbWait = false ∧ (breathBegun s).strata.issued = [y.suspend] := by
  have hwork : norWork (breathQueued s) = some (.erase e.1 e.2) := by
    refine norWork_erase (fun x hx => ?_) he
    rw [show (breathQueued s).strata.queue = [breathRecord s] by rw [breathQueued, hq]; rfl, List.mem_singleton] at hx
    rw [hx]
    rfl
  have hwaits : breathWaits (breathQueued s) = false := by
    rw [breathWaits, hwork]
    simp [h3]
  have hcodes : breathCodes (breathQueued s) NorSuspend.suspend = [y.suspend] := by
    rw [breathCodes, hwork, show (breathQueued s).strata.dev = some v from hv]
    dsimp only
    rw [hy]
  obtain ⟨h1, h2⟩ := breathBegun_idle hlb hav
  rw [h1, h2, hwaits, hcodes]
  exact ⟨rfl, rfl⟩

end

/-- A record that has room joins the queue (R388). -/
theorem queueRecord_room {s : State} (hav : s.strata.avail = true) (hroom : s.strata.queue.length < 16) (k : Fin 4) (typ gtc : Nat)
    (pay : List Byte) : (queueRecord s k typ gtc pay).1 = { s with strata := { s.strata with
      queue := s.strata.queue ++ [{ stratum := k, typ := BitVec.ofNat 16 typ, gtc := if s.time.everVld then gtc else 0, pay := pay,
                                    seq := s.strata.nextSeq }],
      nextSeq := s.strata.nextSeq + 1 } } := by
  unfold queueRecord
  rw [if_neg (by rw [hav]; decide), if_neg (by omega)]

end Sys2Proof.Laws

namespace Sys2Proof.Proofs
open Sys2Proof Sys2Proof.Machine Sys2Proof.Laws
set_option Elab.async false

/-- A power failure: PFAIL is queued, and the last-breath record goes ahead of the work in progress where it can. -/
theorem pfail_answers {s : State} (hp : s.safety.porHigh = true) (hl : s.safety.pfailLow = false) (t : Nat) : Answers (.pfail t) s (fun u =>
    u.safety.pfailLow = true ∧
    u.safety.queue = s.safety.queue ++ [{ bits := faultWord 2 0x63 0xE 0 (modeShown s) (epochIn (now t s)), from_ := none, ext := 0 }] ∧
    (s.clk.crstBusy = true → u.safety.safe = true ∧ u.safety.pin = false) ∧ u.strata = (breathBegun (now t s)).strata ∧
    (s.clk.crstBusy = false →
      u = { now t s with safety := { s.safety with queue := u.safety.queue, pfailLow := true, pfailUp := none }, strata := u.strata })) := by
  refine ⟨_, exec_pfail hp hl t, ?_⟩
  have hidle := fun h => atOnce_idle (s := failNoted (now t s)) h (faultWord 2 0x63 0xE 0 (modeShown s) (epochIn (now t s)))
  obtain ⟨r, hq, hlow, hsafe, hf⟩ := atOnce_frame (failNoted (now t s)) (faultWord 2 0x63 0xE 0 (modeShown s) (epochIn (now t s)))
  generalize atOnce (failNoted (now t s)) (faultWord 2 0x63 0xE 0 (modeShown s) (epochIn (now t s))) = u at hf hidle ⊢
  have hbegun := breathBegun_frame (now t s)
  have hclk : (failNoted (now t s)).clk = s.clk := by
    rw [failNoted, hbegun]
    rfl
  rw [ShedStep] at hf
  have hsafety : u.safety = r := by rw [hf]
  have hstrata : u.strata = (breathBegun (now t s)).strata := by
    rw [hf]
    rfl
  rw [hclk] at hsafe hidle
  refine ⟨hsafety ▸ hlow, hsafety ▸ hq, fun hb => hsafety ▸ hsafe hb (fClass_faultWord 2 ..), hstrata, fun hb => ?_⟩
  rw [hidle hb, failNoted, hbegun]
  rfl

/-- Settles O20: power failure, the last breath and the strata writer do what the manual states. -/
theorem powerFailAndStrata : Obligations.PowerFailAndStrata := by
  unfold Obligations.PowerFailAndStrata
  intro blk base slots addr passes block needs renewed erased programmed writer norErr
  refine ⟨fun t s => ⟨fun hp => ?_, fun hp hl => ?_, fun hl => if_pos hl, fun r rest hlb hq hr hrest => ⟨fun hw => ?_, fun hw => ?_, fun hw hav => ⟨?_, ?_, ?_⟩⟩⟩,
    fun t s payload hav hlb => ⟨fun r rest hq hr he => ⟨?_, ?_, ?_, ?_⟩, fun k b he hq hidle hk => ⟨?_, ?_, ?_⟩, fun hmc hroom => ?_⟩⟩
  · exact if_pos (show (s.safety.pfailLow || !s.safety.porHigh) = true by rw [hp, Bool.not_false, Bool.or_true])
  · obtain ⟨u, hexec, hlow, hqueue, hsafe, hstrata, hrest⟩ := pfail_answers hp hl t
    refine ⟨u, hexec, hlow, hqueue, fun hav => ?_, fun hav => ?_, hsafe, hrest⟩
    · rw [hstrata]
      obtain ⟨w, l, b, hbegin⟩ := startBreath_frame (breathQueued (now t s))
      have hbegun : breathBegun (now t s) = startBreath (breathQueued (now t s)) := if_pos hav
      refine ⟨breathRecord (now t s), ?_, rfl, rfl, rfl, ?_, fun hb he hq => breathBegun_alone (s := now t s) hb hav he hq,
        fun hb he x rest hq hx => breathBegun_program (s := now t s) hb hav he hq hx,
        fun hb hq e v y he h3 hv hy => breathBegun_erase (s := now t s) hb hav hq he h3 hv hy⟩
      · rw [hbegun, hbegin]
        rfl
      · rw [hbegun, hbegin]
    · have hclosed : breathBegun (now t s) = now t s := if_neg (show ¬s.strata.avail = true by rw [hav]; decide)
      rw [hstrata, hclosed]
      rfl
  · exact if_pos (show (!s.strata.lbBusy || s.strata.lbWait) = true by rw [hw, Bool.or_true])
  · exact lastBreathDone_ok hlb hq hr hw t hrest
  · exact exec_strataWriteDone_breath hlb hw hav t true
  · exact breathFails_retry hlb hq hr hw t hav
  · exact breathFails_givenUp hlb hq hr hw t hav hrest
  · exact strataWriteDone_ok hav hlb hq hr he t
  · exact strataWriteDone_retry hav hlb hq hr he t
  · exact strataWriteDone_givenUp hav hlb hq hr he t
  · exact fun a b => strataWriteDone_closed hav hlb hq hr he t
  · exact eraseDone_ok hav he hq hidle t
  · exact eraseDone_retry hav he hq hidle t
  · exact eraseDone_givenUp hav he hq hidle t
  · have hexec : exec (.lifetimeCountersRecord payload t) s = .next (queueRecord (now t s) 1 0x0103 (now t s).time.gtc (slice payload 0 64)).1 :=
      if_pos hmc
    rw [queueRecord_room (s := now t s) hav hroom] at hexec
    exact ⟨_, rfl, rfl, rfl, rfl, hexec⟩

end Sys2Proof.Proofs
end

section
/-! Every row that answers a state keeps the queue behind it and the rule of R79. -/

namespace Sys2Proof.Laws
open Sys2Proof Sys2Proof.Machine
set_option Elab.async false

/-- A row leaves the waiting commands as they are, and a commit sequence that is 0 or has a low word that is not 0 as such. Only a shutter and
a power-on reset change the sequence. -/
theorem follows_exec {i : Instr} {s u : State} (h : exec i s = .next u) : Follows s u := by
  cases i with
  | nop d => exact follows_of_kept (kept_execNop d s u h)
  | domState d => exact follows_of_kept (kept_execDomState d s u h)
  | domTarget d => exact follows_of_kept (kept_execDomTarget d s u h)
  | domFreq d => exact follows_of_kept (kept_execDomFreq d s u h)
  | domLimits d => exact follows_of_kept (kept_execDomLimits d s u h)
  | domPair d => exact follows_of_kept (kept_execDomPair d s u h)
  | domUnpair d => exact follows_of_kept (kept_execDomUnpair d s u h)
  | domCellmap d => exact follows_of_kept (kept_execDomCellmap d s u h)
  | budgetSet d => exact follows_of_kept (kept_execBudgetSet d s u h)
  | budgetCap d => exact follows_of_kept (kept_execBudgetCap d s u h)
  | jobAlign d => exact follows_of_kept (kept_execJobAlign d s u h)
  | lendPolicy d => exact follows_of_kept (kept_execLendPolicy d s u h)
  | hintPhase d => exact follows_of_kept (kept_execHintPhase d s u h)
  | stepMark d => exact follows_of_kept (kept_execStepMark d s u h)
  | watchArm d => exact follows_of_kept (kept_execWatchArm d s u h)
  | watchCancel d => exact follows_of_kept (kept_execWatchCancel d s u h)
  | loadProgram d => exact follows_of_kept (kept_execLoadProgram d s u h)
  | bindProgram d => exact follows_of_kept (kept_execBindProgram d s u h)
  | loadModel d => exact follows_of_kept (kept_execLoadModel d s u h)
  | bindModel d => exact follows_of_kept (kept_execBindModel d s u h)
  | rcConfig d => exact follows_of_kept (kept_execRcConfig d s u h)
  | rcReset d => exact follows_of_kept (kept_execRcReset d s u h)
  | traceConfig d => exact follows_of_kept (kept_execTraceConfig d s u h)
  | snapshot d => exact follows_of_kept (kept_execSnapshot d s u h)
  | sieveStart d => exact follows_of_kept (kept_execSieveStart d s u h)
  | sieveStop d => exact follows_of_kept (kept_execSieveStop d s u h)
  | selftest d => exact follows_of_kept (kept_execSelftest d s u h)
  | logRead d => exact follows_of_kept (kept_execLogRead d s u h)
  | logMark d => exact follows_of_kept (kept_execLogMark d s u h)
  | rightsSet d => exact follows_of_kept (kept_execRightsSet d s u h)
  | portQuiesce d => exact follows_of_kept (kept_execPortQuiesce d s u h)
  | charLoad d => exact follows_of_kept (kept_execCharLoad d s u h)
  | cleNop => exact follows_of_kept (kept_execCleNop s u h)
  | cleEnd => exact follows_of_kept (kept_execCleEnd s u h)
  | rep m1 k1 => exact follows_of_kept (kept_execRep m1 k1 s u h)
  | skipif a b cond n => exact follows_of_kept (kept_execSkipif a b cond n s u h)
  | sel d a b cond c => exact follows_of_kept (kept_execSel d a b cond c s u h)
  | ldi d imm => exact follows_of_kept (kept_execLdi d imm s u h)
  | ldiq d imm => exact follows_of_kept (kept_execLdiq d imm s u h)
  | ldc d idx => exact follows_of_kept (kept_execLdc d idx s u h)
  | mov d a => exact follows_of_kept (kept_execMov d a s u h)
  | lds d idx => exact follows_of_kept (kept_execLds d idx s u h)
  | sts a idx => exact follows_of_kept (kept_execSts a idx s u h)
  | ldsx d b idx => exact follows_of_kept (kept_execLdsx d b idx s u h)
  | stsx a b idx => exact follows_of_kept (kept_execStsx a b idx s u h)
  | cleIn d port => exact follows_of_kept (kept_execCleIn d port s u h)
  | cleOut a port => exact follows_of_kept (kept_execCleOut a port s u h)
  | add d a b => exact follows_of_kept (kept_execAdd d a b s u h)
  | sub d a b => exact follows_of_kept (kept_execSub d a b s u h)
  | addi d a imm => exact follows_of_kept (kept_execAddi d a imm s u h)
  | addiq d a imm => exact follows_of_kept (kept_execAddiq d a imm s u h)
  | neg d a => exact follows_of_kept (kept_execNeg d a s u h)
  | abs d a => exact follows_of_kept (kept_execAbs d a s u h)
  | min d a b => exact follows_of_kept (kept_execMin d a b s u h)
  | max d a b => exact follows_of_kept (kept_execMax d a b s u h)
  | clamp d a b => exact follows_of_kept (kept_execClamp d a b s u h)
  | mul d a b => exact follows_of_kept (kept_execMul d a b s u h)
  | mac d a b => exact follows_of_kept (kept_execMac d a b s u h)
  | msu d a b => exact follows_of_kept (kept_execMsu d a b s u h)
  | shl d a n => exact follows_of_kept (kept_execShl d a n s u h)
  | shr d a n => exact follows_of_kept (kept_execShr d a n s u h)
  | and d a b => exact follows_of_kept (kept_execAnd d a b s u h)
  | or d a b => exact follows_of_kept (kept_execOr d a b s u h)
  | xor d a b => exact follows_of_kept (kept_execXor d a b s u h)
  | dbCqTail p val t => exact follows_of_kept (kept_execDbCqTail p val t s u h)
  | dbCplHead p val t => exact follows_of_kept (kept_execDbCplHead p val t s u h)
  | dbEvqHead p val t => exact follows_of_kept (kept_execDbEvqHead p val t s u h)
  | dbTrqHead p val t => exact follows_of_kept (kept_execDbTrqHead p val t s u h)
  | irqClaim tgt t => exact follows_of_kept (kept_execIrqClaim tgt t s u h)
  | irqDone tgt val t => exact follows_of_kept (kept_execIrqDone tgt val t s u h)
  | portReset p val t => exact follows_of_kept (kept_execPortReset p val t s u h)
  | ringEn p val t => exact follows_of_kept (kept_execRingEn p val t s u h)
  | portDisable p val t => exact follows_of_kept (kept_execPortDisable p val t s u h)
  | intSwset k val t => exact follows_of_kept (kept_execIntSwset k val t s u h)
  | badAccess page offset write t => exact follows_of_kept (kept_execBadAccess page offset write t s u h)
  | cseqLoRead path t => exact follows_of_kept (kept_execCseqLoRead path t s u h)
  | gtcLoRead path t => exact follows_of_kept (kept_execGtcLoRead path t s u h)
  | fltLastLoRead path t => exact follows_of_kept (kept_execFltLastLoRead path t s u h)
  | controlReset val t => exact follows_of_kept (kept_execControlReset val t s u h)
  | controlResetDone t => exact follows_of_kept (kept_execControlResetDone t s u h)
  | mcReset val t => exact follows_of_kept (kept_execMcReset val t s u h)
  | mtrGo val t => exact follows_of_kept (kept_execMtrGo val t s u h)
  | calSystemZero val t => exact follows_of_kept (kept_execCalSystemZero val t s u h)
  | calSystemFullScale val t => exact follows_of_kept (kept_execCalSystemFullScale val t s u h)
  | calSelf val t => exact follows_of_kept (kept_execCalSelf val t s u h)
  | calSelfAll val t => exact follows_of_kept (kept_execCalSelfAll val t s u h)
  | calibrationDone res t => exact follows_of_kept (kept_execCalibrationDone res t s u h)
  | fmcGo val t => exact follows_of_kept (kept_execFmcGo val t s u h)
  | fmcDone count t => exact follows_of_kept (kept_execFmcDone count t s u h)
  | fwGo val t => exact follows_of_kept (kept_execFwGo val t s u h)
  | fwLoadDone img t => exact follows_of_kept (kept_execFwLoadDone img t s u h)
  | charRecordInstall copy1 copy2 cals t => exact follows_of_kept (kept_execCharRecordInstall copy1 copy2 cals t s u h)
  | pwrmodeRun val t => exact follows_of_kept (kept_execPwrmodeRun val t s u h)
  | pwrmodeSleep val t => exact follows_of_kept (kept_execPwrmodeSleep val t s u h)
  | pwrmodeDeep val t => exact follows_of_kept (kept_execPwrmodeDeep val t s u h)
  | pwrmodeTransitionDone t => exact follows_of_kept (kept_execPwrmodeTransitionDone t s u h)
  | clkSrcSwitch val t => exact follows_of_kept (kept_execClkSrcSwitch val t s u h)
  | muxSwitchDone mux oldStopped t => exact follows_of_kept (kept_execMuxSwitchDone mux oldStopped t s u h)
  | pllCfgWrite pll val t => exact follows_of_kept (kept_execPllCfgWrite pll val t s u h)
  | pllLock pll t => exact follows_of_kept (kept_execPllLock pll t s u h)
  | pllUnlock pll t => exact follows_of_kept (kept_execPllUnlock pll t s u h)
  | safeModeWrite val t => exact follows_of_kept (kept_execSafeModeWrite val t s u h)
  | fltCfgClr val t => exact follows_of_kept (kept_execFltCfgClr val t s u h)
  | wdtKick val t => exact follows_of_kept (kept_execWdtKick val t s u h)
  | gmodeWrite val t => exact follows_of_kept (kept_execGmodeWrite val t s u h)
  | thLimitWrite off val t => exact follows_of_kept (kept_execThLimitWrite off val t s u h)
  | pmbCfgWrite val t => exact follows_of_kept (kept_execPmbCfgWrite val t s u h)
  | pmbAddrWrite n val t => exact follows_of_kept (kept_execPmbAddrWrite n val t s u h)
  | registerWrite off val path t => exact follows_of_kept (kept_execRegisterWrite off val path t s u h)
  | porAssert t => exact follows_execPorAssert t s u h
  | porRelease nor t => exact follows_of_kept (kept_execPorRelease nor t s u h)
  | pfail t => exact follows_of_kept (kept_execPfail t s u h)
  | lastBreathDone t => exact follows_of_kept (kept_execLastBreathDone t s u h)
  | stage1Alert t => exact follows_of_kept (kept_execStage1Alert t s u h)
  | pmbusTransactionDone res t => exact follows_of_kept (kept_execPmbusTransactionDone res t s u h)
  | pmbusPoll kind conv t => exact follows_of_kept (kept_execPmbusPoll kind conv t s u h)
  | pmbusStretchTimeout t => exact follows_of_kept (kept_execPmbusStretchTimeout t s u h)
  | pmbusRetry t => exact follows_of_kept (kept_execPmbusRetry t s u h)
  | avsResponse good t => exact follows_of_kept (kept_execAvsResponse good t s u h)
  | mainsSyncEdge mclks t => exact follows_of_kept (kept_execMainsSyncEdge mclks t s u h)
  | syncLost t => exact follows_of_kept (kept_execSyncLost t s u h)
  | gtcDiscontinuity g vldFell => exact follows_of_kept (kept_execGtcDiscontinuity g vldFell s u h)
  | shutterStart t => exact follows_of_kept (kept_execShutterStart t s u h)
  | frameLatch n sense => exact follows_of_kept (kept_execFrameLatch n sense s u h)
  | frameStart n => exact follows_of_kept (kept_execFrameStart n s u h)
  | cleSlot n pos slot upsets errs => exact follows_of_kept (kept_execCleSlot n pos slot upsets errs s u h)
  | overrunHeld d t => exact follows_of_kept (kept_execOverrunHeld d t s u h)
  | lanternInterval m faults => exact follows_of_kept (kept_execLanternInterval m faults s u h)
  | lanternWindowEnd w => exact follows_of_kept (kept_execLanternWindowEnd w s u h)
  | rcBinEnd d t => exact follows_of_kept (kept_execRcBinEnd d t s u h)
  | shutter k meas => exact follows_execShutter k meas s u h
  | regrant p => exact follows_of_kept (kept_execRegrant p s u h)
  | traceChunkHandoff p k t => exact follows_of_kept (kept_execTraceChunkHandoff p k t s u h)
  | completionPost p t => exact follows_of_kept (kept_execCompletionPost p t s u h)
  | bulkFetchDone p tag data t => exact follows_of_kept (kept_execBulkFetchDone p tag data t s u h)
  | writeAck t => exact follows_of_kept (kept_execWriteAck t s u h)
  | fabricError p ring idx t => exact follows_of_kept (kept_execFabricError p ring idx t s u h)
  | groupTimeout p t => exact follows_of_kept (kept_execGroupTimeout p t s u h)
  | faultMessage t => exact follows_of_kept (kept_execFaultMessage t s u h)
  | linkUpFrame d rx t => exact follows_of_kept (kept_execLinkUpFrame d rx t s u h)
  | linkDownFrame d rx t => exact follows_of_kept (kept_execLinkDownFrame d rx t s u h)
  | linkLost d t => exact follows_of_kept (kept_execLinkLost d t s u h)
  | linkTrained d ok lat t => exact follows_of_kept (kept_execLinkTrained d ok lat t s u h)
  | linkRestored d t => exact follows_of_kept (kept_execLinkRestored d t s u h)
  | tileWait s_ t => exact follows_of_kept (kept_execTileWait s_ t s u h)
  | tileWake s_ t => exact follows_of_kept (kept_execTileWake s_ t s u h)
  | actSample s_ counts t => exact follows_of_kept (kept_execActSample s_ counts t s u h)
  | tileHint x hint vld t => exact follows_of_kept (kept_execTileHint x hint vld t s u h)
  | tileStepMark s_ t => exact follows_of_kept (kept_execTileStepMark s_ t s u h)
  | freqRdy s_ t => exact follows_of_kept (kept_execFreqRdy s_ t s u h)
  | freqAck s_ t => exact follows_of_kept (kept_execFreqAck s_ t s u h)
  | freqWithdraw s_ t => exact follows_of_kept (kept_execFreqWithdraw s_ t s u h)
  | cellReport c word t => exact follows_of_kept (kept_execCellReport c word t s u h)
  | cellAutonomousHold c t => exact follows_of_kept (kept_execCellAutonomousHold c t s u h)
  | cellOverload c t => exact follows_of_kept (kept_execCellOverload c t s u h)
  | cellFail c t => exact follows_of_kept (kept_execCellFail c t s u h)
  | isolationCheck d k t => exact follows_of_kept (kept_execIsolationCheck d k t s u h)
  | derateThrottle d t => exact follows_of_kept (kept_execDerateThrottle d t s u h)
  | cellPark d t => exact follows_of_kept (kept_execCellPark d t s u h)
  | warmHoldExpire c t => exact follows_of_kept (kept_execWarmHoldExpire c t s u h)
  | crackWindowEnd d t => exact follows_of_kept (kept_execCrackWindowEnd d t s u h)
  | ovCrossing d t => exact follows_of_kept (kept_execOvCrossing d t s u h)
  | dt1Crossing d vlow t => exact follows_of_kept (kept_execDt1Crossing d vlow t s u h)
  | dt2Crossing d vlow t => exact follows_of_kept (kept_execDt2Crossing d vlow t s u h)
  | dt3Crossing d vlow t => exact follows_of_kept (kept_execDt3Crossing d vlow t s u h)
  | floorCrossing d vlow t => exact follows_of_kept (kept_execFloorCrossing d vlow t s u h)
  | crossingRecovery d lv t => exact follows_of_kept (kept_execCrossingRecovery d lv t s u h)
  | glintEnd d t => exact follows_of_kept (kept_execGlintEnd d t s u h)
  | dt3End d t => exact follows_of_kept (kept_execDt3End d t s u h)
  | flareConductionEnd d t => exact follows_of_kept (kept_execFlareConductionEnd d t s u h)
  | flareRecharged d t => exact follows_of_kept (kept_execFlareRecharged d t s u h)
  | flareCheck d bankMv low t => exact follows_of_kept (kept_execFlareCheck d bankMv low t s u h)
  | softStartEnd d t => exact follows_of_kept (kept_execSoftStartEnd d t s u h)
  | short d t => exact follows_of_kept (kept_execShort d t s u h)
  | shortRetry d t => exact follows_of_kept (kept_execShortRetry d t s u h)
  | neighbourArmEnd d t => exact follows_of_kept (kept_execNeighbourArmEnd d t s u h)
  | dischargeTimeout d t => exact follows_of_kept (kept_execDischargeTimeout d t s u h)
  | plaus d t => exact follows_of_kept (kept_execPlaus d t s u h)
  | follow d t => exact follows_of_kept (kept_execFollow d t s u h)
  | freqDeferTimeout s_ t => exact follows_of_kept (kept_execFreqDeferTimeout s_ t s u h)
  | scrub hit t => exact follows_of_kept (kept_execScrub hit t s u h)
  | selftestDone unit res t => exact follows_of_kept (kept_execSelftestDone unit res t s u h)
  | thermalSampleStart t => exact follows_of_kept (kept_execThermalSampleStart t s u h)
  | thermalSampleComplete convs t => exact follows_of_kept (kept_execThermalSampleComplete convs t s u h)
  | tripConfirm s_ conv t => exact follows_of_kept (kept_execTripConfirm s_ conv t s u h)
  | fastSamplingEnd t => exact follows_of_kept (kept_execFastSamplingEnd t s u h)
  | hotHoldEnd d t => exact follows_of_kept (kept_execHotHoldEnd d t s u h)
  | dieSilent d t => exact follows_of_kept (kept_execDieSilent d t s u h)
  | thermalRestart t => exact follows_of_kept (kept_execThermalRestart t s u h)
  | meterSettleEnd t => exact follows_of_kept (kept_execMeterSettleEnd t s u h)
  | meterWindowEnd pos neg t => exact follows_of_kept (kept_execMeterWindowEnd pos neg t s u h)
  | clockMonitorFault c t => exact follows_of_kept (kept_execClockMonitorFault c t s u h)
  | wdtTimeout t => exact follows_of_kept (kept_execWdtTimeout t s u h)
  | wdtFailsClear t => exact follows_of_kept (kept_execWdtFailsClear t s u h)
  | heartbeatToggle t => exact follows_of_kept (kept_execHeartbeatToggle t s u h)
  | safePulseEnd t => exact follows_of_kept (kept_execSafePulseEnd t s u h)
  | holdoffExpire tgt g t => exact follows_of_kept (kept_execHoldoffExpire tgt g t s u h)
  | strataWriteDone ok t => exact follows_of_kept (kept_execStrataWriteDone ok t s u h)
  | clockReturn c t => exact follows_of_kept (kept_execClockReturn c t s u h)
  | gtcVldRise t => exact follows_of_kept (kept_execGtcVldRise t s u h)
  | pfailNRise t => exact follows_of_kept (kept_execPfailNRise t s u h)
  | pmbAlertRelease t => exact follows_of_kept (kept_execPmbAlertRelease t s u h)
  | overloadTimerClear c t => exact follows_of_kept (kept_execOverloadTimerClear c t s u h)
  | mcStart t => exact follows_of_kept (kept_execMcStart t s u h)
  | norReadDone p records rec t => exact follows_of_kept (kept_execNorReadDone p records rec t s u h)
  | eventPost p t => exact follows_of_kept (kept_execEventPost p t s u h)
  | lifetimeCountersRecord payload t => exact follows_of_kept (kept_execLifetimeCountersRecord payload t s u h)

theorem step_nil {s : State} (h : s.pending = []) : step s = .next s := by rw [step, h]

theorem step_cons {s : State} {c : Instr} {rest : List Instr} (h : s.pending = c :: rest) : step s = exec c { s with pending := rest } := by
  rw [step, h]

end Sys2Proof.Laws

namespace Sys2Proof.Proofs
open Sys2Proof Sys2Proof.Machine Sys2Proof.Laws
set_option Elab.async false

/-- Settles O3: a row keeps the rule and the queue behind it (`follows_exec`), and an empty queue has no row to run. -/
theorem stepKeepsSequence : Obligations.StepKeepsSequence := by
  intro s u h
  cases hp : s.pending with
  | nil =>
    obtain rfl := next_inj ((step_nil hp).symm.trans h)
    exact ⟨hp, id, fun _ => rfl⟩
  | cons c rest =>
    rw [step_cons hp] at h
    obtain ⟨hq, hseq⟩ := follows_exec h
    exact ⟨hq, hseq, fun hnil => absurd hnil (List.cons_ne_nil c rest)⟩

/-- Settles O4: the commit sequence is 0 at reset. -/
theorem resetSequence : Obligations.ResetSequence := Or.inl rfl

end Sys2Proof.Proofs
end

section
/-! A lone command from its ring to its slot: the fetch, the checks and the acceptance (R65, R69 to R72, R295, R318). -/

namespace Sys2Proof.Laws
open Sys2Proof Sys2Proof.Machine
set_option Elab.async false

/-! ### A machine with one command -/

/-- Every port has its turn. -/
theorem mem_turns (rr p : Fin 8) : p.val ∈ (List.range 8).map (fun j => (rr.val + 1 + j) % 8) :=
  List.mem_map.mpr ⟨(p.val + 7 - rr.val) % 8, List.mem_range.mpr (by omega), by omega⟩

/-- A machine with one command, which belongs to no group. -/
structure Lone (s : State) (c : Cmd) : Prop where
  cmds : s.cmds = [c]
  groups : ∀ p : Fin 8, vget s.groups p = none
  grp : c.grp = none

/-- A command after it took its slot. -/
def slotted (s : State) (c : Cmd) : Cmd :=
  { c with stage := .accepted, shutter := firstSlot s, order := s.nextOrd, accAt := s.time.gtc, acked := Vector.replicate 5 false }

section
variable {s : State} {c : Cmd}

theorem inUnit_self (c : Cmd) : inUnit [c] c = true := by simp [inUnit]

theorem editUnit_lone (hc : s.cmds = [c]) {x : Cmd} (hx : x.ring = c.ring) (f : Cmd → Cmd) : editUnit s [x] f = { s with cmds := [f c] } := by
  simp [editUnit, hc, inUnit, hx]

theorem dropUnit_lone (hc : s.cmds = [c]) : dropUnit s [c] = { s with cmds := [] } := by simp [dropUnit, hc, inUnit_self]

theorem unitOf_lone (hg : c.grp = none) (s : State) : unitOf s c = [c] := by simp [unitOf, hg]

theorem orphaned_lone (hc : s.cmds = [c]) (hst : c.stage ≠ .bistWait) : orphaned s = none := by simp [orphaned, hc, hst]

variable (hl : Lone s c)
include hl

theorem headUnit_other {p : Nat} (hp : c.d.port.val ≠ p) : headUnit s p = none := by simp [headUnit, hl.cmds, hp]

theorem headUnit_placed {p : Nat} (hst : c.stage = .accepted ∨ c.stage = .bulkWait) : headUnit s p = none := by
  rcases hst with h | h
  · simp [headUnit, hl.cmds, h]
  · by_cases hp : c.d.port.val = p
    · subst hp
      simp [headUnit, hl.cmds, h, unitOf_lone hl.grp, hl.groups c.d.port]
    · exact headUnit_other hl hp

theorem headUnit_waiting (hst : c.stage = .waiting) : headUnit s c.d.port = some [c] := by
  simp [headUnit, hl.cmds, hst, unitOf_lone hl.grp, hl.groups c.d.port]

theorem tryPorts_placed (hst : c.stage = .accepted ∨ c.stage = .bulkWait) (l : List Nat) : tryPorts s l = (s, false) := by
  induction l with
  | nil => rfl
  | cons p l ih => rw [tryPorts, headUnit_placed hl hst, ih]

/-- A command that has its slot, or waits for its data, stays where it is. -/
theorem acceptLoop_placed (hst : c.stage = .accepted ∨ c.stage = .bulkWait) (n : Nat) : acceptLoop n s = s := by
  have ho : orphaned s = none := orphaned_lone hl.cmds (by rcases hst with h | h <;> rw [h] <;> decide)
  cases n with
  | zero => rfl
  | succ n => rw [acceptLoop, ho]; simp [tryPorts_placed hl hst]

theorem acceptAll_placed (hst : c.stage = .accepted ∨ c.stage = .bulkWait) : acceptAll s = s := acceptLoop_placed hl hst _

/-! ### Its turn -/

theorem landing_lone (hst : c.stage = .waiting) (p : Nat) : landing s p 1 = some (firstSlot s) := by
  have hlast : portLast s p = 0 := by simp [portLast, hl.cmds, hst]
  have hfree (t : Nat) : freeSlots s t = 64 := by simp [freeSlots, slotsAt, hl.cmds, hst]
  have hhead : ∃ rest, candidates s = firstSlot s :: rest := by
    unfold candidates firstSlot nextShutter shutterAfter
    dsimp only
    split_ifs
    · exact ⟨_, rfl⟩
    · exact ⟨_, rfl⟩
    · exact ⟨_, rfl⟩
  obtain ⟨rest, hrest⟩ := hhead
  rw [landing, hrest, List.find?_cons_of_pos]
  simp [hlast, hfree]

section
variable (hst : c.stage = .waiting) (hat : dAt c.d = false)
include hst hat

theorem lateMember_lone (hjob : c.op = 0x22 → firstSlot s + 2000 ≤ opN c.d 24 8) (p : Nat) : lateMember s p [c] = none := by
  by_cases hop : c.op = 0x22
  · have h := hjob hop
    simp [lateMember, hat, hop, landing_lone hl hst, Nat.not_lt.mpr h]
  · simp [lateMember, hat, hop]

variable (himm : (opInfo c.op).imm = false) (hcells : cellChecks s c = [])
  (hpass : firstFail [stateCheck s false c, busyCheck s c, unitCheck s c] = none)
  (hjob : c.op = 0x22 → firstSlot s + 2000 ≤ opN c.d 24 8)
include himm hcells hpass hjob

/-- A command that passes steps 9 to 12 takes its slot at its turn. -/
theorem turn_lone (p : Nat) : turn s p [c] = ({ s with cmds := [slotted s c], nextOrd := s.nextOrd + 1 }, .slot) := by
  have hfence : fenced s p [c] = false := by simp [fenced, hl.cmds, hst]
  have hne : c.stage ≠ .prepared := by rw [hst]; decide
  have hprep : prepareMembers s [c] = ({ s with cmds := [{ c with stage := .prepared }] }, none) := by
    simp only [prepareMembers, if_neg hne, hpass]
    rw [editUnit_lone hl.cmds rfl]
  have hland : landing s p [c].length = some (firstSlot s) := landing_lone hl hst p
  rw [turn, hfence, hprep]
  simp only [Bool.false_eq_true, if_false, hcells, List.isEmpty_nil, Bool.not_true, Bool.and_false, List.filter_cons_of_neg,
    not_false_eq_true, List.filter_nil, hat, Bool.false_and, lateMember_lone hl hst hat hjob, ite_self, himm, hland]
  rw [acceptUnit, List.foldl_cons, List.foldl_nil]
  simp only [hat, Bool.false_and, Bool.false_eq_true, if_false]
  exact congrArg (·, Turn.slot) (editUnit_lone (s := { s with cmds := [{ c with stage := .prepared }], nextOrd := s.nextOrd + 1 })
    (c := { c with stage := .prepared }) rfl (x := c) rfl _)

theorem tryPorts_lone {l : List Nat} (hmem : c.d.port.val ∈ l) :
    tryPorts s l = ({ s with cmds := [slotted s c], nextOrd := s.nextOrd + 1, rrPort := c.d.port }, true) := by
  induction l with
  | nil => cases hmem
  | cons p l ih =>
    by_cases hp : c.d.port.val = p
    · subst hp
      rw [tryPorts, headUnit_waiting hl hst]
      simp [turn_lone hl hst hat himm hcells hpass hjob]
    · rw [tryPorts, headUnit_other hl hp]
      exact ih ((List.mem_cons.mp hmem).resolve_left hp)

/-- A command that passes steps 9 to 12 is accepted for the first shutter that it can reach, and nothing else moves. -/
theorem acceptAll_lone : acceptAll s = { s with cmds := [slotted s c], nextOrd := s.nextOrd + 1, rrPort := c.d.port } := by
  have ho : orphaned s = none := orphaned_lone hl.cmds (by rw [hst]; decide)
  have hnext : Lone { s with cmds := [slotted s c], nextOrd := s.nextOrd + 1, rrPort := c.d.port } (slotted s c) :=
    ⟨rfl, hl.groups, hl.grp⟩
  rw [acceptAll, hl.cmds, List.length_singleton, acceptLoop, ho]
  dsimp only
  rw [tryPorts_lone hl hst hat himm hcells hpass hjob (mem_turns s.rrPort c.d.port), if_pos rfl]
  exact acceptLoop_placed hnext (.inl rfl) 2

end

end

/-! ### Its fetch -/

section
variable {op : Nat} {d : Desc} {s : State}

/-- The command of a descriptor that has left its ring. -/
def fetchedCmd (op : Nat) (d : Desc) (s : State) : Cmd :=
  { d := d, op := op, stage := if needsBulk op d then .bulkWait else .waiting, shutter := 0, order := 0, ring := s.nextOrd,
    idx := (ringOf (portOf s d.port) 0).cons, accAt := 0, acked := Vector.replicate 5 false, moved := false, refuse := false, grp := none,
    pos := 0, last := dGroupEnd d, bulk := none }

theorem fetched_eq (op : Nat) (d : Desc) (s : State) : fetched op d s = { now d.t s with
    ports := (fetched op d s).ports, cmds := s.cmds ++ [fetchedCmd op d s], nextOrd := s.nextOrd + 1, fetchPort := d.port } := rfl

/-- Taking a descriptor from its ring leaves what steps 1 and 2 compare. -/
theorem linkCheck_takeEntry (s : State) (d : Desc) : linkCheck (takeEntry s d.port) d = linkCheck s d := by
  rw [linkCheck, linkCheck, takeEntry, portOf_setPort_fin]
  rfl

theorem fetchFault_of_verdict {s0 : State} (h : fetchVerdict s0 op d = none) (idx : Nat) :
    fetchFault (takeEntry s0 d.port) d idx = takeEntry s0 d.port := by
  have hlink : linkCheck s0 d = none := by
    cases hv : linkCheck s0 d with
    | none => rfl
    | some r => rw [fetchVerdict, hv] at h; cases h
  rw [fetchFault, linkCheck_takeEntry, hlink]

variable (h : Admits op d s)
include h

theorem lone_of_admits : Lone (fetched op d s) (fetchedCmd op d s) := by
  obtain ⟨hcmds, hgroups, -⟩ := h
  refine ⟨?_, hgroups, rfl⟩
  rw [fetched_eq, hcmds]
  rfl

/-- A descriptor that passes steps 1 to 7 is queued, and the ports have their turns. -/
theorem fetchAs_of_admits : fetchAs op d s = acceptAll (fetched op d s) := by
  obtain ⟨-, hgroups, hgrp, -, hready, hverdict, -⟩ := h
  have hcut (v : State) (hv : v.groups = s.groups) : cutGroup v d.port = v := by rw [cutGroup, hv, hgroups d.port]
  have hnext : cutGroup (nextExpected (takeEntry (now d.t s) d.port) d) d.port = _ := hcut _ rfl
  rw [fetchAs]
  simp only [hready, Bool.not_true, Bool.false_eq_true, if_false, fetchFault_of_verdict hverdict, hverdict, arrive, hgrp]
  rw [hnext]
  rfl

theorem holds_of_admits (hbulk : needsBulk op d = true) {P : Cmd → Prop} (hP : ∀ c : Cmd, c.d = d → c.op = op → P c) :
    Holds op d .bulkWait s (fetchAs op d s) P := by
  have hstage : (fetchedCmd op d s).stage = .bulkWait := if_pos hbulk
  rw [fetchAs_of_admits h, acceptAll_placed (lone_of_admits h) (.inr hstage)]
  refine ⟨fetchedCmd op d s, (lone_of_admits h).cmds, rfl, rfl, hstage, rfl, rfl, rfl, hP _ rfl rfl, rfl, ?_⟩
  exact fetched_eq op d s

/-- A command without data that is admitted takes its slot. -/
theorem accepts_of_admits (himm : (opInfo op).imm = false) (hbulk : needsBulk op d = false)
    (hjob : op = 0x22 → firstSlot (now d.t s) + 2000 ≤ opN d 24 8) {P : Cmd → Prop} (hP : ∀ c : Cmd, c.d = d → c.op = op → P c)
    {row : Instr} (hrow : exec row s = .next (fetchAs op d s)) : Accepts row op d s P := by
  have hstage : (fetchedCmd op d s).stage = .waiting := if_neg (by rw [hbulk]; decide)
  obtain ⟨-, -, -, hat, -, -, hchecks⟩ := id h
  obtain ⟨hcells, hpass⟩ := hchecks _ (lone_of_admits h).cmds
  have haccept : acceptAll (fetched op d s) = _ := acceptAll_lone (lone_of_admits h) hstage hat himm hcells hpass hjob
  refine ⟨_, hrow, slotted (fetched op d s) (fetchedCmd op d s), ?_⟩
  rw [fetchAs_of_admits h, haccept]
  exact ⟨rfl, rfl, rfl, rfl, rfl, rfl, rfl, ⟨rfl, hP _ rfl rfl⟩, rfl, rfl⟩

end

end Sys2Proof.Laws
end

section
/-! The domains that a command names, and passes over them (R9, R288, R320, R425). -/

namespace Sys2Proof.Laws
open Sys2Proof Sys2Proof.Machine
set_option Elab.async false

/-! ### Numbers of domains -/

theorem mem_siteOrder_lt {s : State} {x : Nat} (h : x ∈ siteOrder s) : x < 64 := by
  rcases List.mem_append.mp h with h | h
  · unfold presentSites at h
    split at h
    · exact List.mem_range.mp h
    · obtain ⟨y, -, rfl⟩ := List.mem_map.mp h
      exact y.isLt
  · exact List.mem_range.mp (List.mem_filter.mp h).1

theorem physOf_site {s : State} {l : Nat} (h : l < 64) : physOf s l < 64 := by
  rw [physOf, if_pos h, List.getD_eq_getElem?_getD]
  cases hl : (siteOrder s)[l]? with
  | none => exact h
  | some x => exact mem_siteOrder_lt (List.mem_of_getElem? hl)

theorem physOf_chip {s : State} {l : Nat} (h : 64 ≤ l) : physOf s l = l := if_neg (Nat.not_lt.mpr h)

theorem physOf_lt {s : State} {l : Nat} (h : l < 80) : physOf s l < 80 := by
  by_cases hl : l < 64
  · exact (physOf_site hl).trans (by decide)
  · rwa [physOf_chip (Nat.le_of_not_lt hl)]

/-- Every logical tile number names a site of its own. -/
def Named (s : State) : Prop := ∀ l < 64, logOf s (physOf s l) = l

theorem Named.logOf {s : State} (h : Named s) (l : Nat) : Machine.logOf s (physOf s l) = l := by
  by_cases hl : l < 64
  · exact h l hl
  · rw [physOf_chip (Nat.le_of_not_lt hl), Machine.logOf, if_neg hl]

theorem Named.physOf_inj {s : State} (h : Named s) {l m : Nat} (hp : physOf s l = physOf s m) : l = m := by
  rw [← h.logOf l, hp, h.logOf m]

/-- Two states with one characterisation record number their sites alike. -/
theorem siteOrder_congr {s u : State} (h : u.char = s.char) : siteOrder u = siteOrder s := by
  rw [siteOrder, siteOrder, presentSites, presentSites, h]

theorem physOf_congr {s u : State} (h : u.char = s.char) (l : Nat) : physOf u l = physOf s l := by
  rw [physOf, physOf, siteOrder_congr h]

theorem logOf_congr {s u : State} (h : u.char = s.char) (d : Nat) : Machine.logOf u d = Machine.logOf s d := by
  rw [Machine.logOf, Machine.logOf, siteOrder_congr h]

/-! ### The named domains -/

section
variable {s : State} {op : Nat} {d : Desc}

theorem targetsOf_nodup : (targetsOf s op d).Nodup := by
  unfold targetsOf
  split
  · exact List.nodup_nil
  split
  · exact List.nodup_range.filter _
  split
  · exact List.nodup_singleton _
  · exact List.nodup_nil

theorem lt_of_mem_targetsOf {l : Nat} (h : l ∈ targetsOf s op d) : l < 80 := by
  unfold targetsOf at h
  split at h
  · cases h
  split at h
  · have hl := List.mem_range.mp (List.mem_filter.mp h).1
    rw [scopeTop] at hl
    split at hl <;> omega
  split at h
  · rw [List.mem_singleton.mp h]
    assumption
  · cases h

theorem presentOf_nodup : (presentOf s op d).Nodup := targetsOf_nodup.filter _

theorem mem_targetsOf_of_present {l : Nat} (h : l ∈ presentOf s op d) : l ∈ targetsOf s op d := (List.mem_filter.mp h).1

theorem lt_of_mem_presentOf {l : Nat} (h : l ∈ presentOf s op d) : l < 80 := lt_of_mem_targetsOf (mem_targetsOf_of_present h)

theorem not_absent_of_present {l : Nat} (h : l ∈ presentOf s op d) : isAbsent s (physOf s l) = false := by
  have := (List.mem_filter.mp h).2
  rwa [Bool.not_eq_true'] at this

/-- A command on several domains names no odd member of a pair (R320). -/
theorem not_odd_of_other_target {l m : Nat} (hl : l ∈ targetsOf s op d) (hm : m ∈ targetsOf s op d) (hne : m ≠ l) :
    isOdd s (physOf s l) = false := by
  unfold targetsOf at hl hm
  split at hl
  · cases hl
  · rename_i hscope
    rw [if_neg hscope] at hm
    split at hl
    · have := (List.mem_filter.mp hl).2
      simp only [Bool.and_eq_true, Bool.not_eq_true'] at this
      exact this.2
    · rename_i hall
      rw [if_neg hall] at hm
      split at hl
      · rename_i hd
        rw [if_pos hd] at hm
        exact absurd ((List.mem_singleton.mp hm).trans (List.mem_singleton.mp hl).symm) hne
      · cases hl

theorem nodup_map_physOf (h : Named s) {l : List Nat} (hl : l.Nodup) : (l.map (physOf s)).Nodup :=
  hl.map fun _ _ hp => h.physOf_inj hp

end

/-! ### Passes -/

/-- What every step keeps once one step has brought it holds after a pass with that step. -/
theorem foldl_reaches {σ α : Type} {g : σ → α → σ} {I Q : σ → Prop} {a : α} (hI : ∀ v e, I v → I (g v e)) (hset : ∀ v, I v → Q (g v a))
    (hkeep : ∀ v e, I v → Q v → Q (g v e)) {l : List α} (ha : a ∈ l) {s : σ} (hs : I s) : Q (l.foldl g s) := by
  obtain ⟨l1, l2, rfl⟩ := List.append_of_mem ha
  rw [List.foldl_append, List.foldl_cons]
  have hv : I (l1.foldl g s) := foldl_inv hI l1 hs
  exact (foldl_inv (I := fun v => I v ∧ Q v) (fun v e h => ⟨hI v e h.1, hkeep v e h.1 h.2⟩) l2 ⟨hI _ a hv, hset _ hv⟩).2

/-- Nothing but domains and their configurations has changed. -/
def OnlyDomsCfg (s u : State) : Prop := u = { s with dom := u.dom, cfg := u.cfg }

theorem OnlyDomsCfg.refl (s : State) : OnlyDomsCfg s s := rfl

theorem OnlyDomsCfg.trans {s u v : State} (h : OnlyDomsCfg s u) (k : OnlyDomsCfg u v) : OnlyDomsCfg s v := by
  rw [OnlyDomsCfg] at *
  rw [k, h]

theorem OnlyDomsCfg.char {s u : State} (h : OnlyDomsCfg s u) : u.char = s.char := by rw [h]

theorem OnlyDoms.char {s u : State} (h : OnlyDoms s u) : u.char = s.char := by rw [h]

theorem OnlyDoms.cfg {s u : State} (h : OnlyDoms s u) : u.cfg = s.cfg := by rw [h]

theorem OnlyDoms.cfgToo {s u : State} (h : OnlyDoms s u) : OnlyDomsCfg s u := by
  rw [OnlyDoms] at h
  rw [OnlyDomsCfg, h]

theorem onlyDomsCfg_setCfg (s : State) (l : Nat) (f : DomCfg → DomCfg) : OnlyDomsCfg s (setCfg s l f) := rfl

/-- A change of a domain whose record may have been changed already by an equal one. -/
theorem domOf_setDom (s : State) {d e : Nat} (f : Domain → Domain) (he : e < 80) :
    domOf (setDom s d f) e = if d = e then f (domOf s e) else domOf s e := by
  split
  · rename_i h
    subst h
    exact domOf_setDom_same s f he
  · rename_i h
    exact domOf_setDom_ne s f h

end Sys2Proof.Laws
end

section
/-! Hints, marks and the repetitive compensator at their commit (R84, R193, R208, R210, R211, R336, R340). -/

namespace Sys2Proof.Laws
open Sys2Proof Sys2Proof.Machine
set_option Elab.async false

/-! ### Hints -/

/-- The hint of a HINT_PHASE. -/
def hostHint (d : Desc) : Hint :=
  { cls := BitVec.ofNat 4 (opB d 16), eta := BitVec.ofNat 12 (opN d 18 2), inten := BitVec.ofNat 8 (opB d 20), dur := BitVec.ofNat 16 (opN d 22 2) }

/-- A table entry of a hint. -/
def liveHint (h : Hint) (D : Domain) : LiveHint :=
  { cls := h.cls, eta := h.eta.toNat, inten := h.inten.toNat, dur := h.dur.toNat, seq := D.lant.hintSeq, new := true }

/-- A table with a new entry, the oldest of four making room. -/
def hintJoined (h : Hint) (D : Domain) : Lant :=
  { D.lant with hints := (if 4 ≤ D.lant.hints.length then D.lant.hints.drop 1 else D.lant.hints) ++ [liveHint h D], hintSeq := D.lant.hintSeq + 1 }

theorem addHint_full {D : Domain} (hf : 4 ≤ D.lant.hints.length) (h : Hint) : addHint h D = bump 7 1 { D with lant := hintJoined h D } := by
  simp only [addHint, hintJoined, hf, decide_true, if_true]
  rfl

theorem addHint_room {D : Domain} (hf : ¬4 ≤ D.lant.hints.length) (h : Hint) : addHint h D = { D with lant := hintJoined h D } := by
  simp only [addHint, hintJoined, hf, decide_false, Bool.false_eq_true, if_false]
  rfl

theorem ctrOf_bump_same {k : Nat} (h : k - 1 < 13) (n : Nat) (D : Domain) : ctrOf (bump k n D) k = ctrOf D k + BitVec.ofNat 32 n :=
  vget_vupd_same _ _ h

theorem ctrOf_bump_ne {k j : Nat} (h : k - 1 ≠ j - 1) (n : Nat) (D : Domain) : ctrOf (bump k n D) j = ctrOf D j := vget_vupd_ne _ _ h

/-- A hint joins the table as its newest entry; a table of four gives up its oldest one, which counter 7 counts. -/
theorem addHint_spec (h : Hint) (D : Domain) : (addHint h D).lant = hintJoined h D ∧
    ctrOf (addHint h D) 7 = ctrOf D 7 + (if 4 ≤ D.lant.hints.length then 1 else 0) ∧
    (∀ n : Nat, 1 ≤ n → n ≤ 13 → n ≠ 7 → ctrOf (addHint h D) n = ctrOf D n) ∧
    addHint h D = { D with lant := (addHint h D).lant, ctr := (addHint h D).ctr } := by
  by_cases hf : 4 ≤ D.lant.hints.length
  · rw [addHint_full hf, if_pos hf]
    exact ⟨rfl, ctrOf_bump_same (by decide) 1 _, fun n _ _ _ => ctrOf_bump_ne (by omega) 1 _, rfl⟩
  · rw [addHint_room hf, if_neg hf]
    exact ⟨rfl, (BitVec.add_zero _).symm, fun _ _ _ _ => rfl, rfl⟩

section
variable {c : Cmd} {d : Desc} (hd : c.d = d) (t : Nat) (q : Latch) (v : State)
include hd

theorem applyEffect_hintPhase (hop : c.op = 0x30) : applyEffect t q v c =
    ((presentOf v 0x30 d).foldl (fun s l => setDom s (physOf s l) (addHint (hostHint d))) v, 0) := by
  unfold applyEffect
  rw [hop, hd]
  rfl

theorem applyEffect_stepMark (hop : c.op = 0x31) : applyEffect t q v c = applyMark v (presentOf v 0x31 d) := by
  unfold applyEffect
  rw [hop, hd]
  rfl

theorem applyEffect_rcConfig (hop : c.op = 0x54) : applyEffect t q v c =
    ((targetsOf v 0x54 d).foldl (fun s l => applyRcConfig s d l) v, (targetsOf v 0x54 d).length % 256) := by
  unfold applyEffect
  rw [hop, hd]
  rfl

theorem applyEffect_rcReset (hop : c.op = 0x55) : applyEffect t q v c =
    ((targetsOf v 0x55 d).foldl (fun s l => setDom s (physOf s l) (fun D => { D with rcOff := D.marks.rc, rc := rcCleared D.rc })) v,
      (targetsOf v 0x55 d).length % 256) := by
  unfold applyEffect
  rw [hop, hd]
  rfl

end

/-! ### One change of each named domain -/

section
variable {s : State} (f : Domain → Domain) {l : List Nat}

/-- A change of each domain of a list. -/
def setEach (f : Domain → Domain) (s : State) (l : Nat) : State := setDom s (physOf s l) f

theorem onlyDoms_setEach (v : State) (m : Nat) : OnlyDoms v (setEach f v m) := onlyDoms_setDom v _ f

theorem onlyDoms_foldl_setEach : OnlyDoms s (l.foldl (setEach f) s) :=
  foldl_inv (I := OnlyDoms s) (fun v m hv => hv.trans (onlyDoms_setEach f v m)) l (.refl s)

theorem domOf_setEach {v : State} (hv : OnlyDoms s v) {m e : Nat} (he : e < 80) :
    domOf (setEach f v m) e = if physOf s m = e then f (domOf v e) else domOf v e := by
  rw [setEach, domOf_setDom v f he, physOf_congr hv.char]

theorem domOf_foldl_setEach_other {e : Nat} (he : e < 80) (h : ∀ m ∈ l, physOf s m ≠ e) : domOf (l.foldl (setEach f) s) e = domOf s e :=
  foldl_key_kept (I := OnlyDoms s) (P := fun v => domOf v e) (κ := physOf s) (k := e) (fun v m hv => hv.trans (onlyDoms_setEach f v m))
    (fun _ _ hv hne => (domOf_setEach f hv he).trans (if_neg hne)) h (.refl s)

theorem domOf_foldl_setEach_named (hn : Named s) (hl : l.Nodup) {m : Nat} (hm : m ∈ l) (hlt : physOf s m < 80) :
    domOf (l.foldl (setEach f) s) (physOf s m) = f (domOf s (physOf s m)) := by
  obtain ⟨v, hv, hold, hnew⟩ := foldl_key_at (I := OnlyDoms s) (P := fun v => domOf v (physOf s m)) (κ := physOf s) (a := m) (g := setEach f)
    (fun v m hv => hv.trans (onlyDoms_setEach f v m)) (fun _ _ hv hne => (domOf_setEach f hv hlt).trans (if_neg hne))
    (nodup_map_physOf hn hl) hm (.refl s)
  rw [hnew, domOf_setEach f hv hlt, if_pos rfl, hold]

/-- What the change always brings to a domain holds of every named one. -/
theorem domOf_foldl_setEach_reaches {Q : Domain → Prop} (hQ : ∀ D, Q (f D)) {m : Nat} (hm : m ∈ l) (hlt : physOf s m < 80) :
    Q (domOf (l.foldl (setEach f) s) (physOf s m)) := by
  refine foldl_reaches (I := OnlyDoms s) (Q := fun v => Q (domOf v (physOf s m))) (fun v m hv => hv.trans (onlyDoms_setEach f v m))
    (fun v hv => ?_) (fun v e hv hold => ?_) hm (.refl s)
  · rw [domOf_setEach f hv hlt, if_pos rfl]
    exact hQ _
  · rw [domOf_setEach f hv hlt]
    split
    · exact hQ _
    · exact hold

end

theorem hintPhase_commits {c : Cmd} {d : Desc} (hd : c.d = d) (hop : c.op = 0x30) : Commit c (fun v w _ => Named v →
    (∀ e : Dom, (∀ l ∈ presentOf v 0x30 d, physOf v l ≠ e.val) → vget w.dom e = vget v.dom e) ∧
    (∀ e : Dom, (∃ l ∈ presentOf v 0x30 d, physOf v l = e.val) → vget w.dom e = addHint (hostHint d) (vget v.dom e)) ∧
    w = { v with dom := w.dom }) := by
  intro q v hn
  rw [applyEffect_hintPhase hd c.shutter q v hop]
  refine ⟨fun e he => domOf_foldl_setEach_other (addHint (hostHint d)) e.isLt he, fun e he => ?_, onlyDoms_foldl_setEach _⟩
  obtain ⟨l, hl, he⟩ := he
  have hnamed := domOf_foldl_setEach_named (addHint (hostHint d)) hn presentOf_nodup hl (he ▸ e.isLt)
  rw [he] at hnamed
  exact hnamed

/-! ### Marks -/

theorem foldl_fst {σ β α : Type} {f : σ × β → α → σ × β} {g : σ → α → σ} (h : ∀ a x, (f a x).1 = g a.1 x) (l : List α) (a : σ × β) :
    (l.foldl f a).1 = l.foldl g a.1 := by
  induction l generalizing a with
  | nil => rfl
  | cons x l ih => rw [List.foldl_cons, List.foldl_cons, ih, h]

/-- The mark of a host at one domain, whose RC takes it where its source is its own marks. -/
def hostMark (s : State) (l : Nat) : State := if (cfgOf s l).rc.src = 0x80 then pendMark s (physOf s l) else s

theorem applyMark_fst (s : State) (l : List Nat) : (applyMark s l).1 = l.foldl hostMark s := by
  refine foldl_fst (fun a x => ?_) l (s, 0)
  rw [hostMark]
  dsimp only
  split <;> rfl

/-- What decides whether an RC takes a mark. -/
def markGate (D : Domain) : DState × PairRole := (D.state, D.pair)

theorem sameGate_pendMark (s : State) (x : Nat) : SameView markGate s (pendMark s x) :=
  sameView_of_ite (.refl s) (sameView_of_ite (sameView_setDom s x _ fun _ => rfl) (sameView_setDom s x _ fun _ => rfl))

theorem mark_pendMark_kept {s : State} {d : Nat} (x : Nat) (h : (domOf s d).rc.mark = true) : (domOf (pendMark s x) d).rc.mark = true := by
  by_cases hd : d < 80
  · unfold pendMark
    split
    · exact h
    split
    · rw [domOf_setDom s _ hd]
      split
      · exact h
      · exact h
    · rw [setRc, domOf_setDom s _ hd]
      split
      · rfl
      · exact h
  · rw [domOf_ge _ (Nat.le_of_not_lt hd)] at h ⊢
    exact h

/-- What the marks of a pass leave. -/
def MarkedFrom (s v : State) : Prop := OnlyDoms s v ∧ SameView markGate s v

theorem MarkedFrom.step {s v : State} (h : MarkedFrom s v) (l : Nat) : MarkedFrom s (hostMark v l) := by
  unfold hostMark
  split
  · exact ⟨h.1.trans (domOnly_pendMark v _).1, h.2.trans (sameGate_pendMark v _)⟩
  · exact h

theorem MarkedFrom.refl (s : State) : MarkedFrom s s := ⟨.refl s, .refl s⟩

theorem MarkedFrom.src {s v : State} (h : MarkedFrom s v) (l : Nat) : cfgOf v l = cfgOf s l ∧ physOf v l = physOf s l := by
  refine ⟨?_, physOf_congr h.1.char l⟩
  rw [cfgOf, cfgOf, h.1.cfg]

theorem stepMark_commits {c : Cmd} {d : Desc} (hd : c.d = d) (hop : c.op = 0x31) : Commit c (fun v w _ =>
    (∀ l ∈ presentOf v 0x31 d, (cfgOf v l).rc.src = 0x80 → isOdd v (physOf v l) = false → (domOf w (physOf v l)).rc.mark = true) ∧
    (∀ e : Dom, (∀ l ∈ presentOf v 0x31 d, (cfgOf v l).rc.src = 0x80 → physOf v l ≠ e.val) → vget w.dom e = vget v.dom e) ∧
    w = { v with dom := w.dom }) := by
  intro q v
  rw [applyEffect_stepMark hd c.shutter q v hop, applyMark_fst]
  refine ⟨fun l hl hsrc hodd => ?_, fun e he => ?_, ?_⟩
  · refine foldl_reaches (I := MarkedFrom v) (Q := fun w => (domOf w (physOf v l)).rc.mark = true) (fun w m hw => hw.step m) (fun w hw => ?_)
      (fun w m hw hQ => ?_) hl (.refl v)
    · obtain ⟨hcfg, hphys⟩ := hw.src l
      obtain ⟨hstate, hpair⟩ := Prod.mk.inj (hw.2.1 (physOf v l))
      rw [hostMark, hcfg, hphys, if_pos hsrc]
      refine mark_pendMark (physOf_lt (lt_of_mem_presentOf hl)) ?_ ?_
      · rw [isAbsent, hstate]
        exact not_absent_of_present hl
      · rw [isOdd, hpair]
        exact hodd
    · unfold hostMark
      split
      · exact mark_pendMark_kept _ hQ
      · exact hQ
  · refine (List.foldlRecOn (motive := fun w => MarkedFrom v w ∧ domOf w e = domOf v e) _ hostMark ⟨.refl v, rfl⟩ fun w hw l hl => ?_).2
    refine ⟨hw.1.step l, ?_⟩
    obtain ⟨hcfg, hphys⟩ := hw.1.src l
    rw [hostMark, hcfg, hphys]
    split
    · rename_i hsrc
      exact ((domOnly_pendMark w _).2 e fun h => he l hl hsrc h.symm).trans hw.2
    · exact hw.2
  · exact (foldl_inv (I := MarkedFrom v) (fun w m hw => hw.step m) _ (.refl v)).1

/-! ### The repetitive compensator -/

/-- The parameters that an RC_CONFIG leaves. -/
def rcSelected (d : Desc) (r : RcCfg) : RcCfg :=
  { on := pick d 0 20 1 r.on, k := pick d 1 21 1 r.k, f := pick d 2 22 1 r.f, g := pick d 3 23 1 r.g, l := pick d 4 24 1 r.l,
    auth := pick d 5 25 1 r.auth, src := pick d 6 26 1 r.src }

/-- A domain after an RC_CONFIG from parameters: RC_OFF clears unless an internal change of the shutter has set it, and another `RC_K` zeroes the
bins. -/
def rcConfigured (d : Desc) (r : RcCfg) (D : Domain) : Domain :=
  { D with rcOff := D.marks.rc, rc := if (rcSelected d r).k = r.k then D.rc else rcCleared D.rc }

/-- One logical domain's parameters and its site. -/
def rcPart (s : State) (l x : Nat) : RcCfg × Domain := ((cfgOf s l).rc, domOf s x)

theorem applyRcConfig_eq (s : State) (d : Desc) (l : Nat) : applyRcConfig s d l =
    setDom (setCfg s l (fun k => { k with rc := rcSelected d k.rc })) (physOf s l) (rcConfigured d (cfgOf s l).rc) := by
  have hcfg : vupd s.cfg l (fun k => { k with rc := rcSelected d (cfgOf s l).rc }) = vupd s.cfg l (fun k => { k with rc := rcSelected d k.rc }) :=
    vupd_congr s.cfg l rfl
  show setDom (setCfg s l (fun k => { k with rc := rcSelected d (cfgOf s l).rc })) _ _ = _
  rw [setCfg, hcfg]
  rfl

theorem cfgOf_setCfg (s : State) {l k : Nat} (f : DomCfg → DomCfg) (hk : k < 80) : cfgOf (setCfg s l f) k = if l = k then f (cfgOf s k) else cfgOf s k := by
  split
  · rename_i h
    subst h
    exact cfgOf_setCfg_same s f hk
  · rename_i h
    exact cfgOf_setCfg_ne s f h

/-- In a pass that changes the configuration of each named domain, each one's changes once. -/
theorem cfgOf_foldl_each {g : State → Nat → State} {f : DomCfg → DomCfg} (hg : ∀ v l, (g v l).cfg = vupd v.cfg l f) {l : List Nat} (hl : l.Nodup)
    (s : State) {k : Nat} (hk : k < 80) : cfgOf (l.foldl g s) k = if k ∈ l then f (cfgOf s k) else cfgOf s k := by
  have hother (v : State) (m : Nat) (_ : True) (hne : k ≠ m) : cfgOf (g v m) k = cfgOf v k := by
    rw [cfgOf, hg, vget_vupd_ne _ _ hne.symm]
    rfl
  split
  · rename_i hm
    obtain ⟨v, -, hold, hnew⟩ := foldl_at (I := fun _ => True) (P := fun v => cfgOf v k) (g := g) (fun _ _ _ => trivial) hother hl hm (s := s) trivial
    rw [hnew, cfgOf, hg, vget_vupd_same _ _ hk]
    exact congrArg f hold
  · rename_i hm
    exact foldl_proj_of_not_mem (I := fun _ => True) (P := fun v => cfgOf v k) (fun _ _ _ => trivial) hother hm (s := s) trivial

/-- A domain after an RC_RESET. -/
def rcZeroed (D : Domain) : Domain := { D with rcOff := D.marks.rc, rc := rcCleared D.rc }

section
variable {s : State} {d : Desc}

theorem onlyDomsCfg_applyRcConfig (v : State) (l : Nat) : OnlyDomsCfg v (applyRcConfig v d l) := by rw [applyRcConfig_eq]; rfl

theorem rcPart_applyRcConfig_other {v : State} {l m : Nat} (hm : m < 80) (hv : OnlyDomsCfg s v) (hne : physOf s l ≠ physOf s m) :
    rcPart (applyRcConfig v d l) m (physOf s m) = rcPart v m (physOf s m) := by
  have hlm : l ≠ m := fun h => hne (congrArg (physOf s) h)
  have hcfg : cfgOf (applyRcConfig v d l) m = cfgOf v m := by
    rw [applyRcConfig_eq, cfgOf_setDom, cfgOf_setCfg v _ hm, if_neg hlm]
  have hdom : domOf (applyRcConfig v d l) (physOf s m) = domOf v (physOf s m) := by
    rw [applyRcConfig_eq, domOf_setDom _ _ (physOf_lt hm), domOf_setCfg, physOf_congr hv.char, if_neg hne]
  rw [rcPart, rcPart, hcfg, hdom]

/-- Each named domain's parameters and site change once. -/
theorem rcPart_applyRcConfig_named (hn : Named s) {l : List Nat} (hl : l.Nodup) {m : Nat} (hm : m ∈ l) (hlt : m < 80) :
    rcPart (l.foldl (fun s l => applyRcConfig s d l) s) m (physOf s m) =
      (rcSelected d (cfgOf s m).rc, rcConfigured d (cfgOf s m).rc (domOf s (physOf s m))) := by
  obtain ⟨v, hv, hold, hnew⟩ := foldl_key_at (I := OnlyDomsCfg s) (P := fun v => rcPart v m (physOf s m)) (κ := physOf s) (a := m)
    (g := fun s l => applyRcConfig s d l) (fun v l hv => hv.trans (onlyDomsCfg_applyRcConfig v l))
    (fun _ _ hv hne => rcPart_applyRcConfig_other hlt hv hne) (nodup_map_physOf hn hl) hm (.refl s)
  obtain ⟨hcfg, hdom⟩ := Prod.mk.inj hold
  rw [hnew, rcPart, applyRcConfig_eq, cfgOf_setDom, cfgOf_setCfg v _ hlt, if_pos rfl, domOf_setDom _ _ (physOf_lt hlt), domOf_setCfg,
    physOf_congr hv.char, if_pos rfl, hcfg, hdom]

end

theorem rcConfig_commits {c : Cmd} {d : Desc} (hd : c.d = d) (hop : c.op = 0x54) : Commit c (fun v w _ => Named v →
    (∀ l : Fin 80, cfgOf w l = if l.val ∈ targetsOf v 0x54 d then { cfgOf v l with rc := rcSelected d (cfgOf v l).rc } else cfgOf v l) ∧
    (∀ l ∈ targetsOf v 0x54 d, physOf v l < 80 →
      (domOf w (physOf v l)).rcOff = (domOf v (physOf v l)).marks.rc ∧ (selects d 1 = true → opN d 21 1 ≠ (cfgOf v l).rc.k →
        (domOf w (physOf v l)).rc.bins = ⟨[]⟩ ∧ (domOf w (physOf v l)).rc.locked = false)) ∧
    w = { v with cfg := w.cfg, dom := w.dom }) := by
  intro q v hn
  rw [applyEffect_rcConfig hd c.shutter q v hop]
  refine ⟨fun l => ?_, fun l hl _ => ?_, foldl_inv (I := OnlyDomsCfg v) (fun w l hw => hw.trans (onlyDomsCfg_applyRcConfig w l)) _ (.refl v)⟩
  · refine cfgOf_foldl_each (f := fun k => { k with rc := rcSelected d k.rc }) (fun w m => ?_) targetsOf_nodup v l.isLt
    rw [applyRcConfig_eq]
    rfl
  · obtain ⟨-, hdom⟩ := Prod.mk.inj (rcPart_applyRcConfig_named (d := d) hn targetsOf_nodup hl (lt_of_mem_targetsOf hl))
    rw [hdom]
    refine ⟨rfl, fun hsel hk => ?_⟩
    have hne : (rcSelected d (cfgOf v l).rc).k ≠ (cfgOf v l).rc.k := by
      rw [rcSelected, pick, pick, if_pos hsel]
      exact hk
    rw [rcConfigured, if_neg hne]
    exact ⟨rfl, rfl⟩

theorem rcReset_commits {c : Cmd} {d : Desc} (hd : c.d = d) (hop : c.op = 0x55) : Commit c (fun v w _ =>
    (∀ l ∈ targetsOf v 0x55 d, physOf v l < 80 → let E := domOf w (physOf v l)
      E.rc.bins = ⟨[]⟩ ∧ E.rc.locked = false ∧ E.rcOff = (domOf v (physOf v l)).marks.rc) ∧
    (∀ e : Dom, (∀ l ∈ targetsOf v 0x55 d, physOf v l ≠ e.val) → vget w.dom e = vget v.dom e) ∧
    w = { v with dom := w.dom }) := by
  intro q v
  rw [applyEffect_rcReset hd c.shutter q v hop]
  refine ⟨fun l hl hlt => ?_, fun e he => domOf_foldl_setEach_other rcZeroed e.isLt he, onlyDoms_foldl_setEach rcZeroed⟩
  have hmarks : SameView Domain.marks v ((targetsOf v 0x55 d).foldl (setEach rcZeroed) v) :=
    sameView_foldl (fun w m => sameView_setDom w _ rcZeroed fun _ => rfl) _ v
  obtain ⟨hbins, hlock, hoff⟩ := domOf_foldl_setEach_reaches (Q := fun D => D.rc.bins = ⟨[]⟩ ∧ D.rc.locked = false ∧ D.rcOff = D.marks.rc) rcZeroed
    (fun _ => ⟨rfl, rfl, rfl⟩) hl hlt
  exact ⟨hbins, hlock, hoff.trans (congrArg IntMarks.rc (hmarks.1 _))⟩

end Sys2Proof.Laws

namespace Sys2Proof.Proofs
open Sys2Proof Sys2Proof.Machine Sys2Proof.Laws
set_option Elab.async false

/-- Settles O52: the four commands are admitted alike (`accepts_of_admits`), and each one's pass over the domains that it names changes each of
them once. -/
theorem hintAndRcCommands : Obligations.HintAndRcCommands := by
  refine fun d s => ⟨fun h => accepts_of_admits h rfl rfl (fun h => absurd h (by decide)) (fun c hd hop q v hn => ?_) rfl,
    fun h => accepts_of_admits h rfl rfl (fun h => absurd h (by decide)) (fun c hd hop => stepMark_commits hd hop) rfl,
    fun h => accepts_of_admits h rfl rfl (fun h => absurd h (by decide)) (fun c hd hop => rcConfig_commits hd hop) rfl,
    fun h => accepts_of_admits h rfl rfl (fun h => absurd h (by decide)) (fun c hd hop => rcReset_commits hd hop) rfl⟩
  obtain ⟨hother, hnamed, hframe⟩ := hintPhase_commits hd hop q v hn
  refine ⟨hother, fun e he => ?_, hframe⟩
  rw [hnamed e he]
  exact addHint_spec _ _

end Sys2Proof.Proofs
end

section
/-! Images and bindings: the data of a load, and what loads and bindings leave at their commit (R65, R84, R162 to R166, R196 to R198, R338, R339). -/

namespace Sys2Proof.Laws
open Sys2Proof Sys2Proof.Machine
set_option Elab.async false

/-! ### The data of a load (R65, R164, R197) -/

/-- Good data of a program or a model. -/
def GoodImage (op : Nat) (b : List Byte) (img : BulkImg) : Prop :=
  (∃ g, op = 0x50 ∧ loadProgramImage b = .ok g ∧ img = .program g) ∨ (∃ m, op = 0x52 ∧ loadModelImage b = .ok m ∧ img = .model m)

/-- Bad data, with the reason and the place of the first failure. -/
def BadImage (op : Nat) (b : List Byte) (reason place : Nat) : Prop :=
  (∃ f, op = 0x50 ∧ loadProgramImage b = .error f ∧ reason = f.reason ∧ place = f.sect * 2 ^ 21 + f.word) ∨
  (∃ f, op = 0x52 ∧ loadModelImage b = .error f ∧ reason = f.reason ∧ place = f.off)

/-- A load passes steps 10 to 12 where its image fits. -/
theorem load_checks {s : State} {c : Cmd} (hop : c.op = 0x50 ∨ c.op = 0x52) (hfit : c.op = 0x50 → unitsFit s c = true)
    (hstate : stateCheck s false c = none) : (opInfo c.op).imm = false ∧ cellChecks s c = [] ∧
    firstFail [stateCheck s false c, busyCheck s c, unitCheck s c] = none ∧ (c.op = 0x22 → firstSlot s + 2000 ≤ opN c.d 24 8) := by
  rcases hop with h | h
  · have hunits := hfit h
    simp [h, opInfo, cellChecks, firstFail, hstate, busyCheck, unitCheck, hunits, failIf]
  · simp [h, opInfo, cellChecks, firstFail, hstate, busyCheck, unitCheck]

section
variable {s : State} {c : Cmd} (hl : Lone s c) (b : List Byte)
include hl

theorem exec_bulkFetchDone (hst : c.stage = .bulkWait) (t : Nat) :
    exec (.bulkFetchDone c.d.port c.d.tag (.bytes b) t) s = .next (acceptAll (bulkCheck (now t s) c b)) := by
  have hfind : cmdAt (now t s) c.d.port (fun x => x.stage == .bulkWait && x.d.tag == c.d.tag) = some c := by
    simp [cmdAt, hl.cmds, hst]
  show execBulkFetchDone c.d.port c.d.tag (.bytes b) t s = _
  unfold execBulkFetchDone
  dsimp only
  rw [hfind]

/-- Good data sends its command on. -/
theorem bulkCheck_good {img : BulkImg} (h : GoodImage c.op b img) :
    bulkCheck s c b = { s with cmds := [{ c with stage := .waiting, bulk := some img }] } := by
  refine Eq.trans ?_ (editUnit_lone hl.cmds (x := c) rfl fun c => { c with stage := .waiting, bulk := some img })
  rcases h with ⟨g, hop, hload, rfl⟩ | ⟨m, hop, hload, rfl⟩
  · rw [bulkCheck, hop, hload]
    rfl
  · rw [bulkCheck, hop, hload]
    rfl

/-- A command that fails before its acceptance completes alone. -/
theorem memberFails_lone (st result : Nat) : memberFails s c st result = finish { s with cmds := [] } c st 0 (epochNow s) true result := by
  have hfail : failUnit s [c] [⟨c.ring, st, result⟩] none = finish { s with cmds := [] } c st 0 (epochNow s) true result := by
    simp [failUnit, dropUnit_lone hl.cmds]
    rfl
  have hgroup : vget (finish { s with cmds := [] } c st 0 (epochNow s) true result).groups c.d.port = none := hl.groups c.d.port
  rw [memberFails, unitOf_lone hl.grp, hfail, hgroup]

theorem bulkCheck_bad {reason place : Nat} (h : BadImage c.op b reason place) : bulkCheck s c b =
    finish { s with cmds := [] } c (if reason = 1 then stBadCheck else stBadOperand) 0 (epochNow s) true (reason * 2 ^ 24 + place) := by
  rcases h with ⟨f, hop, hload, rfl, rfl⟩ | ⟨f, hop, hload, rfl, rfl⟩
  · rw [bulkCheck, hop, hload, ← Nat.add_assoc]
    exact memberFails_lone hl _ _
  · rw [bulkCheck, hop, hload]
    exact memberFails_lone hl _ _

theorem bulkFetchDone_good (hst : c.stage = .bulkWait) (hat : dAt c.d = false) (t : Nat) {img : BulkImg} (h : GoodImage c.op b img)
    (hfit : c.op = 0x50 → unitsFit { now t s with cmds := [{ c with stage := .waiting, bulk := some img }] }
      { c with stage := .waiting, bulk := some img } = true)
    (hstate : stateCheck { now t s with cmds := [{ c with stage := .waiting, bulk := some img }] } false
      { c with stage := .waiting, bulk := some img } = none) :
    Answers (.bulkFetchDone c.d.port c.d.tag (.bytes b) t) s (fun u =>
      ∃ y, u.cmds = [y] ∧ y.d = c.d ∧ y.stage = .accepted ∧ y.bulk = some img ∧ y.shutter = firstSlot (now t s) ∧
      u = { now t s with cmds := u.cmds, nextOrd := u.nextOrd, rrPort := u.rrPort }) := by
  have hnow : Lone (now t s) c := ⟨hl.cmds, hl.groups, hl.grp⟩
  set x : Cmd := { c with stage := .waiting, bulk := some img } with hx
  have hlone : Lone { now t s with cmds := [x] } x := ⟨rfl, hl.groups, hl.grp⟩
  have hop : x.op = 0x50 ∨ x.op = 0x52 := by
    rcases h with ⟨_, h, -⟩ | ⟨_, h, -⟩
    · exact .inl h
    · exact .inr h
  obtain ⟨himm, hcells, hpass, hjob⟩ := load_checks hop hfit hstate
  have haccept := acceptAll_lone hlone rfl hat himm hcells hpass hjob
  refine ⟨_, exec_bulkFetchDone hl b hst t, ?_⟩
  rw [bulkCheck_good hnow b h, haccept]
  exact ⟨_, rfl, rfl, rfl, rfl, rfl, rfl⟩

/-- The completion of a load whose data is bad (R324). -/
def loadFailed (s : State) (c : Cmd) (reason place : Nat) : Completion :=
  { tag := c.d.tag, status := BitVec.ofNat 8 (if reason = 1 then stBadCheck else stBadOperand), seq := 0, epoch := epochNow s,
    result := BitVec.ofNat 32 (reason * 2 ^ 24 + place), isFinal := true, atWrite := true }

theorem bulkFetchDone_bad (hst : c.stage = .bulkWait) (t : Nat) {reason place : Nat} (h : BadImage c.op b reason place) :
    Answers (.bulkFetchDone c.d.port c.d.tag (.bytes b) t) s (fun u => u.cmds = [] ∧
      (∃ e, (portOf u c.d.port).cplWait = (portOf s c.d.port).cplWait ++ [e] ∧ e.status = (if reason = 1 then 0x13 else 0x11) ∧ e.tag = c.d.tag ∧
        e.result = BitVec.ofNat 32 (reason * 2 ^ 24 + place)) ∧
      u = { now t s with cmds := [], ports := u.ports }) := by
  have hnow : Lone (now t s) c := ⟨hl.cmds, hl.groups, hl.grp⟩
  refine ⟨_, exec_bulkFetchDone hl b hst t, ?_⟩
  rw [bulkCheck_bad hnow b h, acceptAll_nil rfl]
  refine ⟨rfl, ⟨loadFailed (now t s) c reason place, ?_, ?_, rfl, rfl⟩, rfl⟩
  · rw [finish, postCompletion, portOf_setPort_fin]
    rfl
  · exact apply_ite (BitVec.ofNat 8) (reason = 1) stBadCheck stBadOperand

end

/-! ### The commit of a load -/

section
variable {c : Cmd} {d : Desc} (hd : c.d = d)
include hd

theorem loadProgram_commits (hop : c.op = 0x50) (g : Program) : Commit { c with bulk := some (.program g) } (fun v w _ =>
    w = { v with progs := vset v.progs (opB d 16) (some g) }) := by
  intro q v
  unfold applyEffect
  dsimp only
  rw [hop, hd]
  rfl

theorem loadModel_commits (hop : c.op = 0x52) (m : Model) : Commit { c with bulk := some (.model m) } (fun v w _ =>
    w = { v with models := vset v.models (opB d 16) (some m) }) := by
  intro q v
  unfold applyEffect
  dsimp only
  rw [hop, hd]
  rfl

theorem applyEffect_bindProgram (t : Nat) (q : Latch) (v : State) (hop : c.op = 0x51) : applyEffect t q v c =
    ((targetsOf v 0x51 d).foldl (fun s l => applyBind s d l) v, (targetsOf v 0x51 d).length % 256) := by
  unfold applyEffect
  rw [hop, hd]
  rfl

theorem applyEffect_bindModel (t : Nat) (q : Latch) (v : State) (hop : c.op = 0x53) : applyEffect t q v c =
    ((targetsOf v 0x53 d).foldl (fun s l => applyBindModel s d l) v, (targetsOf v 0x53 d).length % 256) := by
  unfold applyEffect
  rw [hop, hd]
  rfl

end

/-! ### Bindings (R166, R198, R339) -/

/-- Nothing but domains, their configurations and the sieve test has changed. -/
def OnlyBound (s u : State) : Prop := u = { s with dom := u.dom, cfg := u.cfg, sieve := u.sieve }

theorem OnlyBound.refl (s : State) : OnlyBound s s := rfl

theorem OnlyBound.trans {s u v : State} (h : OnlyBound s u) (k : OnlyBound u v) : OnlyBound s v := by
  rw [OnlyBound] at *
  rw [k, h]

theorem OnlyBound.char {s u : State} (h : OnlyBound s u) : u.char = s.char := by rw [h]

theorem OnlyBound.stores {s u : State} (h : OnlyBound s u) : u.progs = s.progs ∧ u.models = s.models := by
  rw [h]
  exact ⟨rfl, rfl⟩

theorem OnlyDoms.bound {s u : State} (h : OnlyDoms s u) : OnlyBound s u := by
  rw [OnlyDoms] at h
  rw [OnlyBound, h]

theorem sieveAlter_frame (s : State) (x : Nat) : sieveAlter s x = { s with sieve := (sieveAlter s x).sieve } := by
  unfold sieveAlter
  split
  · split <;> rfl
  · rfl

theorem domOf_sieveAlter (s : State) (x d : Nat) : domOf (sieveAlter s x) d = domOf s d := by rw [sieveAlter_frame]; rfl

/-- A binding may end a sieve test. -/
def sieveMay (b : Bool) (s : State) (x : Nat) : State := if b then sieveAlter s x else s

theorem sieveMay_frame (b : Bool) (s : State) (x : Nat) : sieveMay b s x = { s with sieve := (sieveMay b s x).sieve } := by
  unfold sieveMay
  split
  · exact sieveAlter_frame s x
  · rfl

/-- A member whose fall-back ends (R188). -/
def resumed (M : Domain) : Domain := { M with fallback := false, sup := { M.sup with fbPend := false } }

/-- The program bound to a logical domain. -/
def progBoundAt (s : State) (d : Desc) (l : Nat) : State :=
  setMembers (setCfg s l (fun k => { k with prog := opB d 16 })) (physOf s l) resumed

theorem applyBind_eq (s : State) (d : Desc) (l : Nat) : applyBind s d l = sieveMay ((cfgOf s l).prog != opB d 16)
    (if opB d 17 % 2 = 1 then progBoundAt s d l else loadInit (progBoundAt s d l) (physOf s l)) (physOf s l) := rfl

section
variable {s : State} {d : Desc}

theorem onlyDoms_loadInit (s : State) (x : Nat) : OnlyDoms s (loadInit s x) := by
  unfold loadInit
  split
  · exact onlyDoms_setDom ..
  · exact .refl s

theorem onlyBound_applyBind (s : State) (d : Desc) (l : Nat) : OnlyBound s (applyBind s d l) ∧
    (applyBind s d l).cfg = vupd s.cfg l (fun k => { k with prog := opB d 16 }) := by
  have hbound : OnlyDoms (setCfg s l (fun k => { k with prog := opB d 16 })) (progBoundAt s d l) := onlyDoms_setMembers ..
  have hloaded : OnlyDoms (setCfg s l (fun k => { k with prog := opB d 16 }))
      (if opB d 17 % 2 = 1 then progBoundAt s d l else loadInit (progBoundAt s d l) (physOf s l)) := by
    split
    · exact hbound
    · exact hbound.trans (onlyDoms_loadInit _ _)
  rw [applyBind_eq, sieveMay_frame]
  rw [OnlyDoms] at hloaded
  rw [hloaded]
  exact ⟨rfl, rfl⟩

theorem domOf_applyBind (s : State) (d : Desc) (l x : Nat) : domOf (applyBind s d l) x =
    domOf (if opB d 17 % 2 = 1 then progBoundAt s d l else loadInit (progBoundAt s d l) (physOf s l)) x := by
  rw [applyBind_eq, sieveMay_frame]
  rfl

theorem fallback_loadInit (s : State) (x e : Nat) : (domOf (loadInit s x) e).fallback = (domOf s e).fallback := by
  unfold loadInit
  split
  · exact (sameView_setDom (m := Domain.fallback) s x _).1 e
  · rfl

theorem sw_progBoundAt (s : State) (d : Desc) (l x : Nat) : (domOf (progBoundAt s d l) x).sw = (domOf s x).sw :=
  (sameView_setMembers (m := Domain.sw) (setCfg s l _) _ resumed).1 x

theorem fallback_applyBind (s : State) (d : Desc) (l e : Nat) :
    (domOf (applyBind s d l) e).fallback = (domOf (progBoundAt s d l) e).fallback := by
  rw [domOf_applyBind]
  split
  · rfl
  · exact fallback_loadInit _ _ e

theorem fallback_applyBind_self {l : Nat} (hlt : physOf s l < 80) : (domOf (applyBind s d l) (physOf s l)).fallback = false := by
  rw [fallback_applyBind, progBoundAt, domOf_setMembers_self _ _ hlt]
  rfl

theorem fallback_applyBind_kept (l : Nat) {e : Nat} (he : e < 80) (h : (domOf s e).fallback = false) :
    (domOf (applyBind s d l) e).fallback = false := by
  rw [fallback_applyBind, progBoundAt, domOf_setMembers _ _ _ he]
  split
  · rfl
  · exact h

/-- With keep-state every domain keeps its state words. -/
theorem sw_applyBind_keep (hkeep : opB d 17 % 2 = 1) (l e : Nat) : (domOf (applyBind s d l) e).sw = (domOf s e).sw := by
  rw [domOf_applyBind, if_pos hkeep, sw_progBoundAt]

theorem sw_applyBind_other {l e : Nat} (hne : physOf s l ≠ e) : (domOf (applyBind s d l) e).sw = (domOf s e).sw := by
  rw [domOf_applyBind]
  split
  · exact sw_progBoundAt s d l e
  · rw [← sw_progBoundAt s d l e, loadInit]
    split
    · rw [domOf_setDom_ne _ _ hne]
    · rfl

/-- Without keep-state a domain's words are those of the program's image (R166). -/
theorem sw_applyBind_self (hn : Named s) {l : Nat} (hl : l < 80) (hkeep : opB d 17 % 2 = 0) {g : Program}
    (hg : vget s.progs (opB d 16) = some g) (hnum : opB d 16 < 32) : (domOf (applyBind s d l) (physOf s l)).sw = memOfList g.init := by
  have honly : OnlyDoms (setCfg s l (fun k => { k with prog := opB d 16 })) (progBoundAt s d l) := onlyDoms_setMembers ..
  have hcfg : (cfgAt (progBoundAt s d l) (physOf s l)).prog = opB d 16 := by
    have hname : logOf (progBoundAt s d l) (physOf s l) = l := (logOf_congr honly.char _).trans (hn.logOf l)
    rw [cfgAt, hname, cfgOf, honly.cfg]
    exact congrArg DomCfg.prog (vget_vupd_same _ _ hl)
  have hprog : boundProg (progBoundAt s d l) (physOf s l) = some g := by
    have hprogs : (progBoundAt s d l).progs = s.progs := by
      rw [OnlyDoms] at honly
      rw [honly]
      rfl
    rw [boundProg, progOf, hcfg, if_neg (by omega), hprogs, hg]
  rw [domOf_applyBind, if_neg (by omega), loadInit, hprog]
  dsimp only
  rw [domOf_setDom_same _ _ (physOf_lt hl)]

end

theorem bindProgram_commits {c : Cmd} {d : Desc} (hd : c.d = d) (hop : c.op = 0x51) : Commit c (fun v w r =>
    r = (targetsOf v 0x51 d).length % 256 ∧
    (∀ l : Fin 80, cfgOf w l = if l.val ∈ targetsOf v 0x51 d then { cfgOf v l with prog := opB d 16 } else cfgOf v l) ∧
    (Named v → ∀ l ∈ targetsOf v 0x51 d, physOf v l < 80 → let E := domOf w (physOf v l)
      E.fallback = false ∧ (opB d 17 % 2 = 1 → E.sw = (domOf v (physOf v l)).sw) ∧
      (opB d 17 % 2 = 0 → ∀ g, vget v.progs (opB d 16) = some g → opB d 16 < 32 → l < 80 → E.sw = memOfList g.init)) ∧
    w.progs = v.progs) := by
  intro q v
  rw [applyEffect_bindProgram hd c.shutter q v hop]
  have hstep (w : State) (l : Nat) (hw : OnlyBound v w) : OnlyBound v (applyBind w d l) := hw.trans (onlyBound_applyBind w d l).1
  refine ⟨rfl, fun l => cfgOf_foldl_each (fun w m => (onlyBound_applyBind w d m).2) targetsOf_nodup v l.isLt, fun hn l hl hlt => ⟨?_, ?_, ?_⟩,
    (foldl_inv (I := OnlyBound v) hstep _ (.refl v)).stores.1⟩
  · refine foldl_reaches (I := OnlyBound v) (Q := fun w => (domOf w (physOf v l)).fallback = false) hstep (fun w hw => ?_)
      (fun w m _ h => fallback_applyBind_kept m hlt h) hl (.refl v)
    rw [← physOf_congr hw.char l] at hlt ⊢
    exact fallback_applyBind_self hlt
  · intro hkeep
    exact foldl_inv (I := fun w => (domOf w (physOf v l)).sw = (domOf v (physOf v l)).sw) (fun w m hw => (sw_applyBind_keep hkeep m _).trans hw) _ rfl
  · intro hkeep g hg hnum hl80
    obtain ⟨w, hw, -, hnew⟩ := foldl_key_at (I := OnlyBound v) (P := fun w => (domOf w (physOf v l)).sw) (κ := physOf v) (a := l)
      (g := fun s l => applyBind s d l) hstep
      (fun w m hw hne => sw_applyBind_other (by rw [physOf_congr hw.char]; exact hne)) (nodup_map_physOf hn targetsOf_nodup) hl (.refl v)
    have hnw : Named w := fun k hk => by rw [physOf_congr hw.char, logOf_congr hw.char]; exact hn k hk
    rw [hnew, ← physOf_congr hw.char l]
    exact sw_applyBind_self hnw hl80 hkeep (by rw [hw.stores.1]; exact hg) hnum

section
variable {d : Desc}

/-- The model that a BIND_MODEL names. -/
def modelNamed (d : Desc) : Option (Fin 8) := if opB d 16 = 0xF then none else some (Fin.ofNat 8 (opB d 16))

/-- A domain to which a model is bound: its error windows start afresh. -/
def modelBoundDom (gtc : Nat) (D : Domain) : Domain :=
  { D with lanternOff := D.marks.lant, lant := { D.lant with sums := .zero, winStart := windowOf gtc, failRun := 0, open_ := [] } }

theorem applyBindModel_eq (s : State) (d : Desc) (l : Nat) : applyBindModel s d l =
    sieveMay ((cfgOf s l).model != modelNamed d || ((domOf s (physOf s l)).lanternOff && !(domOf s (physOf s l)).marks.lant))
      (ceilingAt (setDom (setCfg s l (fun k => { k with model := modelNamed d })) (physOf s l) (modelBoundDom s.time.gtc)) (physOf s l))
      (physOf s l) := rfl

theorem onlyDoms_ceilingAt (s : State) (x : Nat) : OnlyDoms s (ceilingAt s x) := by
  unfold ceilingAt
  split
  · exact onlyDoms_setDom ..
  · exact .refl s

theorem onlyBound_applyBindModel (s : State) (d : Desc) (l : Nat) : OnlyBound s (applyBindModel s d l) ∧
    (applyBindModel s d l).cfg = vupd s.cfg l (fun k => { k with model := modelNamed d }) := by
  have hbound : OnlyDoms (setCfg s l (fun k => { k with model := modelNamed d })) (ceilingAt (setDom (setCfg s l (fun k =>
      { k with model := modelNamed d })) (physOf s l) (modelBoundDom s.time.gtc)) (physOf s l)) := (onlyDoms_setDom _ _ _).trans (onlyDoms_ceilingAt _ _)
  rw [applyBindModel_eq, sieveMay_frame]
  rw [OnlyDoms] at hbound
  rw [hbound]
  exact ⟨rfl, rfl⟩

/-- What a binding changes of a domain's inference. -/
def lantView (D : Domain) : IntMarks × Bool × ErrSums × Nat := (D.marks, D.lanternOff, D.lant.sums, D.lant.failRun)

theorem lantView_applyBindModel (s : State) (d : Desc) (l : Nat) {e : Nat} (he : e < 80) : lantView (domOf (applyBindModel s d l) e) =
    if physOf s l = e then ((domOf s e).marks, (domOf s e).marks.lant, ErrSums.zero, 0) else lantView (domOf s e) := by
  have hceil (v : State) (x : Nat) : lantView (domOf (ceilingAt v x) e) = lantView (domOf v e) := by
    unfold ceilingAt
    split
    · exact (sameView_setDom v x _).1 e
    · rfl
  rw [applyBindModel_eq, sieveMay_frame]
  refine (hceil _ _).trans ?_
  rw [domOf_setDom _ _ he]
  split
  · rfl
  · rfl

end

theorem bindModel_commits {c : Cmd} {d : Desc} (hd : c.d = d) (hop : c.op = 0x53) : Commit c (fun v w r =>
    r = (targetsOf v 0x53 d).length % 256 ∧
    (∀ l : Fin 80, cfgOf w l = if l.val ∈ targetsOf v 0x53 d then { cfgOf v l with model := modelNamed d } else cfgOf v l) ∧
    (∀ l ∈ targetsOf v 0x53 d, physOf v l < 80 → let E := domOf w (physOf v l)
      E.lanternOff = (domOf v (physOf v l)).marks.lant ∧ E.lant.sums = ErrSums.zero ∧ E.lant.failRun = 0) ∧ w.models = v.models) := by
  intro q v
  rw [applyEffect_bindModel hd c.shutter q v hop]
  have hstep (w : State) (l : Nat) (hw : OnlyBound v w) : OnlyBound v (applyBindModel w d l) := hw.trans (onlyBound_applyBindModel w d l).1
  refine ⟨rfl, fun l => cfgOf_foldl_each (fun w m => (onlyBound_applyBindModel w d m).2) targetsOf_nodup v l.isLt, fun l hl hlt => ?_,
    (foldl_inv (I := OnlyBound v) hstep _ (.refl v)).stores.2⟩
  set x := physOf v l with hx
  have hmarks (w : State) (m : Nat) (hw : OnlyBound v w ∧ (domOf w x).marks = (domOf v x).marks) :
      OnlyBound v (applyBindModel w d m) ∧ (domOf (applyBindModel w d m) x).marks = (domOf v x).marks := by
    refine ⟨hstep w m hw.1, ?_⟩
    have hview := congrArg Prod.fst (lantView_applyBindModel w d m hlt)
    split at hview
    · exact hview.trans hw.2
    · exact hview.trans hw.2
  have hview : lantView (domOf ((targetsOf v 0x53 d).foldl (fun s l => applyBindModel s d l) v) x) =
      ((domOf v x).marks, (domOf v x).marks.lant, ErrSums.zero, 0) := by
    refine foldl_reaches (I := fun w => OnlyBound v w ∧ (domOf w x).marks = (domOf v x).marks)
      (Q := fun w => lantView (domOf w x) = ((domOf v x).marks, (domOf v x).marks.lant, ErrSums.zero, 0)) hmarks (fun w hw => ?_) (fun w m hw hQ => ?_)
      hl ⟨.refl v, rfl⟩
    · rw [lantView_applyBindModel w d l hlt, physOf_congr hw.1.char, if_pos rfl, hw.2]
    · rw [lantView_applyBindModel w d m hlt, hw.2]
      split
      · rfl
      · exact hQ
  simp only [lantView, Prod.mk.injEq] at hview
  obtain ⟨-, hoff, hsums, hrun⟩ := hview
  exact ⟨hoff, hsums, hrun⟩

end Sys2Proof.Laws

namespace Sys2Proof.Proofs
open Sys2Proof Sys2Proof.Machine Sys2Proof.Laws
set_option Elab.async false

/-- Settles O54: a load waits until its data is judged, a lone load with good data is accepted like any other command, and each binding's pass
changes each named domain once. -/
theorem imageCommands : Obligations.ImageCommands := by
  refine fun d s => ⟨fun h _ => ⟨_, rfl, holds_of_admits h rfl fun c hd hop => loadProgram_commits hd hop⟩,
    fun h _ => ⟨_, rfl, holds_of_admits h rfl fun c hd hop => loadModel_commits hd hop⟩,
    fun c b t hc hst hgrp hgroups hat => ⟨fun img h hfit hstate => bulkFetchDone_good ⟨hc, hgroups, hgrp⟩ b hst hat t h hfit hstate,
      fun reason place h => bulkFetchDone_bad ⟨hc, hgroups, hgrp⟩ b hst t h⟩,
    fun h => accepts_of_admits h rfl rfl (fun h => absurd h (by decide)) (fun c hd hop => bindProgram_commits hd hop) rfl,
    fun h => accepts_of_admits h rfl rfl (fun h => absurd h (by decide)) (fun c hd hop => bindModel_commits hd hop) rfl⟩

end Sys2Proof.Proofs
end

section
/-! Control and MC resets: what their stages leave (R86, R364, R365, R377, R381, Table 15-5). -/

namespace Sys2Proof.Laws
open Sys2Proof Sys2Proof.Machine
set_option Elab.async false

/-! ### The rows -/

theorem fld_key (val : Word) : fld val 15 8 = val.toNat / 256 % 256 := rfl

section
variable {val : Word} {t : Nat} {s : State}

/-- Without the key, during a control reset or in DEEP a write does nothing. -/
theorem exec_reset_unkeyed (h : setupOpen s = false ∨ val.toNat / 256 % 256 ≠ 0x5A) :
    exec (.controlReset val t) s = .next (ackWrite (now t s)) ∧ exec (.mcReset val t) s = .next (ackWrite (now t s)) := by
  have hkey : (setupOpen (ackWrite (now t s)) && fld val 15 8 == 0x5A) = false := by
    rw [fld_key]
    rcases h with h | h
    · rw [show setupOpen (ackWrite (now t s)) = false from h]
      rfl
    · rw [beq_eq_false_iff_ne.mpr h, Bool.and_false]
  exact ⟨if_neg (by rw [hkey, Bool.false_and]; decide), if_neg (by rw [hkey, Bool.false_and, Bool.false_and]; decide)⟩

variable (hopen : setupOpen s = true) (hkey : val.toNat / 256 % 256 = 0x5A)
include hopen hkey

theorem keyed : (setupOpen (ackWrite (now t s)) && fld val 15 8 == 0x5A) = true := by
  rw [setupOpen_ackWrite hopen t, fld_key, hkey]
  rfl

theorem exec_controlReset (hbit : val.getLsbD 0 = true) :
    exec (.controlReset val t) s = .next (controlResetNow 2 false (ackWrite (now t s))) :=
  if_pos (by rw [keyed hopen hkey, bitOf, hbit]; rfl)

theorem exec_mcReset (hc : val.getLsbD 0 = false) (hm : val.getLsbD 1 = true) : exec (.mcReset val t) s = .next { ackWrite (now t s) with
    mc := { s.mc with run := false, gated := false, fails := 0, state := if s.mc.state = 5 then 3 else s.mc.state },
    clk := { s.clk with causes := s.clk.causes ||| 0x10 },
    irq := { s.irq with t8Claim := none } } :=
  if_pos (by rw [keyed hopen hkey, bitOf, bitOf, hc, hm]; rfl)

end

theorem exec_mcStart {s : State} (hi : s.mc.image = true) (hr : s.mc.run = false) (hs : s.mc.state ≠ 5) (hb : s.clk.crstBusy = false) (t : Nat) :
    exec (.mcStart t) s = .next { now t s with
      mc := { s.mc with run := true, gated := s.clk.pwrCur != 0, state := 3, kickAt := (now t s).time.run } } :=
  if_pos (by
    show (s.mc.image && !s.mc.run && s.mc.state != 5 && !s.clk.crstBusy) = true
    rw [hi, hr, hb, bne_iff_ne.mpr hs]
    rfl)

theorem exec_mcStart_not {s : State} (h : s.mc.image = false ∨ s.mc.run = true ∨ s.mc.state = 5 ∨ s.clk.crstBusy = true) (t : Nat) :
    exec (.mcStart t) s = .next (now t s) := by
  refine if_neg ?_
  show ¬(s.mc.image && !s.mc.run && s.mc.state != 5 && !s.clk.crstBusy) = true
  rcases h with h | h | h | h <;> simp [h]

/-! ### The ports and the tests -/

/-- A port's reset reaches its commands, writes and interrupts alone. -/
def PortsReset (s u : State) : Prop := u = { s with cmds := u.cmds, groups := u.groups, ports := u.ports, wq := u.wq, outQ := u.outQ, irq := u.irq }

theorem portsReset_step {s v : State} (h : PortsReset s v) (p : Nat) : PortsReset s (portResetEffect v p) := by
  rw [PortsReset] at *
  rw [portResetEffect, feedWrites, withdrawPort, setPort, h]

theorem portOf_portResetEffect (s : State) (p : Nat) {e : Nat} (he : e < 8) :
    portOf (portResetEffect s p) e = if p = e then clearedPort (portOf s e) else portOf s e := by
  show portOf (setPort (withdrawPort s p) p clearedPort) e = _
  split
  · rename_i h
    subst h
    exact portOf_setPort_same _ _ he
  · rename_i h
    exact portOf_setPort_ne _ _ h

/-- Every port. -/
def portsCleared (s : State) : State := (List.range 8).foldl portResetEffect s

theorem portsReset_portsCleared (s : State) : PortsReset s (portsCleared s) :=
  foldl_inv (I := PortsReset s) (fun _ p hv => portsReset_step hv p) _ rfl

theorem portOf_portsCleared (s : State) (p : Fin 8) : portOf (portsCleared s) p = clearedPort (portOf s p) := by
  obtain ⟨v, -, hold, hnew⟩ := foldl_at (I := fun _ => True) (P := fun v => portOf v p) (g := portResetEffect) (d := p.val) (fun _ _ _ => trivial)
    (fun v x _ hne => (portOf_portResetEffect v x p.isLt).trans (if_neg hne.symm)) List.nodup_range (List.mem_range.mpr p.isLt) (s := s) trivial
  rw [portsCleared, hnew, portOf_portResetEffect v p p.isLt, if_pos rfl, hold]

/-- No port takes events. -/
def NoEvents (s : State) : Prop := ∀ p : Fin 8, (ringOf (portOf s p) 2).en = false

theorem postEvent_noEvents {s : State} (h : NoEvents s) (p : PortNo) (e : Event) : postEvent s p e = s :=
  if_pos (by rw [h p]; simp)

/-- Nothing but tests and their units has changed. -/
def TestsQuiet (s u : State) : Prop := u = { s with tests := u.tests, lanes := u.lanes, therm := { s.therm with sens := u.therm.sens } }

theorem TestsQuiet.ports {s u : State} (h : TestsQuiet s u) : u.ports = s.ports := by rw [h]

theorem testsQuiet_laneTested (s : State) (u : TestUnit) : TestsQuiet s (laneTested s u) := by
  unfold laneTested
  split <;> rfl

/-- The end of a test that no port hears of. -/
theorem testsQuiet_endTest {s v : State} (hs : NoEvents s) (h : TestsQuiet s v) (r : TestRun) (outcome : Nat) (detail : List Byte) :
    TestsQuiet s (endTest v r outcome detail) := by
  have hlane : TestsQuiet s (laneTested { v with tests := v.tests.filter (fun x => x != r) } r.unit) := by
    have hunit := testsQuiet_laneTested { v with tests := v.tests.filter (fun x => x != r) } r.unit
    rw [TestsQuiet] at *
    rw [hunit, h]
  have hnone : NoEvents (laneTested { v with tests := v.tests.filter (fun x => x != r) } r.unit) := fun p => by
    rw [portOf, hlane.ports]
    exact hs p
  unfold endTest
  extract_lets s1
  split
  · rw [postTest, postEvent_noEvents hnone]
    exact hlane
  · exact hlane

theorem testsQuiet_abandonTests {s : State} (hs : NoEvents s) (f : TestUnit → Bool) : TestsQuiet s (abandonTests s f) :=
  foldl_inv (I := TestsQuiet s) (fun _ r hv => testsQuiet_endTest hs hv r 2 []) _ rfl

/-! ### The state that a control reset clears -/

/-- The ports and tests of a control reset. -/
def testsEnded (s : State) : State := abandonTests { portsCleared s with sieve := none } (fun _ => true)

/-- What the reset of ports and the end of tests leave. -/
def PortsEnded (s u : State) : Prop := u = { s with
  cmds := u.cmds, groups := u.groups, ports := u.ports, wq := u.wq, outQ := u.outQ, irq := u.irq, sieve := u.sieve, tests := u.tests,
  lanes := u.lanes, therm := { s.therm with sens := u.therm.sens } }

theorem en_clearedPort (P : Port) (r : Fin 4) : (ringOf (clearedPort P) r).en = false ∧ (ringOf (clearedPort P) r).base = (ringOf P r).base := by
  rw [ringOf, ringOf, vget_lt _ r.isLt, vget_lt _ r.isLt]
  simp [clearedPort]

theorem noEvents_of_cleared {s v : State} (h : ∀ p : Fin 8, portOf v p = clearedPort (portOf s p)) : NoEvents { v with sieve := none } := by
  intro p
  have hport : portOf { v with sieve := none } p = clearedPort (portOf s p) := h p
  rw [hport]
  exact (en_clearedPort _ 2).1

theorem ports_of_testsQuiet {v u : State} (h : TestsQuiet { v with sieve := none } u) (p : Nat) : portOf u p = portOf v p := by
  rw [portOf, h.ports, portOf]

theorem portsEnded_of {s v u : State} (h : PortsReset s v) (k : TestsQuiet { v with sieve := none } u) : PortsEnded s u := by
  rw [PortsReset] at h
  rw [TestsQuiet] at k
  rw [PortsEnded, k, h]

theorem testsQuiet_testsEnded (s : State) : TestsQuiet { portsCleared s with sieve := none } (testsEnded s) :=
  testsQuiet_abandonTests (noEvents_of_cleared (portOf_portsCleared s)) _

theorem portsEnded_testsEnded (s : State) : PortsEnded s (testsEnded s) :=
  portsEnded_of (portsReset_portsCleared s) (testsQuiet_testsEnded s)

theorem portOf_testsEnded (s : State) (p : Fin 8) : portOf (testsEnded s) p = clearedPort (portOf s p) :=
  (ports_of_testsQuiet (testsQuiet_testsEnded s) p).trans (portOf_portsCleared s p)

/-- What a control reset clears before the clocks, the safe state and the domains follow, of a state whose ports and tests have ended. -/
def resetFrom (cause : BitVec 6) (thermal : Bool) (v : State) : State :=
  let s3 := resetMc { v with cmds := [], groups := Vector.replicate 8 none, slot := .reset, mism := [] }
  let s4 := setArbChip s3 (fun a => { a with incorr := 0, pend := none })
  let s5 := setClk s4 (fun c => { c with crstBusy := true, causes := c.causes ||| cause ||| (if c.forcedSince then 0x20 else 0),
                                         forcedSince := false })
  { s5 with time := { s5.time with creset := true },
            mc := if thermal then s5.mc else { s5.mc with fails := 0, state := if s5.mc.state = 5 then 3 else s5.mc.state } }

/-- The state before the clocks, the safe state and the domains follow. -/
def resetBase (cause : BitVec 6) (thermal : Bool) (s : State) : State := resetFrom cause thermal (testsEnded s)

/-- The end of forced clocks and, where no cause stands, of the safe state. -/
def resetEnds (ends : Bool) (b : State) : State := if ends then endSafe (endForce b) else endForce b

/-- The fatal messages that wait act at once. -/
def resetFatals (s : State) (l : List FaultMsg) : State := l.foldl (fun s q => atOnce s q.bits) s

/-- The hold of every domain. -/
def holdEvery (s : State) : State := (List.range 80).foldl (fun s d => holdDomain s d .control) s

theorem controlResetNow_eq (cause : BitVec 6) (thermal : Bool) (s : State) : controlResetNow cause thermal s =
    holdEvery (resetFatals (resetEnds (safeEnds thermal s) (resetBase cause thermal s)) (resetBase cause thermal s).safety.queue) := by
  unfold controlResetNow
  extract_lets s1 s2 s3 s4 s5 x y s6 s7
  have h2 : s2 = testsEnded s := rfl
  have h6 : s6 = resetFrom cause thermal s2 := rfl
  have h7 : s7 = resetFatals (resetEnds (safeEnds thermal s) s6) s6.safety.queue := rfl
  rw [foldDoms, h7, h6, h2, holdEvery, resetBase]

/-! ### The clocks, the safe state and the holds that follow -/

/-- What the later stages change: no command returns, and the clock part of the reset stands. -/
structure ResetLate (b u : State) : Prop where
  frame : u = { b with dom := u.dom, ints := u.ints, cmds := u.cmds, bus := u.bus, safety := u.safety, clk := u.clk, meter := u.meter }
  clk : u.clk.crstBusy = b.clk.crstBusy ∧ u.clk.causes = b.clk.causes
  cmds : b.cmds = [] → u.cmds = []

theorem ResetLate.refl (b : State) : ResetLate b b := ⟨rfl, ⟨rfl, rfl⟩, id⟩

theorem ResetLate.trans {b u v : State} (h : ResetLate b u) (k : ResetLate u v) : ResetLate b v := by
  obtain ⟨hf, ⟨hb, hc⟩, hn⟩ := h
  obtain ⟨kf, ⟨kb, kc⟩, kn⟩ := k
  refine ⟨?_, ⟨kb.trans hb, kc.trans hc⟩, kn ∘ hn⟩
  rw [kf, hf]

theorem resetLate_of_holdsOnly {s u : State} (h : HoldsOnly s u) : ResetLate s u := by
  obtain ⟨-, ho, -⟩ := h
  rw [OnlyDoms] at ho
  rw [ho]
  exact ⟨rfl, ⟨rfl, rfl⟩, id⟩

theorem safety_of_holdsOnly {s u : State} (h : HoldsOnly s u) : u.safety = s.safety := by
  obtain ⟨-, ho, -⟩ := h
  rw [ho]

theorem holdsOnly_foldDark (s : State) : HoldsOnly s ((List.range 80).foldl darkOne s) :=
  foldl_inv (I := HoldsOnly s) (fun _ _ hv => hv.step (holdStep_darkOne _ _)) _ (holdsOnly_refl s)

theorem holdsOnly_darkAll (s : State) : HoldsOnly s (darkAll s) := by
  unfold darkAll
  split
  · exact holdsOnly_refl s
  · exact holdsOnly_foldDark s

theorem resetLate_busStart (s : State) : ResetLate s (busStart s) := by
  rw [busStart_frame]
  exact ⟨rfl, ⟨rfl, rfl⟩, id⟩

theorem resetLate_bus (s : State) (b : Bus) : ResetLate s { s with bus := b } := ⟨rfl, ⟨rfl, rfl⟩, id⟩

theorem resetLate_busFront (s : State) (l : List BusTxn) : ResetLate s (busFront s l) := (resetLate_bus s _).trans (resetLate_busStart _)

theorem resetLate_busOff (s : State) : ResetLate s (busOff s) := by
  unfold busOff
  extract_lets offs
  split
  · exact (resetLate_bus s _).trans (resetLate_busFront _ _)
  · exact resetLate_busFront s offs

theorem resetLate_refuseAccepted (s : State) : ResetLate s (refuseAccepted s) :=
  ⟨rfl, ⟨rfl, rfl⟩, fun h => by rw [refuseAccepted, h]; rfl⟩

theorem resetLate_safety (s : State) (r : Safety) : ResetLate s { s with safety := r } := ⟨rfl, ⟨rfl, rfl⟩, id⟩

theorem resetLate_enterSafe (s : State) (m : DWord) : ResetLate s (enterSafe s m) := by
  unfold enterSafe
  extract_lets kind src r s1 r1 s2
  have h2 : ResetLate s s2 := resetLate_safety s s2.safety
  have h1 : ResetLate s s1 := resetLate_safety s s1.safety
  clear_value s2 s1
  split
  · exact h1
  · exact h2.trans ((resetLate_refuseAccepted s2).trans
      ((resetLate_of_holdsOnly (holdsOnly_darkAll _)).trans (resetLate_busOff _)))

theorem resetLate_atOnce (s : State) (m : DWord) : ResetLate s (atOnce s m) := by
  unfold atOnce
  split
  · exact (resetLate_enterSafe s m).trans (resetLate_safety _ _)
  · exact .refl s

theorem resetLate_resetFatals (s : State) (l : List FaultMsg) : ResetLate s (resetFatals s l) :=
  foldl_inv (I := ResetLate s) (fun v q hv => hv.trans (resetLate_atOnce v q.bits)) _ (.refl s)

theorem resetLate_setClk (s : State) (f : Clocks → Clocks) (hb : (f s.clk).crstBusy = s.clk.crstBusy) (hc : (f s.clk).causes = s.clk.causes) :
    ResetLate s (setClk s f) := ⟨rfl, ⟨hb, hc⟩, id⟩

theorem resetLate_staleUpdate (s : State) : ResetLate s (staleUpdate s) := by
  rw [staleUpdate_frame]
  exact ⟨rfl, ⟨rfl, rfl⟩, id⟩

theorem resetLate_endForce (s : State) : ResetLate s (endForce s) := by
  unfold endForce
  split
  · exact ((resetLate_setClk s _ rfl rfl).trans (resetLate_setClk _ _ rfl rfl)).trans (resetLate_staleUpdate _)
  · exact .refl s

theorem resetLate_endSafe (s : State) : ResetLate s (endSafe s) :=
  (resetLate_safety s _).trans (resetLate_of_holdsOnly (holdsOnly_darkAll _))

theorem resetLate_resetEnds (ends : Bool) (b : State) : ResetLate b (resetEnds ends b) := by
  unfold resetEnds
  split
  · exact (resetLate_endForce b).trans (resetLate_endSafe _)
  · exact resetLate_endForce b

theorem safety_endForce (s : State) : (endForce s).safety = s.safety := by
  unfold endForce
  split
  · rw [staleUpdate_frame]
    rfl
  · rfl

theorem contextsOnly_endForce (s : State) : ContextsOnly s (endForce s) := by
  unfold endForce
  split
  · exact (meterStep_staleUpdate (stretchUpdate (setClk s _))).doms
  · exact contextsOnly_of_dom rfl

theorem safety_endSafe (s : State) : (endSafe s).safety = { s.safety with safe := false, causes := [] } :=
  safety_of_holdsOnly (holdsOnly_darkAll _)

/-! ### Fatal messages during the reset -/

/-- A message that is not fatal waits. -/
theorem atOnce_not_fatal {s : State} {m : DWord} (h : fClass m ≠ 2) : atOnce s m = s :=
  if_neg (by rw [beq_eq_false_iff_ne.mpr h, Bool.and_false]; decide)

theorem resetFatals_of_none {s : State} {l : List FaultMsg} (h : ∀ q ∈ l, fClass q.bits ≠ 2) : resetFatals s l = s := by
  induction l with
  | nil => rfl
  | cons q l ih =>
    rw [resetFatals, List.foldl_cons, atOnce_not_fatal (h q List.mem_cons_self)]
    exact ih fun x hx => h x (List.mem_cons_of_mem q hx)

/-- Nothing that acts at once ends the safe state. -/
theorem safe_atOnce {s : State} (h : s.safety.safe = true) (m : DWord) : (atOnce s m).safety.safe = true := by
  unfold atOnce
  split
  · have hf := enterSafe_frame s m
    rw [ShedStep] at hf
    rw [hf]
    exact (safeEntered_safe m s.safety).2.2
  · exact h

theorem safe_atOnce_fatal {s : State} {m : DWord} (hb : s.clk.crstBusy = true) (hm : fClass m = 2) : (atOnce s m).safety.safe = true := by
  obtain ⟨r, -, -, hr, hf⟩ := atOnce_frame s m
  rw [ShedStep] at hf
  rw [hf]
  exact (hr hb hm).1

theorem safe_resetFatals {s : State} (h : s.safety.safe = true) (l : List FaultMsg) : (resetFatals s l).safety.safe = true :=
  foldl_inv (I := fun v : State => v.safety.safe = true) (fun _ (q : FaultMsg) hv => safe_atOnce hv q.bits) l h

theorem safe_resetFatals_of_fatal {s : State} {l : List FaultMsg} (hb : s.clk.crstBusy = true) (h : ∃ q ∈ l, fClass q.bits = 2) :
    (resetFatals s l).safety.safe = true := by
  obtain ⟨q, hq, hf⟩ := h
  obtain ⟨l1, l2, rfl⟩ := List.append_of_mem hq
  rw [resetFatals, List.foldl_append, List.foldl_cons]
  have hbusy : (resetFatals s l1).clk.crstBusy = true := (resetLate_resetFatals s l1).clk.1.trans hb
  exact safe_resetFatals (safe_atOnce_fatal hbusy hf) l2

/-! ### The holds -/

theorem holdStep_holdDomain (s : State) (d : Nat) (why : HeldWhy) : HoldStep s (holdDomain s d why) d := by
  unfold holdDomain
  extract_lets D
  split
  · exact holdStep_of_stationStep (.refl s d)
  split
  · exact holdStep_report (stationStep_discharge s d) (.refl _ d)
  split
  · exact holdStep_of_stationStep (.refl s d)
  · exact holdStep_report (stationStep_setMembers s d _) (.refl _ d)

/-- A LIT or SHADE domain outside a transition is held. -/
theorem holdDomain_held {s : State} {d : Dom} {why : HeldWhy} (ho : isOdd s d = false) (hst : (domOf s d).state = .lit ∨ (domOf s d).state = .shade)
    (hheld : (domOf s d).held = false) (hsoft : inSoftStart (domOf s d) = false) (hph : (domOf s d).tr.ph ≠ .discharge) :
    (domOf (holdDomain s d why) d).held = true ∧ ∃ i ∈ (holdDomain s d why).ints, i.dom = d ∧ i.what = .held why := by
  have h1 : (isOdd s d || (domOf s d).held || !((domOf s d).state == .lit || (domOf s d).state == .shade)) = false := by
    rw [ho, hheld]
    rcases hst with h | h
    · rw [h]; rfl
    · rw [h]; rfl
  have hdom : ∃ v, holdDomain s d why = report v d (.held why) ∧ (domOf v d).held = true := by
    refine ⟨_, (if_neg (by rw [h1]; decide)).trans ((if_neg (by rw [hsoft]; decide)).trans (if_neg (by simpa using hph))), ?_⟩
    rw [domOf_setMembers_self _ _ d.isLt]
  obtain ⟨v, hv, hvh⟩ := hdom
  rw [hv, report_eq]
  exact ⟨hvh, _, List.mem_append_right _ (List.mem_singleton.mpr rfl), rfl, rfl⟩

theorem holdsOnly_holdEvery (s : State) : HoldsOnly s (holdEvery s) :=
  foldl_inv (I := HoldsOnly s) (fun _ _ hv => hv.step (holdStep_holdDomain _ _ _)) _ (holdsOnly_refl s)

/-- Every domain that may be held is held. -/
theorem holdEvery_held {s : State} {d : Dom} (hs : Single s d) (hst : (domOf s d).state = .lit ∨ (domOf s d).state = .shade)
    (hheld : (domOf s d).held = false) (hsoft : inSoftStart (domOf s d) = false) (hph : (domOf s d).tr.ph ≠ .discharge) :
    (domOf (holdEvery s) d).held = true ∧ ∃ i ∈ (holdEvery s).ints, i.dom = d ∧ i.what = .held .control := by
  have hother (v : State) (x : Nat) (hv : HoldsOnly s v) (hx : x ≠ d) : domOf (holdDomain v x .control) d = domOf v d :=
    (holdStep_holdDomain v x .control).2.single (single_congr hv.2.2 hs) hx
  obtain ⟨v, l2, hv, hold, hfold, hne⟩ := foldl_key_split (I := HoldsOnly s) (P := fun v => domOf v d) (κ := id) (a := d.val)
    (g := fun s d => holdDomain s d .control) (fun _ _ hv => hv.step (holdStep_holdDomain _ _ _)) hother
    (by rw [List.map_id]; exact List.nodup_range) (List.mem_range.mpr d.isLt) (holdsOnly_refl s)
  have hov : isOdd v d = false := by rw [isOdd, hold]; exact not_odd_of_none hs.1
  rw [← hold] at hst hheld hsoft hph
  obtain ⟨kheld, i, hi, hid, hiw⟩ := holdDomain_held (why := .control) hov hst hheld hsoft hph
  have hkept : domOf (l2.foldl (fun s d => holdDomain s d .control) (holdDomain v d .control)) d = domOf (holdDomain v d .control) d :=
    foldl_key_kept (I := HoldsOnly s) (P := fun v => domOf v d) (κ := id) (k := d.val) (fun _ _ hv => hv.step (holdStep_holdDomain _ _ _))
      hother hne (hv.step (holdStep_holdDomain _ _ _))
  have hints : (holdDomain v d .control).ints <+: (l2.foldl (fun s d => holdDomain s d .control) (holdDomain v d .control)).ints :=
    (foldl_inv (I := HoldsOnly (holdDomain v d .control)) (fun _ _ hv => hv.step (holdStep_holdDomain _ _ _)) l2 (holdsOnly_refl _)).1
  rw [holdEvery, hfold, hkept]
  exact ⟨kheld, i, hints.subset hi, hid, hiw⟩

/-! ### A control reset as a whole -/

/-- A port as a control reset leaves it. -/
def PortDown (P Q : Port) : Prop :=
  (∀ r : Fin 4, (ringOf Q r).en = false ∧ (ringOf Q r).base = (ringOf P r).base) ∧ (∀ k : Fin 32, vget Q.watches k = none) ∧
  Q.claim = none ∧ Q.rightsD = P.rightsD

theorem portDown_clearedPort (P : Port) : PortDown P (clearedPort P) :=
  ⟨en_clearedPort P, fun k => vget_replicate none k.isLt, rfl, rfl⟩

/-- What a control reset does to all that neither the safe state nor the holds reach. -/
structure ResetCore (s u : State) : Prop where
  clk : u.clk.crstBusy = true ∧ u.clk.causes.getLsbD 1 = true
  queue : u.cmds = [] ∧ ∀ p : Fin 8, vget u.groups p = none
  mc : u.mc.run = false ∧ u.mc.fails = 0 ∧ u.mc.state = (if s.mc.state = 5 then 3 else s.mc.state)
  ports : ∀ p : Fin 8, PortDown (portOf s p) (portOf u p)
  t8 : u.irq.t8Claim = none
  arb : u.arb.incorr = 0
  time : u.time.creset = true
  kept : u.cfg = s.cfg ∧ u.cseq = s.cseq ∧ u.records = s.records ∧ u.progs = s.progs ∧ u.models = s.models ∧ u.char = s.char

theorem getLsbD_one_or (a b : BitVec 6) : (a ||| 2 ||| b).getLsbD 1 = true := by
  rw [BitVec.getLsbD_or, BitVec.getLsbD_or]
  simp

theorem resetCore_resetFrom {s v : State} (h : PortsEnded s v) (hp : ∀ p : Fin 8, portOf v p = clearedPort (portOf s p)) :
    ResetCore s (resetFrom 2 false v) := by
  have hports (p : Fin 8) : portOf (resetFrom 2 false v) p = clearedPort (portOf s p) := hp p
  rw [PortsEnded] at h
  refine ⟨⟨rfl, getLsbD_one_or _ _⟩, ⟨rfl, fun p => vget_replicate none p.isLt⟩, ?_, fun p => ?_, rfl, rfl, rfl, ?_⟩
  · rw [h]
    exact ⟨rfl, rfl, rfl⟩
  · rw [hports]
    exact portDown_clearedPort _
  · rw [h]
    exact ⟨rfl, rfl, rfl, rfl, rfl, rfl⟩

theorem ResetCore.late {s b u : State} (h : ResetCore s b) (k : ResetLate b u) : ResetCore s u := by
  obtain ⟨⟨hbusy, hcause⟩, ⟨hcmds, hgroups⟩, hmc, hports, ht8, harb, htime, hkept⟩ := h
  obtain ⟨hf, ⟨kb, kc⟩, kn⟩ := k
  refine ⟨⟨kb.trans hbusy, kc ▸ hcause⟩, ⟨kn hcmds, ?_⟩, ?_, fun p => ?_, ?_, ?_, ?_, ?_⟩
  · rw [hf]; exact hgroups
  · rw [hf]; exact hmc
  · rw [hf]; exact hports p
  · rw [hf]; exact ht8
  · rw [hf]; exact harb
  · rw [hf]; exact htime
  · rw [hf]; exact hkept

theorem ResetCore.claim {s u : State} (h : ResetCore s u) (q : Fin 9) : claimOf u q = none := by
  by_cases hq : q.val = 8
  · exact (if_pos hq).trans h.t8
  · obtain ⟨-, -, hclaim, -⟩ := h.ports ⟨q.val, by omega⟩
    exact (if_neg hq).trans hclaim

section
variable (s : State)

theorem resetCore_resetBase : ResetCore s (resetBase 2 false s) :=
  resetCore_resetFrom (portsEnded_testsEnded s) (portOf_testsEnded s)

theorem resetBase_kept (cause : BitVec 6) (thermal : Bool) : (resetBase cause thermal s).safety = s.safety ∧
    (resetBase cause thermal s).dom = s.dom := by
  have h := portsEnded_testsEnded s
  rw [PortsEnded] at h
  rw [resetBase, h]
  exact ⟨rfl, rfl⟩

/-- The state before the holds. -/
def resetUnheld : State := resetFatals (resetEnds (safeEnds false s) (resetBase 2 false s)) s.safety.queue

theorem controlResetNow_unheld : controlResetNow 2 false s = holdEvery (resetUnheld s) := by
  rw [controlResetNow_eq, (resetBase_kept s 2 false).1, resetUnheld]

theorem resetLate_resetUnheld : ResetLate (resetBase 2 false s) (resetUnheld s) :=
  (resetLate_resetEnds _ _).trans (resetLate_resetFatals _ _)

theorem resetCore_controlResetNow : ResetCore s (controlResetNow 2 false s) := by
  rw [controlResetNow_unheld]
  exact (resetCore_resetBase s).late ((resetLate_resetUnheld s).trans (resetLate_of_holdsOnly (holdsOnly_holdEvery _)))

theorem safety_controlResetNow : (controlResetNow 2 false s).safety = (resetUnheld s).safety := by
  rw [controlResetNow_unheld]
  exact safety_of_holdsOnly (holdsOnly_holdEvery _)

variable {s}

theorem safeEnds_thermal (hs : s.safety.safe = true) (hc : ∀ m ∈ s.safety.causes, fKindOf m = 0x20) (ht : s.therm.tripped = false)
    (hn : s.therm.noRestart = false) : safeEnds false s = true := by
  have hstands (m : DWord) (hm : m ∈ s.safety.causes) : causeStands s m = false := by
    rw [causeStands, hc m hm, ht, hn]
    rfl
  rw [safeEnds, hs, Bool.true_and, List.all_eq_true]
  intro m hm
  rw [hstands m hm]
  rfl

theorem not_safeEnds_thermal (hc : ∃ m ∈ s.safety.causes, fKindOf m = 0x20) (ht : s.therm.tripped = true ∨ s.therm.noRestart = true) :
    safeEnds false s = false := by
  obtain ⟨m, hm, hk⟩ := hc
  have hstands : causeStands s m = true := by
    rw [causeStands, hk]
    exact (Bool.or_eq_true ..).mpr ht
  rw [safeEnds, Bool.and_eq_false_iff]
  refine Or.inr (List.all_eq_false.mpr ⟨m, hm, ?_⟩)
  rw [hstands, Bool.not_true, Bool.false_and]
  exact Bool.false_ne_true

/-- Without a standing cause and a fatal message the safe state ends. -/
theorem safety_controlResetNow_ends (hq : ∀ q ∈ s.safety.queue, fClass q.bits ≠ 2) (he : safeEnds false s = true) :
    (controlResetNow 2 false s).safety = { s.safety with safe := false, causes := [] } := by
  rw [safety_controlResetNow, resetUnheld, resetFatals_of_none hq, he, resetEnds, if_pos rfl, safety_endSafe, safety_endForce, (resetBase_kept s 2 false).1]

/-- A cause that stands keeps the safe state. -/
theorem safe_controlResetNow_stays (hs : s.safety.safe = true) (he : safeEnds false s = false) : (controlResetNow 2 false s).safety.safe = true := by
  rw [safety_controlResetNow, resetUnheld, he]
  refine safe_resetFatals ?_ _
  rw [resetEnds, if_neg (by decide), safety_endForce, (resetBase_kept s 2 false).1, hs]

/-- A fatal message that waits enters the safe state. -/
theorem safe_controlResetNow_fatal (h : ∃ q ∈ s.safety.queue, fClass q.bits = 2) : (controlResetNow 2 false s).safety.safe = true := by
  rw [safety_controlResetNow, resetUnheld]
  exact safe_resetFatals_of_fatal ((resetLate_resetEnds _ _).clk.1.trans (resetCore_resetBase s).clk.1) h

theorem resetUnheld_outside_safe (hs : s.safety.safe = false) (hq : ∀ q ∈ s.safety.queue, fClass q.bits ≠ 2) :
    resetUnheld s = endForce (resetBase 2 false s) := by
  have he : safeEnds false s = false := by rw [safeEnds, hs, Bool.false_and]
  rw [resetUnheld, resetFatals_of_none hq, he]
  rfl

theorem ctxless_view {D E : Domain} (h : ctxless D = ctxless E) :
    D.pair = E.pair ∧ D.state = E.state ∧ D.held = E.held ∧ D.tr = E.tr ∧ inSoftStart D = inSoftStart E :=
  ⟨(congrArg Domain.pair h :), (congrArg Domain.state h :), (congrArg Domain.held h :), (congrArg Domain.tr h :), (congrArg inSoftStart h :)⟩

/-- Outside the safe state and without a fatal message, a LIT or SHADE domain outside a transition is held. -/
theorem controlResetNow_held {d : Dom} (h1 : Single s d) (hs : s.safety.safe = false) (hq : ∀ q ∈ s.safety.queue, fClass q.bits ≠ 2)
    (hst : (domOf s d).state = .lit ∨ (domOf s d).state = .shade) (hheld : (domOf s d).held = false) (hsoft : inSoftStart (domOf s d) = false)
    (hph : (domOf s d).tr.ph ≠ .discharge) :
    (domOf (controlResetNow 2 false s) d).held = true ∧ ∃ i ∈ (controlResetNow 2 false s).ints, i.dom = d ∧ i.what = .held .control := by
  rw [controlResetNow_unheld, resetUnheld_outside_safe hs hq]
  have hbase (e : Nat) : domOf (resetBase 2 false s) e = domOf s e := by rw [domOf, (resetBase_kept s 2 false).2, domOf]
  have hctx : ∀ e : Dom, ctxless (domOf (endForce (resetBase 2 false s)) e) = ctxless (domOf s e) := fun e => by
    rw [← hbase]
    exact contextsOnly_iff.mp (contextsOnly_endForce _) e
  have hpair (e : Nat) : (domOf (endForce (resetBase 2 false s)) e).pair = (domOf s e).pair := by
    by_cases he : e < 80
    · exact (ctxless_view (hctx ⟨e, he⟩)).1
    · rw [domOf_ge _ (Nat.not_lt.mp he), domOf_ge _ (Nat.not_lt.mp he)]
  obtain ⟨-, kst, kheld, ktr, ksoft⟩ := ctxless_view (hctx d)
  exact holdEvery_held (single_congr hpair h1) (kst ▸ hst) (kheld.trans hheld) (ksoft.trans hsoft) (ktr ▸ hph)

end

end Sys2Proof.Laws

namespace Sys2Proof.Proofs
open Sys2Proof Sys2Proof.Machine Sys2Proof.Laws
set_option Elab.async false

/-- Settles O46: a control reset clears the ports, the queue and the MC, and what follows it ends or enters the safe state and holds the
domains; the other operations are their rows. -/
theorem controlAndMcReset : Obligations.ControlAndMcReset := by
  unfold Obligations.ControlAndMcReset
  intro val t s
  refine ⟨exec_reset_unkeyed, fun hopen hkey hbit => ?_, exec_mcReset, rfl, fun hi hr hs hb => exec_mcStart hi hr hs hb t, fun h => exec_mcStart_not h t⟩
  have hcore := resetCore_controlResetNow (ackWrite (now t s))
  obtain ⟨⟨hbusy, hcause⟩, ⟨hcmds, hgroups⟩, ⟨hrun, hfails, hstate⟩, hports, -, harb, htime, hkept⟩ := hcore
  refine ⟨_, exec_controlReset hopen hkey hbit, hbusy, hcause, hcmds, hgroups, hrun, (resetCore_controlResetNow _).claim, fun p => (hports p).1, fun p => (hports p).2.1, fun p => (hports p).2.2.2,
    harb, htime, hfails, hstate, fun hq hs hc ht hn => ?_, fun hs hc ht => ?_, fun h => safe_controlResetNow_fatal (s := ackWrite (now t s)) h,
    fun d h1 hs hq hst hheld hsoft hph => controlResetNow_held (s := ackWrite (now t s)) h1 hs hq hst hheld hsoft hph, hkept⟩
  · rw [safety_controlResetNow_ends (s := ackWrite (now t s)) hq (safeEnds_thermal hs hc ht hn)]
    exact ⟨rfl, rfl⟩
  · exact safe_controlResetNow_stays (s := ackWrite (now t s)) hs (not_safeEnds_thermal hc ht)

end Sys2Proof.Proofs
end

section
/-! DOM_STATE at its commit: what the steps of one station leave to the others, and what becomes of its own state (R84, R111 to R117, R332). -/

namespace Sys2Proof.Laws
open Sys2Proof Sys2Proof.Machine
set_option Elab.async false

/-! ### What a state command shows of a domain, and what lies outside the domains -/

/-- What DOM_STATE reads and changes of a domain, as far as R111 to R117 speak of it. -/
structure Shown where
  state : DState
  held : Bool
  latched : Bool
  tr : TransSt
  en : Bool
  marks : IntMarks
  pair : PairRole
  uvstop : Bool

def shown (D : Domain) : Shown := ⟨D.state, D.held, D.latched, D.tr, D.en, D.marks, D.pair, D.droop.uvstop⟩

/-- Whether a soft start runs. -/
def Shown.soft (S : Shown) : Bool := S.tr.ph == .startWait || S.tr.ph == .leg1 || S.tr.ph == .leg2 || S.tr.ph == .settle

theorem soft_shown (D : Domain) : (shown D).soft = inSoftStart D := rfl

/-- Configuration, record and the two locks. -/
def outer (s : State) : Vector DomCfg 80 × Option CharRecord × Bool × Bool := (s.cfg, s.char, s.clk.swLock, s.therm.critLock)

/-- Two states that show the same of every domain and of what lies outside. -/
def Keeps {β : Type} (m : Domain → β) (s u : State) : Prop := (∀ e, m (domOf u e) = m (domOf s e)) ∧ outer u = outer s

section
variable {β : Type} {m : Domain → β}

theorem Keeps.refl (s : State) : Keeps m s s := ⟨fun _ => rfl, rfl⟩

theorem Keeps.trans {s u v : State} (h : Keeps m s u) (k : Keeps m u v) : Keeps m s v := ⟨fun e => (k.1 e).trans (h.1 e), k.2.trans h.2⟩

theorem keeps_of_ite {s a b : State} {c : Prop} [Decidable c] (ha : Keeps m s a) (hb : Keeps m s b) : Keeps m s (if c then a else b) := by
  split
  · exact ha
  · exact hb

theorem keeps_foldl {α : Type} {f : State → α → State} (h : ∀ s x, Keeps m s (f s x)) (l : List α) (s : State) : Keeps m s (l.foldl f s) :=
  foldl_inv (I := Keeps m s) (fun v x hv => hv.trans (h v x)) l (.refl s)

theorem keeps_of_dom {s u : State} (hd : u.dom = s.dom) (ho : outer u = outer s) : Keeps m s u := ⟨fun e => by rw [domOf, hd, domOf], ho⟩

theorem outer_of_onlyDoms {s u : State} (h : OnlyDoms s u) : outer u = outer s := by
  rw [h]
  rfl

theorem keeps_setDom (s : State) (d : Nat) (f : Domain → Domain) (h : ∀ D, m (f D) = m D := by intro; rfl) : Keeps m s (setDom s d f) :=
  ⟨(sameView_setDom s d f h).1, outer_of_onlyDoms (onlyDoms_setDom s d f)⟩

theorem keeps_setMembers (s : State) (d : Nat) (f : Domain → Domain) (h : ∀ D, m (f D) = m D := by intro; rfl) : Keeps m s (setMembers s d f) :=
  keeps_foldl (fun s x => keeps_setDom s x f h) _ s

theorem keeps_setArbChip (s : State) (f : ArbChip → ArbChip) : Keeps m s (setArbChip s f) := keeps_of_dom rfl rfl

theorem keeps_sieveAlter (s : State) (x : Nat) : Keeps m s (sieveAlter s x) := by
  rw [sieveAlter_frame]
  exact keeps_of_dom rfl rfl

theorem keeps_driveThr (h : ∀ D T b, m { D with tile := T, thrFrame := b } = m D) (s : State) (d : Nat) : Keeps m s (driveThr s d) := by
  unfold driveThr
  exact keeps_of_ite (.refl s) (keeps_setMembers s d _ fun D => h D _ _)

theorem keeps_setArb (h : ∀ D a, m { D with arb := a } = m D) (s : State) (d : Nat) (f : Arb → Arb) : Keeps m s (setArb s d f) :=
  keeps_setDom s d _ fun D => h D _

theorem keeps_setPort (s : State) (p : Nat) (f : Port → Port) : Keeps m s (setPort s p f) := keeps_of_dom rfl rfl

theorem keeps_raise (s : State) (cls kind unit inst detail : Nat) : Keeps m s (raise s cls kind unit inst detail) := by
  rw [raise_frame]
  exact keeps_of_dom rfl rfl

theorem keeps_postEvent (s : State) (p : Nat) (e : Event) : Keeps m s (postEvent s p e) := by
  unfold postEvent
  extract_lets P first s1
  have h1 : Keeps m s s1 := keeps_setPort s p _
  exact keeps_of_ite (.refl s) (keeps_of_ite (keeps_setPort s p _) (keeps_of_ite (keeps_setPort s p _)
    (keeps_of_ite (h1.trans (keeps_raise ..)) h1)))

theorem keeps_laneTested (s : State) (u : TestUnit) : Keeps m s (laneTested s u) := by
  unfold laneTested
  split
  · exact keeps_of_dom rfl rfl
  · exact keeps_of_dom rfl rfl
  · exact .refl s

theorem keeps_endTest (s : State) (r : TestRun) (outcome : Nat) (detail : List Byte) : Keeps m s (endTest s r outcome detail) := by
  unfold endTest
  extract_lets s1
  have h0 : Keeps m s { s with tests := s.tests.filter (fun x => x != r) } := keeps_of_dom rfl rfl
  have h1 : Keeps m s s1 := h0.trans (keeps_laneTested _ r.unit)
  clear_value s1
  split
  · exact h1.trans (keeps_postEvent ..)
  · exact h1

theorem keeps_abandonBist (s : State) (d : Nat) : Keeps m s (abandonBist s d) := keeps_foldl (fun v r => keeps_endTest v r 2 []) _ s

end

/-! ### The inrush reserve (R121) -/

theorem keeps_cancelLoans (fuel need : Nat) (s : State) : Keeps shown s (cancelLoans fuel need s).1 := by
  induction fuel generalizing need s with
  | zero => exact .refl s
  | succ fuel ih =>
    unfold cancelLoans
    split
    · exact .refl s
    · split
      · exact .refl s
      · exact ((keeps_setArbChip s _).trans (keeps_setArb (fun _ _ => rfl) _ _ _)).trans (ih _ _)

theorem keeps_cutGrants (need : Nat) (s : State) : Keeps shown s (cutGrants need s) :=
  foldl_inv (I := fun acc : State × Nat => Keeps shown s acc.1) (fun _ _ hv => hv.trans (keeps_setArb (fun _ _ => rfl) _ _ _)) _ (.refl s)

theorem keeps_setLevel (s : State) (d l : Nat) : Keeps shown s (setLevel s d l) := keeps_setDom s d _

theorem keeps_reserveInrush (s : State) (d : Nat) : Keeps shown s (reserveInrush s d) := by
  unfold reserveInrush
  extract_lets need s0 unlent t1 free rest c took s1 s2
  have h0 : Keeps shown s s0 := keeps_setArb (fun _ _ => rfl) s d _
  have hc : Keeps shown s c.1 := h0.trans (keeps_cancelLoans _ _ s0)
  have h1 : Keeps shown s s1 := hc.trans (keeps_setArbChip c.1 _)
  have h2 : Keeps shown s s2 := h1.trans (keeps_cutGrants _ s1)
  exact h2.trans ((keeps_setArb (fun _ _ => rfl) s2 d _).trans (keeps_setLevel _ d 0))

theorem keeps_loadWindow (s : State) (x : Nat) : Keeps shown s (loadWindow s x) := by
  unfold loadWindow
  extract_lets lim
  split
  · exact keeps_setMembers s x _
  · exact keeps_setMembers s x _
  · exact .refl s

theorem keeps_parkAbort (s : State) (x : Nat) : Keeps shown s (parkAbort s x) := keeps_setMembers s x _

theorem keeps_freqUnheld (s : State) (x : Nat) : Keeps shown s (freqUnheld s x) := keeps_setMembers s x _

theorem keeps_supStart (s : State) (x : Nat) : Keeps shown s (supStart s x) := keeps_setDom s x _

/-! ### The steps of one leader -/

/-- A step of one leader: the other stations show the same, no pairing and no configuration changes, and no lock opens. -/
structure LeaderStep (x : Nat) (s u : State) : Prop where
  fixed : u.cfg = s.cfg ∧ u.char = s.char
  locks : (s.clk.swLock = true → u.clk.swLock = true) ∧ (s.therm.critLock = true → u.therm.critLock = true)
  pairs : ∀ e, (domOf u e).pair = (domOf s e).pair
  rest : ∀ e, e ∉ membersOf s x → shown (domOf u e) = shown (domOf s e)

section
variable {x : Nat} {s u v : State}

theorem LeaderStep.refl (x : Nat) (s : State) : LeaderStep x s s := ⟨⟨rfl, rfl⟩, ⟨id, id⟩, fun _ => rfl, fun _ _ => rfl⟩

theorem LeaderStep.trans (h : LeaderStep x s u) (k : LeaderStep x u v) : LeaderStep x s v :=
  ⟨⟨k.fixed.1.trans h.fixed.1, k.fixed.2.trans h.fixed.2⟩, ⟨k.locks.1 ∘ h.locks.1, k.locks.2 ∘ h.locks.2⟩, fun e => (k.pairs e).trans (h.pairs e),
    fun e he => (k.rest e (by rwa [membersOf_congr (h.pairs x)])).trans (h.rest e he)⟩

theorem leaderStep_of_ite {c : Prop} [Decidable c] (h : LeaderStep x s u) (k : LeaderStep x s v) : LeaderStep x s (if c then u else v) := by
  split
  · exact h
  · exact k

theorem Keeps.leaderStep (h : Keeps shown s u) (x : Nat) : LeaderStep x s u := by
  obtain ⟨hv, ho⟩ := h
  obtain ⟨hcfg, hchar, hsw, hcrit⟩ : u.cfg = s.cfg ∧ u.char = s.char ∧ u.clk.swLock = s.clk.swLock ∧ u.therm.critLock = s.therm.critLock := by
    simpa [outer] using ho
  exact ⟨⟨hcfg, hchar⟩, ⟨fun h => hsw.trans h, fun h => hcrit.trans h⟩, fun e => congrArg Shown.pair (hv e), fun e _ => hv e⟩

theorem StationStep.leaderStep (h : StationStep s u x) : LeaderStep x s u := by
  obtain ⟨ho, hp, hr⟩ := h
  refine ⟨⟨ho.cfg, ho.char⟩, ?_, hp, fun e he => congrArg shown (hr e he)⟩
  rw [ho]
  exact ⟨id, id⟩

end

theorem leaderStep_setMembers (s : State) (x : Nat) (f : Domain → Domain) (hf : ∀ D, (f D).pair = D.pair := by intro; rfl) :
    LeaderStep x s (setMembers s x f) := (stationStep_setMembers s x f hf).leaderStep

theorem keeps_cancelled (s : State) (l : List IntChange) : Keeps shown s { s with ints := l } := keeps_of_dom rfl rfl

theorem leaderStep_cancelRetry (s : State) (x : Nat) : LeaderStep x s (cancelRetry s x) :=
  ((keeps_cancelled s _).leaderStep x).trans (leaderStep_setMembers _ x _)

theorem leaderStep_firstLight (s : State) (x : Nat) : LeaderStep x s (firstLight s) :=
  ⟨⟨rfl, rfl⟩, ⟨fun _ => rfl, fun _ => rfl⟩, fun _ => rfl, fun _ _ => rfl⟩

theorem leaderStep_startSoft (s : State) (x : Nat) (goal : DState) (attempt : Nat) : LeaderStep x s (startSoft s x goal attempt) :=
  leaderStep_setMembers s x _

theorem leaderStep_startFromDark (s : State) (x : Nat) (want : DState) (attempt : Nat) : LeaderStep x s (startFromDark s x want attempt) :=
  ((leaderStep_firstLight s x).trans ((leaderStep_startSoft _ x want attempt).trans (leaderStep_setMembers _ x _))).trans
    (((keeps_loadWindow _ x).trans (keeps_reserveInrush _ x)).leaderStep x)

theorem leaderStep_leaveHeld (s : State) (x : Nat) : LeaderStep x s (leaveHeld s x) := by
  unfold leaveHeld
  extract_lets D back s1 s2
  have h2 : LeaderStep x s s2 := (leaderStep_setMembers s x _).trans (((keeps_loadWindow s1 x).trans (keeps_freqUnheld _ x)).leaderStep x)
  clear_value s2
  exact leaderStep_of_ite (.refl x s) (leaderStep_of_ite (h2.trans ((keeps_supStart s2 x).leaderStep x)) h2)

theorem pair_replaceMove (D M : Domain) : (replaceMove D M).pair = M.pair := by
  unfold replaceMove
  split <;> rfl

theorem leaderStep_startLift (s : State) (x : Nat) : LeaderStep x s (startLift s x) :=
  (leaderStep_setMembers s x _ fun _ => by rw [pair_replaceMove]).trans ((keeps_loadWindow _ x).leaderStep x)

theorem leaderStep_holdClock (s : State) (x : Nat) (b : Bool) : LeaderStep x s (holdClock s x b) :=
  (leaderStep_setMembers s x _).trans (stationStep_driveThr _ x).leaderStep

theorem leaderStep_startDescent (s : State) (x : Nat) : LeaderStep x s (startDescent s x) :=
  (leaderStep_setMembers s x _ fun _ => by rw [pair_replaceMove]).trans (leaderStep_holdClock _ x true)

theorem leaderStep_hostDark (s : State) (x : Nat) : LeaderStep x s (hostDark s x) := by
  unfold hostDark
  extract_lets D s1 s2
  have h1 : LeaderStep x s (abandonBist s1 x) := (leaderStep_cancelRetry s x).trans ((keeps_abandonBist s1 x).leaderStep x)
  exact leaderStep_of_ite h1 ((h1.trans (stationStep_discharge _ x).leaderStep).trans (leaderStep_setMembers s2 x _))

theorem leaderStep_hostLight (s : State) (x : Nat) (want : DState) : LeaderStep x s (hostLight s x want) := by
  unfold hostLight
  extract_lets attempt s1 D
  have h1 : LeaderStep x s s1 := (leaderStep_cancelRetry s x).trans (leaderStep_leaveHeld _ x)
  clear_value s1
  refine leaderStep_of_ite (h1.trans (leaderStep_startFromDark ..)) (leaderStep_of_ite ?_ (leaderStep_of_ite ?_ (leaderStep_of_ite ?_ ?_)))
  · exact (h1.trans ((leaderStep_startSoft ..).trans (leaderStep_setMembers _ x _))).trans ((keeps_loadWindow _ x).leaderStep x)
  · exact leaderStep_of_ite (h1.trans (leaderStep_startLift s1 x)) h1
  · exact leaderStep_of_ite (h1.trans (leaderStep_startLift s1 x)) h1
  · exact h1.trans (leaderStep_startDescent s1 x)

/-! ### The leader's own state -/

section
variable {x : Nat} (hx : x < 80) (s : State)
include hx

theorem shown_setMembers (f : Domain → Domain) : shown (domOf (setMembers s x f) x) = shown (f (domOf s x)) := by
  rw [domOf_setMembers_self s f hx]

theorem shown_cancelRetry : shown (domOf (cancelRetry s x) x) =
    { shown (domOf s x) with tr := { (domOf s x).tr with retryAt := none } } := shown_setMembers hx _ _

theorem shown_holdClock : shown (domOf (holdClock s x true) x) = { shown (domOf s x) with uvstop := true } :=
  ((keeps_driveThr (fun _ _ _ => rfl) _ x).1 x).trans (shown_setMembers hx s _)

theorem shown_discharge : ∃ tr : TransSt, tr.ph = .discharge ∧
    shown (domOf (discharge s x) x) = { shown (domOf s x) with en := false, held := false, tr := tr, uvstop := true } := by
  unfold discharge
  rw [shown_holdClock hx, shown_setMembers hx]
  exact ⟨_, rfl, rfl⟩

/-- The transition of a soft start that begins. -/
def startTr (goal : DState) (t attempt : Nat) : TransSt := { TransSt.reset with ph := .startWait, goal := goal, since := t, attempt := attempt }

theorem shown_startSoft (goal : DState) (attempt : Nat) : shown (domOf (startSoft s x goal attempt) x) =
    { shown (domOf s x) with tr := startTr goal s.time.gtc attempt, held := false } := shown_setMembers hx s _

/-- A soft start and the state that it goes to. -/
def softTo (s : State) (x : Nat) (want : DState) (attempt : Nat) : State :=
  setMembers (startSoft s x want attempt) x (fun M => { M with state := want })

theorem shown_softTo (want : DState) (attempt : Nat) : shown (domOf (softTo s x want attempt) x) =
    { shown (domOf s x) with state := want, tr := startTr want s.time.gtc attempt, held := false } :=
  (shown_setMembers hx _ _).trans (congrArg (fun S : Shown => { S with state := want }) (shown_startSoft hx s want attempt))

theorem shown_startFromDark (want : DState) (attempt : Nat) : shown (domOf (startFromDark s x want attempt) x) =
    { shown (domOf s x) with state := want, tr := startTr want s.time.gtc attempt, held := false } :=
  (((keeps_loadWindow (softTo (firstLight s) x want attempt) x).trans (keeps_reserveInrush _ x)).1 x).trans (shown_softTo hx (firstLight s) want attempt)

omit hx in
theorem shown_replaceMove (D M : Domain) : shown (replaceMove D M) = shown M := by
  unfold replaceMove
  split <;> rfl

theorem shown_startLift : ∃ tr : TransSt, tr.ph = .lift ∧ shown (domOf (startLift s x) x) = { shown (domOf s x) with state := .lit, tr := tr } := by
  unfold startLift
  extract_lets D
  rw [(keeps_loadWindow _ x).1 x, shown_setMembers hx, shown_replaceMove]
  exact ⟨_, rfl, rfl⟩

theorem shown_startDescent : ∃ tr : TransSt, tr.ph = .descent ∧
    shown (domOf (startDescent s x) x) = { shown (domOf s x) with tr := tr, uvstop := true } := by
  unfold startDescent
  extract_lets D
  rw [shown_holdClock hx, shown_setMembers hx, shown_replaceMove]
  exact ⟨_, rfl, rfl⟩

/-- DARK: a domain that is DARK and disabled stays so; any other one is discharged. -/
theorem shown_hostDark : (domOf (hostDark s x) x).state = .dark ∧ ((domOf s x).state ≠ .dark ∨ (domOf s x).en = true →
    (domOf (hostDark s x) x).en = false ∧ (domOf (hostDark s x) x).tr.ph = .discharge ∧ (domOf (hostDark s x) x).droop.uvstop = true) := by
  unfold hostDark
  extract_lets D s1 s2
  have h1 : shown (domOf (abandonBist s1 x) x) = _ := ((keeps_abandonBist s1 x).1 x).trans (shown_cancelRetry hx s)
  split
  · rename_i h
    obtain ⟨hst, hen⟩ := h
    have hdark : (domOf (abandonBist s1 x) x).state = .dark := (congrArg Shown.state h1).trans hst
    refine ⟨hdark, fun hor => ?_⟩
    rcases hor with hor | hor
    · exact absurd hst hor
    · rw [show D.en = true from hor] at hen
      cases hen
  · obtain ⟨tr, hph, h2⟩ := shown_discharge hx (abandonBist s1 x)
    rw [domOf_setMembers_self _ _ hx]
    exact ⟨rfl, fun _ => ⟨congrArg Shown.en h2, (congrArg (fun S : Shown => S.tr.ph) h2).trans hph, congrArg Shown.uvstop h2⟩⟩

end

/-! ### SHADE or LIT of a domain that is not in HELD -/

/-- What a request for SHADE or LIT does once HELD has ended. -/
def lightFrom (s : State) (x : Nat) (want : DState) (attempt : Nat) : State :=
  if (domOf s x).state = .dark then startFromDark s x want attempt
  else if inSoftStart (domOf s x) || (domOf s x).tr.ph = .discharge then
    loadWindow (softTo s x want (if (domOf s x).tr.ph = .discharge then attempt else (domOf s x).tr.attempt)) x
  else if (domOf s x).state = .shade then (if want = .lit then startLift s x else s)
  else if want = .lit then (if (domOf s x).tr.ph = .descent || (domOf s x).tr.ph = .lift then startLift s x else s)
  else startDescent s x

theorem leaveHeld_of_not_held {s : State} {x : Nat} (h : (domOf s x).state ≠ .held) (hh : (domOf s x).held = false) : leaveHeld s x = s :=
  if_pos ⟨h, by rw [hh]; rfl⟩

theorem hostLight_not_held {s : State} {x : Nat} (hx : x < 80) (h : (domOf s x).state ≠ .held) (hh : (domOf s x).held = false) (want : DState) :
    ∃ attempt, hostLight s x want = lightFrom (cancelRetry s x) x want attempt := by
  have hc := shown_cancelRetry hx s
  have hleave : leaveHeld (cancelRetry s x) x = cancelRetry s x :=
    leaveHeld_of_not_held (by rw [show (domOf (cancelRetry s x) x).state = _ from congrArg Shown.state hc]; exact h) ((congrArg Shown.held hc).trans hh)
  refine ⟨if retryPending s x then (domOf s x).tr.attempt + 1 else 1, ?_⟩
  unfold hostLight
  rw [hleave]
  rfl

section
variable {s : State} {x : Nat} (want : DState) (attempt : Nat)

theorem lightFrom_dark (h : (domOf s x).state = .dark) : lightFrom s x want attempt = startFromDark s x want attempt := if_pos h

variable (h : (domOf s x).state ≠ .dark)
include h

theorem lightFrom_soft (hsoft : inSoftStart (domOf s x) = true) (hph : (domOf s x).tr.ph ≠ .discharge) :
    lightFrom s x want attempt = loadWindow (softTo s x want (domOf s x).tr.attempt) x := by
  rw [lightFrom, if_neg h, if_pos (by rw [hsoft]; rfl), if_neg hph]

variable (hsoft : inSoftStart (domOf s x) = false) (hph : (domOf s x).tr.ph ≠ .discharge)
include hsoft hph

theorem lightFrom_ready : lightFrom s x want attempt =
    if (domOf s x).state = .shade then (if want = .lit then startLift s x else s)
    else if want = .lit then (if (domOf s x).tr.ph = .descent || (domOf s x).tr.ph = .lift then startLift s x else s) else startDescent s x := by
  rw [lightFrom, if_neg h, if_neg (by rw [hsoft]; simpa using hph)]

theorem lightFrom_lift (hst : (domOf s x).state = .shade ∨ (domOf s x).tr.ph = .descent ∨ (domOf s x).tr.ph = .lift) :
    lightFrom s x .lit attempt = startLift s x := by
  rw [lightFrom_ready .lit attempt h hsoft hph]
  by_cases hs : (domOf s x).state = .shade
  · rw [if_pos hs, if_pos rfl]
  · rw [if_neg hs, if_pos rfl, if_pos (by simpa using hst.resolve_left hs)]

theorem lightFrom_descent (hst : (domOf s x).state = .lit) : lightFrom s x .shade attempt = startDescent s x := by
  rw [lightFrom_ready .shade attempt h hsoft hph, hst, if_neg (by decide), if_neg (by decide)]

end

/-! ### The command for one domain -/

/-- The state that a DOM_STATE asks for. -/
def askedState (d : Desc) : DState := if opB d 16 = 2 then .lit else if opB d 16 = 1 then .shade else .dark

/-- Whether a domain stands in the state asked for, without a transition. -/
def asStands (d : Desc) (D : Domain) : Bool := D.state == askedState d && D.tr.ph == .idle

/-- The latch cleared, and fall-back and the latched third stop ended, before the state changes. -/
def stateBegun (s : State) (d : Desc) (x : Nat) : State :=
  let s0 := setMembers s x (fun M => { M with latched := M.latched && (!(opB d 17 % 2 == 1) || M.marks.latch), fallback := false,
                                              sup := { M.sup with fbPend := false } })
  if askedState d = .lit then s0 else
    setMembers s0 x (fun M => { M with droop := { M.droop with uvLatched := false, stops := if M.droop.uvLatched then [] else M.droop.stops } })

/-- The change of state. -/
def stateMoved (s : State) (d : Desc) (x : Nat) : State :=
  if askedState d = .dark then hostDark (stateBegun s d x) x
  else if asStands d (domOf s x) then stateBegun s d x else hostLight (stateBegun s d x) x (askedState d)

section
variable (s : State) (d : Desc) (x : Nat)

theorem applyState_eq : applyState s d x =
    (if asStands d (domOf s x) then stateMoved s d x else parkAbort (sieveAlter (stateMoved s d x) x) x,
      stateCode (domOf s x).state + bitAt (opB d 17 % 2 == 1 && (domOf s x).latched && !(domOf s x).marks.latch) 3) := rfl

theorem keeps_applyState : Keeps shown (stateMoved s d x) (applyState s d x).1 := by
  rw [applyState_eq]
  exact keeps_of_ite (.refl _) ((keeps_sieveAlter _ x).trans (keeps_parkAbort _ x))

theorem leaderStep_stateBegun : LeaderStep x s (stateBegun s d x) := by
  unfold stateBegun
  extract_lets s0
  have h0 : LeaderStep x s s0 := leaderStep_setMembers s x _
  exact leaderStep_of_ite h0 (h0.trans (leaderStep_setMembers s0 x _))

theorem leaderStep_applyState : LeaderStep x s (applyState s d x).1 := by
  have hb := leaderStep_stateBegun s d x
  have hm : LeaderStep x s (stateMoved s d x) :=
    leaderStep_of_ite (hb.trans (leaderStep_hostDark _ x)) (leaderStep_of_ite hb (hb.trans (leaderStep_hostLight _ x _)))
  exact hm.trans ((keeps_applyState s d x).leaderStep x)

end

/-- A domain as the change of state finds it. -/
def latchTold (d : Desc) (S : Shown) : Shown := { S with latched := S.latched && (!(opB d 17 % 2 == 1) || S.marks.latch) }

section
variable {x : Nat} (hx : x < 80) (s : State) (d : Desc)
include hx

theorem shown_stateBegun : shown (domOf (stateBegun s d x) x) = latchTold d (shown (domOf s x)) := by
  unfold stateBegun
  extract_lets s0
  have h0 : shown (domOf s0 x) = latchTold d (shown (domOf s x)) := shown_setMembers hx s _
  split
  · exact h0
  · exact (shown_setMembers hx s0 _).trans h0

/-- Outside HELD, and unless the domain stands as asked, SHADE or LIT is entered from a state that shows the latch told and no retry. -/
theorem stateMoved_light (hd : askedState d ≠ .dark) (hs : asStands d (domOf s x) = false) (hst : (domOf s x).state ≠ .held)
    (hh : (domOf s x).held = false) : ∃ u attempt, stateMoved s d x = lightFrom u x (askedState d) attempt ∧
    shown (domOf u x) = { latchTold d (shown (domOf s x)) with tr := { (domOf s x).tr with retryAt := none } } := by
  have hb := shown_stateBegun hx s d
  obtain ⟨attempt, hl⟩ := hostLight_not_held hx (s := stateBegun s d x) (by rw [show (domOf (stateBegun s d x) x).state = _ from congrArg Shown.state hb]; exact hst)
    ((congrArg Shown.held hb).trans hh) (askedState d)
  refine ⟨cancelRetry (stateBegun s d x) x, attempt, ?_, ?_⟩
  · rw [stateMoved, if_neg hd, hs, if_neg (by decide), hl]
  · rw [shown_cancelRetry hx, show (domOf (stateBegun s d x) x).tr = _ from congrArg Shown.tr hb, hb]
    rfl

end

end Sys2Proof.Laws
end

section
/-! DOM_STATE at its commit: what the command has done to each domain that it names. -/

namespace Sys2Proof.Laws
open Sys2Proof Sys2Proof.Machine
set_option Elab.async false

/-! ### The latch -/

/-- No latch has changed. -/
def SameLatch (s u : State) : Prop := ∀ e, (domOf u e).latched = (domOf s e).latched

theorem SameLatch.trans {s u v : State} (h : SameLatch s u) (k : SameLatch u v) : SameLatch s v := fun e => (k e).trans (h e)

theorem Keeps.sameLatch {s u : State} (h : Keeps shown s u) : SameLatch s u := fun e => congrArg Shown.latched (h.1 e)

theorem sameLatch_of_ite {s u v : State} {c : Prop} [Decidable c] (h : SameLatch s u) (k : SameLatch s v) : SameLatch s (if c then u else v) := by
  split
  · exact h
  · exact k

theorem sameLatch_setMembers (s : State) (x : Nat) (f : Domain → Domain) (h : ∀ D, (f D).latched = D.latched := by intro; rfl) :
    SameLatch s (setMembers s x f) := (keeps_setMembers s x f h).1

theorem latched_replaceMove (D M : Domain) : (replaceMove D M).latched = M.latched :=
  congrArg Shown.latched (shown_replaceMove D M)

theorem sameLatch_cancelRetry (s : State) (x : Nat) : SameLatch s (cancelRetry s x) :=
  (keeps_cancelled s _).sameLatch.trans (sameLatch_setMembers _ x _)

theorem sameLatch_holdClock (s : State) (x : Nat) (b : Bool) : SameLatch s (holdClock s x b) :=
  (sameLatch_setMembers s x _).trans (keeps_driveThr (m := shown) (fun _ _ _ => rfl) _ x).sameLatch

theorem sameLatch_softTo (s : State) (x : Nat) (want : DState) (attempt : Nat) : SameLatch s (softTo s x want attempt) :=
  (sameLatch_setMembers s x _).trans (sameLatch_setMembers _ x _)

theorem sameLatch_startFromDark (s : State) (x : Nat) (want : DState) (attempt : Nat) : SameLatch s (startFromDark s x want attempt) :=
  (sameLatch_softTo (firstLight s) x want attempt).trans ((keeps_loadWindow _ x).trans (keeps_reserveInrush _ x)).sameLatch

theorem sameLatch_startLift (s : State) (x : Nat) : SameLatch s (startLift s x) :=
  (sameLatch_setMembers s x _ fun _ => by rw [latched_replaceMove]).trans (keeps_loadWindow _ x).sameLatch

theorem sameLatch_startDescent (s : State) (x : Nat) : SameLatch s (startDescent s x) :=
  (sameLatch_setMembers s x _ fun _ => by rw [latched_replaceMove]).trans (sameLatch_holdClock _ x true)

theorem sameLatch_hostDark (s : State) (x : Nat) : SameLatch s (hostDark s x) := by
  unfold hostDark
  extract_lets D s1 s2
  have h1 : SameLatch s (abandonBist s1 x) := (sameLatch_cancelRetry s x).trans (keeps_abandonBist s1 x).sameLatch
  have h2 : SameLatch s s2 := h1.trans ((sameLatch_setMembers _ x _).trans (sameLatch_holdClock _ x true))
  exact sameLatch_of_ite h1 (h2.trans (sameLatch_setMembers s2 x _))

theorem sameLatch_leaveHeld (s : State) (x : Nat) : SameLatch s (leaveHeld s x) := by
  unfold leaveHeld
  extract_lets D back s1 s2
  have h2 : SameLatch s s2 := (sameLatch_setMembers s x _).trans ((keeps_loadWindow s1 x).trans (keeps_freqUnheld _ x)).sameLatch
  clear_value s2
  exact sameLatch_of_ite (fun _ => rfl) (sameLatch_of_ite (h2.trans (keeps_supStart s2 x).sameLatch) h2)

theorem sameLatch_lightFrom (s : State) (x : Nat) (want : DState) (attempt : Nat) : SameLatch s (lightFrom s x want attempt) := by
  refine sameLatch_of_ite (sameLatch_startFromDark s x want attempt) (sameLatch_of_ite ?_ (sameLatch_of_ite ?_ (sameLatch_of_ite ?_ ?_)))
  · exact (sameLatch_softTo s x want _).trans (keeps_loadWindow _ x).sameLatch
  · exact sameLatch_of_ite (sameLatch_startLift s x) fun _ => rfl
  · exact sameLatch_of_ite (sameLatch_startLift s x) fun _ => rfl
  · exact sameLatch_startDescent s x

theorem sameLatch_hostLight (s : State) (x : Nat) (want : DState) : SameLatch s (hostLight s x want) :=
  ((sameLatch_cancelRetry s x).trans (sameLatch_leaveHeld _ x)).trans (sameLatch_lightFrom _ x want _)

theorem sameLatch_stateMoved (s : State) (d : Desc) (x : Nat) : SameLatch (stateBegun s d x) (stateMoved s d x) :=
  sameLatch_of_ite (sameLatch_hostDark _ x) (sameLatch_of_ite (fun _ => rfl) (sameLatch_hostLight _ x _))

/-! ### What is asked, case by case -/

/-- What a DOM_STATE has done to a domain that showed `S` and shows `E`; `L` says that both locks are set. -/
structure StateDone (d : Desc) (S E : Shown) (L : Prop) : Prop where
  latch : E.latched = (S.latched && (!decide (opB d 17 % 2 = 1) || S.marks.latch))
  dark : opB d 16 = 0 → (S.state ≠ .dark ∨ S.en = true → E.en = false ∧ E.tr.ph = .discharge ∧ E.uvstop = true) ∧ E.state = .dark
  start : opB d 16 = 1 ∨ opB d 16 = 2 → S.state = .dark → S.held = false →
    E.state = (if opB d 16 = 2 then .lit else .shade) ∧ E.tr.ph = .startWait ∧ L
  restart : opB d 16 = 1 ∨ opB d 16 = 2 → S.state ≠ .dark → S.state ≠ .held → S.held = false → S.soft = true →
    E.state = (if opB d 16 = 2 then .lit else .shade) ∧ E.tr.ph = .startWait ∧ E.tr.attempt = S.tr.attempt
  descend : opB d 16 = 1 → S.state = .lit → S.held = false → S.soft = false → S.tr.ph ≠ .discharge →
    E.state = .lit ∧ E.tr.ph = .descent ∧ E.uvstop = true
  lift : opB d 16 = 2 → S.state = .shade ∨ (S.state = .lit ∧ (S.tr.ph = .descent ∨ S.tr.ph = .lift)) → S.held = false → S.soft = false →
    S.tr.ph ≠ .discharge → E.state = .lit ∧ E.tr.ph = .lift
  stands : (opB d 16 = 2 ∧ S.state = .lit) ∨ (opB d 16 = 1 ∧ S.state = .shade) → S.tr.ph = .idle → E.state = S.state ∧ E.tr = S.tr

/-- What is done does not come undone where the locks stay set. -/
theorem StateDone.mono {d : Desc} {S E : Shown} {L L' : Prop} (h : StateDone d S E L) (hL : L → L') : StateDone d S E L' :=
  { h with start := fun hop hst hh => ⟨(h.start hop hst hh).1, (h.start hop hst hh).2.1, hL (h.start hop hst hh).2.2⟩ }

/-- Both locks of the first light are set. -/
def LocksSet (s : State) : Prop := s.clk.swLock = true ∧ s.therm.critLock = true

theorem LeaderStep.locksSet {x : Nat} {s u : State} (h : LeaderStep x s u) (hs : LocksSet s) : LocksSet u := ⟨h.locks.1 hs.1, h.locks.2 hs.2⟩

theorem locksSet_startFromDark (s : State) (x : Nat) (want : DState) (attempt : Nat) : LocksSet (startFromDark s x want attempt) := by
  have h : LeaderStep x (firstLight s) (startFromDark s x want attempt) :=
    ((leaderStep_startSoft _ x want attempt).trans (leaderStep_setMembers _ x _)).trans
      (((keeps_loadWindow _ x).trans (keeps_reserveInrush _ x)).leaderStep x)
  exact h.locksSet ⟨rfl, rfl⟩

theorem askedState_light {d : Desc} (h : opB d 16 = 1 ∨ opB d 16 = 2) : askedState d = if opB d 16 = 2 then .lit else .shade := by
  rcases h with h | h
  · rw [askedState, h]
    rfl
  · rw [askedState, h]
    rfl

theorem asked_ne_dark {d : Desc} (h : opB d 16 = 1 ∨ opB d 16 = 2) : askedState d ≠ .dark := by
  rw [askedState_light h]
  split <;> decide

theorem not_asStands_of_ph {d : Desc} {D : Domain} (h : D.tr.ph ≠ .idle) : asStands d D = false := by
  rw [asStands, beq_eq_false_iff_ne.mpr h, Bool.and_false]

theorem not_asStands_of_state {d : Desc} {D : Domain} (h : D.state ≠ askedState d) : asStands d D = false := by
  rw [asStands, beq_eq_false_iff_ne.mpr h, Bool.false_and]

theorem ph_ne_idle_of_soft {D : Domain} (h : inSoftStart D = true) : D.tr.ph ≠ .idle ∧ D.tr.ph ≠ .discharge := by
  constructor
  · intro hp
    rw [inSoftStart, hp] at h
    cases h
  · intro hp
    rw [inSoftStart, hp] at h
    cases h

section
variable {x : Nat} (hx : x < 80) (s : State) (d : Desc)
include hx

theorem latch_stateMoved : (domOf (stateMoved s d x) x).latched =
    ((domOf s x).latched && (!decide (opB d 17 % 2 = 1) || (domOf s x).marks.latch)) :=
  (sameLatch_stateMoved s d x x).trans (congrArg Shown.latched (shown_stateBegun hx s d))

theorem stateMoved_dark (h : opB d 16 = 0) : ((domOf s x).state ≠ .dark ∨ (domOf s x).en = true → (domOf (stateMoved s d x) x).en = false ∧
    (domOf (stateMoved s d x) x).tr.ph = .discharge ∧ (domOf (stateMoved s d x) x).droop.uvstop = true) ∧ (domOf (stateMoved s d x) x).state = .dark := by
  have hasked : askedState d = .dark := by rw [askedState, h]; rfl
  have hb := shown_stateBegun hx s d
  have hst : (domOf (stateBegun s d x) x).state = (domOf s x).state := congrArg Shown.state hb
  have hen : (domOf (stateBegun s d x) x).en = (domOf s x).en := congrArg Shown.en hb
  obtain ⟨hdark, hrest⟩ := shown_hostDark hx (stateBegun s d x)
  rw [hst, hen] at hrest
  rw [stateMoved, if_pos hasked]
  exact ⟨hrest, hdark⟩

section
variable (hop : opB d 16 = 1 ∨ opB d 16 = 2)
include hop

theorem stateMoved_start (hst : (domOf s x).state = .dark) (hh : (domOf s x).held = false) :
    (domOf (stateMoved s d x) x).state = askedState d ∧ (domOf (stateMoved s d x) x).tr.ph = .startWait ∧ LocksSet (stateMoved s d x) := by
  obtain ⟨u, attempt, hu, hS⟩ := stateMoved_light hx s d (asked_ne_dark hop) (not_asStands_of_state (hst ▸ (asked_ne_dark hop).symm))
    (by rw [hst]; decide) hh
  rw [hu, lightFrom_dark _ _ ((congrArg Shown.state hS).trans hst)]
  have hE := shown_startFromDark hx u (askedState d) attempt
  exact ⟨congrArg Shown.state hE, congrArg (fun S : Shown => S.tr.ph) hE, locksSet_startFromDark ..⟩

theorem stateMoved_restart (hst : (domOf s x).state ≠ .dark) (hheld : (domOf s x).state ≠ .held) (hh : (domOf s x).held = false)
    (hsoft : inSoftStart (domOf s x) = true) : (domOf (stateMoved s d x) x).state = askedState d ∧
    (domOf (stateMoved s d x) x).tr.ph = .startWait ∧ (domOf (stateMoved s d x) x).tr.attempt = (domOf s x).tr.attempt := by
  obtain ⟨hidle, hdis⟩ := ph_ne_idle_of_soft hsoft
  obtain ⟨u, attempt, hu, hS⟩ := stateMoved_light hx s d (asked_ne_dark hop) (not_asStands_of_ph hidle) hheld hh
  have hust : (domOf u x).state = (domOf s x).state := congrArg Shown.state hS
  have huph : (domOf u x).tr.ph = (domOf s x).tr.ph := congrArg (fun S : Shown => S.tr.ph) hS
  have hatt : (domOf u x).tr.attempt = (domOf s x).tr.attempt := congrArg (fun S : Shown => S.tr.attempt) hS
  have husoft : inSoftStart (domOf u x) = true := (congrArg Shown.soft hS).trans hsoft
  rw [hu, lightFrom_soft _ _ (hust ▸ hst) husoft (huph ▸ hdis)]
  have hE := ((keeps_loadWindow (softTo u x (askedState d) (domOf u x).tr.attempt) x).1 x).trans (shown_softTo hx u (askedState d) (domOf u x).tr.attempt)
  exact ⟨congrArg Shown.state hE, congrArg (fun S : Shown => S.tr.ph) hE, (congrArg (fun S : Shown => S.tr.attempt) hE).trans hatt⟩

end

section
variable (hh : (domOf s x).held = false) (hsoft : inSoftStart (domOf s x) = false) (hph : (domOf s x).tr.ph ≠ .discharge)
include hh hsoft hph

theorem stateMoved_descend (hop : opB d 16 = 1) (hst : (domOf s x).state = .lit) : (domOf (stateMoved s d x) x).state = .lit ∧
    (domOf (stateMoved s d x) x).tr.ph = .descent ∧ (domOf (stateMoved s d x) x).droop.uvstop = true := by
  have hasked : askedState d = .shade := by rw [askedState, hop]; rfl
  obtain ⟨u, attempt, hu, hS⟩ := stateMoved_light hx s d (by rw [hasked]; decide) (not_asStands_of_state (by rw [hst, hasked]; decide))
    (by rw [hst]; decide) hh
  have hust : (domOf u x).state = .lit := (congrArg Shown.state hS).trans hst
  have huph : (domOf u x).tr.ph = (domOf s x).tr.ph := congrArg (fun S : Shown => S.tr.ph) hS
  rw [hu, hasked, lightFrom_descent attempt (by rw [hust]; decide) ((congrArg Shown.soft hS).trans hsoft) (huph ▸ hph) hust]
  obtain ⟨tr, htr, hE⟩ := shown_startDescent hx u
  exact ⟨(congrArg Shown.state hE).trans hust, (congrArg (fun S : Shown => S.tr.ph) hE).trans htr, congrArg Shown.uvstop hE⟩

theorem stateMoved_lift (hop : opB d 16 = 2)
    (hst : (domOf s x).state = .shade ∨ ((domOf s x).state = .lit ∧ ((domOf s x).tr.ph = .descent ∨ (domOf s x).tr.ph = .lift))) :
    (domOf (stateMoved s d x) x).state = .lit ∧ (domOf (stateMoved s d x) x).tr.ph = .lift := by
  have hasked : askedState d = .lit := by rw [askedState, hop]; rfl
  have hlive : (domOf s x).state ≠ .dark ∧ (domOf s x).state ≠ .held := by
    rcases hst with h | ⟨h, -⟩
    · rw [h]; decide
    · rw [h]; decide
  have hstands : asStands d (domOf s x) = false := by
    rcases hst with h | ⟨-, h⟩
    · exact not_asStands_of_state (by rw [h, hasked]; decide)
    · refine not_asStands_of_ph ?_
      rcases h with h | h
      · rw [h]; decide
      · rw [h]; decide
  obtain ⟨u, attempt, hu, hS⟩ := stateMoved_light hx s d (by rw [hasked]; decide) hstands hlive.2 hh
  have hust : (domOf u x).state = (domOf s x).state := congrArg Shown.state hS
  have huph : (domOf u x).tr.ph = (domOf s x).tr.ph := congrArg (fun S : Shown => S.tr.ph) hS
  rw [hu, hasked, lightFrom_lift attempt (hust ▸ hlive.1) ((congrArg Shown.soft hS).trans hsoft) (huph ▸ hph)
    (by rw [hust, huph]; exact hst.imp_right And.right)]
  obtain ⟨tr, htr, hE⟩ := shown_startLift hx u
  exact ⟨congrArg Shown.state hE, (congrArg (fun S : Shown => S.tr.ph) hE).trans htr⟩

end

theorem stateMoved_stands (h : (opB d 16 = 2 ∧ (domOf s x).state = .lit) ∨ (opB d 16 = 1 ∧ (domOf s x).state = .shade))
    (hph : (domOf s x).tr.ph = .idle) : (domOf (stateMoved s d x) x).state = (domOf s x).state ∧ (domOf (stateMoved s d x) x).tr = (domOf s x).tr := by
  have hop : opB d 16 = 1 ∨ opB d 16 = 2 := h.symm.imp And.left And.left
  have hst : (domOf s x).state = askedState d := by
    rcases h with ⟨hb, hst⟩ | ⟨hb, hst⟩
    · rw [hst, askedState, hb]; rfl
    · rw [hst, askedState, hb]; rfl
  have hb := shown_stateBegun hx s d
  rw [stateMoved, if_neg (asked_ne_dark hop), if_pos (by rw [asStands, hst, hph]; simp)]
  exact ⟨congrArg Shown.state hb, congrArg Shown.tr hb⟩

/-- The command for one domain. -/
theorem stateDone_stateMoved : StateDone d (shown (domOf s x)) (shown (domOf (stateMoved s d x) x)) (LocksSet (stateMoved s d x)) where
  latch := latch_stateMoved hx s d
  dark := stateMoved_dark hx s d
  start hop hst hh := askedState_light hop ▸ stateMoved_start hx s d hop hst hh
  restart hop hst hheld hh hsoft := askedState_light hop ▸ stateMoved_restart hx s d hop hst hheld hh hsoft
  descend hop hst hh hsoft hph := stateMoved_descend hx s d hh hsoft hph hop hst
  lift hop hst hh hsoft hph := stateMoved_lift hx s d hh hsoft hph hop hst
  stands := stateMoved_stands hx s d

theorem stateDone_applyState : StateDone d (shown (domOf s x)) (shown (domOf (applyState s d x).1 x)) (LocksSet (applyState s d x).1) := by
  rw [(keeps_applyState s d x).1 x]
  exact (stateDone_stateMoved hx s d).mono ((keeps_applyState s d x).leaderStep x).locksSet

end

/-! ### The pass over the named domains -/

/-- What a pass over leaders keeps. -/
structure Passed (s v : State) : Prop where
  fixed : v.cfg = s.cfg ∧ v.char = s.char
  locks : LocksSet s → LocksSet v
  pairs : ∀ e, (domOf v e).pair = (domOf s e).pair

theorem Passed.refl (s : State) : Passed s s := ⟨⟨rfl, rfl⟩, id, fun _ => rfl⟩

theorem Passed.step {s v u : State} {x : Nat} (h : Passed s v) (k : LeaderStep x v u) : Passed s u :=
  ⟨⟨k.fixed.1.trans h.fixed.1, k.fixed.2.trans h.fixed.2⟩, fun hs => k.locksSet (h.locks hs), fun e => (k.pairs e).trans (h.pairs e)⟩

/-- Every even member's next site is an odd one. -/
def Paired (s : State) : Prop := ∀ x : Dom, isEven s x = true → isOdd s (x + 1) = true

/-- A domain that is no odd member is reached from its own leader alone. -/
theorem not_mem_membersOf_of_paired {s : State} (hp : Paired s) {x y : Nat} (hx : isOdd s x = false) (hne : x ≠ y) : x ∉ membersOf s y := by
  unfold membersOf
  split
  · rename_i he
    rw [List.mem_cons, List.mem_singleton, not_or]
    refine ⟨hne, fun h => ?_⟩
    have hy : y < 80 := by
      by_contra hge
      rw [isEven, domOf_ge s (Nat.not_lt.mp hge)] at he
      cases he
    have hodd := hp ⟨y, hy⟩ he
    rw [← show x = y + 1 from h, hx] at hodd
    cases hodd
  · rw [List.mem_singleton]
    exact hne

/-- DOM_STATE of one logical domain. -/
def stateOne (d : Desc) (s : State) (l : Nat) : State := (applyState s d (physOf s l)).1

theorem Passed.stateOne {s v : State} (h : Passed s v) (d : Desc) (l : Nat) : Passed s (stateOne d v l) := h.step (leaderStep_applyState v d _)

theorem passed_foldl_stateOne (d : Desc) (l : List Nat) (s : State) : Passed s (l.foldl (stateOne d) s) :=
  foldl_inv (I := Passed s) (fun _ m hv => hv.stateOne d m) l (.refl s)

section
variable {s : State} {d : Desc} (hn : Named s) (hp : Paired s) {l : List Nat} (hl : l.Nodup) (hlt : ∀ m ∈ l, m < 80)
include hn hp hl hlt

/-- Each named domain changes once. -/
theorem stateDone_foldl {m : Nat} (hm : m ∈ l) (hodd : isOdd s (physOf s m) = false) :
    StateDone d (shown (domOf s (physOf s m))) (shown (domOf (l.foldl (stateOne d) s) (physOf s m))) (LocksSet (l.foldl (stateOne d) s)) := by
  have hx : physOf s m < 80 := physOf_lt (hlt m hm)
  have hother (v : State) (e : Nat) (hv : Passed s v) (hne : physOf s e ≠ physOf s m) :
      shown (domOf (stateOne d v e) (physOf s m)) = shown (domOf v (physOf s m)) := by
    refine (leaderStep_applyState v d (physOf v e)).rest _ ?_
    rw [physOf_congr hv.fixed.2, membersOf_congr (hv.pairs _)]
    exact not_mem_membersOf_of_paired hp hodd hne.symm
  obtain ⟨v, l2, hv, hold, hfold, hne⟩ := foldl_key_split (I := Passed s) (P := fun v => shown (domOf v (physOf s m))) (κ := physOf s) (a := m)
    (g := stateOne d) (fun _ e hv => hv.stateOne d e) hother (nodup_map_physOf hn hl) hm (.refl s)
  have hdone : StateDone d (shown (domOf v (physOf s m))) (shown (domOf (stateOne d v m) (physOf s m))) (LocksSet (stateOne d v m)) := by
    rw [stateOne, physOf_congr hv.fixed.2]
    exact stateDone_applyState hx v d
  have hkept : shown (domOf (l2.foldl (stateOne d) (stateOne d v m)) (physOf s m)) = shown (domOf (stateOne d v m) (physOf s m)) :=
    foldl_key_kept (I := Passed s) (P := fun v => shown (domOf v (physOf s m))) (κ := physOf s) (fun _ e hv => hv.stateOne d e) hother hne
      (hv.stateOne d m)
  rw [hold] at hdone
  rw [hfold, hkept]
  exact hdone.mono (passed_foldl_stateOne d l2 _).locks

end

/-! ### The command -/

theorem onEach_fst (s : State) (l : List Nat) (f : State → Nat → State × Nat) : (onEach s l f).1 = l.foldl (fun s l => (f s l).1) s :=
  foldl_fst (fun _ _ => rfl) l (s, none)

theorem onEach_singleton_snd (s : State) (l : Nat) (f : State → Nat → State × Nat) : (onEach s [l] f).2 = (f s l).2 := rfl

theorem applyEffect_domState {c : Cmd} {d : Desc} (hd : c.d = d) (t : Nat) (q : Latch) (v : State) (hop : c.op = 0x10) :
    applyEffect t q v c = onEach v (presentOf v 0x10 d) (fun s l => applyState s d (physOf s l)) := by
  unfold applyEffect
  rw [hop, hd]
  rfl

theorem bitAt_latch (a b : Bool) (n : Nat) : bitAt ((n == 1) && a && !b) 3 = if n = 1 ∧ a = true ∧ b = false then 8 else 0 := by
  rw [bitAt]
  by_cases h : n = 1 ∧ a = true ∧ b = false
  · obtain ⟨rfl, rfl, rfl⟩ := h
    rfl
  · rw [if_neg h, if_neg]
    simpa [and_assoc] using h

theorem domState_commits {c : Cmd} {d : Desc} (hd : c.d = d) (hop : c.op = 0x10) : Commit c (fun v w r => w.cfg = v.cfg ∧
    (∀ l, presentOf v 0x10 d = [l] → r = stateCode (domOf v (physOf v l)).state + (if opB d 17 % 2 = 1 ∧
      (domOf v (physOf v l)).latched = true ∧ (domOf v (physOf v l)).marks.latch = false then 8 else 0)) ∧
    (Named v → Paired v → ∀ l ∈ presentOf v 0x10 d, isOdd v (physOf v l) = false →
      StateDone d (shown (domOf v (physOf v l))) (shown (domOf w (physOf v l))) (LocksSet w))) := by
  intro q v
  rw [applyEffect_domState hd c.shutter q v hop, onEach_fst]
  refine ⟨(passed_foldl_stateOne d _ v).fixed.1, fun l hl => ?_, fun hn hp l hl hodd =>
    stateDone_foldl hn hp presentOf_nodup (fun _ => lt_of_mem_presentOf) hl hodd⟩
  rw [hl, onEach_singleton_snd, applyState_eq]
  exact congrArg (stateCode (domOf v (physOf v l)).state + ·) (bitAt_latch ..)

end Sys2Proof.Laws
end

section
/-! DOM_PAIR and DOM_UNPAIR at their commit (R125, R128, R329). -/

namespace Sys2Proof.Laws
open Sys2Proof Sys2Proof.Machine
set_option Elab.async false

/-! ### Roles -/

/-- The role and the state of a domain. -/
def role (D : Domain) : PairRole × DState := (D.pair, D.state)

theorem keeps_unparkAll {β : Type} {m : Domain → β} (h : ∀ D c, m { D with cells := c } = m D) (s : State) (d : Nat) : Keeps m s (unparkAll s d) :=
  keeps_foldl (fun v x => by
    extract_lets c
    exact keeps_of_ite (keeps_setDom v x.1 _ fun D => h D _) (.refl v)) _ s

theorem keeps_cancelFor (s : State) (p : Loan → Bool) : Keeps role s (cancelFor s p) := by
  unfold cancelFor
  extract_lets gone s1 s2
  have h2 : Keeps role s s2 := (keeps_setArbChip s _).trans (keeps_foldl (fun s x => keeps_setArb (fun _ _ => rfl) s x.borrower _) gone s1)
  clear_value s2
  refine h2.trans (keeps_foldl (fun s x => ?_) gone s2)
  extract_lets a
  exact keeps_of_ite ((keeps_setArb (fun _ _ => rfl) s _ _).trans (keeps_setDom _ _ _)) (.refl s)

theorem keeps_setDoms {β : Type} {m : Domain → β} (s : State) (f : Nat → Domain → Domain) (h : ∀ d D, m (f d D) = m D) : Keeps m s (setDoms s f) :=
  ⟨(sameView_setDoms s f h).1, by simp only [outer, setDoms]⟩

theorem keeps_setStops (s : State) (x : Nat) (f : Droop → Droop) : Keeps role s (setStops s x f) :=
  (keeps_setMembers s x _).trans (keeps_driveThr (fun _ _ _ => rfl) _ x)

theorem keeps_pairFreq (s : State) (x : Nat) (lit : Bool) : Keeps role s (pairFreq s x lit) := keeps_setMembers s x _

theorem keeps_roleAbort (s : State) (x : Nat) : Keeps role s (parkAbort s x) := keeps_setMembers s x _

theorem keeps_supAgain (s : State) (x : Nat) : Keeps role s (supAgain s x) := keeps_of_ite (keeps_setDom s x _) (.refl s)

/-- Nothing but the roles and states of two neighbours changes, as far as roles and the record go. -/
structure NeighboursOnly (x : Nat) (s u : State) : Prop where
  char : u.char = s.char
  rest : ∀ e, e ≠ x → e ≠ x + 1 → role (domOf u e) = role (domOf s e)

/-- Roles and record are as they were. -/
def RolesKept (s u : State) : Prop := (∀ e, role (domOf u e) = role (domOf s e)) ∧ u.char = s.char

theorem RolesKept.trans {s u v : State} (h : RolesKept s u) (k : RolesKept u v) : RolesKept s v := ⟨fun e => (k.1 e).trans (h.1 e), k.2.trans h.2⟩

theorem Keeps.cfg_char {β : Type} {m : Domain → β} {s u : State} (h : Keeps m s u) : u.cfg = s.cfg ∧ u.char = s.char := by
  obtain ⟨hcfg, hchar, -⟩ : u.cfg = s.cfg ∧ u.char = s.char ∧ _ := by simpa [outer] using h.2
  exact ⟨hcfg, hchar⟩

theorem Keeps.roles {s u : State} (h : Keeps role s u) : RolesKept s u := ⟨h.1, h.cfg_char.2⟩

/-- The state after a change of two neighbours. -/
def setNeighbours (s : State) (x : Nat) (F G : Domain → Domain) : State := setDom (setDom s x F) (x + 1) G

section
variable {s a u : State} {x : Nat} {F G : Domain → Domain} (hu : RolesKept (setNeighbours a x F G) u)
include hu

theorem neighboursOnly_of (ha : RolesKept s a) : NeighboursOnly x s u := by
  refine ⟨hu.2.trans ha.2, fun e h0 h1 => ?_⟩
  rw [hu.1, setNeighbours, domOf_setDom_ne _ _ h1.symm, domOf_setDom_ne _ _ h0.symm, ha.1]

theorem roles_of_neighbours (hx : x + 1 < 80) : role (domOf u x) = role (F (domOf a x)) ∧ role (domOf u (x + 1)) = role (G (domOf a (x + 1))) := by
  rw [hu.1, hu.1, setNeighbours, domOf_setDom_ne _ _ (Nat.succ_ne_self x), domOf_setDom_same _ _ (Nat.lt_of_succ_lt hx), domOf_setDom_same _ _ hx,
    domOf_setDom_ne _ _ (Nat.succ_ne_self x).symm]
  exact ⟨rfl, rfl⟩

end

/-! ### Joining and separating -/

/-- A pairing changes the two members' roles, and else no role, configuration or record. -/
theorem applyPair_parts (s : State) (x : Nat) : ∃ a F G, Keeps role s a ∧ (∀ D, (F D).pair = .even) ∧ (∀ D, (G D).pair = .odd) ∧
    Keeps role (setNeighbours a x F G) (applyPair s x).1 := by
  unfold applyPair
  extract_lets a t lit s0 ga gb g en s1 s2 r s3 s4 s5
  have h1 : Keeps role s s1 := (keeps_cancelFor s _).trans ((keeps_unparkAll (fun _ _ => rfl) s0 x).trans (keeps_unparkAll (fun _ _ => rfl) _ (x + 1)))
  have h5 : Keeps role s3 s5 := (keeps_setMembers s3 x _).trans ((keeps_setStops s4 x _).trans (keeps_pairFreq _ x lit))
  refine ⟨s1, _, _, h1, fun _ => rfl, fun _ => rfl, h5.trans ?_⟩
  exact (keeps_sieveAlter s5 x).trans ((keeps_sieveAlter _ (x + 1)).trans (keeps_roleAbort _ x))

/-- A separation changes the two members' roles, and else no role or record; the odd member takes the even one's state. -/
theorem applyUnpair_parts (s : State) (x : Nat) : ∃ a F G, RolesKept s a ∧ (∀ D, role (F D) = (.none, D.state)) ∧
    (∀ D, role (G D) = (.none, (domOf s x).state)) ∧ RolesKept (setNeighbours a x F G) (applyUnpair s x).1 := by
  unfold applyUnpair
  extract_lets a lit lx ly s0 g gl zero s1 r s2 s3 s3' s4
  have h0 : Keeps role s s0 := (keeps_cancelFor s _).trans (keeps_unparkAll (fun _ _ => rfl) _ x)
  have h3 : RolesKept s2 s3 := by
    dsimp only [s3]
    split
    · exact ⟨fun _ => rfl, rfl⟩
    · exact ⟨fun _ => rfl, rfl⟩
  have h3' : Keeps role s3 s3' := (keeps_setDoms s3 _ fun y D => by split <;> rfl).trans (keeps_driveThr (fun _ _ _ => rfl) _ (x + 1))
  have h4 : Keeps role s3' s4 := keeps_of_ite ((keeps_supAgain s3' x).trans (keeps_setDom _ (x + 1) _)) (.refl s3')
  refine ⟨s0, _, _, h0.roles, fun _ => rfl, fun _ => rfl, h3.trans (Keeps.roles (h3'.trans (h4.trans ?_)))⟩
  exact (keeps_sieveAlter s4 x).trans ((keeps_roleAbort _ x).trans (keeps_roleAbort _ (x + 1)))

theorem neighboursOnly_applyPair (s : State) (x : Nat) : NeighboursOnly x s (applyPair s x).1 := by
  obtain ⟨a, F, G, ha, -, -, hu⟩ := applyPair_parts s x
  exact neighboursOnly_of hu.roles ha.roles

theorem cfg_applyPair (s : State) (x : Nat) : (applyPair s x).1.cfg = s.cfg := by
  obtain ⟨a, F, G, ha, -, -, hu⟩ := applyPair_parts s x
  have hmid : (setNeighbours a x F G).cfg = a.cfg := rfl
  exact hu.cfg_char.1.trans (hmid.trans ha.cfg_char.1)

/-- The members of a pair that joins. -/
theorem pair_applyPair (s : State) {x : Nat} (hx : x + 1 < 80) :
    (domOf (applyPair s x).1 x).pair = .even ∧ (domOf (applyPair s x).1 (x + 1)).pair = .odd := by
  obtain ⟨a, F, G, -, hF, hG, hu⟩ := applyPair_parts s x
  obtain ⟨h0, h1⟩ := roles_of_neighbours hu.roles hx
  exact ⟨(congrArg Prod.fst h0).trans (hF _), (congrArg Prod.fst h1).trans (hG _)⟩

theorem neighboursOnly_applyUnpair (s : State) (x : Nat) : NeighboursOnly x s (applyUnpair s x).1 := by
  obtain ⟨a, F, G, ha, -, -, hu⟩ := applyUnpair_parts s x
  exact neighboursOnly_of hu ha

/-- The members of a pair that separates. -/
theorem pair_applyUnpair (s : State) {x : Nat} (hx : x + 1 < 80) : (domOf (applyUnpair s x).1 x).pair = .none ∧
    (domOf (applyUnpair s x).1 (x + 1)).pair = .none ∧ (domOf (applyUnpair s x).1 (x + 1)).state = (domOf s x).state := by
  obtain ⟨a, F, G, -, hF, hG, hu⟩ := applyUnpair_parts s x
  obtain ⟨h0, h1⟩ := roles_of_neighbours hu hx
  rw [hF] at h0
  rw [hG] at h1
  exact ⟨congrArg Prod.fst h0, congrArg Prod.fst h1, congrArg Prod.snd h1⟩

/-! ### The pass over the named pairs -/

/-- A pass over distinct things meets each of them with its part as it was, where no other one of the pass changes that part. -/
theorem foldl_meets {σ α β : Type} {g : σ → α → σ} {I : σ → Prop} {P : σ → β} {a : α} (hI : ∀ v e, I v → I (g v e)) {l : List α} (hl : l.Nodup)
    (ha : a ∈ l) (hP : ∀ v, ∀ e ∈ l, e ≠ a → I v → P (g v e) = P v) {s : σ} (hs : I s) : ∃ v, I v ∧ P v = P s ∧ P (l.foldl g s) = P (g v a) := by
  have hkept (k : List α) (hk : ∀ e ∈ k, e ∈ l ∧ e ≠ a) (v : σ) (hv : I v) : I (k.foldl g v) ∧ P (k.foldl g v) = P v :=
    List.foldlRecOn (motive := fun w => I w ∧ P w = P v) k g ⟨hv, rfl⟩ fun w hw e he =>
      ⟨hI w e hw.1, (hP w e (hk e he).1 (hk e he).2 hw.1).trans hw.2⟩
  obtain ⟨l1, l2, rfl⟩ := List.append_of_mem ha
  obtain ⟨-, h2, h12⟩ := List.nodup_append.mp hl
  have h1 := hkept l1 (fun e he => ⟨List.mem_append_left _ he, h12 e he a List.mem_cons_self⟩) s hs
  refine ⟨l1.foldl g s, h1.1, h1.2, ?_⟩
  rw [List.foldl_append, List.foldl_cons]
  exact (hkept l2 (fun e he => ⟨List.mem_append_right _ (List.mem_cons_of_mem a he), fun h => (List.nodup_cons.mp h2).1 (h ▸ he)⟩) _
    (hI _ a h1.1)).2

/-- The roles and states of two neighbours. -/
def roles (x : Nat) (s : State) : (PairRole × DState) × (PairRole × DState) := (role (domOf s x), role (domOf s (x + 1)))

section
variable {g : State → Nat → State} (hg : ∀ v y, NeighboursOnly y v (g v y)) {s : State} (hn : Named s) {l : List Nat} (hl : l.Nodup) {m : Nat} (hm : m ∈ l)
  (halone : ∀ k ∈ l, physOf s k + 1 ≠ physOf s m ∧ physOf s k ≠ physOf s m + 1)
include hg hn hl hm halone

/-- Each pair that no other named one touches is met as it was. -/
theorem roles_foldl_pairs : ∃ v, roles (physOf s m) v = roles (physOf s m) s ∧
    roles (physOf s m) (l.foldl (fun s l => g s (physOf s l)) s) = roles (physOf s m) (g v (physOf s m)) := by
  have hother (v : State) (e : Nat) (he : e ∈ l) (hne : e ≠ m) (hv : v.char = s.char) :
      roles (physOf s m) (g v (physOf v e)) = roles (physOf s m) v := by
    obtain ⟨hbelow, habove⟩ := halone e he
    have hxy : physOf s m ≠ physOf s e := fun h => hne (hn.physOf_inj h.symm)
    rw [physOf_congr hv, roles, (hg v _).rest _ hxy hbelow.symm, (hg v _).rest _ habove.symm (fun h => hxy (Nat.succ.inj h))]
    rfl
  obtain ⟨v, hv, hold, hnew⟩ := foldl_meets (I := fun v : State => v.char = s.char) (P := roles (physOf s m)) (g := fun s l => g s (physOf s l)) (a := m)
    (fun v e hv => (hg v _).char.trans hv) hl hm hother (s := s) rfl
  exact ⟨v, hold, hnew.trans (by rw [physOf_congr hv])⟩

end

section
variable {c : Cmd} {d : Desc} (hd : c.d = d) (t : Nat) (q : Latch) (v : State)
include hd

theorem applyEffect_domPair (hop : c.op = 0x14) :
    applyEffect t q v c = onEach v (presentOf v 0x14 d) (fun s l => applyPair s (physOf s l)) := by
  unfold applyEffect
  rw [hop, hd]
  rfl

theorem applyEffect_domUnpair (hop : c.op = 0x15) :
    applyEffect t q v c = onEach v (presentOf v 0x15 d) (fun s l => applyUnpair s (physOf s l)) := by
  unfold applyEffect
  rw [hop, hd]
  rfl

end

/-- No other named domain is a neighbour. -/
def Alone (d : Desc) (v : State) (op x : Nat) : Prop := ∀ m ∈ presentOf v op d, physOf v m + 1 ≠ x ∧ physOf v m ≠ x + 1

theorem domPair_commits {c : Cmd} {d : Desc} (hd : c.d = d) (hop : c.op = 0x14) : Commit c (fun v w _ => Named v → w.cfg = v.cfg ∧
    ∀ l ∈ presentOf v 0x14 d, physOf v l + 1 < 64 → Alone d v 0x14 (physOf v l) →
      (domOf w (physOf v l)).pair = .even ∧ (domOf w (physOf v l + 1)).pair = .odd) := by
  intro q v hn
  rw [applyEffect_domPair hd c.shutter q v hop, onEach_fst]
  refine ⟨foldl_inv (I := fun w : State => w.cfg = v.cfg) (fun w l hw => (cfg_applyPair w _).trans hw) _ rfl, fun l hl hx halone => ?_⟩
  obtain ⟨u, -, hnew⟩ := roles_foldl_pairs neighboursOnly_applyPair hn presentOf_nodup hl halone
  obtain ⟨h0, h1⟩ := Prod.mk.inj hnew
  obtain ⟨heven, hodd⟩ := pair_applyPair u (x := physOf v l) (by omega)
  exact ⟨(congrArg Prod.fst h0).trans heven, (congrArg Prod.fst h1).trans hodd⟩

theorem domUnpair_commits {c : Cmd} {d : Desc} (hd : c.d = d) (hop : c.op = 0x15) : Commit c (fun v w _ => Named v →
    ∀ l ∈ presentOf v 0x15 d, physOf v l + 1 < 64 → Alone d v 0x15 (physOf v l) → (domOf w (physOf v l)).pair = .none ∧
      (domOf w (physOf v l + 1)).pair = .none ∧ (domOf w (physOf v l + 1)).state = (domOf v (physOf v l)).state) := by
  intro q v hn l hl hx halone
  rw [applyEffect_domUnpair hd c.shutter q v hop, onEach_fst]
  obtain ⟨u, hold, hnew⟩ := roles_foldl_pairs neighboursOnly_applyUnpair hn presentOf_nodup hl halone
  obtain ⟨h0, h1⟩ := Prod.mk.inj hnew
  obtain ⟨hfree, hnext, hstate⟩ := pair_applyUnpair u (x := physOf v l) (by omega)
  exact ⟨(congrArg Prod.fst h0).trans hfree, (congrArg Prod.fst h1).trans hnext, ((congrArg Prod.snd h1).trans hstate).trans
    (congrArg (fun r => r.1.2) hold)⟩

end Sys2Proof.Laws
end

section
/-! DOM_CELLMAP at its commit (R84, R95, R333). -/

namespace Sys2Proof.Laws
open Sys2Proof Sys2Proof.Machine
set_option Elab.async false

/-! ### The cells of a leader -/

/-- The cells of a leader, numbered as the mask numbers them. -/
def leaderCells (s : State) (x : Nat) : List (Nat × Nat) := (membersOf s x).flatMap (fun y => (List.range (nCells y)).map (fun k => (y, k)))

theorem leaderCells_single {s : State} {x : Nat} (h : isEven s x = false) : leaderCells s x = (List.range (nCells x)).map (fun k => (x, k)) := by
  simp [leaderCells, membersOf, h]

theorem leaderCells_pair {s : State} {x : Nat} (h : isEven s x = true) : leaderCells s x =
    (List.range (nCells x)).map (fun k => (x, k)) ++ (List.range (nCells (x + 1))).map (fun k => (x + 1, k)) := by
  simp [leaderCells, membersOf, h]

theorem nodup_cells (x n : Nat) : ((List.range n).map (fun k => (x, k))).Nodup := List.nodup_range.map fun _ _ h => (Prod.mk.inj h).2

theorem nodup_leaderCells (s : State) (x : Nat) : (leaderCells s x).Nodup := by
  cases h : isEven s x with
  | false =>
    rw [leaderCells_single h]
    exact nodup_cells ..
  | true =>
    rw [leaderCells_pair h]
    refine List.nodup_append.mpr ⟨nodup_cells .., nodup_cells .., ?_⟩
    intro a ha b hb hab
    obtain ⟨j, -, rfl⟩ := List.mem_map.mp ha
    obtain ⟨k, -, rfl⟩ := List.mem_map.mp hb
    exact Nat.succ_ne_self x (Prod.mk.inj hab).1.symm

theorem member_of_leaderCells {s : State} {x : Nat} {y : Nat × Nat} (h : y ∈ leaderCells s x) : y.1 ∈ membersOf s x := by
  obtain ⟨e, he, hk⟩ := List.mem_flatMap.mp h
  obtain ⟨k, -, rfl⟩ := List.mem_map.mp hk
  exact he

theorem getElem?_cells (x : Nat) {n k : Nat} (hk : k < n) : ((List.range n).map (fun k => (x, k)))[k]? = some (x, k) := by
  rw [List.getElem?_map, List.getElem?_range hk]
  rfl

/-- Cell k of member i stands at place `nCells x * i + k`. -/
theorem mem_zipIdx_leaderCells {s : State} {x i k : Nat} (hi : i < (if isEven s x then 2 else 1)) (hx : i = 0 ∨ x + 1 < 64) (hk : k < nCells x) :
    ((x + i, k), nCells x * i + k) ∈ (leaderCells s x).zipIdx := by
  rw [List.mem_zipIdx_iff_getElem?]
  have hfirst : (leaderCells s x)[k]? = some (x, k) := by
    cases h : isEven s x with
    | false => rw [leaderCells_single h, getElem?_cells x hk]
    | true =>
      rw [leaderCells_pair h, List.getElem?_append_left (by simpa using hk), getElem?_cells x hk]
  by_cases h0 : i = 0
  · subst h0
    simpa using hfirst
  · cases h : isEven s x with
    | false =>
      rw [h] at hi
      exact absurd (Nat.lt_one_iff.mp hi) h0
    | true =>
      have h1 : i = 1 := by
        rw [h, if_pos rfl] at hi
        omega
      have hlt := hx.resolve_left h0
      have hn : nCells (x + 1) = nCells x := by rw [nCells, nCells, if_pos hlt, if_pos (by omega)]
      subst h1
      rw [leaderCells_pair h, Nat.mul_one, List.getElem?_append_right (by simp)]
      simpa using getElem?_cells (x + 1) (hn ▸ hk)

theorem nCells_le (x : Nat) : nCells x ≤ 14 := by
  unfold nCells
  split <;> decide

/-! ### One cell -/

theorem domOf_setCellAt_ne (s : State) {y : Nat × Nat} {e : Nat} (f : Cell → Cell) (h : y.1 ≠ e) : domOf (setCellAt s y f) e = domOf s e :=
  domOf_setDom_ne s _ h

theorem cellAt_setCellAt_same (s : State) {y : Nat × Nat} (f : Cell → Cell) (hy : y.1 < 80) (hk : y.2 < 14) :
    cellAt (setCellAt s y f) y = f (cellAt s y) := by
  rw [cellAt, setCellAt, domOf_setDom_same _ _ hy, cellOf_setCell_same _ _ hk]
  rfl

theorem cellAt_setCellAt_ne (s : State) {y z : Nat × Nat} (f : Cell → Cell) (h : y ≠ z) : cellAt (setCellAt s y f) z = cellAt s z := by
  by_cases h1 : y.1 = z.1
  · have h2 : y.2 ≠ z.2 := fun h2 => h (Prod.ext h1 h2)
    rw [cellAt, cellAt, setCellAt, ← h1]
    by_cases hy : y.1 < 80
    · rw [domOf_setDom_same _ _ hy, cellOf_setCell_ne _ _ h2]
    · rw [domOf_ge _ (Nat.not_lt.mp hy), domOf_ge _ (Nat.not_lt.mp hy)]
  · rw [cellAt, cellAt, domOf_setCellAt_ne s f h1]

/-- What the mask does to one cell. -/
def mapOne (d : Desc) (s : State) (e : (Nat × Nat) × Nat) : State :=
  if (maskOf d).testBit e.2 && !justMarked s (opB d 20) e.1 then setCellAt s e.1 (mapCell (opB d 20) (weightOf d e.2)) else s

/-- A cell after the command, from its place under the mask and the marks of the shutter. -/
def cellMapped (d : Desc) (n k : Nat) (m : IntMarks) (C : Cell) : Cell :=
  if (maskOf d).testBit n && !((opB d 20 == 2 && m.outs.contains k) || (opB d 20 == 3 && m.cracks.contains k)) then
    mapCell (opB d 20) (weightOf d n) C else C

theorem cellAt_mapOne_same (d : Desc) (s : State) {y : Nat × Nat} (n : Nat) (hy : y.1 < 80) (hk : y.2 < 14) :
    cellAt (mapOne d s (y, n)) y = cellMapped d n y.2 (domOf s y.1).marks (cellAt s y) := by
  by_cases h : ((maskOf d).testBit n && !justMarked s (opB d 20) y) = true
  · rw [show mapOne d s (y, n) = _ from if_pos h, cellAt_setCellAt_same s _ hy hk]
    exact (if_pos h).symm
  · rw [show mapOne d s (y, n) = s from if_neg h]
    exact (if_neg h).symm

theorem cellAt_mapOne_ne (d : Desc) (s : State) {e : (Nat × Nat) × Nat} {z : Nat × Nat} (h : e.1 ≠ z) : cellAt (mapOne d s e) z = cellAt s z := by
  unfold mapOne
  split
  · exact cellAt_setCellAt_ne s _ h
  · rfl

theorem keeps_mapOne (d : Desc) (s : State) (e : (Nat × Nat) × Nat) : Keeps Domain.marks s (mapOne d s e) :=
  keeps_of_ite (keeps_setDom s e.1.1 _) (.refl s)

/-- The cells of a leader under the mask. -/
def mapCells (d : Desc) (s : State) (x : Nat) : State := (leaderCells s x).zipIdx.foldl (mapOne d) s

theorem cellAt_mapCells (d : Desc) (s : State) {x i k : Nat} (hi : i < (if isEven s x then 2 else 1)) (hx : i = 0 ∨ x + 1 < 64) (hk : k < nCells x)
    (hlt : x + i < 80) : cellAt (mapCells d s x) (x + i, k) = cellMapped d (nCells x * i + k) k (domOf s (x + i)).marks (cellAt s (x + i, k)) := by
  have hk' : k < 14 := Nat.lt_of_lt_of_le hk (nCells_le x)
  obtain ⟨v, hv, hold, hnew⟩ := foldl_key_at (I := Keeps Domain.marks s) (P := fun v => cellAt v (x + i, k)) (κ := Prod.fst) (g := mapOne d)
    (fun v e hv => hv.trans (keeps_mapOne d v e)) (fun v e _ hne => cellAt_mapOne_ne d v hne) (by rw [List.zipIdx_map_fst]; exact nodup_leaderCells s x)
    (mem_zipIdx_leaderCells hi hx hk) (.refl s)
  rw [mapCells, hnew, cellAt_mapOne_same d v _ hlt hk', hold, hv.1]

/-! ### The command for one leader -/

/-- What DOM_CELLMAP sets of a cell. -/
def cellView (C : Cell) : BitVec 4 × CellSt × Bool := (C.weight, C.st, C.crack)

/-- The same of every cell of a domain. -/
def cellViews (D : Domain) : Vector (BitVec 4 × CellSt × Bool) 14 := D.cells.map cellView

theorem cellView_of_cellViews {D E : Domain} (h : cellViews D = cellViews E) {k : Nat} (hk : k < 14) : cellView (cellOf D k) = cellView (cellOf E k) := by
  have hk' : (cellViews D)[k] = (cellViews E)[k] := by rw [h]
  rw [cellOf, cellOf, vget_lt _ hk, vget_lt _ hk]
  simpa [cellViews] using hk'

theorem cellViews_map (D : Domain) (f : Cell → Cell) (h : ∀ C, cellView (f C) = cellView C) : cellViews { D with cells := D.cells.map f } = cellViews D := by
  rw [cellViews, Vector.map_map]
  exact congrArg (D.cells.map ·) (funext h)

theorem keeps_commitMap (s : State) (x : Nat) : Keeps cellViews s (commitMap s x) := by
  refine keeps_foldl (fun v y => ?_) _ s
  extract_lets waits
  refine keeps_setDom v y _ fun D => ?_
  refine cellViews_map D _ ?_
  exact fun _ => rfl

section
variable (d : Desc) (s : State) (x : Nat)

/-- The cell map changed, and its sequence. -/
def mapCounted : State := if mapView (mapCells d s x) x = mapView s x then mapCells d s x else
  setDom (mapCells d s x) x (fun D => { D with cmSeq := D.cmSeq + 1 })

theorem applyCellmap_fst : (applyCellmap s d x).1 = commitMap (mapCounted d s x) x := rfl

theorem keeps_mapCounted : Keeps cellViews (mapCells d s x) (mapCounted d s x) := keeps_of_ite (.refl _) (keeps_setDom _ x _)

theorem keeps_applyCellmap : Keeps cellViews (mapCells d s x) (applyCellmap s d x).1 := (keeps_mapCounted d s x).trans (keeps_commitMap _ x)

theorem stationStep_mapCells : StationStep s (mapCells d s x) x := by
  refine stationStep_foldl _ s fun v hv e he => stationStep_of_ite (stationStep_setDom v _ ?_ fun _ => rfl) (.refl v x)
  rw [hv.members]
  exact member_of_leaderCells (List.fst_mem_of_mem_zipIdx he)

theorem stationStep_commitMap : StationStep s (commitMap s x) x := by
  refine stationStep_foldl _ s fun v hv y hy => stationStep_setDom v _ ?_ fun _ => rfl
  rw [hv.members]
  exact hy

theorem stationStep_applyCellmap : StationStep s (applyCellmap s d x).1 x := by
  have hseq : StationStep (mapCells d s x) (mapCounted d s x) x :=
    stationStep_of_ite (.refl _ x) (stationStep_setDom _ _ (mem_membersOf_self _ x) fun _ => rfl)
  exact (stationStep_mapCells d s x).trans (hseq.trans (stationStep_commitMap _ x))

end

/-- Each cell of the leader goes where mask and action say. -/
theorem cellView_applyCellmap (d : Desc) (s : State) {x i k : Nat} (hi : i < (if isEven s x then 2 else 1)) (hx : i = 0 ∨ x + 1 < 64) (hk : k < nCells x)
    (hlt : x + i < 80) : cellView (cellOf (domOf (applyCellmap s d x).1 (x + i)) k) =
      cellView (cellMapped d (nCells x * i + k) k (domOf s (x + i)).marks (cellOf (domOf s (x + i)) k)) := by
  rw [cellView_of_cellViews ((keeps_applyCellmap d s x).1 (x + i)) (Nat.lt_of_lt_of_le hk (nCells_le x))]
  exact congrArg cellView (cellAt_mapCells d s hi hx hk hlt)

/-! ### Actions -/

section
variable {d : Desc} {n k : Nat} (m : IntMarks) (C : Cell)

theorem cellMapped_weight (h : opB d 20 = 0) : (cellMapped d n k m C).weight = (if (maskOf d).testBit n then weightOf d n else C.weight) ∧
    (cellMapped d n k m C).st = C.st := by
  unfold cellMapped
  rw [h]
  cases (maskOf d).testBit n with
  | false => exact ⟨rfl, rfl⟩
  | true => exact ⟨rfl, rfl⟩

theorem mapCell_off (w : BitVec 4) : (mapCell 1 w C).st = (if cellWorks C then .offline else C.st) ∧ (mapCell 1 w C).weight = C.weight := by
  rw [show mapCell 1 w C = if cellWorks C then { C with st := .offline, tkSt := .offline, acc := 0, strim := 0 } else C from rfl]
  cases cellWorks C with
  | false => exact ⟨rfl, rfl⟩
  | true => exact ⟨rfl, rfl⟩

theorem cellMapped_off (h : opB d 20 = 1) : (cellMapped d n k m C).st = (if (maskOf d).testBit n && cellWorks C then .offline else C.st) ∧
    (cellMapped d n k m C).weight = C.weight := by
  unfold cellMapped
  rw [h]
  cases (maskOf d).testBit n with
  | false => exact ⟨rfl, rfl⟩
  | true =>
    exact mapCell_off C (weightOf d n)

theorem mapCell_on (w : BitVec 4) : (mapCell 2 w C).st = (if !cellWorks C then .active else C.st) ∧ (mapCell 2 w C).weight = C.weight := by
  rw [show mapCell 2 w C = if cellWorks C then C else
    { C with st := .active, acc := 0, strim := 0, failed := none, underRun := 0, overRun := 0, drvfRun := 0, otRun := 0, silent := 0, ovld := false }
    from rfl]
  cases cellWorks C with
  | false => exact ⟨rfl, rfl⟩
  | true => exact ⟨rfl, rfl⟩

theorem cellMapped_on (h : opB d 20 = 2) : (cellMapped d n k m C).st =
    (if (maskOf d).testBit n && !cellWorks C && !m.outs.contains k then .active else C.st) ∧ (cellMapped d n k m C).weight = C.weight := by
  unfold cellMapped
  rw [h]
  cases (maskOf d).testBit n with
  | false => exact ⟨rfl, rfl⟩
  | true =>
    cases m.outs.contains k with
    | true =>
      rw [Bool.not_true, Bool.and_false]
      exact ⟨rfl, rfl⟩
    | false =>
      rw [Bool.not_false, Bool.and_true]
      exact mapCell_on C (weightOf d n)

theorem cellMapped_uncrack (h : opB d 20 = 3) : (cellMapped d n k m C).crack = (C.crack && !((maskOf d).testBit n && !m.cracks.contains k)) ∧
    (cellMapped d n k m C).st = C.st := by
  unfold cellMapped
  rw [h]
  cases (maskOf d).testBit n with
  | false => exact ⟨(Bool.and_true _).symm, rfl⟩
  | true =>
    cases m.cracks.contains k with
    | true => exact ⟨(Bool.and_true _).symm, rfl⟩
    | false => exact ⟨(Bool.and_false _).symm, rfl⟩

end

/-! ### The pass over the named leaders -/

/-- Two leaders that are no odd members share none. -/
theorem members_disjoint {s : State} (hp : Paired s) {x y z : Nat} (hx : isOdd s x = false) (hy : isOdd s y = false) (hne : x ≠ y) (hz : z ∈ membersOf s x) :
    z ∉ membersOf s y := by
  by_cases h : z = x
  · rw [h]
    exact not_mem_membersOf_of_paired hp hx hne
  · intro hzy
    have hzx : isEven s x = true ∧ z = x + 1 := by
      unfold membersOf at hz
      split at hz
      · rename_i he
        exact ⟨he, by simpa [h] using hz⟩
      · exact absurd (List.mem_singleton.mp hz) h
    have hzodd : isOdd s z = true := by
      rw [hzx.2]
      have hx80 : x < 80 := by
        by_contra hge
        rw [isEven, domOf_ge s (Nat.not_lt.mp hge)] at hzx
        cases hzx.1
      exact hp ⟨x, hx80⟩ hzx.1
    have hzy1 : z = y ∨ z = y + 1 := by
      unfold membersOf at hzy
      split at hzy
      · simpa using hzy
      · exact Or.inl (List.mem_singleton.mp hzy)
    rcases hzy1 with h1 | h1
    · rw [h1, hy] at hzodd
      cases hzodd
    · exact hne (Nat.succ.inj (hzx.2.symm.trans h1))

theorem member_of_index {s : State} {x i : Nat} (hi : i < (if isEven s x then 2 else 1)) : x + i ∈ membersOf s x := by
  unfold membersOf
  split
  · rename_i h
    rw [if_pos h] at hi
    have : i = 0 ∨ i = 1 := by omega
    rcases this with rfl | rfl <;> simp
  · rename_i h
    rw [if_neg h, Nat.lt_one_iff] at hi
    simp [hi]

/-- DOM_CELLMAP of one logical domain. -/
def cellmapOne (d : Desc) (s : State) (l : Nat) : State := (applyCellmap s d (physOf s l)).1

theorem stationsOnly_cellmapOne {s v : State} (h : StationsOnly s v) (d : Desc) (l : Nat) : StationsOnly s (cellmapOne d v l) :=
  h.step (stationStep_applyCellmap d v _)

theorem applyEffect_domCellmap {c : Cmd} {d : Desc} (hd : c.d = d) (t : Nat) (q : Latch) (v : State) (hop : c.op = 0x16) :
    applyEffect t q v c = onEach v (presentOf v 0x16 d) (fun s l => applyCellmap s d (physOf s l)) := by
  unfold applyEffect
  rw [hop, hd]
  rfl

section
variable {s : State} {d : Desc} {op : Nat} (hn : Named s) (hp : Paired s) {l : Nat} (hl : l ∈ presentOf s op d) (hodd : isOdd s (physOf s l) = false)
  {i k : Nat} (hi : i < (if isEven s (physOf s l) then 2 else 1)) (hx : i = 0 ∨ physOf s l + 1 < 64) (hk : k < nCells (physOf s l))
include hn hp hl hodd hi hx hk

/-- Each cell of a named leader is mapped once. -/
theorem cellView_foldl_cellmap : cellView (cellOf (domOf ((presentOf s op d).foldl (cellmapOne d) s) (physOf s l + i)) k) =
    cellView (cellMapped d (nCells (physOf s l) * i + k) k (domOf s (physOf s l + i)).marks (cellOf (domOf s (physOf s l + i)) k)) := by
  have hother (v : State) (e : Nat) (he : e ∈ presentOf s op d) (hne : e ≠ l) (hv : StationsOnly s v) :
      domOf (cellmapOne d v e) (physOf s l + i) = domOf v (physOf s l + i) := by
    refine (stationStep_applyCellmap d v (physOf v e)).rest _ ?_
    rw [physOf_congr hv.1.char, membersOf_congr (hv.2 _)]
    exact members_disjoint hp hodd (not_odd_of_other_target (mem_targetsOf_of_present he) (mem_targetsOf_of_present hl) hne.symm)
      (fun h => hne (hn.physOf_inj h.symm)) (member_of_index hi)
  obtain ⟨v, hv, hold, hnew⟩ := foldl_meets (I := StationsOnly s) (P := fun v => domOf v (physOf s l + i)) (g := cellmapOne d) (a := l)
    (fun v e hv => stationsOnly_cellmapOne hv d e) presentOf_nodup hl hother (stationsOnly_refl s)
  have hlt : physOf s l + i < 80 := by
    have := physOf_lt (s := s) (lt_of_mem_presentOf hl)
    rcases hx with h | h
    · omega
    · have : i < 2 := Nat.lt_of_lt_of_le hi (by split <;> decide)
      omega
  have heven : isEven v (physOf s l) = isEven s (physOf s l) := by rw [isEven, isEven, hv.2]
  rw [hnew, cellmapOne, physOf_congr hv.1.char, cellView_applyCellmap d v (heven ▸ hi) hx hk hlt, hold]

end

theorem domCellmap_commits {c : Cmd} {d : Desc} (hd : c.d = d) (hop : c.op = 0x16) : Commit c (fun v w _ => Named v → Paired v → w.cfg = v.cfg ∧
    ∀ l ∈ presentOf v 0x16 d, isOdd v (physOf v l) = false → ∀ i, i < (if isEven v (physOf v l) then 2 else 1) → (i = 0 ∨ physOf v l + 1 < 64) →
      ∀ k < nCells (physOf v l), cellView (cellOf (domOf w (physOf v l + i)) k) =
        cellView (cellMapped d (nCells (physOf v l) * i + k) k (domOf v (physOf v l + i)).marks (cellOf (domOf v (physOf v l + i)) k))) := by
  intro q v hn hp
  rw [applyEffect_domCellmap hd c.shutter q v hop, onEach_fst]
  exact ⟨(foldl_inv (I := StationsOnly v) (fun w l hw => stationsOnly_cellmapOne hw d l) _ (stationsOnly_refl v)).1.cfg,
    fun l hl hodd i hi hx k hk => cellView_foldl_cellmap hn hp hl hodd hi hx hk⟩

end Sys2Proof.Laws

namespace Sys2Proof.Proofs
open Sys2Proof Sys2Proof.Machine Sys2Proof.Laws
set_option Elab.async false

/-- Settles O51: the four commands are admitted alike (`accepts_of_admits`), and each one's pass over the domains that it names meets each of them
as the others have left it (`stateDone_foldl`, `roles_foldl_pairs`, `cellView_foldl_cellmap`). -/
theorem stateCommands : Obligations.StateCommands := by
  refine fun d s => ⟨fun h => accepts_of_admits h rfl rfl (fun h => absurd h (by decide)) (fun c hd hop q v => ?_) rfl,
    fun h => accepts_of_admits h rfl rfl (fun h => absurd h (by decide)) (fun c hd hop => domPair_commits hd hop) rfl,
    fun h => accepts_of_admits h rfl rfl (fun h => absurd h (by decide)) (fun c hd hop => domUnpair_commits hd hop) rfl,
    fun h => accepts_of_admits h rfl rfl (fun h => absurd h (by decide)) (fun c hd hop q v hn hp => ?_) rfl⟩
  · obtain ⟨hcfg, hresult, hdone⟩ := domState_commits hd hop q v
    refine ⟨hcfg, hresult, fun hn hp l hl hodd => ?_⟩
    obtain ⟨hlatch, hdark, hstart, hrestart, hdescend, hlift, hstands⟩ := hdone hn hp l hl hodd
    exact ⟨hlatch, hdark, hstart, hrestart, hdescend, hlift, hstands⟩
  · obtain ⟨hcfg, hcells⟩ := domCellmap_commits hd hop q v hn hp
    refine ⟨hcfg, fun l hl hodd i hi hx k hk => ?_⟩
    have hview := hcells l hl hodd i hi hx k hk
    obtain ⟨hweight, hrest⟩ := Prod.mk.inj hview
    obtain ⟨hst, hcrack⟩ := Prod.mk.inj hrest
    dsimp only
    rw [hweight, hst, hcrack]
    exact ⟨cellMapped_weight _ _, cellMapped_off _ _, cellMapped_on _ _, cellMapped_uncrack _ _⟩

end Sys2Proof.Proofs
end

section
/-! Cells by their number and at their station: reads after writes, and what the change of one cell leaves (R10, R87 to R107). -/

namespace Sys2Proof.Laws
open Sys2Proof Sys2Proof.Machine
set_option Elab.async false

/-! ### The numbers of cells (R10) -/

theorem cellDom_lt (c : CellNo) : cellDom c < 80 := by
  unfold cellDom
  split <;> omega

theorem cellIdx_lt_nCells (c : CellNo) : cellIdx c < nCells (cellDom c) := by
  unfold cellIdx nCells cellDom
  split <;> split <;> omega

theorem cellIdx_lt (c : CellNo) : cellIdx c < 14 := Nat.lt_of_lt_of_le (cellIdx_lt_nCells c) (nCells_le _)

theorem cellNoOf_cell (c : CellNo) : cellNoOf (cellDom c) (cellIdx c) = c := by
  unfold cellNoOf cellDom cellIdx
  split <;> split <;> omega

/-! ### Changes of a vector's element and of a domain -/

theorem vupd_id {α : Type} {n : Nat} (v : Vector α n) (i : Nat) : vupd v i id = v := by
  unfold vupd
  split
  · exact Vector.set_getElem_self _
  · rfl

theorem setDom_congr {s : State} {d : Nat} {f g : Domain → Domain} (h : f (domOf s d) = g (domOf s d)) : setDom s d f = setDom s d g := by
  rw [setDom, setDom, vupd_congr s.dom d h]

theorem setDom_setDom (s : State) (d : Nat) (f g : Domain → Domain) : setDom (setDom s d f) d g = setDom s d (fun D => g (f D)) := by
  rw [setDom, setDom, setDom, vupd_vupd]

/-! ### One cell -/

section
variable (s : State) (x : Nat × Nat) (f g : Cell → Cell)

theorem setCellAt_setCellAt : setCellAt (setCellAt s x f) x g = setCellAt s x (fun C => g (f C)) := by
  rw [setCellAt, setCellAt, setCellAt, setDom_setDom]
  simp only [setCell, vupd_vupd]

theorem setCellAt_id : setCellAt s x id = s := by
  rw [setCellAt, show (fun D => setCell D x.2 id) = id from funext fun D => by rw [setCell, vupd_id]; rfl, setDom, vupd_id]

theorem pair_setCellAt (d : Nat) : (domOf (setCellAt s x f) d).pair = (domOf s d).pair :=
  (sameView_setDom (m := Domain.pair) s x.1 _).1 d

/-- A change of one cell reaches that cell alone, and none where no cell stands. -/
theorem cellAt_setCellAt_cases (y : Nat × Nat) :
    cellAt (setCellAt s x f) y = cellAt s y ∨ (y = x ∧ cellAt (setCellAt s x f) y = f (cellAt s y)) := by
  by_cases hy : y = x
  · subst hy
    by_cases hd : y.1 < 80
    · by_cases hk : y.2 < 14
      · exact .inr ⟨rfl, cellAt_setCellAt_same s f hd hk⟩
      · refine .inl ?_
        rw [cellAt, setCellAt, domOf_setDom_same _ _ hd, setCell, vupd_ge _ _ (Nat.le_of_not_lt hk)]
        rfl
    · refine .inl ?_
      rw [cellAt, domOf_ge _ (Nat.le_of_not_lt hd), cellAt, domOf_ge _ (Nat.le_of_not_lt hd)]
  · exact .inl (cellAt_setCellAt_ne s f (Ne.symm hy))

end

theorem setCellAt_congr {s : State} {x : Nat × Nat} {f g : Cell → Cell} (h : f (cellAt s x) = g (cellAt s x)) :
    setCellAt s x f = setCellAt s x g :=
  setDom_congr (by rw [setCell, setCell, vupd_congr _ _ h])

theorem setCellAt_of_fixed {s : State} {x : Nat × Nat} {f : Cell → Cell} (h : f (cellAt s x) = cellAt s x) : setCellAt s x f = s :=
  (setCellAt_congr (g := id) h).trans (setCellAt_id s x)

/-- What a change of one cell leaves in that cell, every cell keeps. -/
theorem cellAt_setCellAt_view {β : Type} {m : Cell → β} (s : State) (x : Nat × Nat) {f : Cell → Cell} (h : ∀ C, m (f C) = m C) (y : Nat × Nat) :
    m (cellAt (setCellAt s x f) y) = m (cellAt s y) := by
  rcases cellAt_setCellAt_cases s x f y with hy | ⟨-, hy⟩
  · rw [hy]
  · rw [hy, h]

/-! ### Leaders and their working cells -/

theorem leader_congr {s u : State} {d : Nat} (h : (domOf u d).pair = (domOf s d).pair) : leader u d = leader s d := by
  rw [leader, leader, isOdd, isOdd, h]

/-- The count of a leader's working cells rests on its role and on which cells work. -/
theorem workingOf_congr {s u : State} {d : Nat} (hp : (domOf u d).pair = (domOf s d).pair)
    (hc : ∀ y, cellWorks (cellAt u y) = cellWorks (cellAt s y)) : workingOf u d = workingOf s d := by
  have hx (x : Nat) : workingCells x (domOf u x) = workingCells x (domOf s x) := by
    exact congrArg List.length (List.filter_congr fun k _ => hc (x, k))
  rw [workingOf, workingOf, membersOf_congr hp, List.map_congr_left fun x _ => hx x]

theorem workingOf_setCellAt (s : State) (x : Nat × Nat) {f : Cell → Cell} (h : ∀ C, (f C).st = C.st) (d : Nat) :
    workingOf (setCellAt s x f) d = workingOf s d :=
  workingOf_congr (pair_setCellAt s x f d) (cellAt_setCellAt_view s x fun C => by rw [cellWorks, cellWorks, h])

end Sys2Proof.Laws
end

section
/-! Reports and the overload timer of a cell (R89, R90, R92, R93, R105). -/

namespace Sys2Proof.Laws
open Sys2Proof Sys2Proof.Machine
set_option Elab.async false

/-- A cell whose overload timer is full: OVLD is set and the peak limit is 2.5 A (R89). -/
def overloaded (C : Cell) : Cell := { C with ovld := true, limLow := true }

/-- The report of a cell's overload (R89, R105). -/
def ovldMsg (s : State) (x : Nat × Nat) : FaultMsg :=
  { bits := faultWord 0 0x03 0x7 (leader s x.1) (cellDetail (workingOf s (leader s x.1)) 2 (cellPos s x) (cellNoOf x.1 x.2)) (epochIn s),
    from_ := none, ext := 0 }

theorem reportParityOk_iff (w : Word) : reportParityOk w = true ↔ (List.range 32).countP (fun i => w.getLsbD i) % 2 = 0 := by
  rw [reportParityOk, ← List.countP_eq_length_filter, beq_iff_eq]

section
variable {c : CellNo} {s : State} (ha : isAbsent s (cellDom c) = false) (t : Nat)
include ha

theorem exec_cellReport_good {w : Word} (h : reportParityOk w = true) : exec (.cellReport c w t) s =
    .next (setCellAt (now t s) (cellDom c, cellIdx c) (fun C =>
      { C with rep := w, parFails := 0, autoHold := false, holdRep := true, isoRep := true, ovld := w.getLsbD 28,
               fromCold := C.fromCold && fld w 24 22 != 0, fsw := (waveOf (domOf s (cellDom c)).band).1, dead := (waveOf (domOf s (cellDom c)).band).2,
               drvfRun := if w.getLsbD 25 then C.drvfRun + 1 else 0, otRun := if w.getLsbD 26 then C.otRun + 1 else 0 })) := by
  show execCellReport c w t s = _
  have ha' : ¬isAbsent (now t s) (cellDom c) = true := by rw [isAbsent, domOf_now]; exact Bool.eq_false_iff.mp ha
  rw [execCellReport, if_neg ha', if_pos h]
  rfl

theorem exec_cellReport_bad {w : Word} (h : ¬reportParityOk w = true) : exec (.cellReport c w t) s =
    .next (setCellAt (now t s) (cellDom c, cellIdx c) (fun C => { C with parFails := C.parFails + 1 })) := by
  show execCellReport c w t s = _
  have ha' : ¬isAbsent (now t s) (cellDom c) = true := by rw [isAbsent, domOf_now]; exact Bool.eq_false_iff.mp ha
  rw [execCellReport, if_neg ha', if_neg h]

theorem exec_cellAutonomousHold : exec (.cellAutonomousHold c t) s =
    .next (setCellAt (now t s) (cellDom c, cellIdx c) (fun C => { C with autoHold := true, silent := Nat.max C.silent 4 })) := by
  show execCellAutonomousHold c t s = _
  have ha' : ¬isAbsent (now t s) (cellDom c) = true := by rw [isAbsent, domOf_now]; exact Bool.eq_false_iff.mp ha
  rw [execCellAutonomousHold, if_neg ha']

theorem exec_cellOverload_full (hw : cellWorks (cellAt s (cellDom c, cellIdx c)) = true) (ht : (cellAt s (cellDom c, cellIdx c)).ovTimer = 2000) :
    exec (.cellOverload c t) s =
      .next (reportOvld (setCellAt (now t s) (cellDom c, cellIdx c) overloaded) (cellDom c, cellIdx c)) := by
  show execCellOverload c t s = _
  refine if_neg ?_
  show ¬(isAbsent s (cellDom c) || !cellWorks (cellAt s (cellDom c, cellIdx c)) || (cellAt s (cellDom c, cellIdx c)).ovTimer != 2000) = true
  rw [ha, hw, ht]
  decide

end

theorem exec_cellOverload_idle {c : CellNo} {s : State}
    (h : cellWorks (cellAt s (cellDom c, cellIdx c)) = false ∨ (cellAt s (cellDom c, cellIdx c)).ovTimer ≠ 2000) (t : Nat) :
    exec (.cellOverload c t) s = .next (now t s) := by
  show execCellOverload c t s = _
  refine if_pos ?_
  show (isAbsent s (cellDom c) || !cellWorks (cellAt s (cellDom c, cellIdx c)) || (cellAt s (cellDom c, cellIdx c)).ovTimer != 2000) = true
  rcases h with h | h
  · rw [h, Bool.not_false, Bool.or_true, Bool.true_or]
  · rw [bne_iff_ne.mpr h, Bool.or_true]

theorem exec_overloadTimerClear (c : CellNo) (t : Nat) (s : State) : exec (.overloadTimerClear c t) s =
    .next (setCellAt (now t s) (cellDom c, cellIdx c) (fun C => if C.ovTimer = 0 then { C with ovld := false, limLow := false } else C)) := rfl

section
variable {s : State} {x : Nat × Nat} (hd : x.1 < 80) (hk : x.2 < 14)
include hd hk

/-- A further OVLD of an epoch is not reported. -/
theorem reportOvld_again (h : (cellAt s x).ovldSeen = true) : reportOvld (setCellAt s x overloaded) x = setCellAt s x overloaded :=
  if_pos (by rw [cellAt_setCellAt_same s overloaded hd hk]; exact h)

/-- The first OVLD of an epoch is reported with the working cells and the cell (R89, R105). -/
theorem reportOvld_first (h : (cellAt s x).ovldSeen = false) (hroom : s.safety.queue.length ≤ 768) :
    reportOvld (setCellAt s x overloaded) x = { setCellAt s x (fun C => { overloaded C with ovldSeen := true }) with
      safety := { s.safety with queue := s.safety.queue ++ [ovldMsg s x] } } := by
  have hseen : ¬(cellAt (setCellAt s x overloaded) x).ovldSeen = true := by
    rw [cellAt_setCellAt_same s overloaded hd hk]
    exact Bool.eq_false_iff.mp h
  have hl : leader (setCellAt s x overloaded) x.1 = leader s x.1 := leader_congr (pair_setCellAt ..)
  have hpos : cellPos (setCellAt s x overloaded) x = cellPos s x := by rw [cellPos, isOdd, pair_setCellAt, cellPos, isOdd]
  rw [reportOvld, if_neg hseen]
  extract_lets d
  rw [workingOf_setCellAt s x (f := overloaded) fun _ => rfl, setCellAt_setCellAt, hpos, show d = leader s x.1 from hl]
  exact raise_eq _ _ _ _ _ _ fun _ => hroom

end

end Sys2Proof.Laws

namespace Sys2Proof.Proofs
open Sys2Proof Sys2Proof.Machine Sys2Proof.Laws
set_option Elab.async false

/-- Settles O24: each row changes its one cell, by the outcome of the report or of the timer. -/
theorem cellReportsAndOverload : Obligations.CellReportsAndOverload := by
  refine ⟨fun c w t s ha => ⟨fun h => ?_, fun h => ?_, exec_cellAutonomousHold ha t⟩, fun c t s ha hroom => ?_⟩
  · exact exec_cellReport_good ha t ((reportParityOk_iff w).mpr h)
  · exact exec_cellReport_bad ha t fun hp => by rw [(reportParityOk_iff w).mp hp] at h; exact absurd h (by decide)
  · intro x d
    have hd : x.1 < 80 := cellDom_lt c
    have hk : x.2 < 14 := cellIdx_lt c
    refine ⟨fun hw ht hs => ?_, fun hw ht hs => ?_, fun h => exec_cellOverload_idle h t, fun h => ?_, fun h => ?_⟩
    · refine ⟨_, exec_cellOverload_full ha t hw ht, ?_⟩
      have hfirst := reportOvld_first (s := now t s) hd hk hs hroom
      rw [hfirst, ovldMsg, cellNoOf_cell]
      exact ⟨rfl, rfl⟩
    · rw [exec_cellOverload_full ha t hw ht, reportOvld_again (s := now t s) hd hk hs]
      rfl
    · rw [exec_overloadTimerClear]
      exact congrArg _ (setCellAt_congr (if_pos h))
    · rw [exec_overloadTimerClear]
      exact congrArg _ (setCellAt_of_fixed (if_neg h))

end Sys2Proof.Proofs
end

section
/-! Parking, WARM to COLD, and the derating throttle (R99, R104). -/

namespace Sys2Proof.Laws
open Sys2Proof Sys2Proof.Machine
set_option Elab.async false

/-! ### The frame of a station's row -/

theorem OnlyDoms.time {s u : State} (h : OnlyDoms s u) : u.time = s.time := by rw [h]

theorem OnlyDoms.safety {s u : State} (h : OnlyDoms s u) : u.safety = s.safety := by rw [h]

theorem OnlyDoms.epochIn {s u : State} (h : OnlyDoms s u) : Machine.epochIn u = Machine.epochIn s := by rw [Machine.epochIn, h.time, Machine.epochIn]

/-- A domain outside those that its leader governs is no member of a station. -/
theorem not_mem_membersOf_of_leader {s : State} {d e : Nat} (he : e ≠ d) (hm : e ∉ membersOf s (leader s d)) : e ∉ membersOf s d := by
  cases ho : isOdd s d with
  | false => rwa [leader_of_not_odd ho] at hm
  | true =>
    rw [isOdd, beq_iff_eq] at ho
    rw [membersOf_of_not_even (by rw [isEven, ho]; rfl)]
    exact fun h => he (List.mem_singleton.mp h)

theorem otherDomainsSame_of_step {s u : State} {d t : Nat} (h : StationStep (now t s) u d) : OtherDomainsSame s u d :=
  fun e he hm => h.rest e (not_mem_membersOf_of_leader he hm)

/-! ### Parking (R99) -/

/-- The cells of a station in the order in which they park: descending from the pointer, and wrapping. -/
def parkOrder (s : State) (d : Nat) : List (Nat × Nat) :=
  (List.range (stationCells s d).length).map
    (fun j => (stationCells s d).getD (((domOf s d).park.ptr + (stationCells s d).length - j) % (stationCells s d).length) (d, 0))

/-- Reading a list backwards from a place, and wrapping, meets exactly its elements. -/
theorem mem_backwards {α : Type} (l : List α) (p : Nat) (a x : α) :
    x ∈ (List.range l.length).map (fun j => l.getD ((p + l.length - j) % l.length) a) ↔ x ∈ l := by
  rw [List.mem_map]
  constructor
  · rintro ⟨j, hj, rfl⟩
    have hlt : (p + l.length - j) % l.length < l.length := Nat.mod_lt _ (Nat.zero_lt_of_lt (List.mem_range.mp hj))
    rw [List.getD_eq_getElem _ _ hlt]
    exact List.getElem_mem hlt
  · intro hx
    obtain ⟨i, hi, rfl⟩ := List.getElem_of_mem hx
    refine ⟨(p + l.length - i) % l.length, List.mem_range.mpr (Nat.mod_lt _ (Nat.zero_lt_of_lt hi)), ?_⟩
    have hdiv : p + l.length - i = l.length * ((p + l.length - i) / l.length) + (p + l.length - i) % l.length := (Nat.div_add_mod ..).symm
    have hback : p + l.length - (p + l.length - i) % l.length = i + l.length * ((p + l.length - i) / l.length) := by omega
    rw [hback, Nat.add_mul_mod_self_left, Nat.mod_eq_of_lt hi, List.getD_eq_getElem _ _ hi]

theorem mem_parkOrder {s : State} {d : Nat} {x : Nat × Nat} : x ∈ parkOrder s d ↔ x ∈ stationCells s d := mem_backwards ..

/-- Whether a cell is ACTIVE for parking: one that resumes from COLD only once it reports so (R100). -/
def parksFrom (s : State) (x : Nat × Nat) : Bool := (cellAt s x).st == .active && !resuming (cellAt s x)

theorem mem_activeCells {s : State} {d : Nat} {x : Nat × Nat} : x ∈ activeCells s d ↔ x ∈ stationCells s d ∧ parksFrom s x = true := by
  rw [activeCells, cellsIn, List.mem_filter, List.mem_filter, parksFrom, Bool.and_eq_true, and_assoc]

theorem st_of_mem_activeCells {s : State} {d : Nat} {x : Nat × Nat} (h : x ∈ activeCells s d) : (cellAt s x).st = .active := by
  obtain ⟨-, hx⟩ := mem_activeCells.mp h
  rw [parksFrom, Bool.and_eq_true, beq_iff_eq] at hx
  exact hx.1

theorem parkPick_eq (s : State) (d : Nat) : parkPick s d =
    match ((parkOrder s d).filter (parksFrom s)).find? (fun x => !(cellAt s x).crack) with
    | some x => some x
    | none => ((parkOrder s d).filter (parksFrom s)).head? := rfl

/-- Where a station has an ACTIVE cell, one parks, a CRACK-flagged one only if all are. -/
theorem parkPick_active {s : State} {d : Nat} (h : activeCells s d ≠ []) : ∃ x ∈ activeCells s d, parkPick s d = some x ∧
    ((cellAt s x).crack = true → ∀ y ∈ activeCells s d, (cellAt s y).crack = true) := by
  have hmem (x : Nat × Nat) : x ∈ (parkOrder s d).filter (parksFrom s) ↔ x ∈ activeCells s d := by
    rw [List.mem_filter, mem_parkOrder, mem_activeCells]
  cases hfind : ((parkOrder s d).filter (parksFrom s)).find? (fun x => !(cellAt s x).crack) with
  | some x =>
    have hx : (!(cellAt s x).crack) = true := List.find?_some (p := fun x => !(cellAt s x).crack) hfind
    refine ⟨x, (hmem x).mp (List.mem_of_find?_eq_some hfind), by rw [parkPick_eq, hfind], fun hc => ?_⟩
    rw [hc] at hx
    exact absurd hx (by decide)
  | none =>
    have hall (y : Nat × Nat) (hy : y ∈ activeCells s d) : (cellAt s y).crack = true := by
      simpa using List.find?_eq_none.mp hfind y ((hmem y).mpr hy)
    obtain ⟨y, hy⟩ := List.exists_mem_of_ne_nil _ h
    cases hl : (parkOrder s d).filter (parksFrom s) with
    | nil => exact absurd ((hmem y).mpr hy) (by rw [hl]; exact List.not_mem_nil)
    | cons x l =>
      refine ⟨x, (hmem x).mp (by rw [hl]; exact List.mem_cons_self), ?_, fun _ => hall⟩
      rw [parkPick_eq, hfind, hl]
      rfl

theorem exec_cellPark {d : Dom} {t q : Nat} {s : State} {x : Nat × Nat} (hq : (domOf s d).park.qual = some q) (hacts : stationActs (now t s) d = true)
    (hparks : parks s d = true) (hqual : q + 1000 * (cfgAt s (leader s d)).lim.parkQual ≤ t)
    (hlast : (domOf s d).park.last = 0 ∨ (domOf s d).park.last + 1000 ≤ t) (hramp : cellsIn (now t s) d .ramp = [])
    (hcond : parkCond (now t s) d = true) (hmin : parkMinOf s d < (activeCells (now t s) d).length) (hx : parkPick (now t s) d = some x) :
    exec (.cellPark d t) s = .next (setDom (setCellAt (now t s) x (fun c => { c with st := .ramp, rampFr := 0, acc := 0, strim := 0 })) d
      (fun D => { D with park := { D.park with last := t }, droop := { D.droop with parkedFire := true } })) := by
  have hgo : (stationActs (now t s) d && parks (now t s) d && decide (q + 1000 * (cfgAt (now t s) (leader (now t s) d)).lim.parkQual ≤ t ∧
      ((domOf (now t s) d).park.last = 0 ∨ (domOf (now t s) d).park.last + 1000 ≤ t)) && (cellsIn (now t s) d .ramp).isEmpty &&
      parkCond (now t s) d && decide (parkMinOf (now t s) d < (activeCells (now t s) d).length)) = true := by
    have hdue := decide_eq_true (p := _ ∧ _) ⟨hqual, hlast⟩
    have hmore : decide (parkMinOf (now t s) d < (activeCells (now t s) d).length) = true := decide_eq_true hmin
    rw [hacts, show parks (now t s) d = true from hparks, hramp, hcond, hmore, Bool.true_and, Bool.and_true, Bool.and_true]
    exact congrArg (· && _) hdue
  show execCellPark d t s = _
  unfold execCellPark
  dsimp only
  rw [show (domOf (now t s) d).park.qual = some q from hq]
  dsimp only
  rw [if_pos hgo, hx]

theorem exec_warmHoldExpire {c : CellNo} {t : Nat} {s : State} (hw : (cellAt s (cellDom c, cellIdx c)).st = .warm)
    (ht : (cellAt s (cellDom c, cellIdx c)).warmAt + 10000 * (cfgAt s (leader s (cellDom c))).lim.warmHold ≤ t) :
    exec (.warmHoldExpire c t) s = .next (setCellAt (now t s) (cellDom c, cellIdx c) (fun C => { C with st := .cold })) := by
  show execWarmHoldExpire c t s = _
  refine if_pos ?_
  rw [show (cellAt (now t s) (cellDom c, cellIdx c)).st = .warm from hw]
  exact decide_eq_true ht

/-! ### The throttle outputs and derating (R104, R144) -/

/-- The divider that a station drives, from the arbiter's setting, derating and DT3. -/
theorem thrDiv_driveThr (s : State) {d : Nat} (ht : isTile d = true) (hd : d < 80) : (domOf (driveThr s d) d).tile.thrDiv =
    BitVec.ofNat 2 (Nat.min 3 (Nat.max (domOf s d).stDiv.toNat (if (domOf s d).arb.derate then 1 else 0) +
      (if (domOf s d).droop.dt3 then 1 else 0))) := by
  rw [driveThr, if_neg (by rw [ht]; decide)]
  exact congrArg (fun D : Domain => D.tile.thrDiv) (domOf_setMembers_self s _ hd)

/-- Derating and DT3 each drive at least divider 2. -/
theorem thrDiv_driveThr_pos {s : State} {d : Nat} (ht : isTile d = true) (hd : d < 80)
    (h : (domOf s d).arb.derate = true ∨ (domOf s d).droop.dt3 = true) : 1 ≤ (domOf (driveThr s d) d).tile.thrDiv.toNat := by
  have hpos : 1 ≤ Nat.max (domOf s d).stDiv.toNat (if (domOf s d).arb.derate then 1 else 0) + (if (domOf s d).droop.dt3 then 1 else 0) := by
    rcases h with h | h
    · rw [h, if_pos rfl]
      exact Nat.le_trans (Nat.le_max_right _ _) (Nat.le_add_right _ _)
    · rw [h]
      exact Nat.le_add_left _ _
  rw [thrDiv_driveThr s ht hd, BitVec.toNat_ofNat, Nat.mod_eq_of_lt (Nat.lt_succ_of_le (Nat.min_le_left _ _))]
  exact Nat.le_min.mpr ⟨by decide, hpos⟩

/-- A domain marked as throttled for its derating. -/
def derateDom (D : Domain) : Domain := { D with arb := { D.arb with derate := true, derOk := 0 } }

/-- A tile whose derating throttle acts. -/
def derated (s : State) (d : Nat) : State := driveThr (setDom s d derateDom) d

theorem stationStep_derated (s : State) (d : Nat) : StationStep s (derated s d) d :=
  (stationStep_setDom s derateDom (mem_membersOf_self s d) fun _ => rfl).trans (stationStep_driveThr _ d)

theorem derated_domain (s : State) {d : Dom} (ht : isTile d = true) :
    (domOf (derated s d) d).arb.derate = true ∧ 1 ≤ (domOf (derated s d) d).tile.thrDiv.toNat := by
  have hset : (domOf (setDom s d derateDom) d).arb.derate = true := by rw [domOf_setDom_fin]; rfl
  exact ⟨((sameView_driveThr (m := fun D => D.arb.derate) (fun _ _ _ => rfl) _ d).1 d).trans hset,
    thrDiv_driveThr_pos ht d.isLt (.inl hset)⟩

theorem exec_derateThrottle {d : Dom} {s : State} (ho : isOdd s d = false) (ht : isTile d = true)
    (hr : ratingOf s d (workingOf s d) = .derated) (hd : (domOf s d).arb.derate = false) (h8 : 8 ≤ (domOf s d).arb.derRun) (t : Nat) :
    exec (.derateThrottle d t) s = .next (if modeOn s 0 then
      raise (derated (now t s) d) 1 0x03 0x6 d (cellDetail (workingOf s d) 2 0x1F 0x3FF) else derated (now t s) d) := by
  have hgo : ¬(isOdd s d || !isTile d || ratingOf s d (workingOf s d) != .derated || (domOf s d).arb.derate ||
      decide ((domOf s d).arb.derRun < 8)) = true := by
    rw [ho, ht, hr, hd, decide_eq_false (Nat.not_lt.mpr h8)]
    decide
  exact if_neg hgo

end Sys2Proof.Laws

namespace Sys2Proof.Proofs
open Sys2Proof Sys2Proof.Machine Sys2Proof.Laws
set_option Elab.async false

/-- Settles O26: the cell that parks is the model's pick among the ACTIVE ones (`parkPick_active`), and derating is a step of its station, reported
in STEADY alone. -/
theorem parkingAndDerating : Obligations.ParkingAndDerating := by
  refine ⟨⟨fun d t q s _ hq hacts hparks hqual hlast hramp hcond hmin => ?_, fun c t s hw ht => exec_warmHoldExpire hw ht⟩,
    fun d t s ho ht hr hd h8 => ?_⟩
  · obtain ⟨x, hx, hpick, hcrack⟩ := parkPick_active (List.ne_nil_of_length_pos (Nat.zero_lt_of_lt hmin))
    exact ⟨x, hx, st_of_mem_activeCells (s := now t s) hx, hcrack, exec_cellPark hq hacts hparks hqual hlast hramp hcond hmin hpick⟩
  · have hstep := stationStep_derated (now t s) d
    obtain ⟨hderate, hdiv⟩ := derated_domain (now t s) ht
    have hrest : OtherDomainsSame s (derated (now t s) d) d := otherDomainsSame_of_step hstep
    refine ⟨_, exec_derateThrottle ho ht hr hd h8 t, ?_⟩
    cases hm : modeOn s 0 with
    | true =>
      rw [if_pos rfl, raise_eq _ _ _ _ _ _ (fun h => absurd h (by decide)), hstep.only.epochIn, hstep.only.safety]
      refine ⟨hderate, hdiv, fun _ => rfl, fun h => absurd h (by decide), hrest, ?_⟩
      conv_lhs => rw [hstep.only]
    | false =>
      rw [if_neg Bool.false_ne_true]
      refine ⟨hderate, hdiv, fun h => absurd h (by decide), fun _ => hstep.only.safety, hrest, ?_⟩
      dsimp only
      rw [hstep.only.safety]
      exact hstep.only

end Sys2Proof.Proofs
end

section
/-! Crack windows: cells judged by their window's sums, and windows that start anew (R106, R107). -/

namespace Sys2Proof.Laws
open Sys2Proof Sys2Proof.Machine
set_option Elab.async false

/-! ### The sites and cells of a station -/

theorem mem_membersOf_of_mem_stationSites {s : State} {d x : Nat} (h : x ∈ stationSites s d) : x ∈ membersOf s d := by
  unfold stationSites at h
  split at h
  · rename_i hj
    rw [joined, Bool.and_eq_true] at hj
    rwa [membersOf, if_pos hj.1]
  · rw [List.mem_singleton.mp h]
    exact mem_membersOf_self s d

theorem nodup_stationSites (s : State) (d : Nat) : (stationSites s d).Nodup := by
  unfold stationSites
  split
  · simp
  · exact List.nodup_singleton d

theorem stationSites_single {s : State} {d : Nat} (h : (domOf s d).pair = .none) : stationSites s d = [d] := by
  rw [stationSites, joined, not_even_of_none h, Bool.false_and, if_neg Bool.false_ne_true]

theorem stationCells_single {s : State} {d : Nat} (h : (domOf s d).pair = .none) : stationCells s d = (List.range (nCells d)).map (fun k => (d, k)) := by
  rw [stationCells, stationSites_single h, List.flatMap_singleton]

/-- Beyond the domains and their cells every read gives the default. -/
theorem cellAt_beyond (s : State) {y : Nat × Nat} (h : 80 ≤ y.1 ∨ 14 ≤ y.2) : cellAt s y = default := by
  rcases h with h | h
  · rw [cellAt, domOf_ge _ h, cellOf]
    by_cases hk : y.2 < 14
    · exact vget_replicate _ hk
    · exact vget_ge _ (Nat.le_of_not_lt hk)
  · exact vget_ge _ h

/-- A change that leaves the default cell, wherever it is made. -/
theorem cellAt_setCellAt (s : State) (x y : Nat × Nat) {f : Cell → Cell} (hf : f default = default) :
    cellAt (setCellAt s x f) y = if y = x then f (cellAt s y) else cellAt s y := by
  split
  · rename_i h
    subst h
    by_cases hin : y.1 < 80 ∧ y.2 < 14
    · exact cellAt_setCellAt_same s f hin.1 hin.2
    · have hout : 80 ≤ y.1 ∨ 14 ≤ y.2 := by omega
      rw [cellAt_beyond _ hout, cellAt_beyond _ hout, hf]
  · rename_i h
    exact cellAt_setCellAt_ne s f (Ne.symm h)

/-- One change of the cells of a list, where a second one would change nothing. -/
theorem cellAt_foldl_setCellAt {f : Cell → Cell} (hf : f default = default) (hff : ∀ C, f (f C) = f C) (l : List (Nat × Nat)) (s : State)
    (y : Nat × Nat) : cellAt (l.foldl (fun s x => setCellAt s x f) s) y = if y ∈ l then f (cellAt s y) else cellAt s y := by
  induction l generalizing s with
  | nil => rfl
  | cons x l ih =>
    rw [List.foldl_cons, ih, cellAt_setCellAt s x y hf]
    by_cases hyx : y = x
    · rw [if_pos hyx, if_pos (List.mem_cons.mpr (.inl hyx)), hff, ite_self]
    · rw [if_neg hyx]
      exact if_congr (by rw [List.mem_cons, or_iff_right hyx]) rfl rfl

/-! ### The start of a window (R106) -/

/-- A cell whose window starts anew. -/
def windowStarts (C : Cell) : Cell := { C with sumDrop := 0, sumI := 0, nWin := 0 }

/-- A site whose window starts anew, at its last temperature. -/
def tempStarts (D : Domain) : Domain := { D with winT := D.maxT }

/-- The windows of sites and cells start anew. -/
def windowsStart (sites : List Nat) (cells : List (Nat × Nat)) (s : State) : State :=
  sites.foldl (fun s x => setDom s x tempStarts) (cells.foldl (fun s x => setCellAt s x windowStarts) s)

section
variable (sites : List Nat) (cells : List (Nat × Nat)) (s : State)

theorem cellAt_windowsStart (y : Nat × Nat) : cellAt (windowsStart sites cells s) y = if y ∈ cells then windowStarts (cellAt s y) else cellAt s y :=
  (congrArg (fun v : Vector Cell 14 => vget v y.2)
    ((sameView_foldl (m := Domain.cells) (fun v x => sameView_setDom v x tempStarts) sites _).1 y.1)).trans
    (cellAt_foldl_setCellAt (f := windowStarts) rfl (fun _ => rfl) cells s y)

theorem winT_windowsStart (hs : sites.Nodup) {e : Nat} (he : e ∈ sites) : (domOf (windowsStart sites cells s) e).winT = (domOf s e).maxT := by
  by_cases hlt : e < 80
  · rw [windowsStart, domOf_foldl_setDom _ hs _ hlt, if_pos he]
    exact (sameView_foldl (m := Domain.maxT) (fun v x => sameView_setDom v x.1 (fun D => setCell D x.2 windowStarts)) cells s).1 e
  · rw [domOf_ge _ (Nat.le_of_not_lt hlt), domOf_ge _ (Nat.le_of_not_lt hlt)]
    rfl

theorem stationStep_windowsStart {d : Nat} (hs : ∀ x ∈ sites, x ∈ membersOf s d) (hc : ∀ y ∈ cells, y.1 ∈ membersOf s d) :
    StationStep s (windowsStart sites cells s) d := by
  have h1 : StationStep s (cells.foldl (fun s x => setCellAt s x windowStarts) s) d :=
    stationStep_foldl cells s fun v hv y hy => stationStep_setDom v _ (by rw [hv.members]; exact hc y hy) fun _ => rfl
  refine h1.trans (stationStep_foldl sites _ fun v hv x hx => stationStep_setDom v _ ?_ fun _ => rfl)
  rw [hv.members, h1.members]
  exact hs x hx

end

/-! ### The judgement of a cell (R107) -/

/-- A window of fewer than 256 frames yields no estimate. -/
theorem judgeCrack_short (temp : Int) {s : State} {x : Nat × Nat} (h : (cellAt s x).nWin < 256) : judgeCrack temp s x = s := by
  unfold judgeCrack
  extract_lets c
  split
  · rfl
  · exact if_pos (by rw [show c.nWin = (cellAt s x).nWin from rfl, decide_eq_true h, Bool.or_true])

theorem foldl_judgeCrack_short (temp : Int) {s : State} {l : List (Nat × Nat)} (h : ∀ x ∈ l, (cellAt s x).nWin < 256) :
    l.foldl (judgeCrack temp) s = s := by
  induction l with
  | nil => rfl
  | cons x l ih => rw [List.foldl_cons, judgeCrack_short temp (h x List.mem_cons_self), ih fun y hy => h y (List.mem_cons_of_mem x hy)]

/-- A cell flagged as cracked, its weight halved with a minimum of 1. -/
def crackFlagged (C : Cell) : Cell := { C with crack := true, crackRun := 3, weight := BitVec.ofNat 4 (Nat.max 1 (C.weight.toNat / 2)) }

theorem weight_crackFlagged (C : Cell) : (crackFlagged C).weight.toNat = Nat.max 1 (C.weight.toNat / 2) := by
  have hle : Nat.max 1 (C.weight.toNat / 2) < 2 ^ 4 := Nat.max_lt.mpr ⟨by decide, by have := C.weight.isLt; omega⟩
  exact Nat.mod_eq_of_lt hle

/-- The report of a crack. -/
def crackMsg (s : State) (x : Nat × Nat) : FaultMsg :=
  { bits := faultWord 0 0x06 0x7 (leader s x.1) (cellDetail (workingOf s (leader s x.1)) 8 (cellPos s x) (cellNoOf x.1 x.2)) (epochIn s),
    from_ := none, ext := 0 }

/-- The state of a cell flagged in its third estimated window, its report and the cell map's change made. -/
def crackFound (s : State) (x : Nat × Nat) (hx : x.1 < 80) (k : Strata) : State :=
  { setCellAt s x crackFlagged with
    safety := { s.safety with queue := s.safety.queue ++ [crackMsg s x] }, strata := k
    ints := s.ints ++ [{ dom := ⟨x.1, hx⟩, what := .cellMap 0, at_ := s.time.gtc }] }

/-- The third high estimate in a row flags the cell. -/
theorem judgeCrack_third {temp : Int} {s : State} {x : Nat × Nat} {r : CharRecord} (hx : x.1 < 80) (hr : s.char = some r)
    (hw : cellWorks (cellAt s x) = true) (hn : 256 ≤ (cellAt s x).nWin) (hc : (cellAt s x).crack = false) (hrun : (cellAt s x).crackRun = 2)
    (hover : crackOver (cellAt s x) temp (vget r.rChar (cellNoOf x.1 x.2)) 130 = true) (hroom : s.safety.queue.length ≤ 768) :
    ∃ k, judgeCrack temp s x = crackFound s x hx k := by
  have hjudged : ¬(!cellWorks (cellAt s x) || decide ((cellAt s x).nWin < 256)) = true := by
    rw [hw, decide_eq_false (Nat.not_lt.mpr hn)]
    decide
  have hthird : ¬(cellAt s x).crackRun + 1 < 3 := by omega
  unfold judgeCrack
  dsimp only
  rw [hr]
  dsimp only
  rw [if_neg hjudged, if_neg (Bool.eq_false_iff.mp hc), if_neg (by rw [hover]; decide), if_neg hthird]
  show ∃ k, report (queueRecord (raise (setCellAt s x crackFlagged) 0 0x06 0x7 _ _) 2 0x0003 _ _).1 x.1 (.cellMap 0) = _
  rw [raise_eq (setCellAt s x crackFlagged) _ _ _ _ _ fun _ => hroom, queueRecord_frame]
  exact ⟨_, report_eq _ ⟨x.1, hx⟩ _⟩

/-- Where one cell alone has an estimate, the others are passed over. -/
theorem foldl_judgeCrack_one {temp : Int} {s u : State} {x : Nat × Nat} {l : List (Nat × Nat)} (hl : l.Nodup) (hmem : x ∈ l)
    (hshort : ∀ y ∈ l, y ≠ x → (cellAt s y).nWin < 256) (hu : judgeCrack temp s x = u) (hsame : ∀ y, y ≠ x → cellAt u y = cellAt s y) :
    l.foldl (judgeCrack temp) s = u := by
  obtain ⟨l1, l2, rfl⟩ := List.append_of_mem hmem
  obtain ⟨-, h2, h12⟩ := List.nodup_append.mp hl
  have hne1 (y : Nat × Nat) (hy : y ∈ l1) : y ≠ x := h12 y hy x List.mem_cons_self
  have hne2 (y : Nat × Nat) (hy : y ∈ l2) : y ≠ x := fun h => (List.nodup_cons.mp h2).1 (h ▸ hy)
  rw [List.foldl_append, List.foldl_cons, foldl_judgeCrack_short temp fun y hy => hshort y (List.mem_append_left _ hy) (hne1 y hy), hu]
  refine foldl_judgeCrack_short temp fun y hy => ?_
  rw [hsame y (hne2 y hy)]
  exact hshort y (List.mem_append_right _ (List.mem_cons_of_mem x hy)) (hne2 y hy)

/-! ### The end of a window -/

/-- The temperature at which a station judges its cells. -/
def windowTemp (s : State) (d : Nat) : Int := ((stationSites s d).map (fun x => (domOf s x).winT)).foldl Max.max (domOf s d).winT

theorem exec_crackWindowEnd {d : Dom} {t : Nat} {s : State} (h : stationActs (now t s) d = true) : exec (.crackWindowEnd d t) s =
    .next (windowsStart (stationSites (now t s) d) (stationCells (now t s) d)
      ((stationCells (now t s) d).foldl (judgeCrack (windowTemp (now t s) d)) (now t s))) := by
  have hacts : ¬(!stationActs (now t s) d) = true := by rw [h]; decide
  exact if_neg hacts

end Sys2Proof.Laws

namespace Sys2Proof.Proofs
open Sys2Proof Sys2Proof.Machine Sys2Proof.Laws
set_option Elab.async false

/-- Settles O27: short windows change nothing before they start anew, and a lone third high estimate is the one change of the pass
(`foldl_judgeCrack_one`). -/
theorem cracks : Obligations.Cracks := by
  refine ⟨fun d t s hacts hshort => ?_, fun c t s r => ?_⟩
  · have hstep : StationStep (now t s) (windowsStart (stationSites (now t s) d) (stationCells (now t s) d) (now t s)) d :=
      stationStep_windowsStart _ _ _ (fun _ => mem_membersOf_of_mem_stationSites) fun _ => mem_membersOf_of_mem_stationCells
    refine ⟨_, exec_crackWindowEnd hacts, ?_⟩
    rw [foldl_judgeCrack_short (s := now t s) _ hshort]
    refine ⟨fun x hx => ?_, fun e he => winT_windowsStart _ _ _ (nodup_stationSites _ _) he, otherDomainsSame_of_step hstep, hstep.only⟩
    rw [cellAt_windowsStart, if_pos hx]
    rfl
  · intro d x hp hacts hr hroom hshort hn hw hc hrun hover
    have hd : d < 80 := cellDom_lt c
    have hcells : stationCells (now t s) d = (List.range (nCells d)).map (fun k => (d, k)) := stationCells_single hp
    have hmem : x ∈ stationCells (now t s) d := hcells ▸ List.mem_map_of_mem (List.mem_range.mpr (cellIdx_lt_nCells c))
    have htemp : windowTemp (now t s) d = Max.max (domOf s d).winT (domOf s d).winT := by
      rw [windowTemp, stationSites_single (s := now t s) hp]
      rfl
    obtain ⟨k, hk⟩ := judgeCrack_third (s := now t s) (x := x) (temp := windowTemp (now t s) d) hd hr hw hn hc hrun
      (by rw [cellNoOf_cell, htemp]; exact hover) hroom
    have hself : cellAt (crackFound (now t s) x hd k) x = crackFlagged (cellAt s x) := cellAt_setCellAt_same _ _ hd (cellIdx_lt c)
    have hsame (y : Nat × Nat) (hy : y ≠ x) : cellAt (crackFound (now t s) x hd k) y = cellAt (now t s) y :=
      cellAt_setCellAt_ne (now t s) _ (Ne.symm hy)
    have hpass := foldl_judgeCrack_one (s := now t s) (hcells ▸ nodup_cells d _) hmem hshort hk hsame
    have hfin : ((Fin.ofNat 80 d : Dom) : Nat) = d := Nat.mod_eq_of_lt hd
    have hexec := exec_crackWindowEnd (d := Fin.ofNat 80 d) (t := t) (s := s) (by rw [hfin]; exact hacts)
    rw [hfin, hpass] at hexec
    have hmembers : membersOf (crackFound (now t s) x hd k) d = membersOf (now t s) d := membersOf_congr (pair_setCellAt (now t s) x _ d)
    have hstep := stationStep_windowsStart (stationSites (now t s) d) (stationCells (now t s) d) (crackFound (now t s) x hd k) (d := d)
      (fun y hy => hmembers ▸ mem_membersOf_of_mem_stationSites hy) (fun y hy => hmembers ▸ mem_membersOf_of_mem_stationCells hy)
    have hcell := cellAt_windowsStart (stationSites (now t s) d) (stationCells (now t s) d) (crackFound (now t s) x hd k) x
    rw [if_pos hmem, hself] at hcell
    refine ⟨_, hexec, by rw [hcell]; rfl, ?_, ⟨crackMsg (now t s) x, ?_, fKindOf_faultWord .., fClass_faultWord .., fUnit_faultWord .., ?_⟩, ?_,
      fun e he => ?_, by rw [hstep.only]; rfl, by rw [hstep.only]; rfl, by rw [hstep.only]; rfl⟩
    · rw [hcell]
      exact weight_crackFlagged (cellAt s x)
    · rw [hstep.only.safety]
      rfl
    · rw [crackMsg, fInst_faultWord, leader_of_not_odd (s := now t s) (not_odd_of_none hp)]
      exact Nat.mod_eq_of_lt (by omega)
    · rw [ints_of_stationStep hstep]
      exact ⟨_, List.mem_append_right _ List.mem_cons_self, rfl, rfl⟩
    · have hout : e.val ∉ membersOf (crackFound (now t s) x hd k) d := by
        rw [hmembers, membersOf_of_not_even (s := now t s) (not_even_of_none hp)]
        exact fun h => he (List.mem_singleton.mp h)
      exact (hstep.rest e hout).trans (domOf_setCellAt_ne (now t s) _ (Ne.symm he))

end Sys2Proof.Proofs
end

section
/-! The isolation of a failed cell: what it leaves of cells, domains, reports and the collector's queue (R83, R101 to R103). -/

namespace Sys2Proof.Laws
open Sys2Proof Sys2Proof.Machine
set_option Elab.async false

/-! ### Parked cells that return (R96, R99) -/

/-- A parked cell ordered back to ACTIVE, and any other cell as it is. -/
def unparked (C : Cell) : Cell :=
  if C.st == .ramp || C.st == .warm || C.st == .cold then { C with st := .active, acc := 0, strim := 0, fromCold := C.st == .cold } else C

theorem unparkAll_eq (s : State) (d : Nat) : unparkAll s d = (stationCells s d).foldl (fun s x => setCellAt s x unparked) s := by
  have hone (v : State) (x : Nat × Nat) : (let c := (cellAt v x).st
      if c == .ramp || c == .warm || c == .cold then
        setCellAt v x (fun c => { c with st := .active, acc := 0, strim := 0, fromCold := c.st == .cold }) else v) = setCellAt v x unparked := by
    extract_lets c
    split
    · rename_i h
      refine setCellAt_congr ?_
      exact (if_pos h).symm
    · rename_i h
      refine (setCellAt_of_fixed ?_).symm
      exact if_neg h
  exact congrArg (fun f => List.foldl f s (stationCells s d)) (funext₂ hone)

theorem unparked_unparked (C : Cell) : unparked (unparked C) = unparked C := by
  by_cases h : (C.st == .ramp || C.st == .warm || C.st == .cold) = true
  · rw [show unparked C = _ from if_pos h]
    rfl
  · rw [show unparked C = C from if_neg h, show unparked C = C from if_neg h]

theorem unparked_st (C : Cell) : (unparked C).st ≠ .ramp ∧ (unparked C).st ≠ .warm ∧ (unparked C).st ≠ .cold := by
  unfold unparked
  cases h : C.st <;> simp [h]

/-- A cell that does not work stays as it is. -/
theorem unparked_of_isolated {C : Cell} (h : C.st = .isolated) : unparked C = C := if_neg (by rw [h]; decide)

theorem cellAt_unparkAll (s : State) (d : Nat) (y : Nat × Nat) :
    cellAt (unparkAll s d) y = if y ∈ stationCells s d then unparked (cellAt s y) else cellAt s y := by
  rw [unparkAll_eq]
  exact cellAt_foldl_setCellAt rfl unparked_unparked _ s y

/-! ### Steps that leave the cells -/

/-- The cells of every domain are as they were. -/
def SameCells (s u : State) : Prop := ∀ e, (domOf u e).cells = (domOf s e).cells

theorem SameCells.trans {s u v : State} (h : SameCells s u) (k : SameCells u v) : SameCells s v := fun e => (k e).trans (h e)

theorem SameCells.cellAt {s u : State} (h : SameCells s u) (y : Nat × Nat) : Machine.cellAt u y = Machine.cellAt s y :=
  congrArg (fun v : Vector Cell 14 => vget v y.2) (h y.1)

theorem sameCells_of_dom {s u : State} (h : u.dom = s.dom) : SameCells s u := fun e => by rw [domOf, h, domOf]

theorem sameCells_discharge (s : State) (d : Nat) : SameCells s (discharge s d) :=
  ((sameView_setMembers (m := Domain.cells) s d _).trans ((sameView_setMembers _ d _).trans (sameView_driveThr (fun _ _ _ => rfl) _ d))).1

theorem sameCells_report (s : State) (d : Nat) (w : IntWhat) : SameCells s (report s d w) := sameCells_of_dom (by rw [report_frame])

theorem sameCells_forceDark (s : State) (d : Nat) (latch : Bool) : SameCells s (forceDark s d latch) :=
  (sameCells_discharge s d).trans (sameCells_report _ d _)

theorem sameCells_darkOne (s : State) (d : Nat) : SameCells s (darkOne s d) := by
  unfold darkOne
  split
  · exact fun _ => rfl
  split
  · exact sameCells_report s d _
  · exact sameCells_forceDark s d false

theorem sameCells_darkAll (s : State) : SameCells s (darkAll s) := by
  unfold darkAll
  split
  · exact fun _ => rfl
  · exact foldl_inv (I := SameCells s) (g := darkOne) (fun v d hv => hv.trans (sameCells_darkOne v d)) (List.range 80) fun _ => rfl

theorem dom_busOff (s : State) : (busOff s).dom = s.dom := by
  unfold busOff
  extract_lets offs
  split
  · rw [busFront, busStart_frame]
  · rw [busFront, busStart_frame]

/-- The entry into the safe state changes no cell. -/
theorem sameCells_enterSafe (s : State) (m : DWord) : SameCells s (enterSafe s m) := by
  have hshed (v : State) (hv : v.dom = s.dom) : SameCells s (busOff (darkAll (refuseAccepted v))) :=
    (sameCells_of_dom (u := refuseAccepted v) hv).trans ((sameCells_darkAll _).trans (sameCells_of_dom (dom_busOff _)))
  by_cases h : s.safety.safe = true
  · have hjoin : enterSafe s m = { s with safety := { s.safety with causes := s.safety.causes ++ [m] } } := if_pos h
    rw [hjoin]
    exact fun _ => rfl
  · have hrefuse : enterSafe s m = busOff (darkAll (refuseAccepted _)) := if_neg h
    rw [hrefuse]
    exact hshed _ rfl

theorem sameCells_atOnce (s : State) (m : DWord) : SameCells s (atOnce s m) := by
  unfold atOnce
  split
  · exact sameCells_enterSafe s m
  · exact fun _ => rfl

/-! ### The discharge of a domain (R117) -/

/-- What tells whether a domain discharges. -/
def powered (D : Domain) : Bool × Bool × TransSt × Droop := (D.en, D.held, D.tr, D.droop)

theorem Discharging.congr {D E : Domain} {g : Nat} (h : Discharging D g) (hv : powered E = powered D) : Discharging E g := by
  simp only [powered, Prod.mk.injEq] at hv
  obtain ⟨h1, h2, h3, h4⟩ := hv
  unfold Discharging at h ⊢
  rw [h1, h2, h3, h4]
  exact h

theorem disarm_cases (f : Flare) : disarm f = .disarmed ∨ disarm f = .failed := by
  unfold disarm
  split
  · exact .inr rfl
  · exact .inl rfl

theorem discharging_discharge (s : State) {d : Nat} (hd : d < 80) : Discharging (domOf (discharge s d) d) s.time.gtc := by
  unfold discharge holdClock setStops
  refine Discharging.congr ?_ ((sameView_driveThr (m := powered) (fun _ _ _ => rfl) _ d).1 d)
  rw [domOf_setMembers_self _ _ hd, domOf_setMembers_self _ _ hd]
  exact ⟨rfl, rfl, rfl, rfl, rfl, rfl, disarm_cases _⟩

/-! ### Steps about one cell's domain and its leader -/

/-- A step that concerns one site, what its leader governs, the collector, the reports and a sieve test. -/
structure SiteStep (s u : State) (a : Nat) : Prop where
  frame : u = { s with dom := u.dom, safety := u.safety, ints := u.ints, sieve := u.sieve }
  pairs : ∀ e, (domOf u e).pair = (domOf s e).pair
  rest : ∀ e, e ≠ a → e ∉ membersOf s (leader s a) → domOf u e = domOf s e

theorem SiteStep.trans {s u v : State} {a : Nat} (h : SiteStep s u a) (k : SiteStep u v a) : SiteStep s v a where
  frame := by
    have hf := k.frame
    rw [h.frame] at hf
    exact hf
  pairs e := (k.pairs e).trans (h.pairs e)
  rest e he hm := (k.rest e he (by rwa [leader_congr (h.pairs a), membersOf_congr (h.pairs _)])).trans (h.rest e he hm)

theorem siteStep_of_dom {s u : State} (a : Nat) (h : u = { s with safety := u.safety, ints := u.ints, sieve := u.sieve }) : SiteStep s u a := by
  have hd : u.dom = s.dom := by rw [h]
  refine ⟨?_, fun e => by rw [domOf, hd, domOf], fun e _ _ => by rw [domOf, hd, domOf]⟩
  rw [hd]
  exact h

theorem SiteStep.refl (s : State) (a : Nat) : SiteStep s s a := siteStep_of_dom a rfl

theorem siteStep_of_ite {s u v : State} {a : Nat} {c : Prop} [Decidable c] (h : SiteStep s u a) (k : SiteStep s v a) :
    SiteStep s (if c then u else v) a := by
  split
  · exact h
  · exact k

theorem siteStep_of_stationStep {s u : State} {a x : Nat} (h : StationStep s u x) (hx : x = a ∨ x = leader s a) : SiteStep s u a where
  frame := by
    have ho := h.only
    rw [OnlyDoms] at ho
    rw [ho]
  pairs := h.pairs
  rest e he hm := h.rest e (by
    rcases hx with rfl | rfl
    · exact not_mem_membersOf_of_leader he hm
    · exact hm)

theorem siteStep_report (s : State) (d : Nat) (w : IntWhat) (a : Nat) : SiteStep s (report s d w) a := siteStep_of_dom a (by rw [report_frame])

theorem siteStep_raise (s : State) (cls kind unit inst detail a : Nat) : SiteStep s (raise s cls kind unit inst detail) a :=
  siteStep_of_dom a (by rw [raise_frame])

theorem siteStep_forceDark (s : State) (latch : Bool) (a : Nat) : SiteStep s (forceDark s (leader s a) latch) a :=
  (siteStep_of_stationStep (stationStep_discharge s _) (.inr rfl)).trans (siteStep_report ..)

theorem sieveEvent_frame (s : State) (d : Nat) : sieveEvent s d = { s with sieve := (sieveEvent s d).sieve } := by
  unfold sieveEvent
  split
  · split <;> rfl
  · rfl

/-! ### The report of an isolation (R83, R95, R103) -/

theorem isIsolation_iff {d t : Nat} {i : IntChange} : isIsolation d t i = true ↔ i.dom.val = d ∧ i.at_ = t ∧ ∃ n, i.what = .cellMap (n + 1) := by
  unfold isIsolation
  rw [Bool.and_eq_true, Bool.and_eq_true, beq_iff_eq, beq_iff_eq, and_assoc]
  refine and_congr_right fun _ => and_congr_right fun _ => ?_
  split
  · rename_i n h
    exact ⟨fun _ => ⟨n, h⟩, fun _ => rfl⟩
  · rename_i h
    exact ⟨fun hf => absurd hf (by decide), fun ⟨n, hn⟩ => absurd hn (h n)⟩

theorem reportIsolation_frame (s : State) (d : Nat) : reportIsolation s d = { s with ints := (reportIsolation s d).ints } := by
  unfold reportIsolation
  split
  · rfl
  · exact report_frame s d _

/-- The change of the cell map is among the reports, alone or with those of the same frame. -/
theorem reportIsolation_reports (s : State) {d : Nat} (hd : d < 80) :
    ∃ i ∈ (reportIsolation s d).ints, ∃ n : Nat, i.dom.val = d ∧ i.what = .cellMap (n + 1) ∧ i.at_ = s.time.gtc := by
  unfold reportIsolation
  split
  · rename_i h
    obtain ⟨i, hi, hiso⟩ := List.any_eq_true.mp h
    obtain ⟨hdom, hat, n, hn⟩ := isIsolation_iff.mp hiso
    refine ⟨_, List.mem_map_of_mem hi, n + 1, ?_⟩
    rw [if_pos hiso]
    exact ⟨hdom, by dsimp only; rw [hn], hat⟩
  · rw [report_eq s ⟨d, hd⟩]
    exact ⟨_, List.mem_append_right _ List.mem_cons_self, 0, rfl, rfl, rfl⟩

/-! ### The isolation of a cell, stage by stage (R102, R103) -/

theorem cellStation_cases (s : State) (a : Nat) : cellStation s a = a ∨ cellStation s a = leader s a := by
  unfold cellStation
  split
  · rename_i h
    rw [Bool.and_eq_true] at h
    exact .inr (by rw [leader, if_pos h.1])
  · exact .inl rfl

theorem ratingOf_congr {s u : State} {d : Nat} (h : (domOf u d).pair = (domOf s d).pair) (n : Nat) : ratingOf u d n = ratingOf s d n := by
  rw [ratingOf, ratingOf, isEven, isEven, h]

/-- What decides whether a domain at the DARK rating discharges. -/
def supplied (D : Domain) : Bool × TransSt := (D.en, D.tr)

/-- A cell declared failed at a GTC for a cause. -/
def isolatedCell (g cause : Nat) (C : Cell) : Cell :=
  { C with st := .isolated, tkSt := .isolated, acc := 0, strim := 0, failed := some (BitVec.ofNat 4 cause), isoAt := g, isoRep := false,
           underRun := 0, overRun := 0, drvfRun := 0, otRun := 0 }

/-- The cells after an isolation: the failed one out of service, and the parked ones of its station back where the ACTIVE ones have become few. -/
def cellIsolated (s : State) (x : Nat × Nat) (cause : Nat) : State :=
  if (activeCells (setCellAt s x (isolatedCell s.time.gtc cause)) (cellStation s x.1)).length ≤ parkMinOf s (leader s x.1) then
    unparkAll (setCellAt s x (isolatedCell s.time.gtc cause)) (cellStation s x.1)
  else setCellAt s x (isolatedCell s.time.gtc cause)

/-- A station that aborts parking at its next latch. -/
def parkAborts (D : Domain) : Domain := { D with park := { D.park with abort := true } }

/-- A site with one more isolation since its last record. -/
def isolationCounted (D : Domain) : Domain := { D with unc := D.unc + 1 }

/-- The isolation made known: the message, the abort of parking, the cell map's change and the event of a sieve test. -/
def isolationTold (v : State) (a d st cls detail : Nat) : State :=
  sieveEvent (reportIsolation (setDom (setDom (raise v cls 0x04 0x7 d detail) st parkAborts) a isolationCounted) a) d

/-- What the rating left asks of the domain (R103). -/
def ratingActs (r : Rating) (w : State) (d : Nat) : State :=
  match r with
  | .full => w
  | .derated => report w d .derated
  | .dark => if (domOf w d).en || inSoftStart (domOf w d) then forceDark w d false else w

/-- The working cells that an isolation leaves. -/
def cellsLeft (s : State) (x : Nat × Nat) (cause : Nat) : Nat := workingOf (cellIsolated s x cause) (leader s x.1)

/-- The rating that an isolation leaves. -/
def ratingLeft (s : State) (x : Nat × Nat) (cause : Nat) : Rating := ratingOf (cellIsolated s x cause) (leader s x.1) (cellsLeft s x cause)

/-- The isolation of a cell made known. -/
def failTold (s : State) (x : Nat × Nat) (cause : Nat) : State :=
  isolationTold (cellIsolated s x cause) x.1 (leader s x.1) (cellStation s x.1) (if ratingLeft s x cause = .full then 0 else 1)
    (cellDetail (cellsLeft s x cause) cause (cellPos s x) (cellNoOf x.1 x.2))

theorem failCell_eq (s : State) (x : Nat × Nat) (cause : Nat) :
    failCell s x cause = ratingActs (ratingLeft s x cause) (failTold s x cause) (leader s x.1) := rfl

section
variable (s : State) (x : Nat × Nat) (cause : Nat)

theorem onlyDoms_cellIsolated : OnlyDoms s (cellIsolated s x cause) := by
  have h1 : OnlyDoms s (setCellAt s x (isolatedCell s.time.gtc cause)) := onlyDoms_setDom ..
  unfold cellIsolated
  split
  · exact h1.trans (stationStep_unparkAll _ _).only
  · exact h1

theorem siteStep_cellIsolated : SiteStep s (cellIsolated s x cause) x.1 := by
  have h1 : StationStep s (setCellAt s x (isolatedCell s.time.gtc cause)) x.1 := stationStep_setDom s _ (mem_membersOf_self s x.1) fun _ => rfl
  have hstation : cellStation s x.1 = x.1 ∨ cellStation s x.1 = leader (setCellAt s x (isolatedCell s.time.gtc cause)) x.1 := by
    rw [leader_congr (h1.pairs x.1)]
    exact cellStation_cases s x.1
  have hs := siteStep_of_stationStep h1 (.inl rfl)
  exact siteStep_of_ite (hs.trans (siteStep_of_stationStep (stationStep_unparkAll _ _) hstation)) hs

theorem sameSupply_cellIsolated : SameView supplied s (cellIsolated s x cause) := by
  have h1 : SameView supplied s (setCellAt s x (isolatedCell s.time.gtc cause)) := sameView_setDom s x.1 _
  exact sameView_of_ite (h1.trans (sameView_unparkAll (fun _ _ => rfl) _ _)) h1

theorem cellAt_cellIsolated (hd : x.1 < 80) (hk : x.2 < 14) : cellAt (cellIsolated s x cause) x = isolatedCell s.time.gtc cause (cellAt s x) := by
  have h1 : cellAt (setCellAt s x (isolatedCell s.time.gtc cause)) x = isolatedCell s.time.gtc cause (cellAt s x) := cellAt_setCellAt_same s _ hd hk
  unfold cellIsolated
  split
  · rw [cellAt_unparkAll, h1, unparked_of_isolated (C := isolatedCell _ _ _) rfl, ite_self]
  · exact h1

end

section
variable (v : State) (a d st cls detail : Nat)

theorem siteStep_isolationTold (hst : st = a ∨ st = leader v a) : SiteStep v (isolationTold v a d st cls detail) a := by
  have hraise := siteStep_raise v cls 0x04 0x7 d detail a
  have hst' : st = a ∨ st = leader (raise v cls 0x04 0x7 d detail) a := by rwa [leader_congr (hraise.pairs a)]
  have habort : SiteStep (raise v cls 0x04 0x7 d detail) _ a :=
    siteStep_of_stationStep (stationStep_setDom _ parkAborts (mem_membersOf_self _ st) fun _ => rfl) hst'
  have hcount := siteStep_of_stationStep (stationStep_setDom (setDom (raise v cls 0x04 0x7 d detail) st parkAborts) isolationCounted
    (mem_membersOf_self _ a) fun _ => rfl) (.inl rfl)
  refine (hraise.trans (habort.trans hcount)).trans (siteStep_of_dom a ?_)
  rw [isolationTold, sieveEvent_frame, reportIsolation_frame]

theorem dom_isolationTold : (isolationTold v a d st cls detail).dom = (setDom (setDom v st parkAborts) a isolationCounted).dom := by
  rw [isolationTold, sieveEvent_frame, reportIsolation_frame, raise_frame]
  rfl

theorem sameCells_isolationTold : SameCells v (isolationTold v a d st cls detail) := by
  have h : SameView Domain.cells v (setDom (setDom v st parkAborts) a isolationCounted) := (sameView_setDom v st _).trans (sameView_setDom _ a _)
  exact SameCells.trans h.1 (sameCells_of_dom (dom_isolationTold ..))

theorem supplied_isolationTold (e : Nat) : supplied (domOf (isolationTold v a d st cls detail) e) = supplied (domOf v e) := by
  have h : SameView supplied v (setDom (setDom v st parkAborts) a isolationCounted) := (sameView_setDom v st _).trans (sameView_setDom _ a _)
  rw [domOf, dom_isolationTold]
  exact h.1 e

theorem safety_isolationTold : (isolationTold v a d st cls detail).safety = (raise v cls 0x04 0x7 d detail).safety := by
  rw [isolationTold, sieveEvent_frame, reportIsolation_frame]
  rfl

theorem time_isolationTold : (isolationTold v a d st cls detail).time = v.time := by
  rw [isolationTold, sieveEvent_frame, reportIsolation_frame, raise_frame]
  rfl

theorem isolationTold_reports (ha : a < 80) : ∃ i ∈ (isolationTold v a d st cls detail).ints, ∃ n : Nat, i.dom.val = a ∧
    i.what = .cellMap (n + 1) ∧ i.at_ = v.time.gtc := by
  have hints : (isolationTold v a d st cls detail).ints =
      (reportIsolation (setDom (setDom (raise v cls 0x04 0x7 d detail) st parkAborts) a isolationCounted) a).ints := by
    rw [isolationTold, sieveEvent_frame]
  have htime : (setDom (setDom (raise v cls 0x04 0x7 d detail) st parkAborts) a isolationCounted).time = v.time := by
    rw [setDom_time, setDom_time, raise_frame]
  rw [hints, ← htime]
  exact reportIsolation_reports _ ha

end

section
variable (r : Rating) (w : State) (d : Nat)

theorem siteStep_ratingActs (a : Nat) (hd : d = leader w a) : SiteStep w (ratingActs r w d) a := by
  subst hd
  cases r with
  | full => exact .refl w a
  | derated => exact siteStep_report ..
  | dark => exact siteStep_of_ite (siteStep_forceDark w false a) (.refl w a)

theorem sameCells_ratingActs : SameCells w (ratingActs r w d) := by
  cases r with
  | full => exact fun _ => rfl
  | derated => exact sameCells_report w d _
  | dark =>
    unfold ratingActs
    dsimp only
    split
    · exact sameCells_forceDark w d false
    · exact fun _ => rfl

/-- The rating's actions report more and raise nothing. -/
theorem ratingActs_reports : w.ints ⊆ (ratingActs r w d).ints ∧ (ratingActs r w d).safety = w.safety := by
  have hdark : w.ints ⊆ (forceDark w d false).ints ∧ (forceDark w d false).safety = w.safety := by
    refine ⟨?_, by rw [forceDark, report_frame, (stationStep_discharge w d).only]⟩
    rw [← ints_of_stationStep (stationStep_discharge w d)]
    exact (report_prefix _ d _).subset
  cases r with
  | full => exact ⟨List.Subset.refl _, rfl⟩
  | derated => exact ⟨(report_prefix w d _).subset, by rw [ratingActs, report_frame]⟩
  | dark =>
    unfold ratingActs
    dsimp only
    split
    · exact hdark
    · exact ⟨List.Subset.refl _, rfl⟩

theorem ratingActs_derated (hd : d < 80) : ∃ i ∈ (ratingActs .derated w d).ints, i.dom.val = d ∧ i.what = .derated :=
  ⟨{ dom := ⟨d, hd⟩, what := .derated, at_ := w.time.gtc }, by
    rw [ratingActs, report_eq w ⟨d, hd⟩]
    exact List.mem_append_right _ List.mem_cons_self, rfl, rfl⟩

/-- At the DARK rating a domain with its cells enabled, or about to be, discharges and reports it (R103). -/
theorem ratingActs_dark (hd : d < 80) (h : (domOf w d).en = true ∨ inSoftStart (domOf w d) = true) :
    (∃ i ∈ (ratingActs .dark w d).ints, i.dom.val = d ∧ i.what = .dark false) ∧ Discharging (domOf (ratingActs .dark w d) d) w.time.gtc := by
  have hdark : ratingActs .dark w d = forceDark w d false := if_pos (by rwa [Bool.or_eq_true])
  rw [hdark, forceDark, report_eq _ ⟨d, hd⟩]
  exact ⟨⟨_, List.mem_append_right _ List.mem_cons_self, rfl, rfl⟩, discharging_discharge w hd⟩

end

/-! ### The isolation as a whole -/

section
variable (s : State) (x : Nat × Nat) (cause : Nat)

theorem siteStep_failTold : SiteStep s (failTold s x cause) x.1 := by
  have h1 := siteStep_cellIsolated s x cause
  refine h1.trans (siteStep_isolationTold _ _ _ _ _ _ ?_)
  rw [leader_congr (h1.pairs x.1)]
  exact cellStation_cases s x.1

theorem siteStep_failCell : SiteStep s (failCell s x cause) x.1 := by
  have h1 := siteStep_failTold s x cause
  rw [failCell_eq]
  exact h1.trans (siteStep_ratingActs _ _ _ _ (leader_congr (h1.pairs x.1)).symm)

theorem sameCells_failCell : SameCells (cellIsolated s x cause) (failCell s x cause) := by
  rw [failCell_eq]
  exact (sameCells_isolationTold _ _ _ _ _ _).trans (sameCells_ratingActs _ _ _)

theorem cellsLeft_eq : cellsLeft s x cause = workingOf (failCell s x cause) (leader s x.1) := by
  refine (workingOf_congr ?_ fun y => ?_).symm
  · rw [(siteStep_failCell s x cause).pairs, (siteStep_cellIsolated s x cause).pairs]
  · rw [(sameCells_failCell s x cause).cellAt]

theorem ratingLeft_eq : ratingLeft s x cause = ratingOf s (leader s x.1) (workingOf (failCell s x cause) (leader s x.1)) := by
  rw [ratingLeft, cellsLeft_eq]
  exact ratingOf_congr ((siteStep_cellIsolated s x cause).pairs _) _

theorem cellAt_failCell (hd : x.1 < 80) (hk : x.2 < 14) : cellAt (failCell s x cause) x = isolatedCell s.time.gtc cause (cellAt s x) :=
  ((sameCells_failCell s x cause).cellAt x).trans (cellAt_cellIsolated s x cause hd hk)

theorem time_failTold : (failTold s x cause).time = s.time := by
  rw [failTold, time_isolationTold, (onlyDoms_cellIsolated s x cause).time]

/-- CELL_FAIL carries the working cells left, the cause and the cell, corrected at full rating and contained below (R102, R103). -/
theorem queue_failCell (hroom : s.safety.queue.length ≤ 768) : let n := workingOf (failCell s x cause) (leader s x.1)
    (failCell s x cause).safety.queue = s.safety.queue ++
      [{ bits := faultWord (if ratingOf s (leader s x.1) n = .full then 0 else 1) 0x04 0x7 (leader s x.1)
                   (cellDetail n cause (cellPos s x) (cellNoOf x.1 x.2)) (epochIn s), from_ := none, ext := 0 }] := by
  intro n
  have hsafety := (onlyDoms_cellIsolated s x cause).safety
  have hraise (cls detail : Nat) : (raise (cellIsolated s x cause) cls 0x04 0x7 (leader s x.1) detail).safety.queue = s.safety.queue ++
      [{ bits := faultWord cls 0x04 0x7 (leader s x.1) detail (epochIn s), from_ := none, ext := 0 }] := by
    rw [raise_eq _ _ _ _ _ _ fun _ => hsafety ▸ hroom, hsafety, (onlyDoms_cellIsolated s x cause).epochIn]
  rw [failCell_eq, (ratingActs_reports ..).2, failTold, safety_isolationTold, hraise, ratingLeft_eq, cellsLeft_eq]

theorem failCell_reports (hd : x.1 < 80) : ∃ i ∈ (failCell s x cause).ints, ∃ n : Nat, i.dom.val = x.1 ∧ i.what = .cellMap (n + 1) ∧
    i.at_ = s.time.gtc := by
  obtain ⟨i, hi, n, hdom, hwhat, hat⟩ := isolationTold_reports (cellIsolated s x cause) x.1 (leader s x.1) (cellStation s x.1)
    (if ratingLeft s x cause = .full then 0 else 1) (cellDetail (cellsLeft s x cause) cause (cellPos s x) (cellNoOf x.1 x.2)) hd
  exact ⟨i, (ratingActs_reports ..).1 hi, n, hdom, hwhat, hat.trans (congrArg Time.gtc (onlyDoms_cellIsolated s x cause).time)⟩

theorem failCell_derated (hd : leader s x.1 < 80) (hr : ratingOf s (leader s x.1) (workingOf (failCell s x cause) (leader s x.1)) = .derated) :
    ∃ i ∈ (failCell s x cause).ints, i.dom.val = leader s x.1 ∧ i.what = .derated := by
  rw [failCell_eq, ratingLeft_eq, hr]
  exact ratingActs_derated _ _ hd

theorem failCell_dark (hd : leader s x.1 < 80) (hr : ratingOf s (leader s x.1) (workingOf (failCell s x cause) (leader s x.1)) = .dark)
    (h : (domOf s (leader s x.1)).en = true ∨ inSoftStart (domOf s (leader s x.1)) = true) :
    (∃ i ∈ (failCell s x cause).ints, i.dom.val = leader s x.1 ∧ i.what = .dark false) ∧
      Discharging (domOf (failCell s x cause) (leader s x.1)) s.time.gtc := by
  have hsupply : supplied (domOf (failTold s x cause) (leader s x.1)) = supplied (domOf s (leader s x.1)) :=
    (supplied_isolationTold ..).trans ((sameSupply_cellIsolated s x cause).1 _)
  obtain ⟨hen, htr⟩ := Prod.mk.inj hsupply
  rw [failCell_eq, ratingLeft_eq, hr, ← time_failTold s x cause]
  refine ratingActs_dark _ _ hd ?_
  rw [inSoftStart, hen, htr]
  exact h

end

theorem exec_cellFail {c : CellNo} {t cause : Nat} {s : State} {more : List Nat} (ha : isAbsent s (cellDom c) = false)
    (hw : cellWorks (cellAt s (cellDom c, cellIdx c)) = true)
    (hc : cellCauses (now t s) (cellStation (now t s) (cellDom c)) (cellDom c, cellIdx c) = cause :: more) :
    exec (.cellFail c t) s = .next (failCell (now t s) (cellDom c, cellIdx c) cause) := by
  have hgo : ¬(isAbsent (now t s) (cellDom c) || !cellWorks (cellAt (now t s) (cellDom c, cellIdx c))) = true := by
    rw [show isAbsent (now t s) (cellDom c) = false from ha, show cellWorks (cellAt (now t s) (cellDom c, cellIdx c)) = true from hw]
    decide
  show execCellFail c t s = _
  unfold execCellFail
  dsimp only
  rw [if_neg hgo, hc]

/-! ### A fatal message that waits for no collector (R365) -/

theorem queue_atOnce (s : State) (m : DWord) : (atOnce s m).safety.queue = s.safety.queue := by
  obtain ⟨r, hq, -, -, hshed⟩ := atOnce_frame s m
  exact (congrArg (fun v => v.safety.queue) hshed).trans hq

/-- A fatal message during a control reset enters the safe state and pulls the pin. -/
theorem safe_pin_atOnce {s : State} {m : DWord} (hb : s.clk.crstBusy = true) (hm : fClass m = 2) :
    (atOnce s m).safety.safe = true ∧ (atOnce s m).safety.pin = false := by
  obtain ⟨r, -, -, hsafe, hshed⟩ := atOnce_frame s m
  rw [show (atOnce s m).safety = r from congrArg State.safety hshed]
  exact hsafe hb hm

/-- The state with one more message in the collector's queue. -/
def queued (v : State) (m : FaultMsg) : State := { v with safety := { v.safety with queue := v.safety.queue ++ [m] } }

/-- A fatal message of a unit, with no time and no extension. -/
def fatalMsg (v : State) (kind unit inst detail : Nat) : FaultMsg :=
  { bits := faultWord 2 kind unit inst detail (epochIn v), from_ := none, ext := 0 }

theorem raiseAtOnce_fatal (v : State) (kind unit inst detail : Nat) : raiseAtOnce v 2 kind unit inst detail =
    atOnce (queued v (fatalMsg v kind unit inst detail)) (fatalMsg v kind unit inst detail).bits := by
  rw [raiseAtOnce, raise_eq v 2 kind unit inst detail fun h => absurd h (by decide)]
  rfl

/-! ### The check after an isolation (R101, R102, Table 04-7) -/

/-- A cell whose isolation has failed, too. -/
def stillLive (C : Cell) : Cell := { C with failed := some 5 }

/-- The fatal report of a cell that its isolation has not cut off. -/
def liveMsg (s : State) (d : Dom) (n : Fin 14) : FaultMsg :=
  fatalMsg s 0x04 0x7 (leader s d) (cellDetail (workingOf s (leader s d)) 5 (cellPos s (d.val, n.val)) (cellNoOf d n))

/-- A failed isolation found and queued. -/
def liveFound (s : State) (d : Dom) (n : Fin 14) : State := queued (setCellAt s (d.val, n.val) stillLive) (liveMsg s d n)

/-- Whether the report of a cell since its isolation shows that it carries current or holds a drop. -/
theorem isolationBad_iff (C : Cell) : isolationBad C = true ↔
    C.isoRep = true ∧ (256 < repI C.rep ∨ (C.rep.getLsbD 30 = false ∧ 0x010 < C.rep.toNat / 2 ^ 12 % 2 ^ 10)) := by
  rw [isolationBad, Bool.and_eq_true, Bool.or_eq_true, decide_eq_true_eq, Bool.and_eq_true, Bool.not_eq_true', decide_eq_true_eq]
  rfl

section
variable {b : Dom} {n : Fin 14} {t : Nat} {s : State} {k : BitVec 4} (hst : (cellAt s (b.val, n.val)).st = .isolated)
  (hf : (cellAt s (b.val, n.val)).failed = some k) (hk : k ≠ 5) (ht : (cellAt s (b.val, n.val)).isoAt + 4000 ≤ t)

include hst hf hk ht in
theorem exec_isolationCheck_bad (hn : n.val < nCells b) (hbad : isolationBad (cellAt s (b.val, n.val)) = true) : exec (.isolationCheck b n t) s =
    .next (atOnce (liveFound (now t s) b n) (liveMsg (now t s) b n).bits) := by
  have hdue : (cellAt s (b.val, n.val)).isoAt + 4000 ≤ Nat.max s.time.gtc t := Nat.le_trans ht (Nat.le_max_right _ _)
  refine Eq.trans (if_pos ?_) (congrArg Host.Outcome.next (raiseAtOnce_fatal (setCellAt (now t s) (b.val, n.val) stillLive) ..))
  show (decide (n.val < nCells b) && (cellAt s (b.val, n.val)).st == .isolated && (cellAt s (b.val, n.val)).failed.isSome &&
    (cellAt s (b.val, n.val)).failed != some 5 && decide ((cellAt s (b.val, n.val)).isoAt + 4000 ≤ Nat.max s.time.gtc t) &&
    isolationBad (cellAt s (b.val, n.val))) = true
  have hne : (some k != some 5) = true := bne_iff_ne.mpr fun h => hk (Option.some.inj h)
  rw [hst, hf, hne, decide_eq_true hn, decide_eq_true hdue, hbad]
  rfl

theorem exec_isolationCheck_good (h : ¬(n.val < nCells b ∧ isolationBad (cellAt s (b.val, n.val)) = true)) :
    exec (.isolationCheck b n t) s = .next (now t s) := by
  refine if_neg fun hc => h ?_
  rw [Bool.and_eq_true, Bool.and_eq_true, Bool.and_eq_true, Bool.and_eq_true, Bool.and_eq_true, decide_eq_true_eq] at hc
  obtain ⟨⟨⟨⟨⟨hn, -⟩, -⟩, -⟩, -⟩, hbad⟩ := hc
  exact ⟨hn, hbad⟩

end

end Sys2Proof.Laws

namespace Sys2Proof.Proofs
open Sys2Proof Sys2Proof.Machine Sys2Proof.Laws
set_option Elab.async false

/-- Settles O25: the isolation is followed stage by stage (`failCell_eq`), and the check raises its fatal message at once or not at all. -/
theorem cellIsolation : Obligations.CellIsolation := by
  refine ⟨fun c t s cause more ha hroom hw hc => ?_, fun b n t s k hst hf hk ht => ?_⟩
  · intro x d
    have hx : x.1 < 80 := cellDom_lt c
    have hd : leader (now t s) x.1 < 80 := leader_lt _ hx
    have hstep := siteStep_failCell (now t s) x cause
    have hqueue := queue_failCell (now t s) x cause hroom
    rw [cellNoOf_cell] at hqueue
    refine ⟨_, exec_cellFail ha hw hc, ?_⟩
    have hcell := cellAt_failCell (now t s) x cause hx (cellIdx_lt c)
    refine ⟨congrArg Cell.st hcell, congrArg Cell.failed hcell, congrArg Cell.acc hcell, ⟨_, hqueue, rfl⟩,
      failCell_reports (now t s) x cause hx, failCell_derated (now t s) x cause hd, failCell_dark (now t s) x cause hd, fun e he hm => hstep.rest e he hm, ?_⟩
    rw [hstep.frame]
    exact ⟨rfl, rfl, rfl, rfl⟩
  · intro x d w bad
    have hiff : bad ↔ n.val < nCells b ∧ isolationBad (cellAt s x) = true := by
      rw [isolationBad_iff]
      rfl
    refine ⟨fun hb => ?_, fun hb => exec_isolationCheck_good fun h => hb (hiff.mpr h)⟩
    obtain ⟨hn, hbad⟩ := hiff.mp hb
    have hx : x.2 < 14 := Nat.lt_of_lt_of_le hn (nCells_le _)
    have hin : cellAt (atOnce (liveFound (now t s) b n) (liveMsg (now t s) b n).bits) x = stillLive (cellAt s x) :=
      ((sameCells_atOnce _ _).cellAt x).trans (cellAt_setCellAt_same (now t s) stillLive b.isLt hx)
    refine ⟨_, exec_isolationCheck_bad hst hf hk ht hn hbad, congrArg Cell.failed hin, (congrArg Cell.st hin).trans hst, queue_atOnce _ _,
      fun h => safe_pin_atOnce h (fClass_faultWord ..), fun h => ?_⟩
    rw [atOnce_idle (s := liveFound (now t s) b n) h]
    rfl

end Sys2Proof.Proofs
end

section
/-! The droop levels and the flare banks: what one stage of a crossing does and leaves (R99, R132, R135 to R142). -/

namespace Sys2Proof.Laws
open Sys2Proof Sys2Proof.Machine
set_option Elab.async false

/-! ### What a crossing reads -/

theorem OnlyDoms.cfgAt {s u : State} (h : OnlyDoms s u) (d : Nat) : Machine.cfgAt u d = Machine.cfgAt s d := by
  rw [h]
  rfl

theorem OnlyDoms.modeOn {s u : State} (h : OnlyDoms s u) (i : Nat) : Machine.modeOn u i = Machine.modeOn s i := by
  rw [h]
  rfl

theorem stationCells_congr {s u : State} {d : Nat} (h : OnlyDoms s u) (hd : outputState (domOf u d) = outputState (domOf s d)) :
    stationCells u d = stationCells s d := by
  rw [stationCells, stationSites, joined_congr h hd]
  rfl

/-- What a domain's clock outputs rest on. -/
def clockView (D : Domain) : DState × DState := (D.state, D.heldFrom)

theorem clockActs_congr {s u : State} (h : SameView clockView s u) (d : Nat) : clockActs u d = clockActs s d := by
  obtain ⟨hst, hfrom⟩ := Prod.mk.inj (h.1 d)
  rw [clockActs, clockActs, hst, hfrom]

theorem isTile_of_clockActs {s : State} {d : Nat} (h : clockActs s d = true) : isTile d = true := by
  rw [clockActs, Bool.and_eq_true] at h
  exact h.1

/-- What the flare banks of a station rest on, and the counts of their fires. -/
def bankView (D : Domain) : PairRole × Flare × Word × Word := (D.pair, D.droop.flare, ctrOf D 2, ctrOf D 3)

theorem flare_of_bankView {D E : Domain} (h : bankView E = bankView D) : E.droop.flare = D.droop.flare := by
  obtain ⟨-, h⟩ := Prod.mk.inj h
  exact (Prod.mk.inj h).1

theorem ctr2_of_bankView {D E : Domain} (h : bankView E = bankView D) : ctrOf E 2 = ctrOf D 2 := by
  obtain ⟨-, h⟩ := Prod.mk.inj h
  obtain ⟨-, h⟩ := Prod.mk.inj h
  exact (Prod.mk.inj h).1

theorem ctr3_of_bankView {D E : Domain} (h : bankView E = bankView D) : ctrOf E 3 = ctrOf D 3 := by
  obtain ⟨-, h⟩ := Prod.mk.inj h
  obtain ⟨-, h⟩ := Prod.mk.inj h
  exact (Prod.mk.inj h).2

/-- A count that is not of fires or missed fires leaves the banks' view. -/
theorem bankView_bump {k : Nat} (h2 : k - 1 ≠ 1) (h3 : k - 1 ≠ 2) (n : Nat) (D : Domain) : bankView (bump k n D) = bankView D := by
  rw [bankView, ctrOf_bump_ne h2, ctrOf_bump_ne h3]
  rfl

theorem anyBank_congr {s u : State} (h : SameView bankView s u) (d : Nat) (f : Flare → Bool) : anyBank u d f = anyBank s d f := by
  have hbank (x : Nat) : f (domOf u x).droop.flare = f (domOf s x).droop.flare := by rw [flare_of_bankView (h.1 x)]
  rw [anyBank, membersOf_congr (Prod.mk.inj (h.1 d)).1, anyBank, funext hbank]

theorem anyBank_of_own {s : State} {d : Nat} {f : Flare → Bool} (h : f (domOf s d).droop.flare = true) : anyBank s d f = true :=
  List.any_eq_true.mpr ⟨d, mem_membersOf_self s d, h⟩

theorem steadyReport_off {s : State} (h : modeOn s 0 = false) (d level v : Nat) : steadyReport s d level v = s :=
  if_neg (by rw [h, Bool.false_and]; decide)

/-! ### Banks that fire (R140) -/

theorem fireBank_eq (r : Droop) : fireBank r = { r with flare := (fireBank r).flare, fired := (fireBank r).fired } := by
  unfold fireBank
  split <;> rfl

theorem flare_fireBank_armed {r : Droop} (h : r.flare = .armed) : (fireBank r).flare = .conducting := by rw [fireBank, if_pos h]

/-- A domain whose bank fires if it is armed. -/
def bankFired (D : Domain) : Domain := { D with droop := fireBank D.droop }

/-- A domain with one more bank fire counted. -/
def fireCounted (D : Domain) : Domain := bump 2 1 { D with epFires := D.epFires + 1 }

/-- Outside STEADY a fire level fires the armed banks, or counts a missed fire where they conduct or recharge. -/
theorem fireLevel_off {s : State} (h : modeOn s 0 = false) (d v : Nat) : fireLevel s d v =
    if (cfgAt s d).lim.flareEn = 0 then s
    else if anyBank s d (fun f => f == .armed) then setDom (setMembers s d bankFired) d fireCounted
    else if anyBank s d (fun f => f == .conducting || f == .recharging) then setDom s d (bump 3 1) else s := by
  have hm : modeOn (setDom (setMembers s d bankFired) d fireCounted) 0 = false := by
    rw [((onlyDoms_setMembers s d bankFired).trans (onlyDoms_setDom _ d fireCounted)).modeOn, h]
  have hrep := steadyReport_off hm d 2 v
  exact congrArg (fun a => if (cfgAt s d).lim.flareEn = 0 then s else if anyBank s d (fun f => f == .armed) then a else
    if anyBank s d (fun f => f == .conducting || f == .recharging) then setDom s d (bump 3 1) else s) hrep

theorem stationStep_fireLevel {s : State} (h : modeOn s 0 = false) (d v : Nat) : StationStep s (fireLevel s d v) d := by
  have hfire := stationStep_setMembers s d bankFired
  have hself := mem_membersOf_self (setMembers s d bankFired) d
  rw [fireLevel_off h]
  exact stationStep_of_ite (.refl s d) (stationStep_of_ite (hfire.trans (stationStep_setDom _ fireCounted hself fun _ => rfl))
    (stationStep_of_ite (stationStep_setDom s _ (mem_membersOf_self s d) fun _ => rfl) (.refl s d)))

/-- What no fire changes. -/
theorem sameView_fireLevel {β : Type} {m : Domain → β} {s : State} (h : modeOn s 0 = false) (hfire : ∀ D, m (bankFired D) = m D)
    (hcount : ∀ D, m (fireCounted D) = m D) (hmiss : ∀ D, m (bump 3 1 D) = m D) (d v : Nat) : SameView m s (fireLevel s d v) := by
  rw [fireLevel_off h]
  exact sameView_of_ite (.refl s) (sameView_of_ite ((sameView_setMembers s d _ hfire).trans (sameView_setDom _ d _ hcount))
    (sameView_of_ite (sameView_setDom s d _ hmiss) (.refl s)))

section
variable {s : State} (hm : modeOn s 0 = false) {d : Nat} (hd : d < 80) (v : Nat)
include hm hd

/-- An armed bank fires and is counted. -/
theorem fireLevel_armed (hen : (cfgAt s d).lim.flareEn ≠ 0) (hf : (domOf s d).droop.flare = .armed) :
    (domOf (fireLevel s d v) d).droop.flare = .conducting ∧ ctrOf (domOf (fireLevel s d v) d) 2 = ctrOf (domOf s d) 2 + 1 := by
  rw [fireLevel_off hm, if_neg hen, if_pos (anyBank_of_own (by rw [hf]; rfl)), domOf_setDom_same _ _ hd, domOf_setMembers_self _ _ hd]
  exact ⟨flare_fireBank_armed hf, ctrOf_bump_same (by decide) 1 _⟩

/-- Without an armed bank nothing fires. -/
theorem fireLevel_unarmed (hno : anyBank s d (fun f => f == .armed) = false) :
    (domOf (fireLevel s d v) d).droop.flare = (domOf s d).droop.flare ∧ ctrOf (domOf (fireLevel s d v) d) 2 = ctrOf (domOf s d) 2 := by
  rw [fireLevel_off hm, hno, if_neg Bool.false_ne_true]
  split
  · exact ⟨rfl, rfl⟩
  split
  · rw [domOf_setDom_same _ _ hd]
    exact ⟨rfl, ctrOf_bump_ne (by decide) 1 _⟩
  · exact ⟨rfl, rfl⟩

/-- A bank that conducts or recharges misses the fire, which is counted. -/
theorem fireLevel_missed (hen : (cfgAt s d).lim.flareEn ≠ 0) (hno : anyBank s d (fun f => f == .armed) = false)
    (hf : (domOf s d).droop.flare = .conducting ∨ (domOf s d).droop.flare = .recharging) :
    ctrOf (domOf (fireLevel s d v) d) 3 = ctrOf (domOf s d) 3 + 1 := by
  have hbusy : anyBank s d (fun f => f == .conducting || f == .recharging) = true :=
    anyBank_of_own (by rcases hf with hf | hf <;> rw [hf] <;> rfl)
  rw [fireLevel_off hm, if_neg hen, hno, if_neg Bool.false_ne_true, hbusy, if_pos rfl, domOf_setDom_same _ _ hd]
  exact ctrOf_bump_same (by decide) 1 _

end

/-- What a crossing sets that no fire changes. -/
def levelView (D : Domain) : Bool × Bool × BitVec 16 × Option Nat × Bool × Bool × Vector Cell 14 × Word × Word :=
  (D.droop.in1, D.droop.in2, D.droop.vlow, D.droop.last1, D.droop.glint, D.droop.dt3, D.cells, ctrOf D 1, ctrOf D 4)

theorem sameLevels_fireLevel {s : State} (h : modeOn s 0 = false) (d v : Nat) : SameView levelView s (fireLevel s d v) := by
  refine sameView_fireLevel h (fun D => ?_) (fun D => ?_) (fun D => ?_) d v
  · rw [bankFired, fireBank_eq]
    rfl
  · rw [levelView, fireCounted, ctrOf_bump_ne (by decide), ctrOf_bump_ne (by decide)]
    rfl
  · rw [levelView, ctrOf_bump_ne (by decide), ctrOf_bump_ne (by decide)]
    rfl

/-! ### Parking that is aborted (R99) -/

/-- A station whose parking pointer moves on. -/
def pointerMoved (n : Nat) (D : Domain) : Domain := { D with park := { D.park with ptr := (D.park.ptr + 1) % n } }

theorem abortPark_eq (s : State) (d : Nat) : abortPark s d =
    if anyParked s d then setDom (unparkAll s d) d (pointerMoved (stationCells s d).length) else s := rfl

theorem stationStep_abortPark (s : State) (d : Nat) : StationStep s (abortPark s d) d := by
  have hun := stationStep_unparkAll s d
  rw [abortPark_eq]
  exact stationStep_of_ite (hun.trans (stationStep_setDom _ (pointerMoved _) (mem_membersOf_self _ d) fun _ => rfl)) (.refl s d)

theorem sameView_abortPark {β : Type} {m : Domain → β} (hc : ∀ D c, m { D with cells := c } = m D) (hp : ∀ D n, m (pointerMoved n D) = m D)
    (s : State) (d : Nat) : SameView m s (abortPark s d) := by
  rw [abortPark_eq]
  exact sameView_of_ite ((sameView_unparkAll hc s d).trans (sameView_setDom _ d _ fun D => hp D _)) (.refl s)

/-- A cell that runs: neither parked nor on its way there. -/
def Unparked (C : Cell) : Prop := C.st ≠ .ramp ∧ C.st ≠ .warm ∧ C.st ≠ .cold

theorem unparked_abortPark {s : State} {d : Nat} {x : Nat × Nat} (hx : x ∈ stationCells s d) : Unparked (cellAt (abortPark s d) x) := by
  rw [abortPark_eq]
  cases hany : anyParked s d with
  | true =>
    have hcell : cellAt (setDom (unparkAll s d) d (pointerMoved (stationCells s d).length)) x = cellAt (unparkAll s d) x :=
      SameCells.cellAt (sameView_setDom (m := Domain.cells) _ d _).1 x
    rw [if_pos rfl, hcell, cellAt_unparkAll, if_pos hx]
    exact unparked_st _
  | false =>
    have hnot : ¬((cellAt s x).st == .ramp || (cellAt s x).st == .warm || (cellAt s x).st == .cold) = true := List.any_eq_false.mp hany x hx
    rw [if_neg Bool.false_ne_true]
    refine ⟨fun h => ?_, fun h => ?_, fun h => ?_⟩ <;> exact hnot (by rw [h]; rfl)

/-! ### The divider action of DT3 (R139) -/

/-- A domain whose DT3 action holds. -/
def dt3Held (D : Domain) : Domain := { D with droop := { D.droop with dt3 := true, dt3Good := 0 } }

theorem dt3Action_off {s : State} (h : modeOn s 0 = false) (d v : Nat) : dt3Action s d v =
    if clockActs s d then driveThr (setDom s d dt3Held) d else s := by
  rw [dt3Action, steadyReport_off h]
  rfl

theorem stationStep_dt3Action {s : State} (h : modeOn s 0 = false) (d v : Nat) : StationStep s (dt3Action s d v) d := by
  rw [dt3Action_off h]
  exact stationStep_of_ite ((stationStep_setDom s dt3Held (mem_membersOf_self s d) fun _ => rfl).trans (stationStep_driveThr _ d)) (.refl s d)

theorem sameView_dt3Action {β : Type} {m : Domain → β} {s : State} (h : modeOn s 0 = false) (hheld : ∀ D, m (dt3Held D) = m D)
    (hthr : ∀ D T b, m { D with tile := T, thrFrame := b } = m D) (d v : Nat) : SameView m s (dt3Action s d v) := by
  rw [dt3Action_off h]
  exact sameView_of_ite ((sameView_setDom s d _ hheld).trans (sameView_driveThr hthr _ d)) (.refl s)

/-- On a tile the DT3 action holds and raises the divider. -/
theorem dt3Action_acts {s : State} (h : modeOn s 0 = false) {d : Nat} (hd : d < 80) (hc : clockActs s d = true) (v : Nat) :
    (domOf (dt3Action s d v) d).droop.dt3 = true ∧ 1 ≤ (domOf (dt3Action s d v) d).tile.thrDiv.toNat := by
  have hset : (domOf (setDom s d dt3Held) d).droop.dt3 = true := by
    rw [domOf_setDom_same _ _ hd]
    rfl
  rw [dt3Action_off h, if_pos hc]
  exact ⟨((sameView_driveThr (m := fun D => D.droop.dt3) (fun _ _ _ => rfl) _ d).1 d).trans hset,
    thrDiv_driveThr_pos (isTile_of_clockActs hc) hd (.inr hset)⟩

end Sys2Proof.Laws
end

section
/-! The crossings of DT1, DT2 and DT3 outside STEADY (R99, R136, R139, R140, R142). -/

namespace Sys2Proof.Laws
open Sys2Proof Sys2Proof.Machine
set_option Elab.async false

/-! ### DT1 -/

/-- A domain below DT1 at a GTC, the crossing counted and parking to abort. -/
def dt1Crossed (g : Nat) (v : BitVec 16) (D : Domain) : Domain :=
  bump 1 1 { D with epGlints := D.epGlints + 1, dtFrame := D.dtFrame + 1, park := { D.park with abort := true },
                    droop := { D.droop with in1 := true, startAt := g, last1 := some g, vlow := v, crossed := D.droop.crossed ||| 1 } }

/-- A domain whose glint pattern acts. -/
def glintHeld (D : Domain) : Domain := { D with droop := { D.droop with glint := true } }

/-- A DT1 crossing with parking aborted. -/
def dt1Noted (s : State) (d : Nat) (v : BitVec 16) : State := abortPark (setDom s d (dt1Crossed s.time.gtc v)) d

/-- A DT1 crossing whose glint pattern acts on a tile. -/
def dt1Glinted (s : State) (d : Nat) (v : BitVec 16) : State :=
  if clockActs s d then driveThr (setDom (dt1Noted s d v) d glintHeld) d else dt1Noted s d v

/-- The state after a DT1 crossing. -/
def dt1Done (s : State) (d : Nat) (v : BitVec 16) : State :=
  if fireAtDt1 s.time.gtc (domOf s d) then fireLevel (dt1Glinted s d v) d v.toNat else dt1Glinted s d v

theorem bankView_dt1Crossed (g : Nat) (v : BitVec 16) (D : Domain) : bankView (dt1Crossed g v D) = bankView D := bankView_bump (by decide) (by decide) 1 _

theorem ctr1_dt1Crossed (g : Nat) (v : BitVec 16) (D : Domain) : ctrOf (dt1Crossed g v D) 1 = ctrOf D 1 + 1 := ctrOf_bump_same (by decide) 1 _

section
variable (s : State) (d : Nat) (v : BitVec 16)

theorem stationStep_dt1Noted : StationStep s (dt1Noted s d v) d :=
  (stationStep_setDom s (dt1Crossed s.time.gtc v) (mem_membersOf_self s d) fun _ => rfl).trans (stationStep_abortPark _ d)

theorem stationStep_dt1Glinted : StationStep s (dt1Glinted s d v) d :=
  stationStep_of_ite ((stationStep_dt1Noted s d v).trans
    ((stationStep_setDom _ glintHeld (mem_membersOf_self _ d) fun _ => rfl).trans (stationStep_driveThr _ d))) (stationStep_dt1Noted s d v)

/-- What the stages after the crossing leave of it. -/
theorem sameView_dt1Glinted {β : Type} {m : Domain → β} (hc : ∀ D c, m { D with cells := c } = m D) (hp : ∀ D n, m (pointerMoved n D) = m D)
    (hg : ∀ D, m (glintHeld D) = m D) (ht : ∀ D T b, m { D with tile := T, thrFrame := b } = m D) :
    SameView m (setDom s d (dt1Crossed s.time.gtc v)) (dt1Glinted s d v) :=
  (sameView_abortPark hc hp _ d).trans
    (sameView_of_ite ((sameView_setDom _ d _ hg).trans (sameView_driveThr ht _ d)) (.refl _))

theorem sameClock_dt1Noted : SameView clockView s (dt1Noted s d v) :=
  (sameView_setDom s d (dt1Crossed s.time.gtc v)).trans (sameView_abortPark (fun _ _ => rfl) (fun _ _ => rfl) _ d)

theorem sameBanks_dt1Glinted : SameView bankView s (dt1Glinted s d v) :=
  (sameView_setDom s d _ (bankView_dt1Crossed s.time.gtc v)).trans
    (sameView_dt1Glinted s d v (fun _ _ => rfl) (fun _ _ => rfl) (fun _ => rfl) fun _ _ _ => rfl)

theorem unparked_dt1Glinted {x : Nat × Nat} (hx : x ∈ stationCells s d) : Unparked (cellAt (dt1Glinted s d v) x) := by
  have hcells : SameView Domain.cells (dt1Noted s d v) (dt1Glinted s d v) :=
    sameView_of_ite ((sameView_setDom _ d glintHeld).trans (sameView_driveThr (fun _ _ _ => rfl) _ d)) (.refl _)
  have hstation : stationCells (setDom s d (dt1Crossed s.time.gtc v)) d = stationCells s d :=
    stationCells_congr (onlyDoms_setDom ..) ((sameView_setDom (m := outputState) s d _).1 d)
  rw [SameCells.cellAt hcells.1]
  exact unparked_abortPark (by rwa [hstation])

theorem glint_dt1Glinted (hd : d < 80) (hc : clockActs s d = true) : (domOf (dt1Glinted s d v) d).droop.glint = true := by
  have hset : (domOf (setDom (dt1Noted s d v) d glintHeld) d).droop.glint = true := by
    rw [domOf_setDom_same _ _ hd]
    rfl
  rw [dt1Glinted, if_pos hc]
  exact ((sameView_driveThr (m := fun D => D.droop.glint) (fun _ _ _ => rfl) _ d).1 d).trans hset

end

theorem exec_dt1Crossing {d : Dom} {s : State} (hl : levelsAct s d = true) (hin : (domOf s d).droop.in1 = false) (hm : modeOn s 0 = false)
    (v : BitVec 16) (t : Nat) : exec (.dt1Crossing d v t) s = .next (dt1Done (now t s) d v) := by
  have hgo : ¬(!levelsAct (now t s) d || (domOf (now t s) d).droop.in1) = true := by
    rw [show levelsAct (now t s) d = true from hl, show (domOf (now t s) d).droop.in1 = false from hin]
    decide
  have hoff : steadyReport (dt1Noted (now t s) d v) d 1 v.toNat = dt1Noted (now t s) d v :=
    steadyReport_off (((stationStep_dt1Noted (now t s) d v).only.modeOn 0).trans hm) ..
  have hclock : clockActs (dt1Noted (now t s) d v) d = clockActs (now t s) d := clockActs_congr (sameClock_dt1Noted ..) d
  refine (if_neg hgo).trans ?_
  show Host.Outcome.next (if fireAtDt1 _ _ then
    fireLevel (if clockActs (steadyReport (dt1Noted (now t s) d v) d 1 v.toNat) d then
      driveThr (setDom (steadyReport (dt1Noted (now t s) d v) d 1 v.toNat) d glintHeld) d else steadyReport (dt1Noted (now t s) d v) d 1 v.toNat) _ _
    else if clockActs (steadyReport (dt1Noted (now t s) d v) d 1 v.toNat) d then
      driveThr (setDom (steadyReport (dt1Noted (now t s) d v) d 1 v.toNat) d glintHeld) d else steadyReport (dt1Noted (now t s) d v) d 1 v.toNat) = _
  rw [hoff, hclock]
  rfl

section
variable {s : State} (hm : modeOn s 0 = false) {d : Nat} (v : BitVec 16)
include hm

theorem modeOn_dt1Glinted : modeOn (dt1Glinted s d v) 0 = false := ((stationStep_dt1Glinted s d v).only.modeOn 0).trans hm

theorem stationStep_dt1Done : StationStep s (dt1Done s d v) d :=
  stationStep_of_ite ((stationStep_dt1Glinted s d v).trans (stationStep_fireLevel (modeOn_dt1Glinted hm v) d _)) (stationStep_dt1Glinted s d v)

theorem sameLevels_dt1Done : SameView levelView (dt1Glinted s d v) (dt1Done s d v) :=
  sameView_of_ite (sameLevels_fireLevel (modeOn_dt1Glinted hm v) d _) (.refl _)

variable (hd : d < 80)
include hd

/-- The crossing is counted and recorded. -/
theorem dt1Done_crossed : (domOf (dt1Done s d v) d).droop.in1 = true ∧ (domOf (dt1Done s d v) d).droop.vlow = v ∧
    (domOf (dt1Done s d v) d).droop.last1 = some s.time.gtc ∧ ctrOf (domOf (dt1Done s d v) d) 1 = ctrOf (domOf s d) 1 + 1 := by
  have hlevels := (sameLevels_dt1Done hm v (d := d)).1 d
  have hcross := (sameView_dt1Glinted (m := fun D => (D.droop.in1, D.droop.vlow, D.droop.last1, ctrOf D 1)) s d v
    (fun _ _ => rfl) (fun _ _ => rfl) (fun _ => rfl) (fun _ _ _ => rfl)).1 d
  rw [domOf_setDom_same _ _ hd] at hcross
  simp only [levelView, Prod.mk.injEq] at hlevels hcross
  obtain ⟨hin, -, hv, hlast, -, -, -, hctr, -⟩ := hlevels
  obtain ⟨hin', hv', hlast', hctr'⟩ := hcross
  exact ⟨hin.trans hin', hv.trans hv', hlast.trans hlast', hctr.trans (hctr'.trans (ctr1_dt1Crossed ..))⟩

theorem dt1Done_glint (hc : clockActs s d = true) : (domOf (dt1Done s d v) d).droop.glint = true := by
  have hlevels := (sameLevels_dt1Done hm v (d := d)).1 d
  simp only [levelView, Prod.mk.injEq] at hlevels
  obtain ⟨-, -, -, -, hglint, -⟩ := hlevels
  exact hglint.trans (glint_dt1Glinted s d v hd hc)

omit hd in
theorem unparked_dt1Done {x : Nat × Nat} (hx : x ∈ stationCells s d) : Unparked (cellAt (dt1Done s d v) x) := by
  have hcells : SameCells (dt1Glinted s d v) (dt1Done s d v) := fun e => by
    have hlevels := (sameLevels_dt1Done hm v (d := d)).1 e
    simp only [levelView, Prod.mk.injEq] at hlevels
    obtain ⟨-, -, -, -, -, -, hcells, -⟩ := hlevels
    exact hcells
  rw [hcells.cellAt]
  exact unparked_dt1Glinted s d v hx

/-- A bank whose level is DT1 fires. -/
theorem dt1Done_fires (hlevel : fireAtDt1 s.time.gtc (domOf s d) = true) (hf : (domOf s d).droop.flare = .armed)
    (hen : (cfgAt s d).lim.flareEn ≠ 0) : (domOf (dt1Done s d v) d).droop.flare = .conducting ∧
      ctrOf (domOf (dt1Done s d v) d) 2 = ctrOf (domOf s d) 2 + 1 := by
  have hbank := (sameBanks_dt1Glinted s d v).1 d
  rw [dt1Done, if_pos hlevel, ← ctr2_of_bankView hbank]
  refine fireLevel_armed (modeOn_dt1Glinted hm v) hd _ ?_ ((flare_of_bankView hbank).trans hf)
  rwa [(stationStep_dt1Glinted s d v).only.cfgAt]

/-- Where DT1 is not the level, or no bank is armed, none fires. -/
theorem dt1Done_unfired (h : fireAtDt1 s.time.gtc (domOf s d) = false ∨ anyBank s d (fun f => f == .armed) = false) :
    (domOf (dt1Done s d v) d).droop.flare = (domOf s d).droop.flare ∧ ctrOf (domOf (dt1Done s d v) d) 2 = ctrOf (domOf s d) 2 := by
  have hbanks := sameBanks_dt1Glinted s d v
  have hbank := hbanks.1 d
  rw [← flare_of_bankView hbank, ← ctr2_of_bankView hbank, dt1Done]
  split
  · rename_i hlevel
    refine fireLevel_unarmed (modeOn_dt1Glinted hm v) hd _ ((anyBank_congr hbanks d _).trans (h.resolve_left ?_))
    rw [hlevel]
    decide
  · exact ⟨rfl, rfl⟩

end

/-! ### DT2 -/

/-- A domain below DT2. -/
def dt2Crossed (v : BitVec 16) (D : Domain) : Domain := { D with droop := { D.droop with in2 := true, vlow := v, crossed := D.droop.crossed ||| 2 } }

/-- A DT2 crossing whose divider action on a tile is counted as DT3's. -/
def dt2Counted (s : State) (d : Nat) (v : BitVec 16) : State :=
  if clockActs (setDom s d (dt2Crossed v)) d then setDom (setDom s d (dt2Crossed v)) d (bump 4 1) else setDom s d (dt2Crossed v)

/-- A DT2 crossing, with the action of DT3 where a bank has failed (R142). -/
def dt2Noted (s : State) (d : Nat) (v : BitVec 16) : State :=
  if anyBank (setDom s d (dt2Crossed v)) d (fun f => f == .failed) then dt3Action (dt2Counted s d v) d v.toNat else setDom s d (dt2Crossed v)

/-- The state after a DT2 crossing. -/
def dt2Done (s : State) (d : Nat) (v : BitVec 16) : State :=
  if fireAtDt1 s.time.gtc (domOf (dt2Noted s d v) d) then dt2Noted s d v else fireLevel (dt2Noted s d v) d v.toNat

theorem exec_dt2Crossing {d : Dom} {s : State} (hl : levelsAct s d = true) (hin : (domOf s d).droop.in2 = false) (v : BitVec 16) (t : Nat) :
    exec (.dt2Crossing d v t) s = .next (dt2Done (now t s) d v) := by
  have hgo : ¬(!levelsAct (now t s) d || (domOf (now t s) d).droop.in2) = true := by
    rw [show levelsAct (now t s) d = true from hl, show (domOf (now t s) d).droop.in2 = false from hin]
    decide
  exact if_neg hgo

section
variable {s : State} (hm : modeOn s 0 = false) (d : Nat) (v : BitVec 16)

theorem stationStep_dt2Counted : StationStep s (dt2Counted s d v) d := by
  have hcross := stationStep_setDom s (dt2Crossed v) (mem_membersOf_self s d) fun _ => rfl
  exact stationStep_of_ite (hcross.trans (stationStep_setDom _ (bump 4 1) (mem_membersOf_self _ d) fun _ => rfl)) hcross

theorem clockActs_dt2Counted : clockActs (dt2Counted s d v) d = clockActs s d :=
  clockActs_congr ((sameView_setDom s d (dt2Crossed v)).trans (sameView_of_ite (sameView_setDom _ d (bump 4 1)) (.refl _))) d

omit d in
theorem ctr4_dt2Counted {d : Nat} (hd : d < 80) (hc : clockActs s d = true) :
    ctrOf (domOf (dt2Counted s d v) d) 4 = ctrOf (domOf s d) 4 + 1 := by
  have hclock : clockActs (setDom s d (dt2Crossed v)) d = true := (clockActs_congr (sameView_setDom s d (dt2Crossed v)) d).trans hc
  rw [dt2Counted, if_pos hclock, setDom_setDom, domOf_setDom_same _ _ hd]
  exact ctrOf_bump_same (by decide) 1 _

theorem dt2Noted_failed (hf : (domOf s d).droop.flare = .failed) : dt2Noted s d v = dt3Action (dt2Counted s d v) d v.toNat := by
  refine if_pos ?_
  rw [anyBank_congr (sameView_setDom s d (dt2Crossed v))]
  exact anyBank_of_own (by rw [hf]; rfl)

include hm

theorem modeOn_dt2Counted : modeOn (dt2Counted s d v) 0 = false := ((stationStep_dt2Counted d v).only.modeOn 0).trans hm

theorem stationStep_dt2Noted : StationStep s (dt2Noted s d v) d :=
  stationStep_of_ite ((stationStep_dt2Counted d v).trans (stationStep_dt3Action (modeOn_dt2Counted hm d v) d _))
    (stationStep_setDom s (dt2Crossed v) (mem_membersOf_self s d) fun _ => rfl)

theorem modeOn_dt2Noted : modeOn (dt2Noted s d v) 0 = false := ((stationStep_dt2Noted hm d v).only.modeOn 0).trans hm

theorem stationStep_dt2Done : StationStep s (dt2Done s d v) d :=
  stationStep_of_ite (stationStep_dt2Noted hm d v) ((stationStep_dt2Noted hm d v).trans (stationStep_fireLevel (modeOn_dt2Noted hm d v) d _))

theorem sameView_dt2Noted {β : Type} {m : Domain → β} (hb : ∀ D, m (bump 4 1 D) = m D) (hheld : ∀ D, m (dt3Held D) = m D)
    (ht : ∀ D T b, m { D with tile := T, thrFrame := b } = m D) : SameView m (setDom s d (dt2Crossed v)) (dt2Noted s d v) :=
  sameView_of_ite (SameView.trans (sameView_of_ite (sameView_setDom _ d _ hb) (.refl _)) (sameView_dt3Action (modeOn_dt2Counted hm d v) hheld ht d _))
    (.refl _)

theorem sameBanks_dt2Noted : SameView bankView s (dt2Noted s d v) :=
  (sameView_setDom s d (dt2Crossed v)).trans
    (sameView_dt2Noted hm d v (bankView_bump (by decide) (by decide) 1) (fun _ => rfl) fun _ _ _ => rfl)

theorem fireAtDt1_dt2Noted (g : Nat) : fireAtDt1 g (domOf (dt2Noted s d v) d) = fireAtDt1 g (domOf s d) :=
  ((sameView_setDom s d (dt2Crossed v)).trans (sameView_dt2Noted hm d v (fun _ => rfl) (fun _ => rfl) fun _ _ _ => rfl)).1 d

theorem sameLevels_dt2Done : SameView levelView (dt2Noted s d v) (dt2Done s d v) :=
  sameView_of_ite (.refl _) (sameLevels_fireLevel (modeOn_dt2Noted hm d v) d _)

variable {d} (hd : d < 80)
include hd

theorem dt2Done_crossed : (domOf (dt2Done s d v) d).droop.in2 = true ∧ (domOf (dt2Done s d v) d).droop.vlow = v := by
  have hlevels := (sameLevels_dt2Done hm d v).1 d
  have hcross := (sameView_dt2Noted (m := fun D => (D.droop.in2, D.droop.vlow)) hm d v (fun _ => rfl) (fun _ => rfl) (fun _ _ _ => rfl)).1 d
  rw [domOf_setDom_same _ _ hd] at hcross
  simp only [levelView, Prod.mk.injEq] at hlevels hcross
  obtain ⟨-, hin, hv, -⟩ := hlevels
  exact ⟨hin.trans hcross.1, hv.trans hcross.2⟩

omit hd in
/-- The state from which the fire level of DT2 acts. -/
theorem dt2Done_eq (hlevel : fireAtDt1 s.time.gtc (domOf s d) = false) : dt2Done s d v = fireLevel (dt2Noted s d v) d v.toNat :=
  if_neg (by rw [fireAtDt1_dt2Noted hm, hlevel]; decide)

/-- A bank whose level is DT2 fires. -/
theorem dt2Done_fires (hf : (domOf s d).droop.flare = .armed) (hlevel : fireAtDt1 s.time.gtc (domOf s d) = false)
    (hen : (cfgAt s d).lim.flareEn ≠ 0) : (domOf (dt2Done s d v) d).droop.flare = .conducting ∧
      ctrOf (domOf (dt2Done s d v) d) 2 = ctrOf (domOf s d) 2 + 1 := by
  have hbank := (sameBanks_dt2Noted hm d v).1 d
  rw [dt2Done_eq hm v hlevel, ← ctr2_of_bankView hbank]
  refine fireLevel_armed (modeOn_dt2Noted hm d v) hd _ ?_ ((flare_of_bankView hbank).trans hf)
  rwa [(stationStep_dt2Noted hm d v).only.cfgAt]

/-- A bank that conducts or recharges misses the fire. -/
theorem dt2Done_missed (hf : (domOf s d).droop.flare = .conducting ∨ (domOf s d).droop.flare = .recharging)
    (hno : anyBank s d (fun f => f == .armed) = false) (hlevel : fireAtDt1 s.time.gtc (domOf s d) = false)
    (hen : (cfgAt s d).lim.flareEn ≠ 0) : (domOf (dt2Done s d v) d).droop.flare = (domOf s d).droop.flare ∧
      ctrOf (domOf (dt2Done s d v) d) 3 = ctrOf (domOf s d) 3 + 1 := by
  have hbanks := sameBanks_dt2Noted hm d v
  have hbank := hbanks.1 d
  have hm' := modeOn_dt2Noted hm d v
  have hno' := (anyBank_congr hbanks d _).trans hno
  rw [← flare_of_bankView hbank] at hf
  rw [dt2Done_eq hm v hlevel, ← ctr3_of_bankView hbank, ← flare_of_bankView hbank]
  refine ⟨(fireLevel_unarmed hm' hd _ hno').1, fireLevel_missed hm' hd _ ?_ hno' hf⟩
  rwa [(stationStep_dt2Noted hm d v).only.cfgAt]

/-- With a failed bank the action of DT3 applies to a tile and counts (R142). -/
theorem dt2Done_failed (hf : (domOf s d).droop.flare = .failed) (hc : clockActs s d = true) :
    (domOf (dt2Done s d v) d).droop.dt3 = true ∧ ctrOf (domOf (dt2Done s d v) d) 4 = ctrOf (domOf s d) 4 + 1 := by
  have hlevels := (sameLevels_dt2Done hm d v).1 d
  simp only [levelView, Prod.mk.injEq] at hlevels
  obtain ⟨-, -, -, -, -, hdt3, -, -, hctr⟩ := hlevels
  have hm' := modeOn_dt2Counted hm d v
  have hkept : ctrOf (domOf (dt3Action (dt2Counted s d v) d v.toNat) d) 4 = ctrOf (domOf (dt2Counted s d v) d) 4 :=
    (sameView_dt3Action (m := fun D => ctrOf D 4) hm' (fun _ => rfl) (fun _ _ _ => rfl) d _).1 d
  rw [hdt3, hctr, dt2Noted_failed d v hf, hkept]
  exact ⟨(dt3Action_acts hm' hd ((clockActs_dt2Counted d v).trans hc) _).1, ctr4_dt2Counted v hd hc⟩

end

/-! ### DT3 -/

/-- A domain below DT3, the crossing counted. -/
def dt3Crossed (v : BitVec 16) (D : Domain) : Domain :=
  bump 4 1 { D with droop := { D.droop with in3 := true, vlow := v, crossed := D.droop.crossed ||| 4 } }

/-- The state after a DT3 crossing. -/
def dt3Done (s : State) (d : Nat) (v : BitVec 16) : State := dt3Action (setDom s d (dt3Crossed v)) d v.toNat

theorem exec_dt3Crossing {d : Dom} {s : State} (hl : levelsAct s d = true) (hin : (domOf s d).droop.in3 = false) (v : BitVec 16) (t : Nat) :
    exec (.dt3Crossing d v t) s = .next (dt3Done (now t s) d v) := by
  have hgo : ¬(!levelsAct (now t s) d || (domOf (now t s) d).droop.in3) = true := by
    rw [show levelsAct (now t s) d = true from hl, show (domOf (now t s) d).droop.in3 = false from hin]
    decide
  exact if_neg hgo

section
variable {s : State} (hm : modeOn s 0 = false) {d : Nat} (v : BitVec 16)
include hm

theorem stationStep_dt3Done : StationStep s (dt3Done s d v) d :=
  (stationStep_setDom s (dt3Crossed v) (mem_membersOf_self s d) fun _ => rfl).trans (stationStep_dt3Action (s := setDom s d (dt3Crossed v)) hm d _)

theorem dt3Done_crossed (hd : d < 80) : (domOf (dt3Done s d v) d).droop.in3 = true ∧ (domOf (dt3Done s d v) d).droop.vlow = v ∧
    ctrOf (domOf (dt3Done s d v) d) 4 = ctrOf (domOf s d) 4 + 1 := by
  have hcross := (sameView_dt3Action (m := fun D => (D.droop.in3, D.droop.vlow, ctrOf D 4)) (s := setDom s d (dt3Crossed v)) hm
    (fun _ => rfl) (fun _ _ _ => rfl) d v.toNat).1 d
  rw [domOf_setDom_same _ _ hd] at hcross
  simp only [Prod.mk.injEq] at hcross
  obtain ⟨hin, hv, hctr⟩ := hcross
  exact ⟨hin, hv, hctr.trans (ctrOf_bump_same (by decide) 1 _)⟩

theorem dt3Done_acts (hd : d < 80) (hc : clockActs s d = true) :
    (domOf (dt3Done s d v) d).droop.dt3 = true ∧ 1 ≤ (domOf (dt3Done s d v) d).tile.thrDiv.toNat :=
  dt3Action_acts (s := setDom s d (dt3Crossed v)) hm hd ((clockActs_congr (sameView_setDom s d (dt3Crossed v)) d).trans hc) _

end

end Sys2Proof.Laws
end

section
/-! Floor crossings: the stop of one tile's clock, the stops of a die, and their message (R135, R138, R139). -/

namespace Sys2Proof.Laws
open Sys2Proof Sys2Proof.Machine
set_option Elab.async false

/-! ### A stop (R138) -/

/-- The stops of a domain within 1 ms, with the one at this GTC. -/
def stopTimes (g : Nat) (r : Droop) : List Nat := (g :: r.stops).filter (fun k => decide (g < k + 1000000))

/-- A domain stopped at a GTC, by its own comparator or by that of a FAB or SRM. -/
def stoppedAt (g : Nat) (ks : List Nat) (by_ : Option Dom) (r : Droop) : Droop :=
  { r with stops := ks, uvLatched := r.uvLatched || decide (3 ≤ ks.length),
           ownStop := if by_.isNone then some g else r.ownStop,
           fabStops := match by_ with
             | some f => (f, g) :: r.fabStops.filter (fun x => x.1 != f)
             | none => r.fabStops }

/-- A member of a station with its stop applied. -/
def memberStopped (g : Nat) (ks : List Nat) (by_ : Option Dom) (D : Domain) : Domain :=
  { D with droop := stopLevel (stoppedAt g ks by_ D.droop) }

theorem uvStop_eq (s : State) (d : Nat) (by_ : Option Dom) : uvStop s d by_ =
    driveThr (setMembers (setDom s d (bump 5 1)) d (memberStopped s.time.gtc (stopTimes s.time.gtc (domOf s d).droop) by_)) d := rfl

theorem stopTimes_eq (g : Nat) (r : Droop) : stopTimes g r = g :: r.stops.filter (fun k => decide (g < k + 1000000)) :=
  List.filter_cons_of_pos (decide_eq_true (Nat.lt_add_of_pos_right (by decide)))

section
variable (s : State) (d : Nat) (by_ : Option Dom)

theorem stationStep_uvStop : StationStep s (uvStop s d by_) d := by
  have hbump := stationStep_setDom s (bump 5 1) (mem_membersOf_self s d) fun _ => rfl
  rw [uvStop_eq]
  exact hbump.trans ((stationStep_setMembers _ d _).trans (stationStep_driveThr _ d))

/-- What no stop changes. -/
theorem sameView_uvStop {β : Type} {m : Domain → β} (hb : ∀ D, m (bump 5 1 D) = m D) (hs : ∀ g ks b D, m (memberStopped g ks b D) = m D)
    (ht : ∀ D T b, m { D with tile := T, thrFrame := b } = m D) : SameView m s (uvStop s d by_) := by
  rw [uvStop_eq]
  exact (sameView_setDom s d _ hb).trans ((sameView_setMembers _ d _ (hs _ _ by_)).trans (sameView_driveThr ht _ d))

/-- A stop reaches the droop state of the members alone. -/
theorem droop_uvStop {e : Nat} (he : e < 80) : (domOf (uvStop s d by_) e).droop = if e ∈ membersOf s d then
    stopLevel (stoppedAt s.time.gtc (stopTimes s.time.gtc (domOf s d).droop) by_ (domOf s e).droop) else (domOf s e).droop := by
  have hbump : (domOf (setDom s d (bump 5 1)) e).droop = (domOf s e).droop := (sameView_setDom (m := Domain.droop) s d (bump 5 1)).1 e
  have hmem : membersOf (setDom s d (bump 5 1)) d = membersOf s d := membersOf_congr ((sameView_setDom (m := Domain.pair) s d (bump 5 1)).1 d)
  have hthr (v : State) : (domOf (driveThr v d) e).droop = (domOf v e).droop := (sameView_driveThr (m := Domain.droop) (fun _ _ _ => rfl) v d).1 e
  rw [uvStop_eq, hthr, domOf_setMembers _ _ _ he, hmem]
  split
  · rw [memberStopped, hbump]
  · exact hbump

/-- A stop is counted for its domain alone. -/
theorem ctr5_uvStop {e : Nat} (he : e < 80) : ctrOf (domOf (uvStop s d by_) e) 5 = ctrOf (domOf s e) 5 + BitVec.ofNat 32 (if d = e then 1 else 0) := by
  have hkept : SameView (fun D => ctrOf D 5) (setDom s d (bump 5 1)) (uvStop s d by_) := by
    rw [uvStop_eq]
    exact (sameView_setMembers _ d _).trans (sameView_driveThr (fun _ _ _ => rfl) _ d)
  refine (hkept.1 e).trans ?_
  by_cases hde : d = e
  · subst hde
    rw [if_pos rfl, domOf_setDom_same _ _ he]
    exact ctrOf_bump_same (by decide) 1 _
  · rw [if_neg hde, domOf_setDom_ne _ _ hde, BitVec.add_zero]

end

/-! ### The stops of a die (R139) -/

/-- A tile held by the stop of a FAB or SRM since a GTC. -/
def FabStopped (d : Dom) (g : Nat) (r : Droop) : Prop := r.uvstop = true ∧ (d, g) ∈ r.fabStops

theorem fabStopped_stoppedAt (d : Dom) (g : Nat) (ks : List Nat) (r : Droop) : FabStopped d g (stopLevel (stoppedAt g ks (some d) r)) := by
  refine ⟨?_, List.mem_cons_self⟩
  show (r.clkHold || r.ownStop.isSome || true || (r.uvLatched || decide (3 ≤ ks.length))) = true
  rw [Bool.or_true, Bool.true_or]

/-- The tiles of a list stopped, one after the other, by a FAB or SRM. -/
def dieStopped (d : Dom) (l : List Nat) (s : State) : State := l.foldl (fun s x => uvStop s x (some d)) s

theorem onlyDoms_dieStopped (d : Dom) (l : List Nat) (s : State) : OnlyDoms s (dieStopped d l s) :=
  foldl_inv (I := OnlyDoms s) (fun v x hv => hv.trans (stationStep_uvStop v x (some d)).only) l (.refl s)

theorem inF_dieStopped (d : Dom) (l : List Nat) (s : State) (e : Nat) : (domOf (dieStopped d l s) e).droop.inF = (domOf s e).droop.inF :=
  (sameView_foldl (m := fun D => D.droop.inF) (fun v x => sameView_uvStop v x (some d) (fun _ => rfl) (fun _ _ _ _ => rfl) fun _ _ _ => rfl) l s).1 e

theorem ctr5_dieStopped (d : Dom) (l : List Nat) (s : State) {e : Nat} (he : e < 80) :
    ctrOf (domOf (dieStopped d l s) e) 5 = ctrOf (domOf s e) 5 + BitVec.ofNat 32 (l.count e) := by
  induction l generalizing s with
  | nil => exact (BitVec.add_zero _).symm
  | cons x l ih =>
    have hcount : (x :: l).count e = (if x = e then 1 else 0) + l.count e := by
      rw [List.count_cons, Nat.add_comm]
      simp only [beq_iff_eq]
    rw [show dieStopped d (x :: l) s = dieStopped d l (uvStop s x (some d)) from rfl, ih, ctr5_uvStop s x (some d) he, hcount, BitVec.ofNat_add,
      BitVec.add_assoc]

theorem fabStopped_uvStop (d : Dom) (s : State) (x : Nat) {e : Nat} (he : e < 80)
    (h : e ∈ membersOf s x ∨ FabStopped d s.time.gtc (domOf s e).droop) : FabStopped d s.time.gtc (domOf (uvStop s x (some d)) e).droop := by
  rw [droop_uvStop s x (some d) he]
  split
  · exact fabStopped_stoppedAt d _ _ _
  · rename_i hx
    exact h.resolve_left hx

theorem fabStopped_dieStopped (d : Dom) (l : List Nat) (s : State) {e : Nat} (he : e < 80)
    (h : e ∈ l ∨ FabStopped d s.time.gtc (domOf s e).droop) : FabStopped d s.time.gtc (domOf (dieStopped d l s) e).droop := by
  induction l generalizing s with
  | nil => exact h.resolve_left List.not_mem_nil
  | cons x l ih =>
    have htime : (uvStop s x (some d)).time = s.time := (stationStep_uvStop s x (some d)).only.time
    have hstep : e ∈ l ∨ FabStopped d s.time.gtc (domOf (uvStop s x (some d)) e).droop := by
      rcases h with h | h
      · rcases List.mem_cons.mp h with rfl | h
        · exact .inr (fabStopped_uvStop d s e he (.inl (mem_membersOf_self s e)))
        · exact .inl h
      · exact .inr (fabStopped_uvStop d s x he (.inr h))
    rw [← htime] at hstep ⊢
    exact ih (uvStop s x (some d)) hstep

theorem nodup_floorStops (s : State) (d : Nat) : (floorStops s d).Nodup := by
  unfold floorStops
  split
  · exact (List.nodup_range.filter _).filter _
  · exact List.nodup_nil

theorem mem_floorStops {s : State} {d x : Nat} (h64 : 64 ≤ d) (h72 : d < 72) (hx : x < 80) (ht : isTile x = true) (hdie : dieOf x = dieOf d)
    (hst : (domOf s x).state = .lit) (ho : isOdd s x = false) : x ∈ floorStops s d := by
  rw [floorStops, if_pos ⟨h64, h72⟩, domsOfDie, List.mem_filter, List.mem_filter, List.mem_range, hdie, beq_iff_eq, ht, hst, ho]
  exact ⟨⟨hx, rfl⟩, rfl⟩

/-! ### The crossing and its message (R139) -/

/-- The free delay within the window of a floor crossing (log 20). -/
def floorAge (s : State) : Nat := 5 + Config.fresh s.freeIdx % 16

theorem floorAge_bounds (s : State) : 5 ≤ floorAge s ∧ floorAge s ≤ 20 :=
  ⟨Nat.le_add_right _ _, Nat.add_le_add_left (Nat.le_of_lt_succ (Nat.mod_lt _ (by decide))) 5⟩

/-- A domain below its floor, since the start of the window. -/
def floorMarked (start : Nat) (v : BitVec 16) (D : Domain) : Domain :=
  { D with droop := { D.droop with inF := true, startF := start, uvGood := 0, vlow := v, crossed := D.droop.crossed ||| 8 } }

/-- The state with one more free value taken. -/
def freshTaken (s : State) : State := { s with freeIdx := s.freeIdx + 1 }

/-- A floor crossing, marked. -/
def floorNoted (s : State) (d : Nat) (v : BitVec 16) : State := setDom (freshTaken s) d (floorMarked (s.time.gtc - floorAge s) v)

/-- The message of a floor crossing at a level (log 20). -/
def floorMsg (s : State) (d level : Nat) (v : BitVec 16) : FaultMsg :=
  { bits := faultWord 1 0x02 0x6 d (uvDetail level v.toNat (floorAge s)) (epochIn s), from_ := some (s.time.gtc - floorAge s), ext := 0 }

/-- The detail holds the level, the voltage and the age as they are. -/
theorem uvDetail_floor (s : State) (level : Nat) (v : BitVec 16) :
    uvDetail level v.toNat (floorAge s) = level * 2 ^ 28 + v.toNat * 2 ^ 12 + floorAge s := by
  have hv : satNat 16 v.toNat = v.toNat := Nat.min_eq_left (Nat.le_of_lt_succ v.isLt)
  have hage : satNat 12 (floorAge s) = floorAge s := Nat.min_eq_left (Nat.le_trans (floorAge_bounds s).2 (by decide))
  rw [uvDetail, hv, hage]
  rfl

theorem level_floorMsg (s : State) (d : Nat) (v : BitVec 16) {level : Nat} (h : level < 16) : fDetail (floorMsg s d level v).bits / 2 ^ 28 = level := by
  have hv := v.isLt
  have hage := (floorAge_bounds s).2
  rw [floorMsg, fDetail_faultWord, uvDetail_floor]
  omega

/-- A floor crossing reported, an event of a sieve test. -/
def floorTold (s w : State) (d level : Nat) (v : BitVec 16) : State := sieveEvent (queued w (floorMsg s d level v)) d

section
variable {s w : State} (h : OnlyDoms (freshTaken s) w) (d level : Nat) (v : BitVec 16)

omit h in
theorem dom_floorTold : (floorTold s w d level v).dom = w.dom := by
  rw [floorTold, sieveEvent_frame]
  rfl

include h

theorem raiseFrom_floor : sieveEvent (raiseFrom w 1 0x02 0x6 d (uvDetail level v.toNat (floorAge s)) (s.time.gtc - floorAge s)) d =
    floorTold s w d level v := by
  rw [raiseFrom_eq _ _ _ _ _ _ _ fun hc => absurd hc (by decide), h.epochIn]
  rfl

theorem queue_floorTold : (floorTold s w d level v).safety.queue = s.safety.queue ++ [floorMsg s d level v] := by
  rw [floorTold, sieveEvent_frame]
  exact congrArg (fun r : Safety => r.queue ++ [floorMsg s d level v]) h.safety

theorem floorTold_frame : floorTold s w d level v = { s with
    dom := (floorTold s w d level v).dom, safety := { s.safety with queue := (floorTold s w d level v).safety.queue },
    sieve := (floorTold s w d level v).sieve, freeIdx := (floorTold s w d level v).freeIdx } := by
  have hframe := sieveEvent_frame (queued w (floorMsg s d level v)) d
  rw [floorTold]
  generalize sieveEvent (queued w (floorMsg s d level v)) d = u at hframe ⊢
  rw [OnlyDoms] at h
  rw [hframe, h]
  rfl

end

/-! ### The two kinds of floor crossing -/

theorem onlyDoms_floorNoted (s : State) (d : Nat) (v : BitVec 16) : OnlyDoms (freshTaken s) (floorNoted s d v) := onlyDoms_setDom ..

theorem stationStep_floorNoted (s : State) (d : Nat) (v : BitVec 16) : StationStep (freshTaken s) (floorNoted s d v) d :=
  stationStep_setDom (freshTaken s) _ (mem_membersOf_self (freshTaken s) d) fun _ => rfl

/-- What the mark of a floor crossing leaves. -/
theorem sameView_floorNoted {β : Type} {m : Domain → β} (h : ∀ start v D, m (floorMarked start v D) = m D) (s : State) (d : Nat) (v : BitVec 16) :
    ∀ e, m (domOf (floorNoted s d v) e) = m (domOf s e) :=
  (sameView_setDom (freshTaken s) d _ (h _ v)).1

theorem clockActs_floorNoted (s : State) (d : Nat) (v : BitVec 16) : clockActs (floorNoted s d v) d = clockActs s d :=
  clockActs_congr (s := freshTaken s) (sameView_setDom (freshTaken s) d _) d

/-- A floor crossing of a tile, its clock stopped. -/
def floorOwn (s : State) (d : Nat) (v : BitVec 16) : State := uvStop (floorNoted s d v) d none

/-- A floor crossing of a FAB or SRM, the tiles of its die stopped. -/
def floorDie (s : State) (d : Dom) (v : BitVec 16) : State := dieStopped d (floorStops (floorNoted s d v) d) (floorNoted s d v)

/-- A floor crossing, its stops made. -/
def floorStopped (s : State) (d : Dom) (v : BitVec 16) : State := if clockActs s d then floorOwn s d v else floorDie s d v

theorem stationStep_floorOwn (s : State) (d : Nat) (v : BitVec 16) : StationStep (freshTaken s) (floorOwn s d v) d :=
  (stationStep_floorNoted s d v).trans (stationStep_uvStop _ d none)

theorem onlyDoms_floorDie (s : State) (d : Dom) (v : BitVec 16) : OnlyDoms (freshTaken s) (floorDie s d v) :=
  (onlyDoms_floorNoted s d v).trans (onlyDoms_dieStopped d _ _)

section
variable {d : Dom} {s : State} (hl : levelsAct s d = true) (hin : (domOf s d).droop.inF = false) (v : BitVec 16) (t : Nat)
include hl hin

theorem exec_floorCrossing : exec (.floorCrossing d v t) s = .next (sieveEvent (raiseFrom (floorStopped (now t s) d v) 1 0x02 0x6 d
    (uvDetail (if clockActs (now t s) d && (domOf (floorStopped (now t s) d v) d).droop.uvLatched then 5 else 4) v.toNat (floorAge (now t s)))
    ((now t s).time.gtc - floorAge (now t s))) d) := by
  have hgo : ¬(!levelsAct (now t s) d || (domOf (now t s) d).droop.inF) = true := by
    rw [show levelsAct (now t s) d = true from hl, show (domOf (now t s) d).droop.inF = false from hin]
    decide
  rw [floorStopped, ← clockActs_floorNoted (now t s) d v]
  exact if_neg hgo

/-- A crossing of a FAB or SRM stops the tiles of its die, at level 4. -/
theorem exec_floorCrossing_die (hc : clockActs s d = false) : exec (.floorCrossing d v t) s =
    .next (floorTold (now t s) (floorDie (now t s) d v) d 4 v) := by
  rw [exec_floorCrossing hl hin, floorStopped, show clockActs (now t s) d = false from hc, if_neg Bool.false_ne_true, Bool.false_and,
    if_neg Bool.false_ne_true, raiseFrom_floor (onlyDoms_floorDie (now t s) d v)]

/-- A crossing of a tile stops it, at level 5 once the stop is latched. -/
theorem exec_floorCrossing_tile (hc : clockActs s d = true) : exec (.floorCrossing d v t) s =
    .next (floorTold (now t s) (floorOwn (now t s) d v) d (if (domOf (floorOwn (now t s) d v) d).droop.uvLatched then 5 else 4) v) := by
  rw [exec_floorCrossing hl hin, floorStopped, show clockActs (now t s) d = true from hc, if_pos rfl, Bool.true_and,
    raiseFrom_floor (stationStep_floorOwn (now t s) d v).only]

end

theorem inF_floorDie (s : State) (d : Dom) (v : BitVec 16) : (domOf (floorDie s d v) d).droop.inF = true := by
  rw [floorDie, inF_dieStopped, floorNoted, domOf_setDom_fin]
  rfl

/-- Each listed tile is stopped since the crossing and counts the stop once. -/
theorem floorDie_stops (s : State) {d : Dom} (v : BitVec 16) {x : Nat} (hx : x < 80) (h64 : 64 ≤ d.val) (h72 : d.val < 72)
    (ht : isTile x = true) (hdie : dieOf x = dieOf d) (hst : (domOf s x).state = .lit) (ho : isOdd s x = false) :
    FabStopped d s.time.gtc (domOf (floorDie s d v) x).droop ∧ ctrOf (domOf (floorDie s d v) x) 5 = ctrOf (domOf s x) 5 + 1 := by
  have hmem : x ∈ floorStops (floorNoted s d v) d := by
    refine mem_floorStops h64 h72 hx ht hdie ((sameView_floorNoted (m := Domain.state) (fun _ _ _ => rfl) s d v x).trans hst) ?_
    rw [isOdd, sameView_floorNoted (m := Domain.pair) (fun _ _ _ => rfl)]
    exact ho
  have hctr : ctrOf (domOf (floorNoted s d v) x) 5 = ctrOf (domOf s x) 5 := sameView_floorNoted (m := fun D => ctrOf D 5) (fun _ _ _ => rfl) s d v x
  refine ⟨fabStopped_dieStopped d _ _ hx (.inl hmem), ?_⟩
  rw [floorDie, ctr5_dieStopped d _ _ hx, List.count_eq_one_of_mem (nodup_floorStops ..) hmem, hctr]
  rfl

section
variable (s : State) {d : Nat} (hd : d < 80) (v : BitVec 16)
include hd

/-- The droop state of a tile stopped by its own comparator. -/
theorem droop_floorOwn : (domOf (floorOwn s d v) d).droop =
    stopLevel (stoppedAt s.time.gtc (s.time.gtc :: (domOf s d).droop.stops.filter (fun k => decide (s.time.gtc < k + 1000000))) none
      (floorMarked (s.time.gtc - floorAge s) v (domOf s d)).droop) := by
  have hdom : domOf (floorNoted s d v) d = floorMarked (s.time.gtc - floorAge s) v (domOf s d) := domOf_setDom_same _ _ hd
  rw [floorOwn, droop_uvStop _ _ _ hd, if_pos (mem_membersOf_self _ d), hdom, stopTimes_eq]
  rfl

omit hd in
theorem uvstop_stoppedAt_own (g : Nat) (ks : List Nat) (r : Droop) : (stopLevel (stoppedAt g ks none r)).uvstop = true := by
  show (r.clkHold || true || !r.fabStops.isEmpty || (r.uvLatched || decide (3 ≤ ks.length))) = true
  rw [Bool.or_true, Bool.true_or, Bool.true_or]

theorem floorOwn_stops : (domOf (floorOwn s d v) d).droop.uvstop = true ∧ (domOf (floorOwn s d v) d).droop.inF = true ∧
    ctrOf (domOf (floorOwn s d v) d) 5 = ctrOf (domOf s d) 5 + 1 := by
  have hctr : ctrOf (domOf (floorNoted s d v) d) 5 = ctrOf (domOf s d) 5 := sameView_floorNoted (m := fun D => ctrOf D 5) (fun _ _ _ => rfl) s d v d
  rw [droop_floorOwn s hd, floorOwn, ctr5_uvStop _ _ _ hd, if_pos rfl, hctr]
  exact ⟨uvstop_stoppedAt_own .., rfl, rfl⟩

/-- The third stop within 1 ms latches. -/
theorem uvLatched_floorOwn : (domOf (floorOwn s d v) d).droop.uvLatched = true ↔
    2 ≤ ((domOf s d).droop.stops.filter (fun k => decide (s.time.gtc < k + 1000000))).length ∨ (domOf s d).droop.uvLatched = true := by
  rw [droop_floorOwn s hd]
  show ((domOf s d).droop.uvLatched || decide (3 ≤ ((domOf s d).droop.stops.filter _).length + 1)) = true ↔ _
  rw [Bool.or_eq_true, decide_eq_true_eq, Nat.succ_le_succ_iff, or_comm]

end

end Sys2Proof.Laws

namespace Sys2Proof.Proofs
open Sys2Proof Sys2Proof.Machine Sys2Proof.Laws
set_option Elab.async false

/-- Settles O30: each crossing is a step of its station, or for a FAB or SRM of the tiles of its die, whose stages leave what the ones before set. -/
theorem droopCrossings : Obligations.DroopCrossings := by
  refine ⟨fun d v t s hl hin hm => ?_, fun d v t s hl hm => ⟨fun hin => ?_, fun hin => ?_⟩, fun d v t s hl hin h64 h72 => ?_,
    fun d v t s hl hin hc => ?_⟩
  · have hstep := stationStep_dt1Done (s := now t s) hm (d := d) v
    obtain ⟨hin1, hv, hlast, hctr⟩ := dt1Done_crossed (s := now t s) hm v d.isLt
    exact ⟨_, exec_dt1Crossing hl hin hm v t, hin1, hv, hlast, hctr, dt1Done_glint (s := now t s) hm v d.isLt,
      fun x hx => unparked_dt1Done (s := now t s) hm v hx, dt1Done_fires (s := now t s) hm v d.isLt,
      dt1Done_unfired (s := now t s) hm v d.isLt, otherDomainsSame_of_step hstep, hstep.only⟩
  · have hstep := stationStep_dt2Done (s := now t s) hm d v
    obtain ⟨hin2, hv⟩ := dt2Done_crossed (s := now t s) hm v d.isLt
    exact ⟨_, exec_dt2Crossing hl hin v t, hin2, hv, dt2Done_fires (s := now t s) hm v d.isLt, dt2Done_missed (s := now t s) hm v d.isLt,
      dt2Done_failed (s := now t s) hm v d.isLt, otherDomainsSame_of_step hstep, hstep.only⟩
  · have hstep := stationStep_dt3Done (s := now t s) hm (d := d) v
    obtain ⟨hin3, hv, hctr⟩ := dt3Done_crossed (s := now t s) hm v d.isLt
    exact ⟨_, exec_dt3Crossing hl hin v t, hin3, hv, hctr, dt3Done_acts (s := now t s) hm v d.isLt, otherDomainsSame_of_step hstep, hstep.only⟩
  · have hc : clockActs s d = false := by rw [clockActs, isTile, decide_eq_false (by omega), Bool.false_and]
    have honly := onlyDoms_floorDie (now t s) d v
    have hdom (e : Nat) : domOf (floorTold (now t s) (floorDie (now t s) d v) d 4 v) e = domOf (floorDie (now t s) d v) e := by
      rw [domOf, dom_floorTold, domOf]
    refine ⟨_, exec_floorCrossing_die hl hin v t hc, ?_, fun x ht hdie hst ho => ?_, ⟨_, queue_floorTold honly d 4 v, ?_⟩,
      floorTold_frame honly d 4 v⟩
    · rw [hdom]
      exact inF_floorDie (now t s) d v
    · obtain ⟨⟨hstop, hfab⟩, hctr⟩ := floorDie_stops (now t s) v x.isLt h64 h72 ht hdie hst ho
      rw [hdom]
      exact ⟨hstop, hfab, hctr⟩
    · exact ⟨fKindOf_faultWord .., fClass_faultWord .., fUnit_faultWord .., (fInst_faultWord ..).trans (Nat.mod_eq_of_lt (by omega)),
        level_floorMsg _ d v (by decide)⟩
  · intro g earlier
    have hstep := stationStep_floorOwn (now t s) d v
    have hdom (e level : Nat) : domOf (floorTold (now t s) (floorOwn (now t s) d v) d level v) e = domOf (floorOwn (now t s) d v) e := by
      rw [domOf, dom_floorTold, domOf]
    have hlatched : (domOf (floorOwn (now t s) d v) d).droop.uvLatched = true ↔ 2 ≤ earlier.length ∨ (domOf s d).droop.uvLatched = true :=
      uvLatched_floorOwn (now t s) d.isLt v
    obtain ⟨hstop, hin', hctr⟩ := floorOwn_stops (now t s) d.isLt v
    obtain ⟨hlo, hhi⟩ := floorAge_bounds (now t s)
    refine ⟨_, exec_floorCrossing_tile hl hin v t hc, ?_, ?_, ?_, fun h => ?_, ⟨floorAge (now t s), hlo, hhi, ?_⟩, fun e he hm => ?_,
      floorTold_frame hstep.only d _ v⟩
    · rw [hdom, hstop]
    · rw [hdom, hin']
    · rw [hdom]
      exact hctr
    · rw [hdom]
      exact hlatched.mpr (.inl h)
    · rw [queue_floorTold hstep.only, floorMsg, uvDetail_floor, if_congr hlatched rfl rfl]
      rfl
    · exact (hdom e _).trans (hstep.rest e (not_mem_membersOf_of_leader he hm))

end Sys2Proof.Proofs
end

section
/-! Timers and ends of a domain's transitions (R114, R117, R121, R123, R135). -/

namespace Sys2Proof.Laws
open Sys2Proof Sys2Proof.Machine
set_option Elab.async false

/-! ### A station's step that is reported -/

/-- A station's step and its report: nothing changes but the members' domains and the reports. -/
theorem report_of_stationStep {s v : State} {d : Dom} {t : Nat} (h : StationStep (now t s) v d) (ht : s.time.gtc ≤ t) (w : IntWhat) :
    (report v d w).dom = v.dom ∧ (report v d w).ints = s.ints ++ [{ dom := d, what := w, at_ := t }] ∧ OtherDomainsSame s (report v d w) d ∧
    report v d w = { now t s with dom := (report v d w).dom, ints := (report v d w).ints } := by
  have hgtc : v.time.gtc = t := by
    rw [h.only.time]
    exact Nat.max_eq_right ht
  rw [report_eq, hgtc, ints_of_stationStep h]
  refine ⟨rfl, rfl, fun e he hm => otherDomainsSame_of_step h e he hm, ?_⟩
  conv_lhs => rw [h.only]

/-- A station's step and its message: nothing changes but the members' domains and the collector's queue. -/
theorem raise_of_stationStep {s v : State} {d cls t : Nat} (h : StationStep (now t s) v d) (hc : cls % 4 ≠ 0) (kind unit inst detail : Nat) :
    (raise v cls kind unit inst detail).dom = v.dom ∧ (raise v cls kind unit inst detail).safety.queue = s.safety.queue ++
      [{ bits := faultWord cls kind unit inst detail (epochIn (now t s)), from_ := none, ext := 0 }] ∧
    OtherDomainsSame s (raise v cls kind unit inst detail) d ∧ raise v cls kind unit inst detail =
      { now t s with dom := (raise v cls kind unit inst detail).dom,
                     safety := { s.safety with queue := (raise v cls kind unit inst detail).safety.queue } } := by
  rw [raise_eq _ _ _ _ _ _ (fun h0 => absurd h0 hc), h.only.safety, h.only.epochIn]
  refine ⟨rfl, rfl, fun e he hm => otherDomainsSame_of_step h e he hm, ?_⟩
  conv_lhs => rw [h.only]
  rfl

/-! ### The retry after a short (R123) -/

/-- A retry that is due is taken up. -/

def retryTaken (M : Domain) : Domain := { M with tr := { M.tr with retryAt := none } }

theorem exec_shortRetry {s : State} {d : Dom} {t due : Nat} (ho : isOdd s d = false) (hdue : (domOf s d).tr.retryAt = some due) (h : due ≤ t) :
    exec (.shortRetry d t) s = .next (report (setMembers (now t s) d retryTaken) d (.retry (domOf s d).tr.goal)) := by
  show execShortRetry d t s = _
  unfold execShortRetry
  simp only [domOf_now, hdue]
  rw [if_neg (by rw [show isOdd (now t s) d = isOdd s d from rfl, ho]; simpa using h)]
  rfl

/-! ### A rail fed from outside (R117) -/

/-- A discharging rail is known to be fed from outside. -/
def railFed (M : Domain) : Domain := { M with tr := { M.tr with fed := true } }

theorem exec_dischargeTimeout {s : State} {d : Dom} {t : Nat} (ho : isOdd s d = false) (hph : (domOf s d).tr.ph = .discharge)
    (hfed : (domOf s d).tr.fed = false) (h : (domOf s d).tr.since + 1000000 ≤ t) : exec (.dischargeTimeout d t) s =
      .next (raise (setMembers (now t s) d railFed) 1 0x01 0x6 d (cellDetail (workingOf s d) 0xA 0x1F 0x3FF)) := by
  refine if_neg ?_
  rw [show isOdd (now t s) d = isOdd s d from rfl, ho, domOf_now, hph, hfed, decide_eq_false (Nat.not_lt.mpr h)]
  decide

/-! ### Forced arming of the neighbours (R121) -/

/-- The end of forced arming, where its time is over. -/
def armEnd (g : Nat) (D : Domain) : Domain := if D.droop.forcedTo ≤ g then { D with droop := { D.droop with forced := false } } else D

theorem armEnd_armEnd (g : Nat) (D : Domain) : armEnd g (armEnd g D) = armEnd g D := by
  unfold armEnd
  by_cases h : D.droop.forcedTo ≤ g
  · rw [if_pos h]
    exact if_pos h
  · rw [if_neg h]
    exact if_neg h

theorem forced_armEnd {g : Nat} {D : Domain} (h : D.droop.forcedTo ≤ g) : (armEnd g D).droop.forced = false := by
  rw [show armEnd g D = _ from if_pos h]

theorem armEnd_of_lt {g : Nat} {D : Domain} (h : g < D.droop.forcedTo) : armEnd g D = D := if_neg (Nat.not_le.mpr h)

theorem pair_armEnd (g : Nat) (D : Domain) : (armEnd g D).pair = D.pair := by
  unfold armEnd
  split <;> rfl

/-- The forced arming of a list's leaders ended, one after the other. -/
def armsEnded (s : State) (l : List Nat) : State := l.foldl (fun s x => setMembers s (leader s x) (armEnd s.time.gtc)) s

theorem exec_neighbourArmEnd (d : Dom) (t : Nat) (s : State) :
    exec (.neighbourArmEnd d t) s = .next (armsEnded (now t s) ((membersOf s d).flatMap neighbours1)) := rfl

theorem onlyDoms_armsEnded (s : State) (l : List Nat) : OnlyDoms s (armsEnded s l) :=
  foldl_inv (I := OnlyDoms s) (fun v _ hv => hv.trans (onlyDoms_setMembers v _ _)) l (.refl s)

/-- Each member of a leader in the list loses its forced arming by its own time, and no other domain changes. -/
theorem domOf_armsEnded (s : State) (l : List Nat) {y : Nat} (hy : y < 80) : domOf (armsEnded s l) y =
    if ∃ e ∈ l, y ∈ membersOf s (leader s e) then armEnd s.time.gtc (domOf s y) else domOf s y := by
  induction l generalizing s with
  | nil => exact (if_neg (by simp)).symm
  | cons x l ih =>
    have hstep := stationStep_setMembers s (leader s x) (armEnd s.time.gtc) (pair_armEnd s.time.gtc)
    have hmem (e : Nat) : membersOf (setMembers s (leader s x) (armEnd s.time.gtc)) (leader (setMembers s (leader s x) (armEnd s.time.gtc)) e) =
        membersOf s (leader s e) := by
      rw [hstep.members, leader_congr (hstep.pairs e)]
    rw [show armsEnded s (x :: l) = armsEnded (setMembers s (leader s x) (armEnd s.time.gtc)) l from rfl, ih, hstep.only.time,
      domOf_setMembers s _ _ hy]
    simp only [hmem, List.exists_mem_cons_iff]
    by_cases hx : y ∈ membersOf s (leader s x)
    · rw [if_pos hx, armEnd_armEnd, ite_self, if_pos (.inl hx)]
    · simp only [hx, if_false, false_or]

/-! ### The end of a soft start (R114, R118, R135) -/

theorem startEnds_iff (s : State) (d : Nat) : startEnds s d = true ↔ if (domOf s d).tr.goal = .shade then (domOf s d).tr.ph = .settle
    else ((domOf s d).tr.ph = .leg2 ∨ (domOf s d).tr.ph = .settle ∨ (domOf s d).tr.ph = .lift) ∧ 8 ≤ (domOf s d).tr.within := by
  unfold startEnds
  extract_lets D
  by_cases hg : D.tr.goal = .shade
  · rw [if_pos hg, if_pos hg]
    exact beq_iff_eq
  · rw [if_neg hg, if_neg hg, withinTarget, Bool.and_eq_true, Bool.or_eq_true, Bool.or_eq_true, decide_eq_true_iff, or_assoc]
    simp only [beq_iff_eq]
    rfl

/-- A transition that is over. -/
def trEnded (r : TransSt) : TransSt := { r with ph := .idle, attempt := 0, retryAt := none }

/-- Comparators and bank armed at the end of a start, the release of the clock due where the domain's state lets it run. -/
def droopEnded (D : Domain) (flareEn : Nat) (r : Droop) : Droop :=
  { r with armed := true, flare := armBank flareEn r.flare, relPend := D.state == .lit || (D.state == .held && D.heldFrom == .lit) }

theorem relPend_droopEnded (D : Domain) (flareEn : Nat) (r : Droop) :
    (droopEnded D flareEn r).relPend = true ↔ D.state = .lit ∨ (D.state = .held ∧ D.heldFrom = .lit) := by
  simp only [droopEnded, Bool.or_eq_true, Bool.and_eq_true, beq_iff_eq]

/-- The conditions that stop a tile clock (R110, R138, R139). -/
theorem uvstop_stopLevel (r : Droop) :
    (stopLevel r).uvstop = true ↔ r.clkHold = true ∨ r.ownStop ≠ none ∨ r.fabStops ≠ [] ∨ r.uvLatched = true := by
  simp only [stopLevel, Bool.or_eq_true, Option.isSome_iff_ne_none, Bool.not_eq_true', List.isEmpty_eq_false_iff, or_assoc]

/-- A start ended at every member, before its clock is released. -/
def startEnded (s : State) (d : Nat) : State :=
  setMembers s d (fun M => { M with tr := trEnded M.tr, droop := droopEnded (domOf s d) (cfgAt s d).lim.flareEn M.droop })

/-- A start ended, with the clock released where this is a frame start. -/
def startReleased (s : State) (d t : Nat) : State := if t % 250 = 0 then releaseClock (startEnded s d) d else startEnded s d

/-- A start ended, with supervision begun unless it was a move from SHADE to LIT (R185). -/
def startDone (s : State) (d t : Nat) : State :=
  if (domOf s d).tr.ph = .lift then startReleased s d t else supStart (startReleased s d t) d

theorem exec_softStartEnd {s : State} {d : Dom} {t : Nat} (ho : isOdd s d = false) (ha : isAbsent s d = false) (he : startEnds s d = true) :
    exec (.softStartEnd d t) s = .next (startDone (now t s) d t) := by
  refine if_neg ?_
  rw [show isOdd (now t s) d = isOdd s d from rfl, show isAbsent (now t s) d = isAbsent s d from rfl,
    show startEnds (now t s) d = startEnds s d from rfl, ho, ha, he]
  decide

/-- Whether the clock is released as a start ends: a LIT tile that runs its committed frequency, at a frame start (R114). -/
def Releases (s : State) (d t : Nat) : Prop :=
  isTile d = true ∧ (domOf s d).state = .lit ∧ (domOf s d).held = false ∧ t % 250 = 0 ∧ freqReady s d = true

section
variable (s : State) {d : Nat} (t : Nat)

theorem stationStep_startEnded (d : Nat) : StationStep s (startEnded s d) d := stationStep_setMembers s d _

theorem stationStep_holdClock (d : Nat) (b : Bool) : StationStep s (holdClock s d b) d :=
  (stationStep_setMembers s d _).trans (stationStep_driveThr _ d)

theorem stationStep_releaseClock (d : Nat) : StationStep s (releaseClock s d) d :=
  stationStep_of_ite (stationStep_holdClock s d false) (.refl s d)

theorem stationStep_startReleased (d : Nat) : StationStep s (startReleased s d t) d :=
  stationStep_of_ite ((stationStep_startEnded s d).trans (stationStep_releaseClock _ d)) (stationStep_startEnded s d)

theorem stationStep_supStart (d : Nat) : StationStep s (supStart s d) d := stationStep_setDom s _ (mem_membersOf_self s d) fun _ => rfl

theorem stationStep_startDone (d : Nat) : StationStep s (startDone s d t) d :=
  stationStep_of_ite (stationStep_startReleased s t d) ((stationStep_startReleased s t d).trans (stationStep_supStart _ d))

/-- Whether a tile runs its committed frequency rests on the tiles alone. -/
theorem freqReady_startEnded (d : Nat) : freqReady (startEnded s d) d = freqReady s d := by
  have hstep := stationStep_startEnded s d
  have htile (x : Nat) : (domOf (startEnded s d) x).tile = (domOf s x).tile := (sameView_setMembers (m := Domain.tile) s d _).1 x
  simp only [freqReady, runsCode, htile, hstep.members, hstep.only.cfgAt]

theorem startReleased_of_releases (h : Releases s d t) (hd : d < 80) : startReleased s d t = holdClock (startEnded s d) d false := by
  obtain ⟨htile, hst, hheld, hframe, hfreq⟩ := h
  have hdom : domOf (startEnded s d) d = _ := domOf_setMembers_self s _ hd
  refine (if_pos hframe).trans (if_pos ?_)
  rw [freqReady_startEnded, hfreq, htile, hdom, droopEnded, hst, hheld]
  rfl

theorem startReleased_of_not_releases (h : ¬Releases s d t) (hd : d < 80) : startReleased s d t = startEnded s d := by
  have hdom : domOf (startEnded s d) d = _ := domOf_setMembers_self s _ hd
  unfold startReleased
  split
  · rename_i hframe
    refine if_neg fun hc => h ?_
    rw [freqReady_startEnded, hdom] at hc
    simp only [Bool.and_eq_true, beq_iff_eq, Bool.not_eq_true'] at hc
    obtain ⟨⟨⟨⟨htile, -⟩, hst⟩, hheld⟩, hfreq⟩ := hc
    exact ⟨htile, hst, hheld, hframe, hfreq⟩
  · rfl

/-- The end of a start: supervision changes neither the transition nor the droop state. -/
theorem moves_startDone (d : Nat) : (domOf (startDone s d t) d).tr = (domOf (startReleased s d t) d).tr ∧
    (domOf (startDone s d t) d).droop = (domOf (startReleased s d t) d).droop := by
  have hview : SameView (fun D => (D.tr, D.droop)) (startReleased s d t) (startDone s d t) :=
    sameView_of_ite (.refl _) (sameView_setDom _ d _)
  exact Prod.mk.inj (hview.1 d)

theorem tr_startReleased (hd : d < 80) : (domOf (startReleased s d t) d).tr = trEnded (domOf s d).tr := by
  have hdom : domOf (startEnded s d) d = _ := domOf_setMembers_self s _ hd
  have hclock (v : State) : (domOf (holdClock v d false) d).tr = (domOf v d).tr :=
    ((sameView_setMembers (m := Domain.tr) v d _).trans (sameView_driveThr (fun _ _ _ => rfl) _ d)).1 d
  by_cases h : Releases s d t
  · rw [startReleased_of_releases s t h hd, hclock, hdom]
  · rw [startReleased_of_not_releases s t h hd, hdom]

theorem droop_holdClock (b : Bool) (hd : d < 80) :
    (domOf (holdClock s d b) d).droop = stopLevel { (domOf s d).droop with clkHold := b, relPend := false } := by
  unfold holdClock setStops
  rw [(sameView_driveThr (m := Domain.droop) (fun _ _ _ => rfl) _ d).1 d, domOf_setMembers_self s _ hd]

/-- Where the clock is released, its stop follows the other conditions alone. -/
theorem droop_startDone_of_releases (h : Releases s d t) (hd : d < 80) : (domOf (startDone s d t) d).droop = stopLevel
    { droopEnded (domOf s d) (cfgAt s d).lim.flareEn (domOf s d).droop with clkHold := false, relPend := false } := by
  have hdom : domOf (startEnded s d) d = _ := domOf_setMembers_self s _ hd
  rw [(moves_startDone s t d).2, startReleased_of_releases s t h hd, droop_holdClock _ _ hd, hdom]

theorem droop_startDone_of_not_releases (h : ¬Releases s d t) (hd : d < 80) :
    (domOf (startDone s d t) d).droop = droopEnded (domOf s d) (cfgAt s d).lim.flareEn (domOf s d).droop := by
  have hdom : domOf (startEnded s d) d = _ := domOf_setMembers_self s _ hd
  rw [(moves_startDone s t d).2, startReleased_of_not_releases s t h hd, hdom]

theorem arms_startDone (hd : d < 80) : (domOf (startDone s d t) d).droop.armed = true ∧
    (domOf (startDone s d t) d).droop.flare = armBank (cfgAt s d).lim.flareEn (domOf s d).droop.flare := by
  by_cases h : Releases s d t
  · rw [droop_startDone_of_releases s t h hd]
    exact ⟨rfl, rfl⟩
  · rw [droop_startDone_of_not_releases s t h hd]
    exact ⟨rfl, rfl⟩

end

end Sys2Proof.Laws
end

section
namespace Sys2Proof.Proofs
open Sys2Proof Sys2Proof.Machine Sys2Proof.Laws
set_option Elab.async false

/-- Settles O29: each timer is a change of the members it concerns, with its report or message behind it, and the end of a start is a step of its
station whose droop state is followed to the release of the clock. -/
theorem transitions : Obligations.Transitions := by
  refine ⟨fun d t s ho ht => ⟨fun due hdue hle => ?_, fun hph hfed hsince => ?_, ?_⟩, fun d t s ho ha => ?_⟩
  · have hstep := stationStep_setMembers (now t s) d retryTaken
    obtain ⟨hdom, hints, hothers, hframe⟩ := report_of_stationStep hstep ht (.retry (domOf s d).tr.goal)
    have hdoms := (congrArg (fun v => vget v d.val) hdom).trans (domOf_setMembers_self (now t s) retryTaken d.isLt)
    exact ⟨_, exec_shortRetry ho hdue hle, congrArg (fun D => D.tr.retryAt) hdoms, hints, hothers, hframe⟩
  · have hstep := stationStep_setMembers (now t s) d railFed
    have hdom : domOf (setMembers (now t s) d railFed) d = railFed (domOf s d) := domOf_setMembers_self _ _ d.isLt
    obtain ⟨hsame, hqueue, hothers, hframe⟩ := raise_of_stationStep hstep (cls := 1) (by decide) 0x01 0x6 d
      (cellDetail (workingOf s d) 0xA 0x1F 0x3FF)
    have hdoms := (congrArg (fun v => vget v d.val) hsame).trans hdom
    exact ⟨_, exec_dischargeTimeout ho hph hfed hsince, hqueue, congrArg (fun D => D.tr.fed) hdoms,
      (congrArg (fun D => D.tr.ph) hdoms).trans hph, hothers, hframe⟩
  · have hgtc : (now t s).time.gtc = t := Nat.max_eq_right ht
    refine ⟨_, exec_neighbourArmEnd d t s, fun e he y hy hlt hto => ?_, fun y hy => ?_, onlyDoms_armsEnded _ _⟩
    · rw [domOf_armsEnded _ _ hlt, if_pos ⟨e, he, hy⟩, forced_armEnd (hgtc.symm ▸ hto)]
    · refine (domOf_armsEnded (now t s) _ y.isLt).trans ?_
      rcases hy with hlate | hout
      · rw [armEnd_of_lt (hgtc.symm ▸ hlate), ite_self]
        rfl
      · exact if_neg fun ⟨e, he, hm⟩ => hout e he hm
  · intro D hends runs
    have hstep := stationStep_startDone (now t s) t d
    obtain ⟨harmed, hflare⟩ := arms_startDone (now t s) t d.isLt
    have htr := (moves_startDone (now t s) t d).1.trans (tr_startReleased (now t s) t d.isLt)
    refine ⟨_, exec_softStartEnd ho ha ((startEnds_iff s d).mpr hends), congrArg TransSt.ph htr, congrArg TransSt.attempt htr,
      congrArg TransSt.retryAt htr, harmed, hflare.trans ?_, fun hr => ?_, fun hr => ?_, otherDomainsSame_of_step hstep, hstep.only⟩
    · show armBank (cfgAt s d).lim.flareEn D.droop.flare = _
      cases D.droop.flare <;> rfl
    · rw [droop_startDone_of_releases (now t s) t hr d.isLt]
      exact ⟨rfl, (uvstop_stopLevel _).trans (or_iff_right Bool.false_ne_true)⟩
    · rw [droop_startDone_of_not_releases (now t s) t hr d.isLt]
      exact ⟨relPend_droopEnded .., rfl⟩

end Sys2Proof.Proofs
end

section
/-! Slots that do not commit, and the third overrun (R118, R150, R171, R172). -/

namespace Sys2Proof.Laws
open Sys2Proof Sys2Proof.Machine
set_option Elab.async false

/-! ### Outputs that are not committed (R171) -/

/-- Outputs held without a floor clamp change the slot's domain alone, and its code stays. -/
theorem outputsHeld_single {s : State} {d : Nat} (hd : d < 80) (hj : joined s d = false) (hf : floorClampActs s d = false) :
    DomOnly s (outputsHeld s d) d ∧ (domOf (outputsHeld s d) d).code = (domOf s d).code := by
  unfold outputsHeld
  extract_lets s1
  obtain ⟨honly, hothers⟩ : DomOnly s s1 d := domOnly_setDom s d _
  have hdom : domOf s1 d = { armFrom s false (domOf s d) with thrReq := 0 } := domOf_setDom_same s _ hd
  have hstate : outputState (domOf s1 d) = outputState (domOf s d) := by
    rw [hdom, armFrom_frame]
    rfl
  clear_value s1
  rw [sendCode_single ((joined_congr honly hstate).trans hj) ((floorClampActs_congr honly hstate).trans hf)]
  refine ⟨⟨honly.trans (onlyDoms_setDom s1 d _), fun e he => (domOf_setDom_ne s1 _ he.symm).trans (hothers e he)⟩, ?_⟩
  rw [domOf_setDom_same s1 _ hd, codeDom_frame, hdom, armFrom_frame]

/-! ### DEADLINE (R171) -/

theorem slotBudget_lt (s : State) : slotBudget s < 2 ^ 17 := by
  unfold slotBudget
  split
  · have hdiv := Nat.div_le_self (5 * s.clk.pllC.ndiv.toNat) (4 * s.clk.pllC.rdiv.toNat * s.clk.pllC.pdiv.toNat)
    have hn := s.clk.pllC.ndiv.isLt
    omega
  · decide

theorem sectionOf_lt (g : Program) (n : Nat) : sectionOf g n < 8 := by
  unfold sectionOf
  split
  · decide
  · exact (Nat.mod_le _ _).trans_lt (Nat.mod_lt n (by decide))

/-- The cause of a CLE fault reads back from its message (Table 07-13). -/
theorem cleDetail_cause {cause dom slot pos cnt sect cyc : Nat} (hcause : cause < 16) (hdom : dom < 80) (hslot : slot < 5) (hpos : pos < 16)
    (hcnt : cnt ≤ 3) (hsect : sect < 8) (hcyc : cyc ≤ 2 ^ 17) : cleDetail cause dom slot pos cnt sect cyc % 2 ^ 32 / 2 ^ 28 = cause := by
  unfold cleDetail
  omega

/-- DEADLINE as one slot raises it: contained, with its cause and the unit that it names. -/
def Deadline (cause inst : Nat) (m : FaultMsg) : Prop :=
  fKindOf m.bits = 0x10 ∧ fClass m.bits = 1 ∧ fInst m.bits = inst ∧ fDetail m.bits / 2 ^ 28 = cause

/-! ### An overrun (R171, R172) -/

/-- The run of overruns of a domain after one more: it counts while outputs are applied (R172). -/
def overrunsNext (D : Domain) : Nat := Nat.min 3 (D.overruns + (if D.use.applied then 1 else 0))

/-- A domain whose slot has overrun, with its run of overruns. -/
def overrunDom (run cause : Nat) (D : Domain) : Domain := { D with overruns := run, noLane := cause == 1 }

/-- An overrun counted. -/
def overrunCounted (s : State) (d cause : Nat) : State := setDom s d (overrunDom (overrunsNext (domOf s d)) cause)

/-- An overrun counted and, unless its lane's loss is known already, raised as DEADLINE. -/
def overrunTold (s : State) (d cause inst slot pos sect : Nat) : State :=
  if cause = 1 ∧ (domOf s d).noLane = true then overrunCounted s d cause
  else raise (overrunCounted s d cause) 1 0x10 0x2 inst (cleDetail cause d slot pos (overrunsNext (domOf s d)) sect (1 + slotBudget s))

section
variable (s : State) {d : Nat} (cause inst slot pos sect : Nat)

theorem overrun_eq (d : Nat) : overrun s d cause inst slot pos sect = outputsHeld (overrunTold s d cause inst slot pos sect) d := rfl

theorem overrunTold_frame : overrunTold s d cause inst slot pos sect =
    { overrunCounted s d cause with safety := (overrunTold s d cause inst slot pos sect).safety } := by
  unfold overrunTold
  split
  · rfl
  · exact raise_frame ..

/-- An overrun keeps the code, the state words and every other domain; it changes nothing but its domain and the collector. -/
theorem overrun_kept (hd : d < 80) (hj : joined s d = false) (hf : floorClampActs s d = false) :
    let u := overrun s d cause inst slot pos sect
    u = { s with dom := u.dom, safety := (overrunTold s d cause inst slot pos sect).safety } ∧
    (domOf u d).code = (domOf s d).code ∧ (domOf u d).sw = (domOf s d).sw ∧ (domOf u d).noLane = (cause == 1) ∧
    ∀ e, e ≠ d → domOf u e = domOf s e := by
  rw [overrun_eq s cause inst slot pos sect d]
  have hframe := overrunTold_frame s (d := d) cause inst slot pos sect
  generalize overrunTold s d cause inst slot pos sect = v at *
  have hdom : v.dom = (overrunCounted s d cause).dom := by rw [hframe]
  have hself : domOf v d = overrunDom (overrunsNext (domOf s d)) cause (domOf s d) :=
    (congrArg (fun x => vget x d) hdom).trans (domOf_setDom_same s _ hd)
  have hother (e : Nat) (he : e ≠ d) : domOf v e = domOf s e := (congrArg (fun x => vget x e) hdom).trans (domOf_setDom_ne s _ he.symm)
  have hjv : joined v d = false := by
    rw [joined, isEven, hself, show v.time = s.time by rw [hframe]; rfl]
    exact hj
  have hfv : floorClampActs v d = false := by
    rw [floorClampActs, lanternActive, hself, hframe]
    exact hf
  obtain ⟨⟨honly, hrest⟩, hcode⟩ := outputsHeld_single hd hjv hfv
  obtain ⟨hsw, -, hno⟩ := (outputsOnly_outputsHeld v d).kept d
  rw [hself] at hcode hsw hno
  generalize outputsHeld v d = w at *
  rw [OnlyDoms, hframe] at honly
  exact ⟨honly, hcode, hsw, hno, fun e he => (hrest e he).trans (hother e he)⟩

/-- A lane's loss that is known already is not reported again. -/
theorem safety_overrunTold_quiet (h : cause = 1 ∧ (domOf s d).noLane = true) : (overrunTold s d cause inst slot pos sect).safety = s.safety := by
  rw [overrunTold, if_pos h]
  rfl

theorem queue_overrunTold (h : ¬(cause = 1 ∧ (domOf s d).noLane = true)) (hcause : cause < 16) (hinst : inst < 256) (hd : d < 80)
    (hslot : slot < 5) (hpos : pos < 16) (hsect : sect < 8) :
    ∃ m, (overrunTold s d cause inst slot pos sect).safety.queue = s.safety.queue ++ [m] ∧ Deadline cause inst m := by
  rw [overrunTold, if_neg h, raise_eq _ _ _ _ _ _ (fun h0 => absurd h0 (by decide))]
  refine ⟨_, rfl, fKindOf_faultWord .., fClass_faultWord .., (fInst_faultWord ..).trans (Nat.mod_eq_of_lt hinst), ?_⟩
  have hcyc := slotBudget_lt s
  rw [fDetail_faultWord]
  exact cleDetail_cause hcause hd hslot hpos (Nat.min_le_left _ _) hsect (by omega)

end

/-! ### A slot that cannot run (R171) -/

/-- Why a slot cannot run, as the cause and the unit that DEADLINE names: no lane serves its position, or its lane has no usable program. -/
def SlotLost (s : State) (pos : Fin 16) (d cause inst : Nat) : Prop :=
  (vget s.laneOf pos = none ∧ cause = 1 ∧ inst = 0x80 + pos.val) ∨
  ∃ lane : Fin 17, vget s.laneOf pos = some lane ∧ (∀ g, boundProg s d = some g → g.unusable = true) ∧ cause = 2 ∧ inst = lane.val

/-- The frame's error learned, the machine as a slot finds it. -/
def slotFound (s : State) (n : Nat) (pos : Fin 16) (slot : Fin 5) : State :=
  slotLearn (now (250 * n + 50 * slot.val) s) (slotDom pos slot) n

section
variable {n : Nat} {pos : Fin 16} {slot : Fin 5} {s : State} {cause inst : Nat}

theorem exec_cleSlot_of_lost (hruns : (domOf s (slotDom pos slot)).use.runs = true) (hreset : s.clk.crstBusy = false) (hmism : s.mism = [])
    (hlost : SlotLost s pos (slotDom pos slot) cause inst) : ∃ sect < 8, exec (.cleSlot n pos slot [] []) s = .next
      { overrun (slotFound s n pos slot) (slotDom pos slot) cause inst slot pos sect with
        slot := { SlotCtx.reset with dom := Fin.ofNat 80 (slotDom pos slot) } } := by
  show ∃ sect < 8, execCleSlot n pos slot [] [] s = _
  unfold execCleSlot
  extract_lets s0 d u w sect r
  have hu : u = (domOf s (slotDom pos slot)).use := rfl
  have hw : w = slotFound s n pos slot := if_neg (by rw [hu, hruns, show s0.clk = s.clk from rfl, hreset]; decide)
  have honly : OnlyDoms s0 w := hw ▸ (slotLearn_domOnly s0 d n).1
  have hwclk : w.clk = s.clk := by rw [honly]; rfl
  have hwmism : w.mism = s.mism := by rw [honly]; rfl
  have hwlane : w.laneOf = s.laneOf := by rw [honly]; rfl
  have hwprog : boundProg w d = boundProg s d := honly.boundProg d
  have hsect : sect < 8 := by
    show (match boundProg w d with | some g => sectionOf g n | none => 0) < 8
    split
    · exact sectionOf_lt _ n
    · decide
  have hr : r = overrun w d cause inst slot pos sect := by
    show (match vget w.laneOf pos with | none => _ | some lane => _) = _
    rcases hlost with ⟨hlane, rfl, rfl⟩ | ⟨lane, hlane, hprog, rfl, rfl⟩
    · simp only [hwlane, hlane]
    · simp only [hwlane, hlane]
      split
      · rfl
      · rename_i g hg
        exact if_pos (hprog g (hwprog.symm.trans hg))
  refine ⟨sect, hsect, ?_⟩
  rw [if_neg (by rw [hu, hruns, hwclk, hreset]; decide), if_neg (by rw [hwmism, hmism]; exact Bool.false_ne_true), hr, hw]

/-- What learning leaves of the machine that a slot finds. -/
theorem slotFound_frame : OnlyDoms (now (250 * n + 50 * slot.val) s) (slotFound s n pos slot) ∧
    (∀ e, e ≠ slotDom pos slot → domOf (slotFound s n pos slot) e = domOf s e) ∧
    ∃ r, domOf (slotFound s n pos slot) (slotDom pos slot) = { domOf s (slotDom pos slot) with rc := r } := by
  obtain ⟨honly, hothers⟩ := slotLearn_domOnly (now (250 * n + 50 * slot.val) s) (slotDom pos slot) n
  exact ⟨honly, hothers, domOf_slotLearn _ (slotDom_lt pos slot) n⟩

/-- What a slot that does not commit keeps: the code, the state words, every other domain, ports and commands. -/
def SlotKept (s u : State) (d : Nat) : Prop :=
  (domOf u d).code = (domOf s d).code ∧ (domOf u d).sw = (domOf s d).sw ∧ (∀ e : Dom, e.val ≠ d → vget u.dom e = vget s.dom e) ∧
  u.ports = s.ports ∧ u.cmds = s.cmds

/-- A slot that cannot run overruns: it keeps what a slot without a commit keeps, and raises DEADLINE unless its lane's loss is known already. -/
theorem cleSlot_overruns (hruns : (domOf s (slotDom pos slot)).use.runs = true) (hreset : s.clk.crstBusy = false) (hmism : s.mism = [])
    (hj : joined (now (250 * n + 50 * slot) s) (slotDom pos slot) = false) (hf : floorClampActs s (slotDom pos slot) = false)
    (hlost : SlotLost s pos (slotDom pos slot) cause inst) : ∃ u, exec (.cleSlot n pos slot [] []) s = .next u ∧
      SlotKept s u (slotDom pos slot) ∧ (domOf u (slotDom pos slot)).noLane = (cause == 1) ∧
      (cause = 1 ∧ (domOf s (slotDom pos slot)).noLane = true → u.safety = s.safety) ∧
      (¬(cause = 1 ∧ (domOf s (slotDom pos slot)).noLane = true) → ∃ m, u.safety.queue = s.safety.queue ++ [m] ∧ Deadline cause inst m) := by
  have hd := slotDom_lt pos slot
  have hrange : cause < 16 ∧ inst < 256 := by
    rcases hlost with ⟨-, rfl, rfl⟩ | ⟨lane, -, -, rfl, rfl⟩ <;> omega
  obtain ⟨sect, hsect, hexec⟩ := exec_cleSlot_of_lost (n := n) (slot := slot) hruns hreset hmism hlost
  obtain ⟨honly, hothers, r, hself⟩ := slotFound_frame (n := n) (pos := pos) (slot := slot) (s := s)
  obtain ⟨hjw, hfw⟩ := slotLearn_outputs (n := n) (now (250 * n + 50 * slot.val) s) hd
  obtain ⟨hframe, hcode, hsw, hno, hrest⟩ := overrun_kept (slotFound s n pos slot) cause inst slot pos sect hd (hjw.trans hj) (hfw.trans hf)
  have hquiet := safety_overrunTold_quiet (slotFound s n pos slot) (d := slotDom pos slot) cause inst slot pos sect
  have htold := queue_overrunTold (slotFound s n pos slot) (d := slotDom pos slot) cause inst slot pos sect
  have hsafety : (overrun (slotFound s n pos slot) (slotDom pos slot) cause inst slot pos sect).safety = _ := congrArg State.safety hframe
  rw [hself] at hcode hsw hquiet htold
  rw [honly.safety] at hquiet htold
  refine ⟨_, hexec, ⟨hcode, hsw, fun e he => (hrest e he).trans (hothers e he), ?_, ?_⟩, hno, fun h => hsafety.trans (hquiet h), fun h => ?_⟩
  · show (overrun (slotFound s n pos slot) (slotDom pos slot) cause inst slot pos sect).ports = s.ports
    rw [hframe, honly]
    rfl
  · show (overrun (slotFound s n pos slot) (slotDom pos slot) cause inst slot pos sect).cmds = s.cmds
    rw [hframe, honly]
    rfl
  · obtain ⟨m, hm, hdead⟩ := htold h hrange.1 hrange.2 hd slot.isLt pos.isLt hsect
    exact ⟨m, (congrArg Safety.queue hsafety).trans hm, hdead⟩

end

/-! ### The third overrun (R118, R172) -/

/-- A member that its hub holds at a code. -/
def hubHeld (code : Nat) (M : Domain) : Domain :=
  { M with held := true, fallback := false, sup := { M.sup with fbPend := false }, prof := profHold (codeMv code) M.prof }

section
variable {s : State} {d : Nat} (ho : isOdd s d = false) (hst : (domOf s d).state = .lit ∨ (domOf s d).state = .shade)
  (hheld : (domOf s d).held = false)
include ho hst hheld

theorem holdDomain_of_dark (hsoft : inSoftStart (domOf s d) = true) (why : HeldWhy) : holdDomain s d why = forceDark s d false :=
  (if_neg (by rcases hst with h | h <;> rw [ho, hheld, h] <;> decide)).trans (if_pos hsoft)

theorem holdDomain_of_held (hsoft : inSoftStart (domOf s d) = false) (hph : (domOf s d).tr.ph ≠ .discharge) (why : HeldWhy) :
    holdDomain s d why = report (setMembers s d (hubHeld (domOf s d).code)) d (.held why) :=
  (if_neg (by rcases hst with h | h <;> rw [ho, hheld, h] <;> decide)).trans
    ((if_neg (by rw [hsoft]; exact Bool.false_ne_true)).trans (if_neg (by simpa using hph)))

end

theorem overruns_discharge (s : State) (d e : Nat) : (domOf (discharge s d) e).overruns = (domOf s e).overruns :=
  ((sameView_setMembers (m := Domain.overruns) s d _).trans
    ((sameView_setMembers _ d _).trans (sameView_driveThr (fun _ _ _ => rfl) _ d))).1 e

/-- The run of overruns begun anew. -/
def runCleared (D : Domain) : Domain := { D with overruns := 0 }

theorem exec_overrunHeld {s : State} {d : Dom} (hrun : 3 ≤ (domOf s d).overruns) (ho : isOdd s d = false)
    (hst : (domOf s d).state = .lit ∨ (domOf s d).state = .shade) (t : Nat) :
    exec (.overrunHeld d t) s = .next (holdDomain (setDom (now t s) d runCleared) d .overrun) := by
  have hlead : leader (setDom (now t s) d runCleared) d = d := by
    rw [leader_congr (s := s) (by rw [domOf_setDom_fin]; rfl), leader_of_not_odd ho]
  refine (if_pos ?_).trans (congrArg (fun x => Host.Outcome.next (holdDomain (setDom (now t s) d runCleared) x .overrun)) hlead)
  rw [isAbsent, domOf_now, decide_eq_true hrun]
  rcases hst with h | h <;> rw [h] <;> rfl

end Sys2Proof.Laws

namespace Sys2Proof.Proofs
open Sys2Proof Sys2Proof.Machine Sys2Proof.Laws
set_option Elab.async false

/-- Settles O34: a slot that cannot run ends in an overrun, whose message and outputs are followed stage by stage (`cleSlot_overruns`), and the third
overrun is a station's step with its report, into HELD or into DARK. -/
theorem slotOverrun : Obligations.SlotOverrun := by
  refine ⟨fun n pos slot s => ?_, fun d t s hrun ho hst hheld ht => ?_⟩
  · intro d hruns hreset hmism hj hf kept
    have hover {cause inst : Nat} := cleSlot_overruns (cause := cause) (inst := inst) hruns hreset hmism hj hf
    refine ⟨fun hlane hno => ?_, fun hlane hno => ?_, fun lane hlane hprog => ?_⟩
    · obtain ⟨u, hexec, hkept, hnew, -, htold⟩ := hover (.inl ⟨hlane, rfl, rfl⟩)
      obtain ⟨m, hm, hkind, hclass, hinst, hcause⟩ := htold fun h => Bool.false_ne_true (hno.symm.trans h.2)
      exact ⟨u, hexec, ⟨m, hm, hkind, hclass, hinst, hcause⟩, hnew, hkept⟩
    · obtain ⟨u, hexec, hkept, hnew, hquiet, -⟩ := hover (.inl ⟨hlane, rfl, rfl⟩)
      exact ⟨u, hexec, hquiet ⟨rfl, hno⟩, hnew, hkept⟩
    · obtain ⟨u, hexec, hkept, -, -, htold⟩ := hover (.inr ⟨lane, hlane, hprog, rfl, rfl⟩)
      obtain ⟨m, hm, hkind, hclass, hinst, hcause⟩ := htold fun h => absurd h.1 (by decide)
      exact ⟨u, hexec, ⟨m, hm, hkind, hclass, hinst, hcause⟩, hkept⟩
  · have hclear : StationStep (now t s) (setDom (now t s) d runCleared) d := stationStep_setDom _ _ (mem_membersOf_self _ _) fun _ => rfl
    have hcleared : domOf (setDom (now t s) d runCleared) d = runCleared (domOf s d) := domOf_setDom_fin _ d _
    have hexec := exec_overrunHeld hrun ho hst t
    generalize setDom (now t s) d runCleared = v at *
    have hov : isOdd v d = false := (congrArg (fun D => D.pair == .odd) hcleared).trans ho
    have hstv : (domOf v d).state = .lit ∨ (domOf v d).state = .shade := by rwa [hcleared]
    have hheldv : (domOf v d).held = false := (congrArg Domain.held hcleared).trans hheld
    refine ⟨fun hsoft hph => ?_, fun hsoft => ?_⟩
    · obtain ⟨hsame, hints, hothers, hframe⟩ := report_of_stationStep (hclear.trans (stationStep_setMembers v d (hubHeld (domOf v d).code))) ht
        (.held .overrun)
      have hdom := (congrArg (fun x => vget x d.val) hsame).trans
        ((domOf_setMembers_self v (hubHeld (domOf v d).code) d.isLt).trans (congrArg (fun D => hubHeld D.code D) hcleared))
      rw [holdDomain_of_held hov hstv hheldv ((congrArg inSoftStart hcleared).trans hsoft) (hcleared ▸ hph)] at hexec
      exact ⟨_, hexec, congrArg Domain.held hdom, congrArg Domain.overruns hdom, hints, congrArg Domain.fallback hdom,
        congrArg (fun D => D.prof.vref) hdom, (congrArg Domain.cells hdom :), hothers, hframe⟩
    · obtain ⟨hsame, hints, hothers, hframe⟩ := report_of_stationStep (hclear.trans (stationStep_discharge v d)) ht (.dark false)
      have hdom : domOf (forceDark v d false) d = domOf (discharge v d) d := congrArg (fun x => vget x d.val) hsame
      have hgtc : v.time.gtc = t := (congrArg Time.gtc hclear.only.time).trans (Nat.max_eq_right ht)
      rw [holdDomain_of_dark hov hstv hheldv ((congrArg inSoftStart hcleared).trans hsoft)] at hexec
      refine ⟨_, hexec, ?_, ?_, hints, hothers, hframe⟩
      · rw [hdom, ← hgtc]
        exact discharging_discharge v d.isLt
      · rw [hdom, overruns_discharge, hcleared]
        rfl

end Sys2Proof.Proofs
end

section
/-! The ends of droop actions and the cycle of a flare bank (R132, R139 to R143, R144, Table 06-2). -/

namespace Sys2Proof.Laws
open Sys2Proof Sys2Proof.Machine
set_option Elab.async false

/-! ### A change of a domain's droop part -/

theorem stationStep_setDroop (s : State) (d : Nat) (f : Droop → Droop) : StationStep s (setDroop s d f) d :=
  stationStep_setDom s _ (mem_membersOf_self s d) fun _ => rfl

/-! ### The throttle outputs without a droop action (R144) -/

/-- Without DT3 the divider is the one that the arbiter and the derating ask. -/
theorem thrDiv_driveThr_of_not_dt3 {s : State} {d : Nat} (ht : isTile d = true) (hd : d < 80) (h : (domOf s d).droop.dt3 = false) :
    (domOf (driveThr s d) d).tile.thrDiv.toNat = Nat.max (domOf s d).stDiv.toNat (if (domOf s d).arb.derate then 1 else 0) := by
  have hder : (if (domOf s d).arb.derate then 1 else 0) ≤ 3 := by split <;> decide
  have hle : Nat.max (domOf s d).stDiv.toNat (if (domOf s d).arb.derate then 1 else 0) ≤ 3 :=
    Nat.max_le.mpr ⟨Nat.le_of_lt_succ (domOf s d).stDiv.isLt, hder⟩
  rw [thrDiv_driveThr s ht hd, h, if_neg Bool.false_ne_true, Nat.add_zero, show Nat.min 3 _ = _ from Nat.min_eq_right hle, BitVec.toNat_ofNat,
    Nat.mod_eq_of_lt (Nat.lt_succ_of_le hle)]

/-- The skip pattern that the arbiter and a glint ask for. -/
def askedSkip (s : State) (d : Nat) : BitVec 16 :=
  (domOf s d).stSkip ||| (if (domOf s d).droop.glint then BitVec.ofNat 16 (cfgAt s d).lim.glintPat else 0)

theorem askedSkip_of_not_glint {s : State} {d : Nat} (h : (domOf s d).droop.glint = false) : askedSkip s d = (domOf s d).stSkip := by
  rw [askedSkip, h]
  exact BitVec.or_zero

/-- The skip pattern that a station drives never stops the clock. -/
theorem thrSkip_driveThr (s : State) {d : Nat} (ht : isTile d = true) (hd : d < 80) :
    (domOf (driveThr s d) d).tile.thrSkip = if askedSkip s d = 0xFFFF then 0xFFFE else askedSkip s d := by
  rw [driveThr, if_neg (by rw [ht]; decide)]
  exact congrArg (fun D : Domain => D.tile.thrSkip) (domOf_setMembers_self s _ hd)

/-! ### A droop action that ends (Table 06-2) -/

/-- A droop action whose mark goes, and the outputs driven without it. -/
def actionEnded (s : State) (d : Nat) (f : Droop → Droop) : State := driveThr (setDroop s d f) d

theorem stationStep_actionEnded (s : State) (d : Nat) (f : Droop → Droop) : StationStep s (actionEnded s d f) d :=
  (stationStep_setDroop s d f).trans (stationStep_driveThr _ d)

section
variable (s : State) {d : Nat} (hd : d < 80) (f : Droop → Droop)
include hd

theorem domOf_setDroop_same : domOf (setDroop s d f) d = { domOf s d with droop := f (domOf s d).droop } := domOf_setDom_same s _ hd

/-- Driving the outputs leaves the droop part. -/
theorem droop_actionEnded : (domOf (actionEnded s d f) d).droop = f (domOf s d).droop :=
  ((sameView_driveThr (m := Domain.droop) (fun _ _ _ => rfl) _ d).1 d).trans (congrArg Domain.droop (domOf_setDroop_same s hd f))

theorem thrSkip_actionEnded (ht : isTile d = true) (h : (f (domOf s d).droop).glint = false) :
    (domOf (actionEnded s d f) d).tile.thrSkip = if (domOf s d).stSkip = 0xFFFF then 0xFFFE else (domOf s d).stSkip := by
  have hdom := domOf_setDroop_same s hd f
  rw [actionEnded, thrSkip_driveThr _ ht hd, askedSkip_of_not_glint (by rw [hdom]; exact h), hdom]

theorem thrDiv_actionEnded (ht : isTile d = true) (h : (f (domOf s d).droop).dt3 = false) :
    (domOf (actionEnded s d f) d).tile.thrDiv.toNat = Nat.max (domOf s d).stDiv.toNat (if (domOf s d).arb.derate then 1 else 0) := by
  have hdom := domOf_setDroop_same s hd f
  rw [actionEnded, thrDiv_driveThr_of_not_dt3 ht hd (by rw [hdom]; exact h), hdom]

end

/-- A droop part whose glint pattern is gone. -/
def glintGone (r : Droop) : Droop := { r with glint := false }

/-- A droop part whose DT3 divider is gone. -/
def dt3Gone (r : Droop) : Droop := { r with dt3 := false }

section
variable {d : Dom} {s : State} (t : Nat)

theorem exec_glintEnd (hg : (domOf s d).droop.glint = true) (hin : (domOf s d).droop.in1 = false) :
    exec (.glintEnd d t) s = .next (actionEnded (now t s) d glintGone) := by
  refine if_pos ?_
  rw [domOf_now, hg, hin]
  rfl

theorem exec_dt3End (h3 : (domOf s d).droop.dt3 = true) (hin : (domOf s d).droop.in3 = false) (hgood : 40 ≤ (domOf s d).droop.dt3Good) :
    exec (.dt3End d t) s = .next (actionEnded (now t s) d dt3Gone) := by
  refine if_pos ?_
  rw [domOf_now, h3, hin, decide_eq_true hgood]
  rfl

/-! ### Conduction and recharge (R140, R141, R143) -/

theorem exec_flareConductionEnd (hf : (domOf s d).droop.flare = .conducting) : exec (.flareConductionEnd d t) s =
    .next (setDroop (now t s) d (fun r => { r with flare := .recharging, chkAt := some ((now t s).time.run + 1000) })) := if_pos hf

theorem exec_flareRecharged (hf : (domOf s d).droop.flare = .recharging) : exec (.flareRecharged d t) s =
    .next (setDroop (now t s) d (fun r => { r with flare := if (cfgAt s (leader s d)).lim.flareEn = 0 then .disarmed else .armed })) := if_pos hf

end

/-! ### The check of a bank (R142) -/

/-- Whether a bank's check after conduction is due. -/
def checkDue (s : State) (d : Nat) : Bool :=
  match (domOf s d).droop.chkAt with
  | some x => decide (x ≤ s.time.run)
  | none => false

theorem checkDue_iff (s : State) (d : Nat) : checkDue s d = true ↔ ∃ x, (domOf s d).droop.chkAt = some x ∧ x ≤ s.time.run := by
  unfold checkDue
  cases (domOf s d).droop.chkAt with
  | some x => simp
  | none => simp

/-- A bank whose check after conduction is made. -/
def checkTaken (s : State) (d : Nat) : State := setDroop s d (fun r => { r with chkAt := none })

/-- A low bank, failed and reported with a condition and its voltage. -/
def bankFailed (s : State) (d : Nat) (cond : Nat) (mv : BitVec 12) : State :=
  raise (setDroop s d (fun r => { r with flare := .failed })) 1 0x07 0x6 d (cond * 0x10000000 + mv.toNat)

/-- FLARE_FAIL is contained: it always enters the queue. -/
theorem bankFailed_eq {s v : State} (h : OnlyDoms s v) (d cond : Nat) (mv : BitVec 12) : bankFailed v d cond mv =
    { setDroop v d (fun r => { r with flare := .failed }) with safety := { s.safety with queue := s.safety.queue ++
      [{ bits := faultWord 1 0x07 0x6 d (cond * 0x10000000 + mv.toNat) (epochIn s), from_ := none, ext := 0 }] } } := by
  have honly : OnlyDoms s (setDroop v d (fun r => { r with flare := .failed })) := h.trans (onlyDoms_setDom v d _)
  rw [bankFailed, raise_eq _ _ _ _ _ _ (fun h0 => absurd h0 (by decide)), honly.safety, honly.epochIn]

theorem exec_flareCheck (d : Dom) (mv : BitVec 12) (low : Bool) (t : Nat) (s : State) : exec (.flareCheck d mv low t) s =
    let due := checkDue (now t s) d
    let f := (domOf s d).droop.flare
    let v := if due then checkTaken (now t s) d else now t s
    if low && (due && (f == .recharging || f == .armed) || (!due && f == .armed)) then .next (bankFailed v d (if due then 1 else 2) mv)
    else .next v := rfl

section
variable {d : Dom} {s : State} (mv : BitVec 12) {t : Nat}

/-- The check after conduction judges a bank that recharges or is armed again. -/
theorem exec_flareCheck_due (hdue : checkDue (now t s) d = true) (low : Bool) : exec (.flareCheck d mv low t) s =
    if low = true ∧ ((domOf s d).droop.flare = .recharging ∨ (domOf s d).droop.flare = .armed) then
      .next (bankFailed (checkTaken (now t s) d) d 1 mv)
    else .next (checkTaken (now t s) d) := by
  simp [exec_flareCheck, hdue]

/-- Before that check an armed bank alone is judged. -/
theorem exec_flareCheck_early (hdue : ¬checkDue (now t s) d = true) (low : Bool) : exec (.flareCheck d mv low t) s =
    if low = true ∧ (domOf s d).droop.flare = .armed then .next (bankFailed (now t s) d 2 mv) else .next (now t s) := by
  simp [exec_flareCheck, hdue]

end

end Sys2Proof.Laws

namespace Sys2Proof.Proofs
open Sys2Proof Sys2Proof.Machine Sys2Proof.Laws
set_option Elab.async false

/-- Settles O31: the end of an action is a step of its station that clears one mark and drives the outputs without it, and a bank is judged by the
check after conduction where that is due (`exec_flareCheck_due`), by the idle one before (`exec_flareCheck_early`). -/
theorem droopEndsAndFlareBanks : Obligations.DroopEndsAndFlareBanks := by
  refine ⟨fun d t s => ⟨rfl, rfl, rfl, rfl, fun hg hin => ?_, fun h3 hin hgood => ?_⟩,
    fun d mv t s => ⟨exec_flareConductionEnd t, exec_flareRecharged t, ?_⟩⟩
  · have hstep := stationStep_actionEnded (now t s) d glintGone
    exact ⟨_, exec_glintEnd t hg hin, droop_actionEnded (now t s) d.isLt glintGone,
      fun ht => thrSkip_actionEnded (now t s) d.isLt glintGone ht rfl, otherDomainsSame_of_step hstep, hstep.only⟩
  · have hstep := stationStep_actionEnded (now t s) d dt3Gone
    exact ⟨_, exec_dt3End t h3 hin hgood, droop_actionEnded (now t s) d.isLt dt3Gone,
      fun ht => thrDiv_actionEnded (now t s) d.isLt dt3Gone ht rfl, otherDomainsSame_of_step hstep, hstep.only⟩
  · intro due taken fails f
    have hiff : checkDue (now t s) d = true ↔ due := checkDue_iff (now t s) d
    have honly : OnlyDoms (now t s) (checkTaken (now t s) d) := onlyDoms_setDom (now t s) d _
    have hdue (h : due) := exec_flareCheck_due mv (hiff.mpr h)
    have hearly (h : ¬due) := exec_flareCheck_early mv (mt hiff.mp h)
    refine ⟨fun h => ?_, fun h => ?_, fun h hf => ?_, fun h hr ha => ?_, fun h hf => ?_, fun h hf => ?_⟩
    · exact (hdue h false).trans (if_neg fun hlow => Bool.false_ne_true hlow.1)
    · exact (hearly h false).trans (if_neg fun hlow => Bool.false_ne_true hlow.1)
    · exact ((hdue h true).trans (if_pos ⟨rfl, hf⟩)).trans (congrArg _ (bankFailed_eq honly d 1 mv))
    · exact (hdue h true).trans (if_neg fun hlow => hlow.2.elim hr ha)
    · exact ((hearly h true).trans (if_pos ⟨rfl, hf⟩)).trans (congrArg _ (bankFailed_eq (.refl _) d 2 mv))
    · exact (hearly h true).trans (if_neg fun hlow => hf hlow.2)

end Sys2Proof.Proofs
end

section
/-! CLE instruction words: what an encoded word spells, and what a decoded word was encoded from (Table 07-7, R159). -/

namespace Sys2Proof.Laws
open Sys2Proof Sys2Proof.Machine
set_option Elab.async false

/-- Every encoded word spells its instruction; the commands that are no CLE instructions have no word. -/
theorem rawCle_of_encodeCle (i : Instr) : CleFields.Statement i := by
  cases i with
  | cleNop => exact CleFields.cleNop
  | cleEnd => exact CleFields.cleEnd
  | rep m1 k1 => exact CleFields.rep m1 k1
  | skipif a b cond n => exact CleFields.skipif a b cond n
  | sel d a b cond c => exact CleFields.sel d a b cond c
  | ldi d imm => exact CleFields.ldi d imm
  | ldiq d imm => exact CleFields.ldiq d imm
  | ldc d idx => exact CleFields.ldc d idx
  | mov d a => exact CleFields.mov d a
  | lds d idx => exact CleFields.lds d idx
  | sts a idx => exact CleFields.sts a idx
  | ldsx d b idx => exact CleFields.ldsx d b idx
  | stsx a b idx => exact CleFields.stsx a b idx
  | cleIn d port => exact CleFields.cleIn d port
  | cleOut a port => exact CleFields.cleOut a port
  | add d a b => exact CleFields.add d a b
  | sub d a b => exact CleFields.sub d a b
  | addi d a imm => exact CleFields.addi d a imm
  | addiq d a imm => exact CleFields.addiq d a imm
  | neg d a => exact CleFields.neg d a
  | abs d a => exact CleFields.abs d a
  | min d a b => exact CleFields.min d a b
  | max d a b => exact CleFields.max d a b
  | clamp d a b => exact CleFields.clamp d a b
  | mul d a b => exact CleFields.mul d a b
  | mac d a b => exact CleFields.mac d a b
  | msu d a b => exact CleFields.msu d a b
  | shl d a n => exact CleFields.shl d a n
  | shr d a n => exact CleFields.shr d a n
  | and d a b => exact CleFields.and d a b
  | or d a b => exact CleFields.or d a b
  | xor d a b => exact CleFields.xor d a b
  | _ => exact fun _ h => nomatch h

/-- A word decodes to an instruction exactly when it is that instruction's own word and the instruction is well-formed. -/
theorem decodeCle_eq_some_iff {w : Word} {i : Instr} : decodeCle w = some i ↔ encodeCle i = some w ∧ i.wf = true := by
  constructor
  · intro h
    unfold decodeCle at h
    split at h
    · split at h
      · rename_i j hj hok
        obtain rfl := Option.some.inj h
        simpa [unusedZero] using hok
      · cases h
    · cases h
  · rintro ⟨hw, hwf⟩
    rw [decodeCle, rawCle_of_encodeCle i w hw]
    exact if_pos (by simp [unusedZero, hw, hwf])

end Sys2Proof.Laws

namespace Sys2Proof.Proofs
open Sys2Proof Sys2Proof.Machine Sys2Proof.Laws
set_option Elab.async false

/-- Settles O5: both directions are `decodeCle_eq_some_iff`. -/
theorem cleRoundTrip : Obligations.CleRoundTrip :=
  ⟨fun _ _ hwf hw => decodeCle_eq_some_iff.mpr ⟨hw, hwf⟩, fun _ _ h => decodeCle_eq_some_iff.mp h⟩

/-- Settles O6: fifteen closed words, which the decoder evaluates. -/
theorem cleKnownWords : Obligations.CleKnownWords := by
  unfold Obligations.CleKnownWords
  decide

end Sys2Proof.Proofs
end

section
/-! CLE instructions in the slot in progress: which effect each has, and what becomes of the two lanes (Table 07-7, R154, R159 to R161). -/

namespace Sys2Proof.Laws
open Sys2Proof Sys2Proof.Machine
set_option Elab.async false

/-! ### The rows -/

/-- A CLE instruction in its place runs its effect on both lanes: well-formed, END and REP outside a REP body, LDC below the constants. -/
theorem exec_of_cleEff {i : Instr} {f : ClEnv → LaneCtx → ClEff} {s : State} (hf : cleEff i = some f) (hwf : i.wf = true)
    (hend : i = .cleEnd → inBody s = false) (hrep : ∀ m k, i = .rep m k → inBody s = false)
    (hldc : ∀ d idx, i = .ldc d idx → idx.toNat < (constsOf s s.slot.dom).length) : exec i s = cleExec f s := by
  cases i <;> cases hf
  case cleEnd => exact if_neg (ne_true_of_eq_false (hend rfl))
  case rep m1 k1 => exact if_neg (ne_true_of_eq_false (hrep m1 k1 rfl))
  case skipif a b cond n =>
    obtain ⟨hcond, hn⟩ := Bool.and_eq_true_iff.mp hwf
    exact (if_neg (by simp [hcond])).trans (if_neg (by simp [hn]))
  case sel d a b cond c => exact if_neg (by simp [show condOk cond = true from hwf])
  case ldc d idx => exact if_neg (Nat.not_le.mpr (hldc d idx rfl))
  case cleIn d port => exact if_neg (by simp [show inPortOk port = true from hwf])
  case cleOut a port => exact if_neg (by simp [show outPortOk port = true from hwf])
  case shl d a n => exact if_neg (by simp [show shiftOk n = true from hwf])
  case shr d a n => exact if_neg (by simp [show shiftOk n = true from hwf])
  -- The others have no condition.
  all_goals rfl

theorem inBody_of_no_rep {s : State} (h : s.slot.a.rep = none) : inBody s = false := by simp [inBody, h]

theorem inBody_of_skipped {s : State} (h : s.slot.a.skip ≠ 0) : inBody s = false := by simp [inBody, h]

/-- In a running slot both lanes take the effect and one cycle passes (R152, R168). -/
theorem exec_of_runs {i : Instr} {f : ClEnv → LaneCtx → ClEff} {s : State} (h : SlotRuns s) (hexec : exec i s = cleExec f s) :
    exec i s = .next (lanesNow s (applyEff s.slot.a (f (envOf s) s.slot.a))) := by
  rw [hexec, cleExec, cleWordStep_of_runs f h]

/-! ### Lanes -/

/-- The pointer moves on or goes back, and a repetition is counted or ends (R161). -/
theorem advance_eq (l : LaneCtx) : advance l = { l with ip := (advance l).ip, rep := (advance l).rep } := by
  unfold advance
  split
  · rfl
  · split
    · split <;> rfl
    · rfl

@[simp] theorem advance_g (l : LaneCtx) : (advance l).g = l.g := by rw [advance_eq]
@[simp] theorem advance_buf (l : LaneCtx) : (advance l).buf = l.buf := by rw [advance_eq]
@[simp] theorem advance_outs (l : LaneCtx) : (advance l).outs = l.outs := by rw [advance_eq]
@[simp] theorem advance_ended (l : LaneCtx) : (advance l).ended = l.ended := by rw [advance_eq]

theorem advance_of_no_rep {l : LaneCtx} (h : l.rep = none) : advance l = { l with ip := l.ip + 1 } := by rw [advance, h]

theorem applyEff_effReg {l : LaneCtx} (h : l.ended = false) (d : Reg) (w : Word) :
    applyEff l (effReg d w) = { advance l with g := vset l.g d.toNat w, skip := 0 } := by
  simp [applyEff, effReg, effNone, h]

/-! ### The value that reaches a register (R158) -/

/-- An instruction whose effect is a word for one register brings the value that the word stands for. -/
theorem regResult_of_effReg {s : State} (h : SlotRuns s) {i : Instr} {f : ClEnv → LaneCtx → ClEff} {d : Reg} {w : Word} {v : Int}
    (hexec : exec i s = cleExec f s) (heff : f (envOf s) s.slot.a = effReg d w) (hv : w.toInt = v) : RegResult i s d v := by
  obtain ⟨-, -, -, hended, -⟩ := id h
  exact ⟨w, hv, by rw [exec_of_runs h hexec, heff, applyEff_effReg hended]⟩

theorem toInt_ofInt_word {x : Int} (hlo : -2147483648 ≤ x) (hhi : x ≤ 2147483647) : (BitVec.ofInt 32 x).toInt = x := by
  rw [BitVec.toInt_ofInt]
  exact Int.bmod_eq_of_le (by omega) (by omega)

/-- A word holds a saturated value (R158). -/
theorem toInt_q32 (x : Int) : (q32 x).toInt = sat32 x := by
  refine toInt_ofInt_word ?_ ?_ <;> (unfold sat32 clampInt; omega)

/-- A rounded quotient is the floor or the next integer. -/
theorem rdiv_bounds (x y : Int) : x / y ≤ rdiv x y ∧ rdiv x y ≤ x / y + 1 := by
  unfold rdiv
  dsimp only
  split <;> omega

/-- Shifted right by one place or more, a word still fits a word. -/
theorem toInt_ofInt_rne (w : Word) {n : BitVec 5} (hn : n ≠ 0) : (BitVec.ofInt 32 (rne w.toInt n.toNat)).toInt = rne w.toInt n.toNat := by
  have hpow : (2 : Int) ≤ 2 ^ n.toNat := by
    have hpos : n.toNat ≠ 0 := fun h0 => hn (BitVec.eq_of_toNat_eq h0)
    exact_mod_cast Nat.pow_le_pow_right (n := 2) (by decide) (Nat.one_le_iff_ne_zero.mpr hpos)
  have hlo : -2147483648 ≤ w.toInt := BitVec.le_toInt w
  have hhi : w.toInt < 2147483648 := BitVec.toInt_lt
  obtain ⟨hfloor, hceil⟩ := rdiv_bounds w.toInt (2 ^ n.toNat)
  have hq1 : -2147483648 ≤ w.toInt / 2 ^ n.toNat := (Int.le_ediv_iff_mul_le (by omega)).mpr (by nlinarith)
  have hq2 : w.toInt / 2 ^ n.toNat < 1073741824 := (Int.ediv_lt_iff_lt_mul (by omega)).mpr (by nlinarith)
  exact toInt_ofInt_word (hq1.trans hfloor) (hceil.trans (by omega))

theorem toInt_ite_le_min (x y : Word) : (if x.toInt ≤ y.toInt then x else y).toInt = Min.min x.toInt y.toInt :=
  (apply_ite BitVec.toInt ..).trans (min_def ..).symm

theorem toInt_ite_le_max (x y : Word) : (if x.toInt ≤ y.toInt then y else x).toInt = Max.max x.toInt y.toInt :=
  (apply_ite BitVec.toInt ..).trans (max_def ..).symm

/-- The chosen register of SEL (R160). -/
theorem regResult_sel {s : State} (h : SlotRuns s) {cc : BitVec 3} {c : Reg} {p : Prop} [Decidable p] (hok : condOk cc = true)
    (hp : condHolds cc (gi s.slot.a c) 0 = decide p) (d a b : Reg) :
    RegResult (.sel d a b cc c) s d (if p then gi s.slot.a a else gi s.slot.a b) := by
  refine regResult_of_effReg h (if_neg (by simp [hok])) rfl ?_
  rw [hp]
  by_cases hc : p <;> simp [hc, gi]

end Sys2Proof.Laws

namespace Sys2Proof.Proofs
open Sys2Proof Sys2Proof.Machine Sys2Proof.Laws
set_option Elab.async false

/-- Settles O7: a CLE instruction in its place runs its effect (`exec_of_cleEff`), and in a running slot both lanes take it (`exec_of_runs`). -/
theorem cleInstructionRuns : Obligations.CleInstructionRuns := fun _ _ _ hf hwf hruns hend hrep hldc =>
  exec_of_runs hruns (exec_of_cleEff hf hwf (fun h => inBody_of_no_rep (hend h)) (fun m k h => inBody_of_no_rep (hrep m k h)) hldc)

/-- Settles O8: each instruction writes one register, and its word stands for the value that Table 07-7 names: saturated (`toInt_q32`), the lesser or
the greater of two (`toInt_ite_le_min`, `toInt_ite_le_max`), rounded (`toInt_ofInt_rne`), or the word itself. -/
theorem cleResults : Obligations.CleResults := by
  refine ⟨fun s d a b imm n h => ?_, fun s d a b c imm k j p cc h => ?_⟩
  · intro x y z
    refine ⟨?add, ?sub, ?addi, ?addiq, ?neg, ?abs, ?min, ?max, ?clamp, ?mul, ?mac, ?msu, fun hn => ⟨?shl, ?shr⟩⟩
    case add | sub | addi | addiq | neg | abs | mul | mac | msu => exact regResult_of_effReg h rfl rfl (toInt_q32 _)
    case min => exact regResult_of_effReg h rfl rfl (toInt_ite_le_min _ _)
    case max => exact regResult_of_effReg h rfl rfl (toInt_ite_le_max _ _)
    case clamp =>
      exact regResult_of_effReg h rfl rfl ((toInt_ite_le_min _ _).trans (congrArg (Min.min · y) (toInt_ite_le_max _ _)))
    case shl =>
      have hok : shiftOk n = true := bne_iff_ne.mpr hn
      exact regResult_of_effReg h (if_neg (by simp [hok])) rfl (toInt_q32 _)
    case shr =>
      have hok : shiftOk n = true := bne_iff_ne.mpr hn
      exact regResult_of_effReg h (if_neg (by simp [hok])) rfl (toInt_ofInt_rne _ hn)
  · intro l word
    have hlo : -8192 ≤ sext14 imm := BitVec.le_toInt imm
    have hhi : sext14 imm < 8192 := BitVec.toInt_lt
    refine ⟨?mov, ?ldi, ?ldiq, fun hk => ?ldc, ?lds, ?ldsx, fun hp => ?cleIn, ?eq, ?ne, ?lt, ?ge, ?le, ?gt, ?and, ?or, ?xor⟩
    case mov | lds | ldsx | and | or | xor => exact regResult_of_effReg h rfl rfl rfl
    case ldi | ldiq => exact regResult_of_effReg h rfl rfl (toInt_ofInt_word (by omega) (by omega))
    case ldc => exact regResult_of_effReg h (if_neg (Nat.not_le.mpr hk)) rfl (congrArg BitVec.toInt (List.getD_eq_getElem _ 0 hk))
    case cleIn => exact regResult_of_effReg h (if_neg (by simp [inPortOk, hp])) rfl rfl
    case eq | ne | lt | ge | le | gt => exact fun hc => regResult_sel h (hc ▸ rfl) (hc ▸ rfl) d a b

end Sys2Proof.Proofs
end

section
/-! Stores, outputs and control of a CLE program: what reads back, what is skipped, and the run of a REP body (R154, R157, R159 to R161). -/

namespace Sys2Proof.Laws
open Sys2Proof Sys2Proof.Machine
set_option Elab.async false

/-! ### Stores -/

/-- A written state word reads back, and every other state word reads as before (R154). -/
theorem readSw_of_buf {l m : LaneCtx} {j : Nat} {w : Word} (h : m.buf = (j, w) :: l.buf) (e : ClEnv) (i : Nat) :
    readSw e m i = if i = j then w else readSw e l i := by
  unfold readSw
  rw [h]
  by_cases hij : i = j
  · rw [List.find?_cons_of_pos (by simp [hij]), if_pos hij]
  · rw [List.find?_cons_of_neg (by simp [Ne.symm hij]), if_neg hij]

/-- A store keeps registers and outputs of the lane and changes one state word. -/
theorem stored_of_runs {s : State} (h : SlotRuns s) {i : Instr} {f : ClEnv → LaneCtx → ClEff} {j : Nat} {w : Word} (hexec : exec i s = cleExec f s)
    (heff : f (envOf s) s.slot.a = { effNone with sw := some (j, w) }) : ∃ m, exec i s = .next (lanesNow s m) ∧ m.g = s.slot.a.g ∧
      m.outs = s.slot.a.outs ∧ ∀ k, readSw (envOf s) m k = if k = j then w else readSw (envOf s) s.slot.a k := by
  have hbuf : (applyEff s.slot.a (f (envOf s) s.slot.a)).buf = (j, w) :: s.slot.a.buf := by simp [applyEff, heff]
  exact ⟨_, exec_of_runs h hexec, by simp [applyEff, heff, effNone], by simp [applyEff, heff, effNone], readSw_of_buf hbuf _⟩

/-- An output sets its port alone (R157). -/
theorem output_of_runs {s : State} (h : SlotRuns s) {p : BitVec 4} (hp : p.toNat ≤ 3) (a : Reg) :
    ∃ m, exec (.cleOut a p) s = .next (lanesNow s m) ∧ m.g = s.slot.a.g ∧ m.buf = s.slot.a.buf ∧
      ∀ q, q < 4 → vget m.outs q = if q = p.toNat then some (gr s.slot.a a) else vget s.slot.a.outs q := by
  refine ⟨_, exec_of_runs h (if_neg (by simp [outPortOk, hp])), by simp [applyEff, effOut, effNone], by simp [applyEff, effOut, effNone], fun q _ => ?_⟩
  have houts : (applyEff s.slot.a (effOut a p (envOf s) s.slot.a)).outs = vset s.slot.a.outs p.toNat (some (gr s.slot.a a)) := by
    simp [applyEff, effOut]
  rw [houts]
  split
  · rename_i hq
    rw [hq, vget_vset_same _ _ (by omega)]
  · rename_i hq
    exact vget_vset_ne _ _ (Ne.symm hq)

/-! ### Control -/

/-- Outside a REP body the lane moves on by one word, whatever an instruction without a result does to its control (R159). -/
theorem control_of_runs {s : State} (h : SlotRuns s) (hrep : s.slot.a.rep = none) {i : Instr} {f : ClEnv → LaneCtx → ClEff}
    (hexec : exec i s = cleExec f s) {k : Nat} {r : Option RepSt} {e : Bool}
    (heff : f (envOf s) s.slot.a = { effNone with skip := k, rep := r, ended := e }) :
    exec i s = .next (lanesNow s { s.slot.a with ip := s.slot.a.ip + 1, skip := k, rep := r, ended := e }) := by
  rw [exec_of_runs h hexec, heff, applyEff, advance_of_no_rep hrep]
  cases r with
  | none => simp [effNone, hrep]
  | some r => rfl

/-! ### Both lanes at one word -/

/-- The slot in progress with its lanes, at a cycle. -/
def lanesMet (s : State) (a b : LaneCtx) (c : Nat) : State := { s with slot := { s.slot with a := a, b := b, cycle := c } }

/-- A word met by both lanes: a cycle passes where either executes it, and a disagreement is a mismatch of that cycle (R161, R168). -/
theorem cleWordStep_eq {f : ClEnv → LaneCtx → ClEff} {s : State} (hm : s.slot.mismatch = none) (hc : s.slot.cycle ≤ 37)
    {a b : LaneCtx × Option ClEff} (ha : laneWord f (envOf s) s.slot.a = a) (hb : laneWord f (envOf s) s.slot.b = b) :
    cleWordStep f s =
      let ran := a.2.isSome || b.2.isSome
      let s1 := lanesMet s a.1 b.1 (if ran then s.slot.cycle + 1 else s.slot.cycle)
      if ran && (a.2 != b.2 || a.1.ip != b.1.ip) then mismatchFound s1 s.slot.cycle else s1 := by
  subst ha hb
  exact if_neg (by simp [hm, hc])

theorem laneWord_of_skipped (f : ClEnv → LaneCtx → ClEff) (env : ClEnv) {l : LaneCtx} (he : l.ended = false) (hs : l.skip ≠ 0) :
    laneWord f env l = ({ advance l with skip := l.skip - 1 }, none) := by
  rw [laneWord, if_neg (by simp [he]), if_pos hs]

theorem laneWord_of_runs (f : ClEnv → LaneCtx → ClEff) (env : ClEnv) {l : LaneCtx} (he : l.ended = false) (hs : l.skip = 0) :
    laneWord f env l = (applyEff l (f env l), some (f env l)) := by
  rw [laneWord, if_neg (by simp [he]), if_neg (by simp [hs])]

/-- A skipped word takes no cycle and moves the pointer alone (R161). -/
theorem cleWordStep_of_skipped (f : ClEnv → LaneCtx → ClEff) {s : State} (hm : s.slot.mismatch = none) (hc : s.slot.cycle ≤ 37)
    (hab : s.slot.a = s.slot.b) (he : s.slot.a.ended = false) (hs : s.slot.a.skip ≠ 0) {l : LaneCtx}
    (hl : l = { advance s.slot.a with skip := s.slot.a.skip - 1 }) :
    cleWordStep f s = { s with slot := { s.slot with a := l, b := l } } := by
  have ha : laneWord f (envOf s) s.slot.a = (l, none) := hl ▸ laneWord_of_skipped f (envOf s) he hs
  have hb : laneWord f (envOf s) s.slot.b = (l, none) := hab ▸ ha
  exact cleWordStep_eq hm hc ha hb

/-! ### REP bodies -/

/-- A lane at a word of a REP body, with iterations left behind the present one. -/
def bodyLane (l : LaneCtx) (start m left r : Nat) : LaneCtx :=
  { l with ip := start + r, rep := some { start := start, len := m, left := left } }

section
variable (l : LaneCtx) (start m : Nat)

theorem advance_bodyLane_inside {r : Nat} (hr : r + 1 < m) (left : Nat) :
    advance (bodyLane l start m left r) = bodyLane l start m left (r + 1) :=
  if_neg (show ¬(start + r + 1 = start + m) by omega)

theorem advance_bodyLane_back {r : Nat} (hr : r + 1 = m) (left : Nat) :
    advance (bodyLane l start m (left + 1) r) = bodyLane l start m left 0 :=
  (if_pos (show start + r + 1 = start + m by omega)).trans (if_neg (Nat.succ_ne_zero left))

theorem advance_bodyLane_out {r : Nat} (hr : r + 1 = m) :
    advance (bodyLane l start m 0 r) = { l with ip := start + m, rep := none } := by
  refine (if_pos (show start + r + 1 = start + m by omega)).trans ((if_pos rfl).trans ?_)
  rw [← hr]
  rfl

/-- An iteration runs through its words in order. -/
theorem iterate_advance_bodyLane {r : Nat} (hr : r < m) (left : Nat) :
    advance^[r] (bodyLane l start m left 0) = bodyLane l start m left r := by
  induction r with
  | zero => rfl
  | succ r ih => rw [Function.iterate_succ_apply', ih (by omega), advance_bodyLane_inside l start m hr]

/-- Whole iterations leave the lane at the start of the body. -/
theorem iterate_advance_rounds (hm : 0 < m) (n left : Nat) :
    advance^[n * m] (bodyLane l start m (left + n) 0) = bodyLane l start m left 0 := by
  induction n with
  | zero => simp
  | succ n ih =>
    obtain ⟨r, rfl⟩ : ∃ r, m = r + 1 := ⟨m - 1, by omega⟩
    have hround : advance^[r + 1] (bodyLane l start (r + 1) (left + n + 1) 0) = bodyLane l start (r + 1) (left + n) 0 := by
      rw [Function.iterate_succ_apply', iterate_advance_bodyLane l start (r + 1) (Nat.lt_succ_self r), advance_bodyLane_back l start (r + 1) rfl]
    rw [Nat.succ_mul, Function.iterate_add_apply, ← Nat.add_assoc, hround, ih]

/-- A REP body of k iterations: its words by their place, and the way out (R161). -/
theorem iterate_advance_rep {k : Nat} (hm : 0 < m) (hk : 0 < k) :
    advance^[k * m] (bodyLane l start m (k - 1) 0) = { l with ip := start + m, rep := none } ∧
    ∀ j, j < k * m → advance^[j] (bodyLane l start m (k - 1) 0) = bodyLane l start m (k - 1 - j / m) (j % m) := by
  have hword (j : Nat) (hj : j < k * m) : advance^[j] (bodyLane l start m (k - 1) 0) = bodyLane l start m (k - 1 - j / m) (j % m) := by
    have hq : j / m < k := Nat.div_lt_of_lt_mul (by rwa [Nat.mul_comm])
    have hsplit : j = j % m + j / m * m := by rw [Nat.mul_comm, Nat.mod_add_div]
    have hleft : k - 1 = k - 1 - j / m + j / m := by omega
    calc advance^[j] (bodyLane l start m (k - 1) 0)
        = advance^[j % m] (advance^[j / m * m] (bodyLane l start m (k - 1 - j / m + j / m) 0)) := by
          rw [← Function.iterate_add_apply, ← hsplit, ← hleft]
      _ = bodyLane l start m (k - 1 - j / m) (j % m) := by
          rw [iterate_advance_rounds l start m hm, iterate_advance_bodyLane l start m (Nat.mod_lt j hm)]
  refine ⟨?_, hword⟩
  obtain ⟨n, rfl⟩ : ∃ n, k = n + 1 := ⟨k - 1, by omega⟩
  obtain ⟨r, rfl⟩ : ∃ r, m = r + 1 := ⟨m - 1, by omega⟩
  have hrounds := iterate_advance_rounds l start (r + 1) hm n 0
  rw [Nat.zero_add] at hrounds
  rw [Nat.succ_mul, Nat.add_comm, Function.iterate_add_apply, Nat.add_sub_cancel, hrounds, Function.iterate_succ_apply',
    iterate_advance_bodyLane l start (r + 1) (Nat.lt_succ_self r), advance_bodyLane_out l start (r + 1) rfl]

end

end Sys2Proof.Laws

namespace Sys2Proof.Proofs
open Sys2Proof Sys2Proof.Machine Sys2Proof.Laws
set_option Elab.async false

/-- Settles O9: a store changes one buffered word (`stored_of_runs`), OUT one port (`output_of_runs`), and the others the lane's control
(`control_of_runs`). -/
theorem cleStoresAndControl : Obligations.CleStoresAndControl := by
  refine ⟨fun s a b j p h => ⟨stored_of_runs h rfl rfl, stored_of_runs h rfl rfl, fun hp => output_of_runs h hp a⟩, fun s a b cc n m1 k1 h hrep => ?_⟩
  have hbody : ¬inBody s = true := ne_true_of_eq_false (inBody_of_no_rep hrep)
  have hcontrol := @control_of_runs s h hrep
  obtain ⟨-, -, -, hended, hskip⟩ := id h
  refine ⟨?nop, ?stop, ?rep, fun hcc hn => ?skipif⟩
  case nop =>
    rw [hskip, hended, hrep]
    exact hcontrol (i := .cleNop) (f := effNop) rfl rfl
  case stop =>
    rw [hskip, hrep]
    exact hcontrol (i := .cleEnd) (f := effEnd) (if_neg hbody) rfl
  case rep =>
    rw [hskip, hended]
    exact hcontrol (i := .rep m1 k1) (f := effRep m1 k1) (if_neg hbody) rfl
  case skipif =>
    have hok : condOk cc = true := decide_eq_true hcc
    have hcount : skipOk n = true := bne_iff_ne.mpr hn
    rw [hended, hrep]
    exact hcontrol (i := .skipif a b cc n) (f := effSkipif a b cc n) ((if_neg (by simp [hok])).trans (if_neg (by simp [hcount]))) rfl

/-- Settles O10: a skipped word (`cleWordStep_of_skipped`), and the words of a REP body by induction over its iterations (`iterate_advance_rep`). -/
theorem cleSkipsAndRepeats : Obligations.CleSkipsAndRepeats := by
  refine ⟨fun i f s hf hwf hm hc hab he hs hldc => ?_, fun l start m k hm hk hip hrep => ?_⟩
  · have hbody : inBody s = false := inBody_of_skipped hs
    rw [exec_of_cleEff hf hwf (fun _ => hbody) (fun _ _ _ => hbody) hldc, cleExec,
      cleWordStep_of_skipped f hm hc hab he hs rfl]
  · have hl : l = bodyLane l start m (k - 1) 0 := by
      subst hip
      rw [bodyLane, Nat.add_zero, ← hrep]
    obtain ⟨hout, hword⟩ := iterate_advance_rep l start m hm hk
    rw [← hl] at hout hword
    exact ⟨hout, fun j hj => congrArg LaneCtx.ip (hword j hj)⟩

end Sys2Proof.Proofs
end

section
/-! A disagreement of the two lanes (R168). -/

namespace Sys2Proof.Laws
open Sys2Proof Sys2Proof.Machine
set_option Elab.async false

/-- A message of a unit, with no time and no extension. -/
def unitMsg (s : State) (cls kind unit inst detail : Nat) : FaultMsg :=
  { bits := faultWord cls kind unit inst detail (epochIn s), from_ := none, ext := 0 }

theorem unitMsg_fields (s : State) {cls kind unit inst : Nat} (detail : Nat) (hcls : cls < 4) (hkind : kind < 256) (hunit : unit < 16)
    (hinst : inst < 256) : let m := unitMsg s cls kind unit inst detail
    fKindOf m.bits = kind ∧ fClass m.bits = cls ∧ fUnit m.bits = unit ∧ fInst m.bits = inst :=
  ⟨(fKindOf_faultWord ..).trans (Nat.mod_eq_of_lt hkind), (fClass_faultWord ..).trans (Nat.mod_eq_of_lt hcls),
    (fUnit_faultWord ..).trans (Nat.mod_eq_of_lt hunit), (fInst_faultWord ..).trans (Nat.mod_eq_of_lt hinst)⟩

/-- A message enters the collector's queue while there is room. -/
theorem raise_queued {s : State} (hroom : s.safety.queue.length ≤ 768) (cls kind unit inst detail : Nat) :
    raise s cls kind unit inst detail = queued s (unitMsg s cls kind unit inst detail) :=
  raise_eq s cls kind unit inst detail fun _ => hroom

/-- The lane of the position is retired and LOCKSTEP enters the queue behind the messages there, one of which may change its class; outside slot,
lanes and collector nothing changes (R168, R169). -/
theorem mismatchFound_eq {s : State} {lane : Fin 17} (hlane : vget s.laneOf s.slot.pos = some lane) (hroom : s.safety.queue.length ≤ 768) (cyc : Nat) :
    ∃ q cls det ms, cls ≤ 1 ∧ mismatchFound s cyc = { s with
      slot := { s.slot with mismatch := some cyc }, lanes := vupd s.lanes lane (fun l => { l with retired := true }), mism := ms,
      safety := { s.safety with queue := q ++ [unitMsg s cls 0x11 0x2 lane det] } } := by
  obtain ⟨u, hu⟩ : ∃ u, mismatchFound s cyc = u := ⟨_, rfl⟩
  rw [hu]
  unfold mismatchFound at hu
  extract_lets c D laneNo old det m0 best first wins safety s0 cls m s1 slot at hu
  have hno : laneNo = lane.val := by
    dsimp only [laneNo, c]
    rw [hlane]
  have hcls : cls ≤ 1 := by
    dsimp only [cls]
    split <;> omega
  obtain ⟨q, hlen, h0⟩ : ∃ q, q.length = s.safety.queue.length ∧ s0 = { s with safety := { s.safety with queue := q } } := by
    dsimp only [s0, safety]
    clear_value best wins
    split
    · split
      · exact ⟨_, List.length_map _, rfl⟩
      · exact ⟨_, rfl, rfl⟩
    · exact ⟨_, rfl, rfl⟩
  have h1 : s1 = { s with safety := { s.safety with queue := q ++ [unitMsg s cls 0x11 0x2 lane det] } } := by
    dsimp only [s1]
    rw [h0, hno, raise_queued (hlen.trans_le hroom)]
    rfl
  refine ⟨q, cls, det, m :: old, hcls, ?_⟩
  have hslot : slot = s.slot := (congrArg State.slot h1 :)
  rw [← hu, hslot, h1, hno]

/-- Two lanes that a word gives different effects end the slot as a mismatch of its cycle. -/
theorem cleWordStep_of_differing {f : ClEnv → LaneCtx → ClEff} {s : State} (hm : s.slot.mismatch = none) (hc : s.slot.cycle ≤ 37)
    (hea : s.slot.a.ended = false) (heb : s.slot.b.ended = false) (hsa : s.slot.a.skip = 0) (hsb : s.slot.b.skip = 0)
    (hne : f (envOf s) s.slot.a ≠ f (envOf s) s.slot.b) : ∃ a b, cleWordStep f s = mismatchFound (lanesMet s a b (s.slot.cycle + 1)) s.slot.cycle :=
  ⟨_, _, (cleWordStep_eq hm hc (laneWord_of_runs f _ hea hsa) (laneWord_of_runs f _ heb hsb)).trans (if_pos (by simp [hne]))⟩

theorem effMov_ne {l m : LaneCtx} {a : Reg} (h : gr l a ≠ gr m a) (d : Reg) (e : ClEnv) : effMov d a e l ≠ effMov d a e m := by
  simp [effMov, effReg, h]

end Sys2Proof.Laws

namespace Sys2Proof.Proofs
open Sys2Proof Sys2Proof.Machine Sys2Proof.Laws
set_option Elab.async false

/-- Settles O11: the lanes' effects differ (`effMov_ne`), so the word is a mismatch (`cleWordStep_of_differing`), whose outcome is `mismatchFound_eq`. -/
theorem cleMismatch : Obligations.CleMismatch := by
  intro s d a hm hc hea heb hsa hsb hne hroom lane hlane
  obtain ⟨x, y, hstep⟩ := cleWordStep_of_differing hm hc hea heb hsa hsb (effMov_ne hne d _)
  obtain ⟨q, cls, det, ms, hcls, hfound⟩ := mismatchFound_eq (s := lanesMet s x y (s.slot.cycle + 1)) hlane hroom s.slot.cycle
  obtain ⟨hkind, hclass, hunit, hinst⟩ := unitMsg_fields (lanesMet s x y (s.slot.cycle + 1)) (cls := cls) (kind := 0x11) (unit := 0x2) (inst := lane)
    det (by omega) (by decide) (by decide) (by omega)
  exact ⟨_, congrArg Host.Outcome.next (hstep.trans hfound), rfl, congrArg LaneSt.retired (vget_vupd_fin s.lanes lane _),
    ⟨_, List.getLast?_concat, hkind, hunit, hinst, hclass.trans_le hcls⟩, rfl⟩

end Sys2Proof.Proofs
end

section
/-! Errors that the scrub finds in protected stores: the messages, and what each uncorrectable error leaves (R173, R383, Table 16-5). -/

namespace Sys2Proof.Laws
open Sys2Proof Sys2Proof.Machine
set_option Elab.async false

/-! ### Changed entries -/

theorem vupd_eq_vset {α : Type} [Inhabited α] {n : Nat} (v : Vector α n) (i : Nat) (f : α → α) : vupd v i f = vset v i (f (vget v i)) :=
  vupd_congr v i rfl

/-- A record of the lost epoch is marked bad. -/
def markBad (e : Word) (r : Record) : Record := if r.epoch = e then { r with bad := true } else r

theorem bad_markBad {e : Word} {r : Record} (h : (markBad e r).epoch = e) : (markBad e r).bad = true := by
  by_cases hr : r.epoch = e
  · rw [markBad, if_pos hr]
  · exact absurd (by rwa [markBad, if_neg hr] at h) hr

theorem commits_markBad (e : Word) (r : Record) : (markBad e r).commits = r.commits := by
  unfold markBad
  split <;> rfl

/-- The completion of a command whose entry is lost. -/
def lostCpl (s : State) (c : Cmd) : Completion :=
  { tag := c.d.tag, status := 0x13, seq := 0, epoch := epochNow s, result := 0xFF0000FE, isFinal := true, atWrite := true }

theorem atLost_lone {s : State} {c : Cmd} (hc : s.cmds = [c]) (hst : c.stage = .accepted) (hat : dAt c.d = true) (hgrp : c.grp = none) :
    atLost s c.d.port c.d.tag = postCompletion { s with cmds := [] } c.d.port (lostCpl s c) (hadInterim c) := by
  have hfound : cmdAt s c.d.port (fun x => x.stage == .accepted && dAt x.d && x.d.tag == c.d.tag) = some c := by
    rw [cmdAt, hc, List.find?_cons_of_pos]
    simp [hst, hat]
  rw [atLost, hfound]
  dsimp only
  rw [unitOf_lone hgrp, failUnit, dropUnit_lone hc]
  simp only [List.foldl_cons, List.foldl_nil, List.find?_cons_of_pos, beq_self_eq_true]
  rfl

/-- An uncorrectable error of the hub that is told without an address (log 27). -/
def uncTold (s : State) (inst : Nat) : State :=
  { queued s (unitMsg s 1 0x42 1 inst (Config.fresh s.freeIdx % 2 ^ 32)) with freeIdx := s.freeIdx + 1 }

/-! ### What one error does -/

section
variable {s : State} (hroom : s.safety.queue.length ≤ 768)
include hroom

/-- A corrected word queues ECC_CORR and nothing else changes. -/
theorem exec_scrub_corr {hit : ScrubHit} {t unit inst addr : Nat} (hhit : scrubHit (now t s) hit = eccCorr (now t s) unit inst addr) :
    exec (.scrub hit t) s = .next (queued (now t s) (unitMsg (now t s) 0 0x41 unit inst addr)) := by
  rw [show exec (.scrub hit t) s = .next (scrubHit (now t s) hit) from rfl, hhit, eccCorr, raise_queued (s := now t s) hroom]

/-- A station's table with a parity error is kept from use. -/
theorem scrubHit_stationPar (d : Dom) : scrubHit s (.stationPar d) =
    { queued s (unitMsg s 0 0x40 0x6 d 0) with dom := vset s.dom d { vget s.dom d with tblBad := true } } := by
  rw [scrubHit, raise_queued hroom, setDom, vupd_eq_vset]
  rfl

/-- A program with an uncorrectable word is unusable. -/
theorem scrubHit_progUnc {g : Fin 32} {x : Program} (hx : vget s.progs g = some x) (a : BitVec 14) : scrubHit s (.progUnc g a) =
    { queued s (unitMsg s 1 0x42 2 0x20 a.toNat) with progs := vset s.progs g (some { x with unusable := true }) } := by
  rw [scrubHit, eccUnc, raise_queued hroom, vupd_eq_vset, hx]
  rfl

/-- A word of the hub that is lost is told, and its domain goes into HELD: neither its configuration nor a command changes. -/
theorem scrubHit_hubUnc (d : Dom) (w : Word) : let u := scrubHit s (.hubUnc d w)
    u.safety = (queued s (unitMsg s 1 0x42 1 0x22 w.toNat)).safety ∧ u.cfg = s.cfg ∧ u.cmds = s.cmds := by
  rw [scrubHit, eccUnc, raise_queued hroom]
  split
  · exact ⟨rfl, rfl, rfl⟩
  · obtain ⟨-, hstep⟩ := holdStep_holdDomain (queued s (unitMsg s 1 0x42 1 0x22 w.toNat))
      (leader (queued s (unitMsg s 1 0x42 1 0x22 w.toNat)) d) .overrun
    have honly := hstep.only
    exact ⟨(congrArg State.safety honly :), (congrArg State.cfg honly :), (congrArg State.cmds honly :)⟩

theorem eccUnc_fresh (inst : Nat) : eccUnc (freshBelow s (2 ^ 32)).2 1 inst (freshBelow s (2 ^ 32)).1 = uncTold s inst :=
  raise_queued (s := (freshBelow s (2 ^ 32)).2) hroom 1 0x42 1 inst _

theorem scrubHit_recordUnc (e : Word) : scrubHit s (.recordUnc e) = { uncTold s 0x22 with records := s.records.map (markBad e) } := by
  rw [scrubHit, eccUnc_fresh hroom]
  rfl

/-- A lost entry of the AT store completes its command, and no command is left. -/
theorem scrubHit_atUnc {c : Cmd} (hc : s.cmds = [c]) (hst : c.stage = .accepted) (hat : dAt c.d = true) (hgrp : c.grp = none) :
    scrubHit s (.atUnc c.d.port c.d.tag) =
      postCompletion { uncTold s 0x23 with cmds := [] } c.d.port (lostCpl s c) (hadInterim c) := by
  rw [scrubHit, eccUnc_fresh hroom, atLost_lone (s := uncTold s 0x23) hc hst hat hgrp, acceptAll_nil rfl]
  rfl

end

/-! ### A lost model -/

/-- What the loss of a model does at one domain. -/
def lanternLost (k : Nat) (s : State) (d : Nat) : State :=
  if isAbsent s d || isOdd s d || (cfgAt s d).model.map (fun x => x.val) != some k then s else report s d (.featOff true false)

/-- Only the list of waiting changes grows. -/
def IntsGrow (s u : State) : Prop := s.ints <+: u.ints ∧ u = { s with ints := u.ints }

theorem IntsGrow.refl (s : State) : IntsGrow s s := ⟨List.prefix_rfl, rfl⟩

theorem intsGrow_lanternLost (k : Nat) (s : State) (d : Nat) : IntsGrow s (lanternLost k s d) := by
  unfold lanternLost
  split
  · exact .refl s
  · exact ⟨report_prefix .., report_frame ..⟩

theorem IntsGrow.trans {s u v : State} (h : IntsGrow s u) (k : IntsGrow u v) : IntsGrow s v := by
  obtain ⟨hp, hu⟩ := h
  obtain ⟨kp, kv⟩ := k
  refine ⟨hp.trans kp, ?_⟩
  rw [kv, hu]

theorem intsGrow_lanternsLost (k : Nat) (s : State) : IntsGrow s (foldDoms s (lanternLost k)) :=
  foldl_inv (I := IntsGrow s) (fun v d hv => hv.trans (intsGrow_lanternLost k v d)) _ (.refl s)

/-- Every present domain that is no odd member and is bound to the model reports the loss. -/
theorem lanternsLost_reports {k : Fin 8} {s : State} {y : Dom} (ha : isAbsent s y = false) (ho : isOdd s y = false) (hm : (cfgAt s y).model = some k) :
    ∃ i ∈ (foldDoms s (lanternLost k)).ints, i.dom = y ∧ i.what = .featOff true false := by
  refine foldl_reaches (I := IntsGrow s) (Q := fun v => ∃ i ∈ v.ints, i.dom = y ∧ i.what = .featOff true false) (a := y.val)
    (fun v d hv => hv.trans (intsGrow_lanternLost k v d)) (fun v hv => ?_) (fun v d _ hq => ?_) (List.mem_range.mpr y.isLt) (.refl s)
  · obtain ⟨-, hv⟩ := hv
    have hlost : lanternLost k v y = report v y (.featOff true false) := by
      rw [hv]
      refine if_neg (show ¬(isAbsent s y || isOdd s y || (cfgAt s y).model.map (fun x => x.val) != some k.val) = true from ?_)
      simp [ha, ho, hm]
    rw [hlost, report_eq]
    exact ⟨_, List.mem_append_right _ (List.mem_singleton_self _), rfl, rfl⟩
  · obtain ⟨i, hi, hdom, hwhat⟩ := hq
    exact ⟨i, (intsGrow_lanternLost k v d).1.subset hi, hdom, hwhat⟩

/-- A model that is unusable, with the message of its uncorrectable word. -/
def modelGone (s : State) (m : Fin 8) (x : Model) (w : Word) : State :=
  { queued s (unitMsg s 1 0x42 3 m w.toNat) with models := vset s.models m (some { x with unusable := true }) }

theorem scrubHit_modelUnc {s : State} (hroom : s.safety.queue.length ≤ 768) {m : Fin 8} {x : Model} (hx : vget s.models m = some x) (w : Word) :
    scrubHit s (.modelUnc m w) = foldDoms (modelGone s m x w) (lanternLost m) := by
  have hold : vget (queued s (unitMsg s 1 0x42 3 m w.toNat)).models m = some x := hx
  rw [scrubHit, eccUnc, raise_queued hroom, modelLost, vupd_eq_vset, hold]
  rfl

/-! ### A bin of the repetitive compensator -/

/-- A bin with a parity error becomes 0. -/
def zeroed (s : State) (d : Nat) (b : BitVec 12) : State := setRc s d (fun R => { R with bins := R.bins.write b.toNat 0 })

theorem scrubHit_rcParity {s : State} (hroom : s.safety.queue.length ≤ 768) (d : Dom) (b : BitVec 12) :
    scrubHit s (.rcParity d b) = queued (zeroed s d b) (unitMsg s 0 0x41 4 d b.toNat) :=
  raise_queued (s := zeroed s d b) hroom 0 0x41 4 d b.toNat

end Sys2Proof.Laws

namespace Sys2Proof.Proofs
open Sys2Proof Sys2Proof.Machine Sys2Proof.Laws
set_option Elab.async false

/-- Settles O60: what the scrub finds has one lemma per store (`exec_scrub_corr` and the lemmas `scrubHit_…`), and the loss of a model reaches each
of its domains by a pass (`lanternsLost_reports`). -/
theorem scrubFinds : Obligations.ScrubFinds := by
  intro a w g e d bin m t s hroom msg corr
  have hroom' : (now t s).safety.queue.length ≤ 768 := hroom
  refine ⟨rfl, ?progCorr, ?stateCorr, ?hubCorr, ?recordCorr, ?atCorr, ?modelCorr, ?stationPar, fun x hx => ?progUnc, ?hubUnc,
    fun c hc hst hat hgrp _ => ?atUnc, ?recordUnc, fun x hx => ?modelUnc, fun hwf => ?rcParity⟩
  case progCorr | stateCorr | hubCorr | recordCorr | atCorr | modelCorr => exact exec_scrub_corr hroom rfl
  case stationPar => exact congrArg Host.Outcome.next (scrubHit_stationPar hroom' d)
  case progUnc => exact congrArg Host.Outcome.next (scrubHit_progUnc hroom' hx a)
  case hubUnc =>
    obtain ⟨hsafety, hcfg, hcmds⟩ := scrubHit_hubUnc hroom' d w
    exact ⟨_, rfl, [], (congrArg Safety.queue hsafety).trans (List.append_nil _).symm, hcfg, hcmds⟩
  case atUnc =>
    refine ⟨_, congrArg Host.Outcome.next (scrubHit_atUnc hroom' hc hst hat hgrp), rfl, ⟨lostCpl (uncTold (now t s) 0x23) c, ?_, rfl, rfl, rfl⟩,
      _, rfl, unitMsg_fields _ _ (by decide) (by decide) (by decide) (by decide)⟩
    exact congrArg Port.cplWait (portOf_setPort_fin ..)
  case recordUnc =>
    refine ⟨_, congrArg Host.Outcome.next (scrubHit_recordUnc hroom' e), fun r hr he => ?_, ?_,
      _, rfl, unitMsg_fields _ _ (by decide) (by decide) (by decide) (by decide)⟩
    · obtain ⟨q, -, rfl⟩ := List.mem_map.mp hr
      exact bad_markBad he
    · exact (List.map_map ..).trans (List.map_congr_left fun r _ => commits_markBad e r)
  case modelUnc =>
    obtain ⟨-, hgrow⟩ := intsGrow_lanternsLost m (modelGone (now t s) m x w)
    have hreports (y : Dom) := lanternsLost_reports (k := m) (s := modelGone (now t s) m x w) (y := y)
    refine ⟨_, congrArg Host.Outcome.next (scrubHit_modelUnc hroom' hx w), ?_⟩
    generalize foldDoms (modelGone (now t s) m x w) (lanternLost m) = u at hgrow hreports ⊢
    refine ⟨(congrArg State.models hgrow :), (congrArg (fun v => v.safety.queue) hgrow :), fun y => hreports y, ?_⟩
    rw [hgrow]
    rfl
  case rcParity =>
    have hbins : (domOf (zeroed (now t s) d bin) d).rc.bins = (domOf s d).rc.bins.write bin.toNat 0 :=
      congrArg (fun D => D.rc.bins) (domOf_setDom_fin (now t s) d _)
    refine ⟨_, congrArg Host.Outcome.next (scrubHit_rcParity hroom' d bin), ?_, fun j hj => ?_, fun x hx => ?_, rfl, rfl⟩
    · exact (congrArg (Mem.read · bin.toNat) hbins).trans (Mem_read_write_same _ _ _ hwf)
    · exact (congrArg (Mem.read · j) hbins).trans (Mem_read_write_ne _ _ hj.symm)
    · exact vget_vupd_ne _ _ fun h => hx (Fin.ext h.symm)

end Sys2Proof.Proofs
end
